-- ==== Sys2Proof/Word.lean ====
section
/-! DEFINITION. The word types of the machine and their plainest arithmetic (R2, R4, R6, R7). -/
namespace Sys2Proof

/-- A byte (R4). -/
abbrev Byte := BitVec 8
/-- A code parcel (R26) or metadata word (R46). -/
abbrev Parcel := BitVec 24
/-- A 32-bit lane (R39). -/
abbrev W32 := BitVec 32
/-- A 64-bit scalar (R39). -/
abbrev W64 := BitVec 64
/-- A mask register, one bit a lane (R163). -/
abbrev Mask := BitVec 256
/-- A vector-width value: 256 lanes of 32 bits (R39). -/
abbrev Vec := Vector W32 256

/-- The vector whose lane `i` is `f i`. -/
def Vec.tab (f : Fin 256 → W32) : Vec := Vector.ofFn f
/-- Every lane the same pattern. -/
def Vec.splat (x : W32) : Vec := Vector.replicate 256 x
/-- The vector of zeros. -/
def Vec.zero : Vec := Vec.splat 0
/-- Lane `i` of a vector, `i` taken modulo 256. -/
def Vec.lane (v : Vec) (i : Nat) : W32 := v[i % 256]'(Nat.mod_lt _ (by decide))

/-- One of the 256 compute cores of a package, by package-wide number (R18). -/
abbrev CoreId := Fin 256
/-- One of the eight dies of a package, by die index (R12). -/
abbrev DieId := Fin 8

/-- The die a core lies on (R18). -/
def CoreId.die (c : CoreId) : DieId := ⟨c.val / 32, by have := c.isLt; omega⟩
/-- The core number within its die (R18). -/
def CoreId.num (c : CoreId) : Nat := c.val % 32
/-- The core of a die by number, taken modulo 32. -/
def CoreId.mk' (d : DieId) (n : Nat) : CoreId := ⟨d.val * 32 + n % 32, by have := d.isLt; have := Nat.mod_lt n (show 32 > 0 by decide); omega⟩

/-- The bit `b` as a word of width `n`. -/
def boolWord (n : Nat) (b : Bool) : BitVec n := BitVec.ofNat n b.toNat

end Sys2Proof
end

