-- ==== Sys2Proof/Config.lean ====
section
/-! DEFINITION. What an implementation of the machine fixes and the spec leaves open: constants with no body, so that
nothing can be proved of their values. Every use is named in the assumption log. -/
namespace Sys2Proof.Config

/-- A value the spec does not state, the `n`-th the machine draws (DESIGN CHOICE log 11). FREE VALUE. -/
opaque freeValue : Nat → BitVec 64
/-- FRSQ, FEXP2 and FLOG2: whether the upper of the two enclosing fp32 values is given, by operation (0, 1, 2) and
input pattern: "a fixed function of the input" (R221, DESIGN CHOICE log 12). FREE VALUE. -/
opaque enclosesAbove : Nat → W32 → Bool
/-- The HBM bank of a row of a die, and the spare rows of a bank of a die: the spec states neither (R86, R87, DESIGN CHOICE log 34). FREE VALUE. -/
opaque bankOf : Nat → Nat → Nat
/-- See `bankOf`. FREE VALUE. -/
opaque spareRows : Nat → Nat → Nat
/-- The serial number IDENT reports (R337, DESIGN CHOICE log 14). FREE VALUE. -/
opaque serial : W64
/-- The stepping and the ROM firmware version IDENT reports (Table 15.6, DESIGN CHOICE log 14). FREE VALUE. -/
opaque stepping : BitVec 16
/-- See `stepping`. FREE VALUE. -/
opaque romVersion : W32
/-- How far IDENT's least admissible LATMAX of a tier lies above 4,096 (Table 15.6, DESIGN CHOICE log 14). FREE VALUE. -/
opaque leastOver : Nat → BitVec 20
/-- IDENT's least admissible LATMAX of tier `t`: a value that LATMAX can take (R314, DESIGN CHOICE log 14). -/
def leastLatmax (t : Nat) : W32 := BitVec.ofNat 32 (min (4096 + (leastOver t).toNat) 1048576)
/-- The length of an SPDM response whose layout the spec does not give, by its kind and the items in it (R345, DESIGN CHOICE log 14). FREE VALUE. -/
opaque recordLen : Nat → Nat → Nat
/-- The bytes of a flash record, whose layout the spec does not give, by its kind (0 retirement table, 1 bring-up number, 2 damper steps), its sequence number and what it
holds (R88, R291, R336, DESIGN CHOICE log 14). FREE VALUE. -/
opaque recordBytes : Nat → Nat → List Nat → List Byte
/-- An RSA key pair of 3,072 bits (R344): modulus, public and private exponent; each exponent undoes the other. -/
abbrev RsaPair (k : Nat × Nat × Nat) : Prop :=
  2 ^ 3071 ≤ k.1 ∧ k.1 < 2 ^ 3072 ∧ k.2.1 < 2 ^ 3072 ∧ k.2.2 < 2 ^ 3072
  ∧ ∀ m, m < k.1 → (m ^ k.2.2 % k.1) ^ k.2.1 % k.1 = m ∧ (m ^ k.2.1 % k.1) ^ k.2.2 % k.1 = m
/-- The numbers fused for the key pairs of R344, by key (0 parameter, 1 record, 2 identity) (DESIGN CHOICE log 14). FREE VALUE. -/
opaque fusedKey : Nat → Nat × Nat × Nat
/-- The key pair of a number (R344): what is fused is a pair; nothing else is known of it (DESIGN CHOICE log 14). -/
def keyPair (n : Nat) : Nat × Nat × Nat := if RsaPair (fusedKey n) then fusedKey n else (2 ^ 3071, 1, 1)
/-- The parameter key's public half: modulus and exponent (R344, DESIGN CHOICE log 14). -/
def paramKey : Nat × Nat := ((keyPair 0).1, (keyPair 0).2.1)
/-- The record key: modulus, public and private exponent (R344, DESIGN CHOICE log 14). -/
def recordKey : Nat × Nat × Nat := keyPair 1
/-- The identity key's private half: modulus and exponent (R344, DESIGN CHOICE log 14). -/
def identityKey : Nat × Nat := ((keyPair 2).1, (keyPair 2).2.2)
/-- The salt of a signature, by the hash of what is signed (R344, DESIGN CHOICE log 14). FREE VALUE. -/
opaque pssSalt : Nat → BitVec 256
/-- The ROM firmware (R345), the parameter block and its signature as they stand in flash (R343, R344, DESIGN CHOICE log 14). FREE VALUE. -/
opaque romImage : List Byte
/-- See `romImage`. FREE VALUE. -/
opaque paramBlock : List Byte
/-- See `romImage`. FREE VALUE. -/
opaque paramSig : List Byte
/-- The package power in watts, the hottest temperature (0.125 degrees) as sampled at reading `n` (R347, DESIGN CHOICE log 14).
FREE VALUE. -/
opaque sensor : Nat → W32

/-- The lowest element (i, j) in which the two passes of a checked tile differ, by the count of values drawn; none where no fault of the
array showed ("only a fault gives a mismatch", R250; DESIGN CHOICE log 29). FREE VALUE. -/
opaque passDiffers : Nat → Option (BitVec 8 × BitVec 7)

end Sys2Proof.Config
end

