-- ==== Sys2Proof/Machine/Crypto.lean ====
section
/-! DEFINITION. SHA-256 and RSASSA-PSS with RSA-3072, MGF1 and a 32-byte salt, which sign the flash records and the attestation responses (R88, R344,
R345), by their public standards FIPS 180-4 and RFC 8017 (PRESUMED log 72). -/
namespace Sys2Proof.Machine

/-! ## SHA-256 -/

/-- The first primes below 312, of which there are 64. -/
def shaPrimes : List Nat := (List.range 312).filter fun n => 2 ≤ n && (List.range n).all fun d => d < 2 || n % d ≠ 0
/-- The largest `r` below `2 ^ bits` with `r ^ k ≤ x`. -/
def rootBelow (k x bits : Nat) : Nat := (List.range bits).foldl (fun r i => if (r + 2 ^ (bits - 1 - i)) ^ k ≤ x then r + 2 ^ (bits - 1 - i) else r) 0
/-- The first 32 bits of the fraction of the `k`-th root of a prime. -/
def shaConst (k p : Nat) : W32 := BitVec.ofNat 32 (rootBelow k (p * 2 ^ (32 * k)) 40)
/-- A word rotated right by each of some amounts, combined by exclusive or. -/
def rotations (x : W32) (l : List Nat) : W32 := (l.map x.rotateRight).foldl (· ^^^ ·) 0
/-- The 64 words of a block's schedule from its 16. -/
def shaSchedule (w : Array W32) : Array W32 :=
  (List.range 48).foldl (fun w t =>
    let at' (back : Nat) : W32 := w.getD (t + 16 - back) 0
    w.push ((rotations (at' 2) [17, 19] ^^^ at' 2 >>> 10) + at' 7 + (rotations (at' 15) [7, 18] ^^^ at' 15 >>> 3) + at' 16)) w
/-- One round on the eight working words: `k` its constant plus its schedule word. -/
def shaRound (v : Vector W32 8) (k : W32) : Vector W32 8 :=
  let t := v[7] + rotations v[4] [6, 11, 25] + ((v[4] &&& v[5]) ||| (~~~v[4] &&& v[6])) + k
  let u := rotations v[0] [2, 13, 22] + ((v[0] &&& v[1]) ||| (v[2] &&& (v[0] ||| v[1])))
  #v[t + u, v[0], v[1], v[2], v[3] + t, v[4], v[5], v[6]]
/-- A number in `n` bytes, highest first. -/
def bytesBig : Nat → Nat → List Byte
  | 0, _ => []
  | n + 1, x => bytesBig n (x / 256) ++ [BitVec.ofNat 8 x]
/-- Bytes, highest first, as a number. -/
def natBig (l : List Byte) : Nat := l.foldl (fun n b => 256 * n + b.toNat) 0
/-- The hash after one block of 64 bytes; `ks` the round constants. -/
def shaBlock (ks : List W32) (h : Vector W32 8) (block : List Byte) : Vector W32 8 :=
  let w := shaSchedule ((List.range 16).map fun i => BitVec.ofNat 32 (natBig ((block.drop (4 * i)).take 4))).toArray
  let v := (ks.zip w.toList).foldl (fun v x => shaRound v (x.1 + x.2)) h
  h.zipWith (· + ·) v
/-- SHA-256 of bytes. -/
def sha256 (m : List Byte) : List Byte :=
  let pad := m ++ 0x80 :: List.replicate ((119 - m.length % 64) % 64) 0 ++ bytesBig 8 (8 * m.length)
  let ks := shaPrimes.map (shaConst 3)
  let h0 : Vector W32 8 := Vector.ofFn fun i => shaConst 2 (shaPrimes.getD i.val 2)
  let h := (List.range (pad.length / 64)).foldl (fun h i => shaBlock ks h ((pad.drop (64 * i)).take 64)) h0
  h.toList.flatMap fun x => bytesBig 4 x.toNat

/-! ## RSASSA-PSS (R344) -/

/-- `b ^ e` modulo `n`, for an exponent of at most 3,072 bits. -/
def powMod (b e n : Nat) : Nat := (List.range 3072).foldl (fun a i => a * a % n * (if e.testBit (3071 - i) then b else 1) % n) 1
/-- MGF1: 351 bytes from a seed of 32. -/
def maskBytes (seed : List Byte) : List Byte := ((List.range 11).flatMap fun i => sha256 (seed ++ bytesBig 4 i)).take 351
/-- The hash that a salt and a message's hash give. -/
def saltedHash (mHash salt : List Byte) : List Byte := sha256 (List.replicate 8 0 ++ mHash ++ salt)
/-- The data block under or over its mask, its top bit clear. -/
def masked351 (db h : List Byte) : List Byte :=
  match db.zipWith (· ^^^ ·) (maskBytes h) with
  | b :: r => (b &&& 0x7F) :: r
  | [] => []
/-- The signature of a message by a private key (modulus, exponent). -/
def pssSign (key : Nat × Nat) (m : List Byte) : List Byte :=
  let mHash := sha256 m
  let salt := bytesBig 32 (Config.pssSalt (natBig mHash)).toNat
  let h := saltedHash mHash salt
  let em := masked351 (List.replicate 318 0 ++ 1 :: salt) h ++ h ++ [0xBC]
  bytesBig 384 (powMod (natBig em) key.2 key.1)
/-- Whether a signature of a message verifies under a public key (modulus, exponent). -/
def pssVerify (key : Nat × Nat) (m sig : List Byte) : Bool :=
  let em := bytesBig 384 (powMod (natBig sig) key.2 key.1)
  let h := (em.drop 351).take 32
  let db := masked351 (em.take 351) h
  sig.length = 384 && natBig sig < key.1 && em.getLast? == some 0xBC && (em.headD 0).toNat < 128
  && db.take 319 == List.replicate 318 0 ++ [1] && saltedHash (sha256 m) (db.drop 319) == h

/-! ## The signed records of the flash (R88, R291, R336, R344) -/

/-- The signature that the device makes of a flash record of a kind (0 retirement table, 1 bring-up number, 2 damper steps) and a sequence number. -/
def signRecord (kind seq : Nat) (items : List Nat) : List Byte := pssSign (Config.recordKey.1, Config.recordKey.2.2) (Config.recordBytes kind seq items)
/-- Whether such a signature verifies with the record key's public half. -/
def recordVerifies (kind seq : Nat) (items : List Nat) (sig : List Byte) : Bool := pssVerify (Config.recordKey.1, Config.recordKey.2.1) (Config.recordBytes kind seq items) sig
/-- R343: whether the parameter block in flash verifies with the parameter key. -/
def paramVerifies : Bool := pssVerify Config.paramKey Config.paramBlock Config.paramSig

end Sys2Proof.Machine
end

