-- ==== Sys2Proof/Syntax.lean ====
section
/-! DEFINITION. The abstract syntax: one constructor for each row of spec/opcode_table.json, and the small types
its operands use. -/
namespace Sys2Proof

/-- A slot that holds a move (Table 2.1); slot L holds raw data. -/
inductive Slot | c | s | va | vb | m | ka | kb
deriving DecidableEq, Repr
/-- A slot group (Table 2.1). -/
inductive Group | control | vector | matrix | copy
deriving DecidableEq, Repr
/-- A unit with a result queue, in the numbering of Table 2.1. -/
inductive Unit7 | s | va | vb | m | ka | kb | c
deriving DecidableEq, Repr
/-- A vector unit (R207). -/
inductive VUnit | va | vb
deriving DecidableEq, Repr
/-- A copy slot (chapter 5). -/
inductive KUnit | ka | kb
deriving DecidableEq, Repr
/-- The kind of an access, as a permission check sees it (R71, R73). -/
inductive Access | read | write | fetch
deriving DecidableEq, Repr

/-- A persistent type-3 device as bring-up finds it (R281). -/
structure Device where
  /-- the bytes it offers -/
  bytes : Nat
  /-- it keeps every completed write through power loss and GPF -/
  keeps : Bool
  /-- it writes each aligned 64-byte range indivisibly -/
  whole : Bool
deriving DecidableEq, Repr
/-- What bring-up meets outside the model's state (R343): whether the signed parameter block and each copy of the flash records
verify, the control-core mode it selects, the enumerated tiers, and each row that fails a test. A copy whose update was cut off by power loss does not
verify (R88, R291). -/
structure BringUpInputs where
  /-- the parameter block verifies (R343 step 2) -/
  paramOk : Bool
  /-- control cores run unprotected (R19) -/
  unprotected : Bool
  /-- backed bytes of tier 2 (R61) -/
  tier2 : Nat
  /-- the persistent devices enumerated (R281) -/
  devices : List Device
  /-- each retirement copy verifies (R88) -/
  retire0Ok : Bool
  /-- see `retire0Ok` -/
  retire1Ok : Bool
  /-- each copy of the damper records verifies (R336) -/
  damper0Ok : Bool
  /-- see `damper0Ok` -/
  damper1Ok : Bool
  /-- each copy of the bring-up number verifies (R291) -/
  boot0Ok : Bool
  /-- see `boot0Ok` -/
  boot1Ok : Bool
  /-- rows that fail when firmware tests every row (R88 item 3): die and row -/
  badRows : List (Nat × Nat)
deriving DecidableEq, Repr

/-- The steps of the machine: each row of spec/opcode_table.json, in the table's order. A row with an encoding is a
move parcel: `g` the guard, `e` the empty-read mode, `f` the FROM selector, and the row's variant field. A row
without an encoding is a step of the machine or of its surroundings; its operands say which one. -/
inductive Instr
  /-- BUNDLE_DECODE (R48). The sequencer fetches and decodes a whole bundle at dispatch, splitting it into the four group queues or dispatching a trap marker in its place. -/
  | bundleDecode
  /-- MOVE (R42). A move carries a source value into a register or latch (X, Y, D) when its group issues the bundle, marking s, v or o registers full. -/
  | move (slot : Slot) (g : BitVec 4) (d : BitVec 9) (e : Bool) (f : BitVec 10)
  /-- RESULT_LANDING (R168). A short result lands at the start of bundle b+n+L of its group's stream, shifting the unit's result queue and writing any D predicate or mask. -/
  | resultLanding (u : Unit7)
  /-- LONG_COMPLETION (R165). A long operation completes, writes its result through the captured D selector, marks the register full and enters its flags. -/
  | longCompletion (n : Nat)
  /-- TRAP_ENTRY (R319). When every group has reached the trap point, the core stops, completes long operations, snapshots the late-write buffer, writes the level's bank and starts the handler. -/
  | trapEntry
  /-- CONTAINMENT_UNWIND (R329). A consumption inside a containment region stops every group, waits for issued accesses, cancels region engine commands and starts the region handler. -/
  | containmentUnwind
  /-- PAGE_WALK (R72). A translation miss is walked by one of the die's 384 walkers, waiting in order for a free walker, and fills the translation caches. -/
  | pageWalk (va : W64)
  /-- TRANSLATION_FAULT (R73). A failed walk or permission check is offered to firmware, which installs a registered backing and replays or raises the cause to the task. -/
  | translationFault (va : W64) (acc : Access)
  /-- COLLAPSE_FAULT (R81). The first write to a replicated page with W = 1 stalls while firmware clears RP, appends a kind-2 entry, forces log application, replays the write and frees copies. -/
  | collapseFault (va : W64)
  /-- HOME_ACCESS (R93). A load, store or atomic reaches the home of its location, where it is performed and given its timestamp and lease. -/
  | homeAccess (n : Nat)
  /-- ATOMIC_AT_HOME (R106). An atomic, possibly merged, is performed at its home as one read and write with one timestamp, parts ordered by requester index. -/
  | atomicAtHome (parts : List (CoreId × Nat))
  /-- FLUE_WAIT_EXPIRY (R146). A router that has held a mergeable atomic for FLUEW cycles forwards it, merged with any partners found. -/
  | flueWaitExpiry (n : Nat)
  /-- LOGICAL_TIME_ADVANCE (R91). A path's logical time advances by at least 1 every LEASEMAX cycles while the path exists. -/
  | logicalTimeAdvance (k : BitVec 2)
  /-- PACKET_HOP (R143). A packet arriving at a router is checked against the routing tables and forwarded in dimension order on its virtual channel. -/
  | packetHop (n : Nat)
  /-- FLIT_CRC_FAILURE (R140). A flit failing its CRC is sent again from the sender's replay buffer. -/
  | flitCrcFailure (d : DieId) (port : Nat)
  /-- LINK_DOWN (R140). A link that cannot deliver a flit within 1 ms is taken down by firmware, which records a RAS event and reroutes. -/
  | linkDown (d : DieId) (port : Nat)
  /-- LINE_WRITEBACK (R279). The die cache writes a dirty line back to main memory on eviction, PBAR, DUR release or dusk. -/
  | lineWriteback (line : Nat)
  /-- PERSIST_TRACKER_WRITEBACK (R283). While the tracker holds more than 128 lines the core writes back tracked lines in the background, oldest first. -/
  | persistTrackerWriteback
  /-- DURABLE_COMPLETION (R281). A CXL type-3 device completes a granule write, making it durable and removing it from waiting trackers. -/
  | durableCompletion (n : Nat)
  /-- MIGRATION_COPY_PASS (R78). The copy engine copies a migrating page's lines and re-copies marked lines, up to four passes or until 64 or fewer remain. -/
  | migrationCopyPass (n : Nat)
  /-- MIGRATION_SWITCH (R78). Writes are held while the remaining lines are copied, the new leaf written and kind-1 entries appended, then held writes are released. -/
  | migrationSwitch (n : Nat)
  /-- MIGRATION_REDIRECT_END (R78). Once every core has applied the kind-1 entry, the filter entry and old frame are released and a queued migration may start. -/
  | migrationRedirectEnd (n : Nat)
  /-- HBM_READ_ERROR (R86). The HBM controller classifies a read error as correctable or uncorrectable and counts it for retirement. -/
  | hbmReadError (pa : Nat) (uncorrectable : Bool)
  /-- PATROL_SCRUB (R334). Each die's HBM is scrubbed every 24 hours. -/
  | patrolScrub (d : DieId) (errs : List (Nat × Bool))
  /-- BANK_IDLE_EXPIRY (R112). After BKIDLE cycles without access a scratchpad bank starts entering banked mode. -/
  | bankIdleExpiry (b : Nat)
  /-- BANK_ENTRY_COMPLETE (R112). Re-encoding completes and the bank enters RETAIN. -/
  | bankEntryComplete (b : Nat)
  /-- BANK_EXIT_COMPLETE (R112). Exit re-encoding completes and the bank returns to ACTIVE, releasing held accesses. -/
  | bankExitComplete (b : Nat)
  /-- SYNC_ARRIVAL (R123). An arrival of weight w is applied indivisibly at the sync word's home core. -/
  | syncArrival (c : CoreId) (off : Nat) (w : W32)
  /-- ENGINE_WRITE_PERFORMED (R131). An engine's destination writes are performed and counted on its completion and receive sync words in chunks. -/
  | engineWritePerformed (k : KUnit) (n : Nat)
  /-- ENGINE_COMPLETION (R131). An engine command ends, writes STATUS and makes its final arrival, with REL or DUR waits first. -/
  | engineCompletion (k : KUnit) (n : Nat)
  /-- COLLECTIVE_CALL (R155). A governing command's call reaches a participant and is paired with its oldest accepted command of that RTAG or held. -/
  | collectiveCall (n : Nat) (rank : Nat)
  /-- REDUCTION_COMBINE (R150). A router holding its own contribution and all partials combines them in fixed port order and sends the result toward the root. -/
  | reductionCombine (n : Nat) (rank : Nat)
  /-- XRESH_PHASE (R160). A phase of the all-to-all schedule starts when every die has finished the previous one. -/
  | xreshPhase (n : Nat)
  /-- XRESH_SWITCH (R160). When every write of every die is performed, the three shard registers switch together on every die. -/
  | xreshSwitch (n : Nat)
  /-- MOPLD_COMPLETE (R233). An operand-slot load completes and the slot becomes READY if LAST was set and no load is pending. -/
  | mopldComplete (slot : BitVec 5)
  /-- CHANNEL_DELIVERY (R135). A channel message arrives at the receiving core and enters the channel in arrival order. -/
  | channelDelivery (n : Nat)
  /-- ASHPIT_REFILL (R139). The spill engine refills a channel from its ashpit ring as entries free, returning quota. -/
  | ashpitRefill (ch : BitVec 3)
  /-- GROW_CHECK (R138). Every 1,024 cycles the die grows the least full channel of a fully blocked context or kills it when the pool is empty. -/
  | growCheck (d : DieId)
  /-- KV_RESERVATION (R262). At the sequence record's home, a KV.APP reserves positions by advancing LEN in one atomic step. -/
  | kvReservation (k : KUnit) (n : Nat)
  /-- TILE_EXECUTION (R237). The sequencer runs a queued tile beat by beat into its bank, updating bounds and the replay record. -/
  | tileExecution
  /-- MZERO_EXECUTION (R239). The queued MZERO zeroes a bank, its bounds and replay record, making it FREE. -/
  | mzeroExecution
  /-- MBANK_EXECUTION (R239). The queued MBANK sets MCFG.BANK. -/
  | mbankExecution
  /-- DRAIN_EXECUTION (R247). A queued drain checks the threshold and writes the bank's rows through the drain map, writing the bound entry. -/
  | drainExecution
  /-- GROUP_FORMATION (R253). The leader's first queued operation after an MGRP write waits for member queues to empty and forms or dissolves the group. -/
  | groupFormation
  /-- TICK_RELEASE (R271). A die's clock copy reaches the tick of step n and releases it, waking TICKW waiters and tick requests. -/
  | tickRelease (ch : BitVec 2)
  /-- STEP_DEADLINE (R275). The deadline tick(n)+GRACE passes and a waiting j = 0 ING.POP completes with a null token. -/
  | stepDeadline (q : BitVec 4)
  /-- INGEST_DESCRIPTOR (R274). The ingest engine takes the head descriptor, drops it, holds it, or writes it to the stamp window. -/
  | ingestDescriptor (q : BitVec 4)
  /-- PPS_EDGE (R346). A 1PPS rising edge preceded by a valid frame steps or slews the clock. -/
  | ppsEdge
  /-- TOD_FRAME (R346). A 12-byte time-of-day frame is received on the time port. -/
  | todFrame (frame : BitVec 96)
  /-- TIME_HOLDOVER (R346). With no edge for 2 s the clock holds over and records a RAS event. -/
  | timeHoldover
  /-- CARD_DISPATCH (R277). Firmware dispatches the next card to a crew core that becomes free. -/
  | cardDispatch (job : Nat) (c : CoreId)
  /-- CARD_DEADLINE_EXPIRY (R278). A card's watchdog expires, the core is reset, its unperformed writes dropped and the card replayed or the context killed. -/
  | cardDeadlineExpiry
  /-- CORE_REJOIN (R278). A core reset by a card watchdog rejoins the crew 16,384 cycles later. -/
  | coreRejoin
  /-- SPAN_PLACEMENT (R298). When the box and clusters are free on every die, the span's crews are placed together. -/
  | spanPlacement (job : Nat) (ox oy oz : Nat) (cluster : Nat)
  /-- PREEMPTION (R312). A request pre-empts a crew: issue stops, requests drain and the state is saved. -/
  | preemption
  /-- STATE_SAVE_COMPLETE (R312). A crew's save completes and it becomes SAVED. -/
  | stateSaveComplete
  /-- STATE_LOAD_COMPLETE (R311). A crew's state load completes and it becomes RUNNING. -/
  | stateLoadComplete (job : Nat) (rank : Nat) (cluster : Nat)
  /-- QUANTUM_EXPIRY (R313). A bulk job's deficit is spent and it is pre-empted if another bulk job waits. -/
  | quantumExpiry (job : Nat)
  /-- RECORD_TAKE (R303). An idle core takes a task record from its own or a peer deque and starts a task. -/
  | recordTake
  /-- JOB_COMPLETION (R315). When a job is finished and all its writes performed, firmware writes DONEVAL after a SYS release and starts the stream's next job. -/
  | jobCompletion (job : Nat)
  /-- SINK_WATCHDOG_EXPIRY (R333). The context's watchdog reaches its interval without a sink event and the context is killed with reason 3. -/
  | sinkWatchdogExpiry (ctx : BitVec 16)
  /-- KILL_DRAIN_ACK (R331). A die acknowledges that no packet of the old kill generation remains. -/
  | killDrainAck (ctx : BitVec 16) (d : DieId)
  /-- KILL_RELEASE (R331). After every die acknowledges, firmware writes the kill report and completion words and frees the context's resources. -/
  | killRelease (ctx : BitVec 16)
  /-- LOCKSTEP_MISMATCH (R335). A commit mismatch halts a control-core pair and the other pair restarts its journalled operations. -/
  | lockstepMismatch (d : DieId) (pair : Fin 2)
  /-- LOCKSTEP_SELFTEST_DONE (R335). The halted pair's self-test ends and it rejoins or stays out. -/
  | lockstepSelftestDone (d : DieId) (pair : Fin 2) (pass : Bool)
  /-- DAMPER_MEASURE (R336). Every 60 s firmware measures each cluster's drift and lowers its clock step or takes it out of service. -/
  | damperMeasure (cluster : Fin 64) (driftPpm : Nat)
  /-- POWER_LIMIT_THROTTLE (R349). When a power limit would be passed, firmware lowers every cluster's clock by 25 MHz steps. -/
  | powerLimitThrottle
  /-- POWER_LIMIT_RESTORE (R349). After power stays 5 % below the limit for 10 ms the clock is raised again. -/
  | powerLimitRestore
  /-- RAIL_OUT_OF_RANGE (R348). A rail out of range asserts the board's PWRFAIL. -/
  | railOutOfRange
  /-- GPF (R286). The host starts GPF on a CXL port and dusk begins. -/
  | gpf (port : Fin 2)
  /-- PWRFAIL (R286). The board asserts PWRFAIL and dusk begins: issue stops, late writes are refused and dirty tier-3 lines are written back. -/
  | pwrfail
  /-- DUSK_RECORD (R287). After write-back on every die, die 0 writes the dusk record and completes the GPF phases. -/
  | duskRecord
  /-- BRING_UP (R343). Power-on runs self-test, parameter verification, training, table loads, link training and dawn. -/
  | bringUp (b : BringUpInputs)
  /-- DIE_ROUTES_DRAINED (R161). Affected routes are empty, sources resume on detours and the die's router drains before the die resets. -/
  | dieRoutesDrained (d : DieId)
  /-- DIE_REJOIN (R162). A reset die rejoins with raised wts and rts and the original routes are restored. -/
  | dieRejoin (d : DieId)
  /-- HOST_HDM_STORE (R105). A host store to HDM is performed at the home after back-invalidation, with timestamp from lt 0. -/
  | hostHdmStore (pa : Nat) (data : List Byte)
  /-- HOST_HDM_LOAD (R105). A host load of device memory returns the value at the home. -/
  | hostHdmLoad (pa : Nat) (n : Nat)
  /-- QUEUE_TAIL_WRITE (R338). The host writes a queue's tail line and the back-invalidation wakes the control core to read entries. -/
  | queueTailWrite (q : BitVec 2) (tail : W64)
  /-- QUEUE_ENABLE (R338). Setting EN enables a queue and a control core takes a CXL.cache lease on its tail line. -/
  | queueEnable (q : BitVec 2) (en : Bool)
  /-- QUEUE_REGISTER_WRITE (R338). A BAR0 write to QBASE, QTAIL or QLOG is stored while the queue is disabled and discarded otherwise. -/
  | queueRegisterWrite (q : BitVec 2) (off : BitVec 6) (x : W64)
  /-- IDENT (R341). Writes the identification record. -/
  | ident (n : Nat)
  /-- ATTEST (R341). Writes the signed measurement report. -/
  | attest (n : Nat)
  /-- CONFIG (R342). Applies a configuration record, refused while any context exists. -/
  | configure (n : Nat)
  /-- CONTEXT_CREATE (R341). Creates a context with its page-table root, channel mode, kill-report address and service pool. -/
  | contextCreate (n : Nat)
  /-- CONTEXT_KILL (R331). Kills a context with reason 7, advancing its kill generation and stopping its cores. -/
  | contextKill (n : Nat)
  /-- MAP (R341). Writes leaf entries or registers a lazy backing mapping. -/
  | mapPages (n : Nat)
  /-- UNMAP (R341). Clears leaves of covered pages and appends kind-0 log entries. -/
  | unmap (n : Nat)
  /-- PROTECT (R341). Changes permissions of covered pages and appends log entries. -/
  | protect (n : Nat)
  /-- MIGRATE (R77). Starts or queues a page migration, completing at the end of phase 3. -/
  | migrate (n : Nat)
  /-- REPLICATE (R80). Copies a tier-0 page to every die and sets RP. -/
  | replicate (n : Nat)
  /-- HEAT_READ (R76). Returns and clears a page's heat counters. -/
  | heatRead (n : Nat)
  /-- LAUNCH_COMMAND (R341). The host queues a job from a launch record. -/
  | launchCommand (n : Nat)
  /-- STREAM_CREATE (R341). Creates a stream and returns its identifier. -/
  | streamCreate (n : Nat)
  /-- STREAM_DESTROY (R341). Destroys a stream that holds no job. -/
  | streamDestroy (n : Nat)
  /-- SETTIME_STEP (R270). SETTIME mode 0 steps the clock to a given time. -/
  | settimeStep (n : Nat)
  /-- SETTIME_ADD (R270). SETTIME mode 1 adds a signed nanosecond offset. -/
  | settimeAdd (n : Nat)
  /-- SETTIME_SOURCE (R346). SETTIME mode 2 selects the host or time port as clock source. -/
  | settimeSource (n : Nat)
  /-- TICK_CFG (R271). Configures a tick channel's period, phase, grace and enable. -/
  | tickCfg (n : Nat)
  /-- INGEST_CFG (R273). Configures an ingest queue's ring, channel, window and die. -/
  | ingestCfg (n : Nat)
  /-- KVPOOL_CFG (R260). Configures a key-value pool. -/
  | kvpoolCfg (n : Nat)
  /-- PFX_CFG (R264). Sets a context's model seed and prefix-table quota. -/
  | pfxCfg (n : Nat)
  /-- DIE_RESET (R161). Kills contexts on a die, computes detours and stops injection on affected routes before resetting the die. -/
  | dieReset (n : Nat)
  /-- DIE_ISOLATE (R161). As DIE_RESET, but the die stays out until the next bring-up. -/
  | dieIsolate (n : Nat)
  /-- RAS_QUERY (R341). Writes and clears RAS event records. -/
  | rasQuery (n : Nat)
  /-- RETIRE_QUERY (R341). Writes the verified retirement table. -/
  | retireQuery (n : Nat)
  /-- DURABLE_FLUSH (R341). Writes back every dirty tier-3 line of every die. -/
  | durableFlush (n : Nat)
  /-- SHUTDOWN (R341). Kills every context and runs dusk. -/
  | shutdown (n : Nat)
  /-- DAWN_REPORT (R341). Writes the dawn report. -/
  | dawnReport (n : Nat)
  /-- GET_VERSION (R345). SPDM request for the supported version. -/
  | getVersion
  /-- GET_CAPABILITIES (R345). SPDM request for capabilities. -/
  | getCapabilities
  /-- NEGOTIATE_ALGORITHMS (R345). SPDM algorithm negotiation. -/
  | negotiateAlgorithms
  /-- GET_DIGESTS (R345). SPDM request for certificate digests. -/
  | getDigests
  /-- GET_CERTIFICATE (R345). SPDM request for the identity certificate chain. -/
  | getCertificate
  /-- CHALLENGE (R345). SPDM challenge signed with the identity key. -/
  | challenge (nonce : BitVec 256)
  /-- GET_MEASUREMENTS (R345). SPDM request for the signed measurements. -/
  | getMeasurements (index : Nat) (nonce : BitVec 256)
  /-- SPDM_SESSION_MESSAGE (R345). An SPDM session message is answered with ERROR UnsupportedRequest. -/
  | spdmSessionMessage
  /-- MAPREQ (R326). Firmware maps zeroed frames from the service pool and writes the status. -/
  | mapreq
  /-- UNMAPREQ (R326). Firmware unmaps pages that MAPREQ mapped and returns their frames. -/
  | unmapreq
  /-- PROTREQ (R326). Firmware changes permissions of pages that MAPREQ mapped. -/
  | protreq
  /-- NOTIFY (R326). Firmware posts a notification to the host event queue. -/
  | notify
  /-- RASCOUNT (R326). Firmware returns the context's count of corrected soft errors. -/
  | rascount
  /-- BR (R295). Branches by a parcel displacement after two delay bundles. -/
  | br (g : BitVec 4) (e : Bool) (f : BitVec 10)
  /-- BRI (R295). Branches to an absolute parcel address after two delay bundles. -/
  | bri (g : BitVec 4) (e : Bool) (f : BitVec 10)
  /-- CALL (R295). Branches by displacement and writes the link to s63. -/
  | call (g : BitVec 4) (e : Bool) (f : BitVec 10)
  /-- CALLI (R295). Branches to an absolute address and writes the link to s63. -/
  | calli (g : BitVec 4) (e : Bool) (f : BitVec 10)
  /-- RET (R295). Branches to s63. -/
  | ret (g : BitVec 4) (e : Bool) (f : BitVec 10)
  /-- LOOP (R296). Sets lc_n and LS_n for a counted loop. -/
  | loop (g : BitVec 4) (n : BitVec 1) (e : Bool) (f : BitVec 10)
  /-- ENDL (R296). Decrements lc_n and branches to LS_n while it exceeds 1. -/
  | endl (g : BitVec 4) (n : BitVec 1) (e : Bool) (f : BitVec 10)
  /-- SETF (R190). Writes a format register with a four-bundle shadow. -/
  | setf (g : BitVec 4) (n : BitVec 3) (e : Bool) (f : BitVec 10)
  /-- SETRM (R297). Writes RMODE with a four-bundle shadow. -/
  | setrm (g : BitVec 4) (e : Bool) (f : BitVec 10)
  /-- FENCE_ACQ (R99). Waits for earlier loads and atomics, merges class lt and performs the scope's acquire action. -/
  | fenceAcq (g : BitVec 4) (sc : BitVec 2) (e : Bool) (f : BitVec 10)
  /-- FENCE_REL (R99). Waits for every earlier access to the scope and merges class lt. -/
  | fenceRel (g : BitVec 4) (sc : BitVec 2) (e : Bool) (f : BitVec 10)
  /-- FENCE_AR (R99). Combines release and acquire and also waits for earlier stores to the scope. -/
  | fenceAr (g : BitVec 4) (sc : BitVec 2) (e : Bool) (f : BitVec 10)
  /-- XFENCE (R101). Orders later engine commands after the task's earlier accesses. -/
  | xfence (g : BitVec 4) (e : Bool) (f : BitVec 10)
  /-- PBAR (R284). Makes the task's earlier tier-3 writes durable. -/
  | pbar (g : BitVec 4) (e : Bool) (f : BitVec 10)
  /-- BARA (R300). Release arrival on a sync word. -/
  | bara (g : BitVec 4) (e : Bool) (f : BitVec 10)
  /-- BARA_RLX (R300). Relaxed arrival on a sync word. -/
  | baraRlx (g : BitVec 4) (e : Bool) (f : BitVec 10)
  /-- BARW (R300). Holds all groups until GEN differs from g, then acquires. -/
  | barw (g : BitVec 4) (e : Bool) (f : BitVec 10)
  /-- BART (R300). Tests whether GEN differs from g into a predicate. -/
  | bart (g : BitVec 4) (e : Bool) (f : BitVec 10)
  /-- FORK (R302). Pushes a task record onto the core's deque. -/
  | fork (g : BitVec 4) (e : Bool) (f : BitVec 10)
  /-- JOIN (R304). Waits until a join word's COUNT equals TARGET, then acquires. -/
  | join (g : BitVec 4) (e : Bool) (f : BitVec 10)
  /-- YIELD (R307). Offers the task's cores to waiting bulk jobs. -/
  | yield (g : BitVec 4) (e : Bool) (f : BitVec 10)
  /-- END (R306). Ends the task, arrives on its join word and makes the core idle. -/
  | endTask (g : BitVec 4) (e : Bool) (f : BitVec 10)
  /-- TICKW (R308). Holds all groups until the tick of step n is released. -/
  | tickw (g : BitVec 4) (e : Bool) (f : BitVec 10)
  /-- LAUNCH (R310). Submits a job from a launch record after a SYS release. -/
  | launch (g : BitVec 4) (e : Bool) (f : BitVec 10)
  /-- TRAP (R325). Raises cause 0x0E with TADDR holding F. -/
  | trap (g : BitVec 4) (e : Bool) (f : BitVec 10)
  /-- TRET (R322). Returns from the current trap level, replaying buffered results. -/
  | tret (g : BitVec 4) (e : Bool) (f : BitVec 10)
  /-- CRGN_OPEN (R330). Opens a containment region with a handler. -/
  | crgnOpen (g : BitVec 4) (e : Bool) (f : BitVec 10)
  /-- CRGN_CLOSE (R330). Closes the innermost containment region. -/
  | crgnClose (g : BitVec 4) (e : Bool) (f : BitVec 10)
  /-- SVC (R326). Requests a firmware service, writing its status to D later. -/
  | svc (g : BitVec 4) (e : Bool) (f : BitVec 10)
  /-- ABORT (R327). Waits as FENCE.REL.SYS and kills the context with reason 2. -/
  | abort (g : BitVec 4) (e : Bool) (f : BitVec 10)
  /-- SRRD (R175). Reads a system register into c.q0. -/
  | srrd (g : BitVec 4) (e : Bool) (f : BitVec 10)
  /-- SRWR (R176). Writes a system register from the C unit's X latch, aligning all groups. -/
  | srwr (g : BitVec 4) (e : Bool) (f : BitVec 10)
  /-- ADD (R177). Scalar 64-bit add. -/
  | add (g : BitVec 4) (e : Bool) (f : BitVec 10)
  /-- SUB (R177). Scalar 64-bit subtract. -/
  | sub (g : BitVec 4) (e : Bool) (f : BitVec 10)
  /-- MUL (R177). Low half of the 64-bit product. -/
  | mul (g : BitVec 4) (e : Bool) (f : BitVec 10)
  /-- MULH (R177). High half of the signed product. -/
  | mulh (g : BitVec 4) (e : Bool) (f : BitVec 10)
  /-- MULHU (R177). High half of the unsigned product. -/
  | mulhu (g : BitVec 4) (e : Bool) (f : BitVec 10)
  /-- AND (R177). Bitwise and. -/
  | and (g : BitVec 4) (e : Bool) (f : BitVec 10)
  /-- OR (R177). Bitwise or. -/
  | or (g : BitVec 4) (e : Bool) (f : BitVec 10)
  /-- XOR (R177). Bitwise exclusive or. -/
  | xor (g : BitVec 4) (e : Bool) (f : BitVec 10)
  /-- ANDN (R177). X and not F. -/
  | andn (g : BitVec 4) (e : Bool) (f : BitVec 10)
  /-- SHL (R177). Shift left. -/
  | shl (g : BitVec 4) (e : Bool) (f : BitVec 10)
  /-- SHR (R177). Logical shift right. -/
  | shr (g : BitVec 4) (e : Bool) (f : BitVec 10)
  /-- SAR (R177). Arithmetic shift right. -/
  | sar (g : BitVec 4) (e : Bool) (f : BitVec 10)
  /-- ROTL (R177). Rotate left. -/
  | rotl (g : BitVec 4) (e : Bool) (f : BitVec 10)
  /-- MIN (R177). Signed minimum. -/
  | minS (g : BitVec 4) (e : Bool) (f : BitVec 10)
  /-- MAX (R177). Signed maximum. -/
  | maxS (g : BitVec 4) (e : Bool) (f : BitVec 10)
  /-- MINU (R177). Unsigned minimum. -/
  | minu (g : BitVec 4) (e : Bool) (f : BitVec 10)
  /-- MAXU (R177). Unsigned maximum. -/
  | maxu (g : BitVec 4) (e : Bool) (f : BitVec 10)
  /-- CLZ (R177). Count leading zeros. -/
  | clz (g : BitVec 4) (e : Bool) (f : BitVec 10)
  /-- CTZ (R177). Count trailing zeros. -/
  | ctz (g : BitVec 4) (e : Bool) (f : BitVec 10)
  /-- POPC (R177). Population count. -/
  | popc (g : BitVec 4) (e : Bool) (f : BitVec 10)
  /-- SEXT_B (R177). Sign-extend a byte. -/
  | sextB (g : BitVec 4) (e : Bool) (f : BitVec 10)
  /-- SEXT_H (R177). Sign-extend a half-word. -/
  | sextH (g : BitVec 4) (e : Bool) (f : BitVec 10)
  /-- SEXT_W (R177). Sign-extend a word. -/
  | sextW (g : BitVec 4) (e : Bool) (f : BitVec 10)
  /-- ZEXT_B (R177). Zero-extend a byte. -/
  | zextB (g : BitVec 4) (e : Bool) (f : BitVec 10)
  /-- ZEXT_H (R177). Zero-extend a half-word. -/
  | zextH (g : BitVec 4) (e : Bool) (f : BitVec 10)
  /-- ZEXT_W (R177). Zero-extend a word. -/
  | zextW (g : BitVec 4) (e : Bool) (f : BitVec 10)
  /-- SEL (R177). Selects X or F by the predicate named in Y. -/
  | sel (g : BitVec 4) (e : Bool) (f : BitVec 10)
  /-- ADD_W (R177). 32-bit add, sign-extended. -/
  | addW (g : BitVec 4) (e : Bool) (f : BitVec 10)
  /-- SUB_W (R177). 32-bit subtract, sign-extended. -/
  | subW (g : BitVec 4) (e : Bool) (f : BitVec 10)
  /-- MUL_W (R177). 32-bit multiply, sign-extended. -/
  | mulW (g : BitVec 4) (e : Bool) (f : BitVec 10)
  /-- LEA (R177). X plus F shifted by Y[1:0]. -/
  | lea (g : BitVec 4) (e : Bool) (f : BitVec 10)
  /-- CMP_EQ (R178). Compare equal into s.q0 and the predicate named by D. -/
  | cmpEq (g : BitVec 4) (e : Bool) (f : BitVec 10)
  /-- CMP_NE (R178). Compare not equal. -/
  | cmpNe (g : BitVec 4) (e : Bool) (f : BitVec 10)
  /-- CMP_LT (R178). Compare signed less than. -/
  | cmpLt (g : BitVec 4) (e : Bool) (f : BitVec 10)
  /-- CMP_LE (R178). Compare signed less or equal. -/
  | cmpLe (g : BitVec 4) (e : Bool) (f : BitVec 10)
  /-- CMP_LTU (R178). Compare unsigned less than. -/
  | cmpLtu (g : BitVec 4) (e : Bool) (f : BitVec 10)
  /-- CMP_LEU (R178). Compare unsigned less or equal. -/
  | cmpLeu (g : BitVec 4) (e : Bool) (f : BitVec 10)
  /-- DIV (R179). Signed 64-bit division into D. -/
  | div (g : BitVec 4) (e : Bool) (f : BitVec 10)
  /-- DIVU (R179). Unsigned 64-bit division. -/
  | divu (g : BitVec 4) (e : Bool) (f : BitVec 10)
  /-- REM (R179). Signed 64-bit remainder. -/
  | rem (g : BitVec 4) (e : Bool) (f : BitVec 10)
  /-- REMU (R179). Unsigned 64-bit remainder. -/
  | remu (g : BitVec 4) (e : Bool) (f : BitVec 10)
  /-- DIV_W (R179). Signed 32-bit division. -/
  | divW (g : BitVec 4) (e : Bool) (f : BitVec 10)
  /-- DIVU_W (R179). Unsigned 32-bit division. -/
  | divuW (g : BitVec 4) (e : Bool) (f : BitVec 10)
  /-- REM_W (R179). Signed 32-bit remainder. -/
  | remW (g : BitVec 4) (e : Bool) (f : BitVec 10)
  /-- REMU_W (R179). Unsigned 32-bit remainder. -/
  | remuW (g : BitVec 4) (e : Bool) (f : BitVec 10)
  /-- LD_B (R180). Loads a sign-extended byte in alias class c. -/
  | ldB (g : BitVec 4) (cl : BitVec 2) (e : Bool) (f : BitVec 10)
  /-- LD_H (R180). Loads a sign-extended half-word. -/
  | ldH (g : BitVec 4) (cl : BitVec 2) (e : Bool) (f : BitVec 10)
  /-- LD_W (R180). Loads a sign-extended word. -/
  | ldW (g : BitVec 4) (cl : BitVec 2) (e : Bool) (f : BitVec 10)
  /-- LD_D (R180). Loads a double word. -/
  | ldD (g : BitVec 4) (cl : BitVec 2) (e : Bool) (f : BitVec 10)
  /-- LDU_B (R180). Loads a zero-extended byte. -/
  | lduB (g : BitVec 4) (cl : BitVec 2) (e : Bool) (f : BitVec 10)
  /-- LDU_H (R180). Loads a zero-extended half-word. -/
  | lduH (g : BitVec 4) (cl : BitVec 2) (e : Bool) (f : BitVec 10)
  /-- LDU_W (R180). Loads a zero-extended word. -/
  | lduW (g : BitVec 4) (cl : BitVec 2) (e : Bool) (f : BitVec 10)
  /-- ST_B (R180). Stores a byte from Y. -/
  | stB (g : BitVec 4) (cl : BitVec 2) (e : Bool) (f : BitVec 10)
  /-- ST_H (R180). Stores a half-word. -/
  | stH (g : BitVec 4) (cl : BitVec 2) (e : Bool) (f : BitVec 10)
  /-- ST_W (R180). Stores a word. -/
  | stW (g : BitVec 4) (cl : BitVec 2) (e : Bool) (f : BitVec 10)
  /-- ST_D (R180). Stores a double word. -/
  | stD (g : BitVec 4) (cl : BitVec 2) (e : Bool) (f : BitVec 10)
  /-- PWLD_W (R181). Loads a word from parameter window n, or 0 beyond it. -/
  | pwldW (g : BitVec 4) (n : BitVec 3) (e : Bool) (f : BitVec 10)
  /-- PWLD_D (R181). Loads a double word from parameter window n. -/
  | pwldD (g : BitVec 4) (n : BitVec 3) (e : Bool) (f : BitVec 10)
  /-- AADD (R182). Atomic add returning the prior value. -/
  | aadd (g : BitVec 4) (w : BitVec 1) (e : Bool) (f : BitVec 10)
  /-- AMIN (R182). Atomic signed minimum. -/
  | amin (g : BitVec 4) (w : BitVec 1) (e : Bool) (f : BitVec 10)
  /-- AMAX (R182). Atomic signed maximum. -/
  | amax (g : BitVec 4) (w : BitVec 1) (e : Bool) (f : BitVec 10)
  /-- AMINU (R182). Atomic unsigned minimum. -/
  | aminu (g : BitVec 4) (w : BitVec 1) (e : Bool) (f : BitVec 10)
  /-- AMAXU (R182). Atomic unsigned maximum. -/
  | amaxu (g : BitVec 4) (w : BitVec 1) (e : Bool) (f : BitVec 10)
  /-- AAND (R182). Atomic and. -/
  | aand (g : BitVec 4) (w : BitVec 1) (e : Bool) (f : BitVec 10)
  /-- AOR (R182). Atomic or. -/
  | aor (g : BitVec 4) (w : BitVec 1) (e : Bool) (f : BitVec 10)
  /-- AXOR (R182). Atomic exclusive or. -/
  | axor (g : BitVec 4) (w : BitVec 1) (e : Bool) (f : BitVec 10)
  /-- AXCHG (R182). Atomic exchange. -/
  | axchg (g : BitVec 4) (w : BitVec 1) (e : Bool) (f : BitVec 10)
  /-- ACAS (R182). Atomic compare and swap. -/
  | acas (g : BitVec 4) (w : BitVec 1) (e : Bool) (f : BitVec 10)
  /-- AADD_N (R182). No-return atomic add. -/
  | aaddN (g : BitVec 4) (w : BitVec 1) (e : Bool) (f : BitVec 10)
  /-- AMIN_N (R182). No-return atomic signed minimum. -/
  | aminN (g : BitVec 4) (w : BitVec 1) (e : Bool) (f : BitVec 10)
  /-- AMAX_N (R182). No-return atomic signed maximum. -/
  | amaxN (g : BitVec 4) (w : BitVec 1) (e : Bool) (f : BitVec 10)
  /-- AMINU_N (R182). No-return atomic unsigned minimum. -/
  | aminuN (g : BitVec 4) (w : BitVec 1) (e : Bool) (f : BitVec 10)
  /-- AMAXU_N (R182). No-return atomic unsigned maximum. -/
  | amaxuN (g : BitVec 4) (w : BitVec 1) (e : Bool) (f : BitVec 10)
  /-- AAND_N (R182). No-return atomic and. -/
  | aandN (g : BitVec 4) (w : BitVec 1) (e : Bool) (f : BitVec 10)
  /-- AOR_N (R182). No-return atomic or. -/
  | aorN (g : BitVec 4) (w : BitVec 1) (e : Bool) (f : BitVec 10)
  /-- AXOR_N (R182). No-return atomic exclusive or. -/
  | axorN (g : BitVec 4) (w : BitVec 1) (e : Bool) (f : BitVec 10)
  /-- MSEL (R208). Writes the MSEL latch selecting the mask of active lanes. -/
  | msel (u : VUnit) (g : BitVec 4) (e : Bool) (f : BitVec 10)
  /-- FADD (R214). Floating add per lane or element, type by t. -/
  | fadd (u : VUnit) (g : BitVec 4) (t : BitVec 2) (e : Bool) (f : BitVec 10)
  /-- FSUB (R214). Floating subtract. -/
  | fsub (u : VUnit) (g : BitVec 4) (t : BitVec 2) (e : Bool) (f : BitVec 10)
  /-- FMUL (R214). Floating multiply. -/
  | fmul (u : VUnit) (g : BitVec 4) (t : BitVec 2) (e : Bool) (f : BitVec 10)
  /-- FFMA (R214). Fused multiply-add f·a + b. -/
  | ffma (u : VUnit) (g : BitVec 4) (t : BitVec 2) (e : Bool) (f : BitVec 10)
  /-- FFMS (R214). Fused multiply-subtract f·a − b. -/
  | ffms (u : VUnit) (g : BitVec 4) (t : BitVec 2) (e : Bool) (f : BitVec 10)
  /-- FNMA (R214). Negated fused multiply-add. -/
  | fnma (u : VUnit) (g : BitVec 4) (t : BitVec 2) (e : Bool) (f : BitVec 10)
  /-- FMIN (R214). Floating minimum. -/
  | fmin (u : VUnit) (g : BitVec 4) (t : BitVec 2) (e : Bool) (f : BitVec 10)
  /-- FMAX (R214). Floating maximum. -/
  | fmax (u : VUnit) (g : BitVec 4) (t : BitVec 2) (e : Bool) (f : BitVec 10)
  /-- FABS (R214). Floating absolute value. -/
  | fabs (u : VUnit) (g : BitVec 4) (t : BitVec 2) (e : Bool) (f : BitVec 10)
  /-- FNEG (R214). Floating negation. -/
  | fneg (u : VUnit) (g : BitVec 4) (t : BitVec 2) (e : Bool) (f : BitVec 10)
  /-- FCPYS (R214). Copy sign of a onto |f|. -/
  | fcpys (u : VUnit) (g : BitVec 4) (t : BitVec 2) (e : Bool) (f : BitVec 10)
  /-- FCMP_EQ (R215). FP32 compare equal into q0 and the mask named by D. -/
  | fcmpEq (u : VUnit) (g : BitVec 4) (e : Bool) (f : BitVec 10)
  /-- FCMP_NE (R215). FP32 compare not equal. -/
  | fcmpNe (u : VUnit) (g : BitVec 4) (e : Bool) (f : BitVec 10)
  /-- FCMP_LT (R215). FP32 compare less than. -/
  | fcmpLt (u : VUnit) (g : BitVec 4) (e : Bool) (f : BitVec 10)
  /-- FCMP_LE (R215). FP32 compare less or equal. -/
  | fcmpLe (u : VUnit) (g : BitVec 4) (e : Bool) (f : BitVec 10)
  /-- FCMP_UN (R215). FP32 compare unordered. -/
  | fcmpUn (u : VUnit) (g : BitVec 4) (e : Bool) (f : BitVec 10)
  /-- VSEL (R216). Selects F or X per lane by Y. -/
  | vsel (u : VUnit) (g : BitVec 4) (e : Bool) (f : BitVec 10)
  /-- IADD (R217). Lane-wise int32 add. -/
  | iadd (u : VUnit) (g : BitVec 4) (e : Bool) (f : BitVec 10)
  /-- ISUB (R217). Lane-wise int32 subtract. -/
  | isub (u : VUnit) (g : BitVec 4) (e : Bool) (f : BitVec 10)
  /-- IMUL (R217). Lane-wise low product. -/
  | imul (u : VUnit) (g : BitVec 4) (e : Bool) (f : BitVec 10)
  /-- IMULH (R217). Lane-wise signed high product. -/
  | imulh (u : VUnit) (g : BitVec 4) (e : Bool) (f : BitVec 10)
  /-- IMULHU (R217). Lane-wise unsigned high product. -/
  | imulhu (u : VUnit) (g : BitVec 4) (e : Bool) (f : BitVec 10)
  /-- IAND (R217). Lane-wise and. -/
  | iand (u : VUnit) (g : BitVec 4) (e : Bool) (f : BitVec 10)
  /-- IOR (R217). Lane-wise or. -/
  | ior (u : VUnit) (g : BitVec 4) (e : Bool) (f : BitVec 10)
  /-- IXOR (R217). Lane-wise exclusive or. -/
  | ixor (u : VUnit) (g : BitVec 4) (e : Bool) (f : BitVec 10)
  /-- IANDN (R217). Lane-wise a and not f. -/
  | iandn (u : VUnit) (g : BitVec 4) (e : Bool) (f : BitVec 10)
  /-- ISHL (R217). Lane-wise shift left. -/
  | ishl (u : VUnit) (g : BitVec 4) (e : Bool) (f : BitVec 10)
  /-- ISHR (R217). Lane-wise logical shift right. -/
  | ishr (u : VUnit) (g : BitVec 4) (e : Bool) (f : BitVec 10)
  /-- ISAR (R217). Lane-wise arithmetic shift right. -/
  | isar (u : VUnit) (g : BitVec 4) (e : Bool) (f : BitVec 10)
  /-- IMIN (R217). Lane-wise signed minimum. -/
  | imin (u : VUnit) (g : BitVec 4) (e : Bool) (f : BitVec 10)
  /-- IMAX (R217). Lane-wise signed maximum. -/
  | imax (u : VUnit) (g : BitVec 4) (e : Bool) (f : BitVec 10)
  /-- IMINU (R217). Lane-wise unsigned minimum. -/
  | iminu (u : VUnit) (g : BitVec 4) (e : Bool) (f : BitVec 10)
  /-- IMAXU (R217). Lane-wise unsigned maximum. -/
  | imaxu (u : VUnit) (g : BitVec 4) (e : Bool) (f : BitVec 10)
  /-- IABS (R217). Lane-wise absolute value. -/
  | iabs (u : VUnit) (g : BitVec 4) (e : Bool) (f : BitVec 10)
  /-- IADD_SAT (R217). Lane-wise saturating add. -/
  | iaddSat (u : VUnit) (g : BitVec 4) (e : Bool) (f : BitVec 10)
  /-- ISUB_SAT (R217). Lane-wise saturating subtract. -/
  | isubSat (u : VUnit) (g : BitVec 4) (e : Bool) (f : BitVec 10)
  /-- ICMP_EQ (R215). Int32 compare equal into q0 and D. -/
  | icmpEq (u : VUnit) (g : BitVec 4) (e : Bool) (f : BitVec 10)
  /-- ICMP_NE (R215). Int32 compare not equal. -/
  | icmpNe (u : VUnit) (g : BitVec 4) (e : Bool) (f : BitVec 10)
  /-- ICMP_LT (R215). Int32 compare signed less than. -/
  | icmpLt (u : VUnit) (g : BitVec 4) (e : Bool) (f : BitVec 10)
  /-- ICMP_LE (R215). Int32 compare signed less or equal. -/
  | icmpLe (u : VUnit) (g : BitVec 4) (e : Bool) (f : BitVec 10)
  /-- ICMP_LTU (R215). Int32 compare unsigned less than. -/
  | icmpLtu (u : VUnit) (g : BitVec 4) (e : Bool) (f : BitVec 10)
  /-- ICMP_LEU (R215). Int32 compare unsigned less or equal. -/
  | icmpLeu (u : VUnit) (g : BitVec 4) (e : Bool) (f : BitVec 10)
  /-- CVT_F_H (R218). FP16 elements 0–255 to FP32. -/
  | cvtFH (u : VUnit) (g : BitVec 4) (e : Bool) (f : BitVec 10)
  /-- CVT_F_HH (R218). FP16 elements 256–511 to FP32. -/
  | cvtFHh (u : VUnit) (g : BitVec 4) (e : Bool) (f : BitVec 10)
  /-- CVT_F_B (R218). BF16 elements 0–255 to FP32. -/
  | cvtFB (u : VUnit) (g : BitVec 4) (e : Bool) (f : BitVec 10)
  /-- CVT_F_BH (R218). BF16 elements 256–511 to FP32. -/
  | cvtFBh (u : VUnit) (g : BitVec 4) (e : Bool) (f : BitVec 10)
  /-- CVT_H_F (R218). FP32 lanes of X and F to packed FP16. -/
  | cvtHF (u : VUnit) (g : BitVec 4) (e : Bool) (f : BitVec 10)
  /-- CVT_B_F (R218). FP32 lanes of X and F to packed BF16. -/
  | cvtBF (u : VUnit) (g : BitVec 4) (e : Bool) (f : BitVec 10)
  /-- CVT_I_F (R218). FP32 to int32. -/
  | cvtIF (u : VUnit) (g : BitVec 4) (e : Bool) (f : BitVec 10)
  /-- CVT_F_I (R218). Int32 to FP32. -/
  | cvtFI (u : VUnit) (g : BitVec 4) (e : Bool) (f : BitVec 10)
  /-- CVT_I8_I (R218). Int32 lanes to int8 bytes. -/
  | cvtI8I (u : VUnit) (g : BitVec 4) (e : Bool) (f : BitVec 10)
  /-- CVT_I_I8 (R218). Int8 bytes to int32 lanes. -/
  | cvtII8 (u : VUnit) (g : BitVec 4) (e : Bool) (f : BitVec 10)
  /-- VBCAST (R219). Broadcasts lane k of F. -/
  | vbcast (u : VUnit) (g : BitVec 4) (e : Bool) (f : BitVec 10)
  /-- VPERM (R219). Permutes F by Y's lane indices. -/
  | vperm (u : VUnit) (g : BitVec 4) (e : Bool) (f : BitVec 10)
  /-- VROT (R219). Rotates F by k lanes. -/
  | vrot (u : VUnit) (g : BitVec 4) (e : Bool) (f : BitVec 10)
  /-- VSLUP (R219). Slides F up by k lanes, filling from X. -/
  | vslup (u : VUnit) (g : BitVec 4) (e : Bool) (f : BitVec 10)
  /-- VSLDN (R219). Slides F down by k lanes, filling from X. -/
  | vsldn (u : VUnit) (g : BitVec 4) (e : Bool) (f : BitVec 10)
  /-- VEXTL (R219). Extracts 256 lanes from the concatenation of X and F. -/
  | vextl (u : VUnit) (g : BitVec 4) (e : Bool) (f : BitVec 10)
  /-- MAND (R220). Lane truth and. -/
  | mand (u : VUnit) (g : BitVec 4) (e : Bool) (f : BitVec 10)
  /-- MOR (R220). Lane truth or. -/
  | mor (u : VUnit) (g : BitVec 4) (e : Bool) (f : BitVec 10)
  /-- MXOR (R220). Lane truth exclusive or. -/
  | mxor (u : VUnit) (g : BitVec 4) (e : Bool) (f : BitVec 10)
  /-- MNOT (R220). Lane truth not. -/
  | mnot (u : VUnit) (g : BitVec 4) (e : Bool) (f : BitVec 10)
  /-- MPOP (R220). Counts active true lanes. -/
  | mpop (u : VUnit) (g : BitVec 4) (e : Bool) (f : BitVec 10)
  /-- MFIRST (R220). Finds the lowest active true lane. -/
  | mfirst (u : VUnit) (g : BitVec 4) (e : Bool) (f : BitVec 10)
  /-- FRCP (R221). Correctly rounded reciprocal. -/
  | frcp (u : VUnit) (g : BitVec 4) (e : Bool) (f : BitVec 10)
  /-- FRSQ (R221). Reciprocal square root. -/
  | frsq (u : VUnit) (g : BitVec 4) (e : Bool) (f : BitVec 10)
  /-- FSQRT (R221). Correctly rounded square root. -/
  | fsqrt (u : VUnit) (g : BitVec 4) (e : Bool) (f : BitVec 10)
  /-- FEXP2 (R221). Base-2 exponential. -/
  | fexp2 (u : VUnit) (g : BitVec 4) (e : Bool) (f : BitVec 10)
  /-- FLOG2 (R221). Base-2 logarithm. -/
  | flog2 (u : VUnit) (g : BitVec 4) (e : Bool) (f : BitVec 10)
  /-- FDIV (R221). Correctly rounded division f / x. -/
  | fdiv (u : VUnit) (g : BitVec 4) (e : Bool) (f : BitVec 10)
  /-- RSUM_F (R222). FP32 tree sum of active lanes. -/
  | rsumF (u : VUnit) (g : BitVec 4) (e : Bool) (f : BitVec 10)
  /-- RMAX_F (R222). FP32 maximum of active lanes. -/
  | rmaxF (u : VUnit) (g : BitVec 4) (e : Bool) (f : BitVec 10)
  /-- RMIN_F (R222). FP32 minimum of active lanes. -/
  | rminF (u : VUnit) (g : BitVec 4) (e : Bool) (f : BitVec 10)
  /-- RSUM_I (R222). Int32 sum of active lanes. -/
  | rsumI (u : VUnit) (g : BitVec 4) (e : Bool) (f : BitVec 10)
  /-- RMAX_I (R222). Int32 maximum of active lanes. -/
  | rmaxI (u : VUnit) (g : BitVec 4) (e : Bool) (f : BitVec 10)
  /-- RMIN_I (R222). Int32 minimum of active lanes. -/
  | rminI (u : VUnit) (g : BitVec 4) (e : Bool) (f : BitVec 10)
  /-- SMX (R223). Combines two softmax triples. -/
  | smx (u : VUnit) (g : BitVec 4) (e : Bool) (f : BitVec 10)
  /-- SMXF (R224). Finalises a triple into v / s. -/
  | smxf (u : VUnit) (g : BitVec 4) (e : Bool) (f : BitVec 10)
  /-- QNT (R225). Quantises 256 FP32 lanes into format fn with block scales. -/
  | qnt (u : VUnit) (g : BitVec 4) (n : BitVec 3) (e : Bool) (f : BitVec 10)
  /-- DQNT (R226). Dequantises a quantised register into FP32 lanes. -/
  | dqnt (u : VUnit) (g : BitVec 4) (n : BitVec 3) (e : Bool) (f : BitVec 10)
  /-- MCFG (R230). Writes the matrix configuration port of formats, mode, sparsity and bank. -/
  | mcfg (g : BitVec 4) (e : Bool) (f : BitVec 10)
  /-- MSLA (R230). Writes the first slot of the A pair. -/
  | msla (g : BitVec 4) (e : Bool) (f : BitVec 10)
  /-- MSLB (R230). Writes the B slot. -/
  | mslb (g : BitVec 4) (e : Bool) (f : BitVec 10)
  /-- MKLEN (R230). Writes pushing beats per tile. -/
  | mklen (g : BitVec 4) (e : Bool) (f : BitVec 10)
  /-- MBTHR (R230). Writes the bound threshold BTHR. -/
  | mbthr (g : BitVec 4) (e : Bool) (f : BitVec 10)
  /-- MCHK (R230). Writes the re-check period and rotation step. -/
  | mchk (g : BitVec 4) (e : Bool) (f : BitVec 10)
  /-- MDTM (R230). Writes the drain tensor map address. -/
  | mdtm (g : BitVec 4) (e : Bool) (f : BitVec 10)
  /-- MGRP (R253). Writes the matrix group width. -/
  | mgrp (g : BitVec 4) (e : Bool) (f : BitVec 10)
  /-- MB_PA (R241). Beat that shifts and pushes pair k, accumulating. -/
  | mbPa (g : BitVec 4) (e : Bool) (f : BitVec 10)
  /-- MB_P (R241). Beat that shifts and pushes pair k, holding only. -/
  | mbP (g : BitVec 4) (e : Bool) (f : BitVec 10)
  /-- MB_S (R241). Beat that shifts and pushes an empty pair. -/
  | mbS (g : BitVec 4) (e : Bool) (f : BitVec 10)
  /-- MB_A (R241). Beat in which every element adds its held product. -/
  | mbA (g : BitVec 4) (e : Bool) (f : BitVec 10)
  /-- MB_D (R241). Drains one row of a bank. -/
  | mbD (g : BitVec 4) (e : Bool) (f : BitVec 10)
  /-- MTILE (R237). Queues one tile into the active bank. -/
  | mtile (g : BitVec 4) (e : Bool) (f : BitVec 10)
  /-- MTILE_W (R237). Queues one tile in wide mode. -/
  | mtileW (g : BitVec 4) (e : Bool) (f : BitVec 10)
  /-- MZERO (R239). Queues zeroing of a bank. -/
  | mzero (g : BitVec 4) (e : Bool) (f : BitVec 10)
  /-- MBANK (R239). Queues a change of the active bank. -/
  | mbank (g : BitVec 4) (e : Bool) (f : BitVec 10)
  /-- MDRN_ST (R247). Queues a drain storing FP32 values. -/
  | mdrnSt (g : BitVec 4) (e : Bool) (f : BitVec 10)
  /-- MDRN_CVT (R247). Queues a drain converting values. -/
  | mdrnCvt (g : BitVec 4) (e : Bool) (f : BitVec 10)
  /-- MDRN_ADD (R247). Queues a drain adding into memory row by row. -/
  | mdrnAdd (g : BitVec 4) (e : Bool) (f : BitVec 10)
  /-- MDRN_ADDC (R247). Queues a drain adding and clamping. -/
  | mdrnAddc (g : BitVec 4) (e : Bool) (f : BitVec 10)
  /-- MCLAIM_A (R235). Claims a READY A pair for the matrix. -/
  | mclaimA (g : BitVec 4) (e : Bool) (f : BitVec 10)
  /-- MCLAIM_B (R235). Claims a READY B slot for the matrix. -/
  | mclaimB (g : BitVec 4) (e : Bool) (f : BitVec 10)
  /-- MREL (R235). Releases a slot or pair to the copy group. -/
  | mrel (g : BitVec 4) (e : Bool) (f : BitVec 10)
  /-- MBND_RD (R244). Reads a bound register into m.q0. -/
  | mbndRd (g : BitVec 4) (e : Bool) (f : BitVec 10)
  /-- MBND_WR (R244). Writes a bound register after the queue empties. -/
  | mbndWr (g : BitVec 4) (e : Bool) (f : BitVec 10)
  /-- MCHK_NOW (R252). Makes the next tile due for a re-check. -/
  | mchkNow (g : BitVec 4) (e : Bool) (f : BitVec 10)
  /-- MWAIT (R254). Holds until the sequencer queue and drain writes are done, then raises pending causes. -/
  | mwait (g : BitVec 4) (e : Bool) (f : BitVec 10)
  /-- MSTAT (R255). Reads matrix status, optionally clearing sticky fields. -/
  | mstat (g : BitVec 4) (e : Bool) (f : BitVec 10)
  /-- KFLG (R128). Writes the engine flags for the slot's next command. -/
  | kflg (k : KUnit) (g : BitVec 4) (e : Bool) (f : BitVec 10)
  /-- KSW (R128). Writes the completion sync word for the next command. -/
  | ksw (k : KUnit) (g : BitVec 4) (e : Bool) (f : BitVec 10)
  /-- SPLD (R114). Loads a 1 KiB row from own scratchpad. -/
  | spld (k : KUnit) (g : BitVec 4) (e : Bool) (f : BitVec 10)
  /-- SPLD_H (R114). Loads 256 half-words zero-extended. -/
  | spldH (k : KUnit) (g : BitVec 4) (e : Bool) (f : BitVec 10)
  /-- SPLD_BC (R114). Loads one word broadcast. -/
  | spldBc (k : KUnit) (g : BitVec 4) (e : Bool) (f : BitVec 10)
  /-- SPLD_G (R114). Gathers 256 words at offsets from X. -/
  | spldG (k : KUnit) (g : BitVec 4) (e : Bool) (f : BitVec 10)
  /-- SPLD_AG (R121). Loads the next 1 KiB of address generator n's walk. -/
  | spldAg (k : KUnit) (g : BitVec 4) (n : BitVec 2) (e : Bool) (f : BitVec 10)
  /-- SPST (R115). Stores X to own scratchpad. -/
  | spst (k : KUnit) (g : BitVec 4) (e : Bool) (f : BitVec 10)
  /-- SPST_M (R115). Stores X lanes selected by Y. -/
  | spstM (k : KUnit) (g : BitVec 4) (e : Bool) (f : BitVec 10)
  /-- SPST_S (R115). Scatters X lanes at offsets from Y. -/
  | spstS (k : KUnit) (g : BitVec 4) (e : Bool) (f : BitVec 10)
  /-- SPST_AG (R121). Stores the next 1 KiB of generator n's walk. -/
  | spstAg (k : KUnit) (g : BitVec 4) (n : BitVec 2) (e : Bool) (f : BitVec 10)
  /-- AG_SET (R119). Loads a tensor map into address generator n. -/
  | agSet (k : KUnit) (g : BitVec 4) (n : BitVec 2) (e : Bool) (f : BitVec 10)
  /-- AG_POS (R120). Sets generator n's origin and resets its walk. -/
  | agPos (k : KUnit) (g : BitVec 4) (n : BitVec 2) (e : Bool) (f : BitVec 10)
  /-- MOPLD (R233). Copies 1 KiB units from scratchpad into an operand slot. -/
  | mopld (k : KUnit) (g : BitVec 4) (e : Bool) (f : BitVec 10)
  /-- MOPLD_T (R234). Loads an operand slot from any address through the engine queue. -/
  | mopldT (k : KUnit) (g : BitVec 4) (e : Bool) (f : BitVec 10)
  /-- XCOPY (R132). Engine copy of bytes or tensor-map walks. -/
  | xcopy (k : KUnit) (g : BitVec 4) (e : Bool) (f : BitVec 10)
  /-- XGATH (R133). Engine gather of tokens through an extent list. -/
  | xgath (k : KUnit) (g : BitVec 4) (e : Bool) (f : BitVec 10)
  /-- XSCAT (R133). Engine scatter of tokens through an extent list. -/
  | xscat (k : KUnit) (g : BitVec 4) (e : Bool) (f : BitVec 10)
  /-- XMCAST (R157). Multicasts a source to one core of each die of a set. -/
  | xmcast (k : KUnit) (g : BitVec 4) (e : Bool) (f : BitVec 10)
  /-- XRED (R158). Reduces contributions of a die set into a result at the root. -/
  | xred (k : KUnit) (g : BitVec 4) (e : Bool) (f : BitVec 10)
  /-- XHALO (R159). Sends face slabs to neighbours' halos. -/
  | xhalo (k : KUnit) (g : BitVec 4) (e : Bool) (f : BitVec 10)
  /-- XRESH (R160). Re-shards a tensor and switches the shard map. -/
  | xresh (k : KUnit) (g : BitVec 4) (e : Bool) (f : BitVec 10)
  /-- SW_INIT (R125). Initialises a sync word's target and flags. -/
  | swInit (k : KUnit) (g : BitVec 4) (e : Bool) (f : BitVec 10)
  /-- SW_ADD (R125). Arrives on a sync word with a weight. -/
  | swAdd (k : KUnit) (g : BitVec 4) (e : Bool) (f : BitVec 10)
  /-- SW_WAIT (R126). Waits for a sync word's generation to change. -/
  | swWait (k : KUnit) (g : BitVec 4) (e : Bool) (f : BitVec 10)
  /-- SW_TEST (R127). Tests whether a generation has changed. -/
  | swTest (k : KUnit) (g : BitVec 4) (e : Bool) (f : BitVec 10)
  /-- SW_RD (R127). Reads a sync word's fields. -/
  | swRd (k : KUnit) (g : BitVec 4) (e : Bool) (f : BitVec 10)
  /-- QPUT (R136). Sends a 64-byte channel message. -/
  | qput (k : KUnit) (g : BitVec 4) (e : Bool) (f : BitVec 10)
  /-- QGET (R137). Takes the oldest message of an own channel. -/
  | qget (k : KUnit) (g : BitVec 4) (e : Bool) (f : BitVec 10)
  /-- ING_POP (R275). Takes a step's token from an ingest queue. -/
  | ingPop (k : KUnit) (g : BitVec 4) (e : Bool) (f : BitVec 10)
  /-- KV_APP (R262). Engine command appending token rows to a sequence. -/
  | kvApp (k : KUnit) (g : BitVec 4) (e : Bool) (f : BitVec 10)
  /-- KV_EXT (R261). Extends a sequence with a pool block or releases it. -/
  | kvExt (k : KUnit) (g : BitVec 4) (e : Bool) (f : BitVec 10)
  /-- PFX_HASH (R265). Computes the chained hash of a 16-token block. -/
  | pfxHash (k : KUnit) (g : BitVec 4) (e : Bool) (f : BitVec 10)
  /-- PFX_LOOK (R266). Looks up a hash in the die's prefix table. -/
  | pfxLook (k : KUnit) (g : BitVec 4) (e : Bool) (f : BitVec 10)
  /-- PFX_INS (R267). Inserts a block into the prefix table. -/
  | pfxIns (k : KUnit) (g : BitVec 4) (e : Bool) (f : BitVec 10)
  /-- PFX_PIN (R269). Pins a prefix entry and appends its extent to a sequence. -/
  | pfxPin (k : KUnit) (g : BitVec 4) (e : Bool) (f : BitVec 10)
  /-- PFX_UNPIN (R269). Unpins a prefix entry. -/
  | pfxUnpin (k : KUnit) (g : BitVec 4) (e : Bool) (f : BitVec 10)
  /-- DUSK_OVERRUN (R287). When the 2 ms allowed for dusk steps 1 to 4 runs out before every live die has completed steps 2 and 3, the dusk record is written with that die's DIEOK bit and COMPLETE cleared. -/
  | duskOverrun (d : DieId)
deriving DecidableEq, Repr

end Sys2Proof
end

