-- ==== Sys2Proof/Decode.lean ====
section
/-! DEFINITION. The decoder, total on any parcels, rejecting by name; after it the encoder, written
from the same tables. The definitions that build an instruction are marked noncomputable for one reason only: Lean's
compiler has no tag for more than 245 constructors. The kernel evaluates them. -/
namespace Sys2Proof

/-- Why a bundle or a move is no instruction (Table 2.12). -/
inductive Reject
  /-- header bits [6:0] set, or PRES and RUN both non-zero: cause 0x01 -/
  | header
  /-- G = 0b1000: cause 0x02 -/
  | guard
  /-- a TO that names no destination of the slot: cause 0x02 -/
  | destination
  /-- a reserved FROM: cause 0x02 -/
  | source
  /-- E = 1 with a FROM outside s, v and o: cause 0x02 -/
  | emptyMode
  /-- a LIT source with slot L absent: cause 0x02 -/
  | literal
deriving DecidableEq, Repr

/-- The header parcel's fields (Table 2.2). -/
structure Header where
  pres : BitVec 8
  run : BitVec 4
  align : BitVec 4
  q : Bool
  low : BitVec 7
deriving DecidableEq, Repr

/-- Table 2.2: the fields of a header parcel. -/
def Header.ofParcel (p : Parcel) : Header :=
  { pres := p.extractLsb' 16 8, run := p.extractLsb' 12 4, align := p.extractLsb' 8 4, q := p.getLsbD 7,
    low := p.extractLsb' 0 7 }
/-- R30: whether a header is a header fault. -/
def Header.bad (h : Header) : Bool := h.low != 0 || (h.pres != 0 && h.run != 0)
/-- Whether slot `i` is present (Table 2.2). -/
def Header.has (h : Header) (i : Nat) : Bool := h.pres.getLsbD i
/-- R28: the bundle's length in parcels. -/
def Header.len (h : Header) : Nat := 1 + ((List.range 8).countP fun i => h.has i)

/-- The slots in slot order (Table 2.1). -/
def slotList : List Slot := [.c, .s, .va, .vb, .m, .ka, .kb]
/-- Slot index of Table 2.1. -/
def Slot.index : Slot → Nat | .c => 0 | .s => 1 | .va => 2 | .vb => 3 | .m => 4 | .ka => 5 | .kb => 6
/-- The slot's group (Table 2.1). -/
def Slot.group : Slot → Group | .c => .control | .s => .control | .va => .vector | .vb => .vector | .m => .matrix | .ka => .copy | .kb => .copy
/-- Group number: 0 control, 1 vector, 2 matrix, 3 copy (Table 14.1). -/
def Group.index : Group → Fin 4 | .control => 0 | .vector => 1 | .matrix => 2 | .copy => 3
/-- The slot of a vector unit. -/
def VUnit.slot : VUnit → Slot | .va => .va | .vb => .vb
/-- The slot of a copy unit. -/
def KUnit.slot : KUnit → Slot | .ka => .ka | .kb => .kb
/-- The unit behind a slot (Table 2.1). -/
def Slot.unit : Slot → Unit7 | .c => .c | .s => .s | .va => .va | .vb => .vb | .m => .m | .ka => .ka | .kb => .kb
/-- Unit index in result-queue numbering (Table 2.1). -/
def Unit7.index : Unit7 → Nat | .s => 0 | .va => 1 | .vb => 2 | .m => 3 | .ka => 4 | .kb => 5 | .c => 6
/-- The slot of a unit. -/
def Unit7.slot : Unit7 → Slot | .s => .s | .va => .va | .vb => .vb | .m => .m | .ka => .ka | .kb => .kb | .c => .c

/-- The fields of a move parcel with its slot (Table 2.3). -/
structure MoveFields where
  slot : Slot
  g : BitVec 4
  port : BitVec 9
  e : Bool
  f : BitVec 10
deriving DecidableEq, Repr

/-- Table 2.3: the fields of a move parcel of `slot`. -/
def MoveFields.ofParcel (slot : Slot) (p : Parcel) : MoveFields :=
  ⟨slot, p.extractLsb' 20 4, p.extractLsb' 11 9, p.getLsbD 10, p.extractLsb' 0 10⟩
/-- Table 2.3: the parcel of a move. -/
def MoveFields.parcel (m : MoveFields) : Parcel := m.g ++ m.port ++ BitVec.ofBool m.e ++ m.f

/-- Table 2.6: a FROM selector of an s, v or o register. -/
def isSVO (f : BitVec 10) : Bool := f.toNat < 0x80 || (0x90 ≤ f.toNat && f.toNat < 0xA0)
/-- Table 2.6: a LIT source. -/
def isLit (f : BitVec 10) : Bool := 0x100 ≤ f.toNat && f.toNat ≤ 0x103
/-- Tables 2.6 and 2.7: a FROM selector that names a source. -/
def fromListed (f : BitVec 10) : Bool :=
  f.toNat < 0xBC || (0xC0 ≤ f.toNat && f.toNat < 0x104) || (0x110 ≤ f.toNat && f.toNat ≤ 0x122)
/-- Tables 2.5 and 2.12: a TO that names a register or the X, Y or D latch; MSEL (0x0C3) is a port of VA and VB. -/
def toRegister (d : BitVec 9) : Bool :=
  d.toNat < 0x80 || (0x81 ≤ d.toNat && d.toNat < 0xA0) || (0xC0 ≤ d.toNat && d.toNat ≤ 0xC2)
/-- Tables 2.14 to 2.18: the ranges of listed ports of a slot, as first port and number. -/
def portRanges : Slot → List (Nat × Nat)
  | .c => [(0x100, 5), (0x108, 4), (0x110, 9), (0x120, 14), (0x130, 4), (0x138, 6), (0x140, 6), (0x148, 2)]
  | .s => [(0x100, 31), (0x120, 6), (0x130, 8), (0x140, 28), (0x160, 52), (0x1A0, 16)]
  | .va => [(0x0C3, 1), (0x100, 3), (0x104, 3), (0x108, 3), (0x10C, 3), (0x110, 3), (0x114, 3), (0x118, 3), (0x11C, 3), (0x120, 3), (0x124, 3), (0x128, 3), (0x12C, 5), (0x138, 1), (0x140, 19), (0x158, 6), (0x160, 10), (0x170, 6), (0x178, 6), (0x180, 6), (0x188, 6), (0x190, 2), (0x1A0, 16)]
  | .vb => [(0x0C3, 1), (0x100, 3), (0x104, 3), (0x108, 3), (0x10C, 3), (0x110, 3), (0x114, 3), (0x118, 3), (0x11C, 3), (0x120, 3), (0x124, 3), (0x128, 3), (0x12C, 5), (0x138, 1), (0x140, 19), (0x158, 6), (0x160, 10), (0x170, 6), (0x178, 6), (0x180, 6), (0x188, 6), (0x190, 2), (0x1A0, 16)]
  | .m => [(0x0C4, 8), (0x100, 5), (0x110, 4), (0x118, 4), (0x120, 3), (0x128, 3), (0x130, 2)]
  | .ka => [(0x0C4, 2), (0x100, 11), (0x10C, 14), (0x120, 7), (0x130, 5), (0x138, 2), (0x140, 3), (0x148, 5)]
  | .kb => [(0x0C4, 2), (0x100, 11), (0x10C, 14), (0x120, 7), (0x130, 5), (0x138, 2), (0x140, 3), (0x148, 5)]
/-- R36: whether TO is a port of the slot. -/
def portListed (slot : Slot) (d : BitVec 9) : Bool :=
  (portRanges slot).any fun r => r.1 ≤ d.toNat && d.toNat < r.1 + r.2
/-- Table 2.12: why a parcel of a slot is no move; `lit` whether slot L is present. -/
def moveFault (slot : Slot) (lit : Bool) (p : Parcel) : Option Reject :=
  let m := MoveFields.ofParcel slot p
  if m.g == 8 then some .guard
  else if !fromListed m.f then some .source
  else if m.e && !isSVO m.f then some .emptyMode
  else if isLit m.f && !lit then some .literal
  else if toRegister m.port || portListed slot m.port then none
  else some .destination

/-- Ports of the control slot C (Table 2.14), part 1: first port, number of ports, the operation. -/
noncomputable def controlPorts1 : List (Nat × Nat × (Nat → BitVec 4 → Bool → BitVec 10 → Instr)) :=
  [(0x100, 1, fun _ g e f => .br g e f),
   (0x101, 1, fun _ g e f => .bri g e f),
   (0x102, 1, fun _ g e f => .call g e f),
   (0x103, 1, fun _ g e f => .calli g e f),
   (0x104, 1, fun _ g e f => .ret g e f),
   (0x108, 2, fun i g e f => .loop g (BitVec.ofNat 1 i) e f),
   (0x10A, 2, fun i g e f => .endl g (BitVec.ofNat 1 i) e f),
   (0x110, 8, fun i g e f => .setf g (BitVec.ofNat 3 i) e f),
   (0x118, 1, fun _ g e f => .setrm g e f),
   (0x120, 4, fun i g e f => .fenceAcq g (BitVec.ofNat 2 i) e f),
   (0x124, 4, fun i g e f => .fenceRel g (BitVec.ofNat 2 i) e f),
   (0x128, 4, fun i g e f => .fenceAr g (BitVec.ofNat 2 i) e f),
   (0x12C, 1, fun _ g e f => .xfence g e f),
   (0x12D, 1, fun _ g e f => .pbar g e f),
   (0x130, 1, fun _ g e f => .bara g e f),
   (0x131, 1, fun _ g e f => .baraRlx g e f),
   (0x132, 1, fun _ g e f => .barw g e f),
   (0x133, 1, fun _ g e f => .bart g e f),
   (0x138, 1, fun _ g e f => .fork g e f),
   (0x139, 1, fun _ g e f => .join g e f),
   (0x13A, 1, fun _ g e f => .yield g e f),
   (0x13B, 1, fun _ g e f => .endTask g e f),
   (0x13C, 1, fun _ g e f => .tickw g e f),
   (0x13D, 1, fun _ g e f => .launch g e f),
   (0x140, 1, fun _ g e f => .trap g e f),
   (0x141, 1, fun _ g e f => .tret g e f),
   (0x142, 1, fun _ g e f => .crgnOpen g e f),
   (0x143, 1, fun _ g e f => .crgnClose g e f),
   (0x144, 1, fun _ g e f => .svc g e f),
   (0x145, 1, fun _ g e f => .abort g e f)]
/-- Ports of the control slot C (Table 2.14), part 2: first port, number of ports, the operation. -/
noncomputable def controlPorts2 : List (Nat × Nat × (Nat → BitVec 4 → Bool → BitVec 10 → Instr)) :=
  [(0x148, 1, fun _ g e f => .srrd g e f),
   (0x149, 1, fun _ g e f => .srwr g e f)]
/-- Ports of the control slot C (Table 2.14). -/
noncomputable def controlPorts : List (Nat × Nat × (Nat → BitVec 4 → Bool → BitVec 10 → Instr)) :=
  controlPorts1 ++ controlPorts2
/-- Ports of the scalar slot S (Table 2.15), part 1: first port, number of ports, the operation. -/
noncomputable def scalarPorts1 : List (Nat × Nat × (Nat → BitVec 4 → Bool → BitVec 10 → Instr)) :=
  [(0x100, 1, fun _ g e f => .add g e f),
   (0x101, 1, fun _ g e f => .sub g e f),
   (0x102, 1, fun _ g e f => .mul g e f),
   (0x103, 1, fun _ g e f => .mulh g e f),
   (0x104, 1, fun _ g e f => .mulhu g e f),
   (0x105, 1, fun _ g e f => .and g e f),
   (0x106, 1, fun _ g e f => .or g e f),
   (0x107, 1, fun _ g e f => .xor g e f),
   (0x108, 1, fun _ g e f => .andn g e f),
   (0x109, 1, fun _ g e f => .shl g e f),
   (0x10A, 1, fun _ g e f => .shr g e f),
   (0x10B, 1, fun _ g e f => .sar g e f),
   (0x10C, 1, fun _ g e f => .rotl g e f),
   (0x10D, 1, fun _ g e f => .minS g e f),
   (0x10E, 1, fun _ g e f => .maxS g e f),
   (0x10F, 1, fun _ g e f => .minu g e f),
   (0x110, 1, fun _ g e f => .maxu g e f),
   (0x111, 1, fun _ g e f => .clz g e f),
   (0x112, 1, fun _ g e f => .ctz g e f),
   (0x113, 1, fun _ g e f => .popc g e f),
   (0x114, 1, fun _ g e f => .sextB g e f),
   (0x115, 1, fun _ g e f => .sextH g e f),
   (0x116, 1, fun _ g e f => .sextW g e f),
   (0x117, 1, fun _ g e f => .zextB g e f),
   (0x118, 1, fun _ g e f => .zextH g e f),
   (0x119, 1, fun _ g e f => .zextW g e f),
   (0x11A, 1, fun _ g e f => .sel g e f),
   (0x11B, 1, fun _ g e f => .addW g e f),
   (0x11C, 1, fun _ g e f => .subW g e f),
   (0x11D, 1, fun _ g e f => .mulW g e f)]
/-- Ports of the scalar slot S (Table 2.15), part 2: first port, number of ports, the operation. -/
noncomputable def scalarPorts2 : List (Nat × Nat × (Nat → BitVec 4 → Bool → BitVec 10 → Instr)) :=
  [(0x11E, 1, fun _ g e f => .lea g e f),
   (0x120, 1, fun _ g e f => .cmpEq g e f),
   (0x121, 1, fun _ g e f => .cmpNe g e f),
   (0x122, 1, fun _ g e f => .cmpLt g e f),
   (0x123, 1, fun _ g e f => .cmpLe g e f),
   (0x124, 1, fun _ g e f => .cmpLtu g e f),
   (0x125, 1, fun _ g e f => .cmpLeu g e f),
   (0x130, 1, fun _ g e f => .div g e f),
   (0x131, 1, fun _ g e f => .divu g e f),
   (0x132, 1, fun _ g e f => .rem g e f),
   (0x133, 1, fun _ g e f => .remu g e f),
   (0x134, 1, fun _ g e f => .divW g e f),
   (0x135, 1, fun _ g e f => .divuW g e f),
   (0x136, 1, fun _ g e f => .remW g e f),
   (0x137, 1, fun _ g e f => .remuW g e f),
   (0x140, 4, fun i g e f => .ldB g (BitVec.ofNat 2 i) e f),
   (0x144, 4, fun i g e f => .ldH g (BitVec.ofNat 2 i) e f),
   (0x148, 4, fun i g e f => .ldW g (BitVec.ofNat 2 i) e f),
   (0x14C, 4, fun i g e f => .ldD g (BitVec.ofNat 2 i) e f),
   (0x150, 4, fun i g e f => .lduB g (BitVec.ofNat 2 i) e f),
   (0x154, 4, fun i g e f => .lduH g (BitVec.ofNat 2 i) e f),
   (0x158, 4, fun i g e f => .lduW g (BitVec.ofNat 2 i) e f),
   (0x160, 4, fun i g e f => .stB g (BitVec.ofNat 2 i) e f),
   (0x164, 4, fun i g e f => .stH g (BitVec.ofNat 2 i) e f),
   (0x168, 4, fun i g e f => .stW g (BitVec.ofNat 2 i) e f),
   (0x16C, 4, fun i g e f => .stD g (BitVec.ofNat 2 i) e f),
   (0x170, 8, fun i g e f => .pwldW g (BitVec.ofNat 3 i) e f),
   (0x178, 8, fun i g e f => .pwldD g (BitVec.ofNat 3 i) e f),
   (0x180, 2, fun i g e f => .aadd g (BitVec.ofNat 1 i) e f),
   (0x182, 2, fun i g e f => .amin g (BitVec.ofNat 1 i) e f)]
/-- Ports of the scalar slot S (Table 2.15), part 3: first port, number of ports, the operation. -/
noncomputable def scalarPorts3 : List (Nat × Nat × (Nat → BitVec 4 → Bool → BitVec 10 → Instr)) :=
  [(0x184, 2, fun i g e f => .amax g (BitVec.ofNat 1 i) e f),
   (0x186, 2, fun i g e f => .aminu g (BitVec.ofNat 1 i) e f),
   (0x188, 2, fun i g e f => .amaxu g (BitVec.ofNat 1 i) e f),
   (0x18A, 2, fun i g e f => .aand g (BitVec.ofNat 1 i) e f),
   (0x18C, 2, fun i g e f => .aor g (BitVec.ofNat 1 i) e f),
   (0x18E, 2, fun i g e f => .axor g (BitVec.ofNat 1 i) e f),
   (0x190, 2, fun i g e f => .axchg g (BitVec.ofNat 1 i) e f),
   (0x192, 2, fun i g e f => .acas g (BitVec.ofNat 1 i) e f),
   (0x1A0, 2, fun i g e f => .aaddN g (BitVec.ofNat 1 i) e f),
   (0x1A2, 2, fun i g e f => .aminN g (BitVec.ofNat 1 i) e f),
   (0x1A4, 2, fun i g e f => .amaxN g (BitVec.ofNat 1 i) e f),
   (0x1A6, 2, fun i g e f => .aminuN g (BitVec.ofNat 1 i) e f),
   (0x1A8, 2, fun i g e f => .amaxuN g (BitVec.ofNat 1 i) e f),
   (0x1AA, 2, fun i g e f => .aandN g (BitVec.ofNat 1 i) e f),
   (0x1AC, 2, fun i g e f => .aorN g (BitVec.ofNat 1 i) e f),
   (0x1AE, 2, fun i g e f => .axorN g (BitVec.ofNat 1 i) e f)]
/-- Ports of the scalar slot S (Table 2.15). -/
noncomputable def scalarPorts : List (Nat × Nat × (Nat → BitVec 4 → Bool → BitVec 10 → Instr)) :=
  scalarPorts1 ++ scalarPorts2 ++ scalarPorts3
/-- Ports of the vector slots VA and VB (Table 2.16), part 1: first port, number of ports, the operation. -/
noncomputable def vectorPorts1 : List (Nat × Nat × (VUnit → Nat → BitVec 4 → Bool → BitVec 10 → Instr)) :=
  [(0x0C3, 1, fun u _ g e f => .msel u g e f),
   (0x100, 3, fun u i g e f => .fadd u g (BitVec.ofNat 2 i) e f),
   (0x104, 3, fun u i g e f => .fsub u g (BitVec.ofNat 2 i) e f),
   (0x108, 3, fun u i g e f => .fmul u g (BitVec.ofNat 2 i) e f),
   (0x10C, 3, fun u i g e f => .ffma u g (BitVec.ofNat 2 i) e f),
   (0x110, 3, fun u i g e f => .ffms u g (BitVec.ofNat 2 i) e f),
   (0x114, 3, fun u i g e f => .fnma u g (BitVec.ofNat 2 i) e f),
   (0x118, 3, fun u i g e f => .fmin u g (BitVec.ofNat 2 i) e f),
   (0x11C, 3, fun u i g e f => .fmax u g (BitVec.ofNat 2 i) e f),
   (0x120, 3, fun u i g e f => .fabs u g (BitVec.ofNat 2 i) e f),
   (0x124, 3, fun u i g e f => .fneg u g (BitVec.ofNat 2 i) e f),
   (0x128, 3, fun u i g e f => .fcpys u g (BitVec.ofNat 2 i) e f),
   (0x12C, 1, fun u _ g e f => .fcmpEq u g e f),
   (0x12D, 1, fun u _ g e f => .fcmpNe u g e f),
   (0x12E, 1, fun u _ g e f => .fcmpLt u g e f),
   (0x12F, 1, fun u _ g e f => .fcmpLe u g e f),
   (0x130, 1, fun u _ g e f => .fcmpUn u g e f),
   (0x138, 1, fun u _ g e f => .vsel u g e f),
   (0x140, 1, fun u _ g e f => .iadd u g e f),
   (0x141, 1, fun u _ g e f => .isub u g e f),
   (0x142, 1, fun u _ g e f => .imul u g e f),
   (0x143, 1, fun u _ g e f => .imulh u g e f),
   (0x144, 1, fun u _ g e f => .imulhu u g e f),
   (0x145, 1, fun u _ g e f => .iand u g e f),
   (0x146, 1, fun u _ g e f => .ior u g e f),
   (0x147, 1, fun u _ g e f => .ixor u g e f),
   (0x148, 1, fun u _ g e f => .iandn u g e f),
   (0x149, 1, fun u _ g e f => .ishl u g e f),
   (0x14A, 1, fun u _ g e f => .ishr u g e f),
   (0x14B, 1, fun u _ g e f => .isar u g e f)]
/-- Ports of the vector slots VA and VB (Table 2.16), part 2: first port, number of ports, the operation. -/
noncomputable def vectorPorts2 : List (Nat × Nat × (VUnit → Nat → BitVec 4 → Bool → BitVec 10 → Instr)) :=
  [(0x14C, 1, fun u _ g e f => .imin u g e f),
   (0x14D, 1, fun u _ g e f => .imax u g e f),
   (0x14E, 1, fun u _ g e f => .iminu u g e f),
   (0x14F, 1, fun u _ g e f => .imaxu u g e f),
   (0x150, 1, fun u _ g e f => .iabs u g e f),
   (0x151, 1, fun u _ g e f => .iaddSat u g e f),
   (0x152, 1, fun u _ g e f => .isubSat u g e f),
   (0x158, 1, fun u _ g e f => .icmpEq u g e f),
   (0x159, 1, fun u _ g e f => .icmpNe u g e f),
   (0x15A, 1, fun u _ g e f => .icmpLt u g e f),
   (0x15B, 1, fun u _ g e f => .icmpLe u g e f),
   (0x15C, 1, fun u _ g e f => .icmpLtu u g e f),
   (0x15D, 1, fun u _ g e f => .icmpLeu u g e f),
   (0x160, 1, fun u _ g e f => .cvtFH u g e f),
   (0x161, 1, fun u _ g e f => .cvtFHh u g e f),
   (0x162, 1, fun u _ g e f => .cvtFB u g e f),
   (0x163, 1, fun u _ g e f => .cvtFBh u g e f),
   (0x164, 1, fun u _ g e f => .cvtHF u g e f),
   (0x165, 1, fun u _ g e f => .cvtBF u g e f),
   (0x166, 1, fun u _ g e f => .cvtIF u g e f),
   (0x167, 1, fun u _ g e f => .cvtFI u g e f),
   (0x168, 1, fun u _ g e f => .cvtI8I u g e f),
   (0x169, 1, fun u _ g e f => .cvtII8 u g e f),
   (0x170, 1, fun u _ g e f => .vbcast u g e f),
   (0x171, 1, fun u _ g e f => .vperm u g e f),
   (0x172, 1, fun u _ g e f => .vrot u g e f),
   (0x173, 1, fun u _ g e f => .vslup u g e f),
   (0x174, 1, fun u _ g e f => .vsldn u g e f),
   (0x175, 1, fun u _ g e f => .vextl u g e f),
   (0x178, 1, fun u _ g e f => .mand u g e f)]
/-- Ports of the vector slots VA and VB (Table 2.16), part 3: first port, number of ports, the operation. -/
noncomputable def vectorPorts3 : List (Nat × Nat × (VUnit → Nat → BitVec 4 → Bool → BitVec 10 → Instr)) :=
  [(0x179, 1, fun u _ g e f => .mor u g e f),
   (0x17A, 1, fun u _ g e f => .mxor u g e f),
   (0x17B, 1, fun u _ g e f => .mnot u g e f),
   (0x17C, 1, fun u _ g e f => .mpop u g e f),
   (0x17D, 1, fun u _ g e f => .mfirst u g e f),
   (0x180, 1, fun u _ g e f => .frcp u g e f),
   (0x181, 1, fun u _ g e f => .frsq u g e f),
   (0x182, 1, fun u _ g e f => .fsqrt u g e f),
   (0x183, 1, fun u _ g e f => .fexp2 u g e f),
   (0x184, 1, fun u _ g e f => .flog2 u g e f),
   (0x185, 1, fun u _ g e f => .fdiv u g e f),
   (0x188, 1, fun u _ g e f => .rsumF u g e f),
   (0x189, 1, fun u _ g e f => .rmaxF u g e f),
   (0x18A, 1, fun u _ g e f => .rminF u g e f),
   (0x18B, 1, fun u _ g e f => .rsumI u g e f),
   (0x18C, 1, fun u _ g e f => .rmaxI u g e f),
   (0x18D, 1, fun u _ g e f => .rminI u g e f),
   (0x190, 1, fun u _ g e f => .smx u g e f),
   (0x191, 1, fun u _ g e f => .smxf u g e f),
   (0x1A0, 8, fun u i g e f => .qnt u g (BitVec.ofNat 3 i) e f),
   (0x1A8, 8, fun u i g e f => .dqnt u g (BitVec.ofNat 3 i) e f)]
/-- Ports of the vector slots VA and VB (Table 2.16). -/
noncomputable def vectorPorts : List (Nat × Nat × (VUnit → Nat → BitVec 4 → Bool → BitVec 10 → Instr)) :=
  vectorPorts1 ++ vectorPorts2 ++ vectorPorts3
/-- Ports of the matrix slot M (Table 2.17), part 1: first port, number of ports, the operation. -/
noncomputable def matrixPorts1 : List (Nat × Nat × (Nat → BitVec 4 → Bool → BitVec 10 → Instr)) :=
  [(0x0C4, 1, fun _ g e f => .mcfg g e f),
   (0x0C5, 1, fun _ g e f => .msla g e f),
   (0x0C6, 1, fun _ g e f => .mslb g e f),
   (0x0C7, 1, fun _ g e f => .mklen g e f),
   (0x0C8, 1, fun _ g e f => .mbthr g e f),
   (0x0C9, 1, fun _ g e f => .mchk g e f),
   (0x0CA, 1, fun _ g e f => .mdtm g e f),
   (0x0CB, 1, fun _ g e f => .mgrp g e f),
   (0x100, 1, fun _ g e f => .mbPa g e f),
   (0x101, 1, fun _ g e f => .mbP g e f),
   (0x102, 1, fun _ g e f => .mbS g e f),
   (0x103, 1, fun _ g e f => .mbA g e f),
   (0x104, 1, fun _ g e f => .mbD g e f),
   (0x110, 1, fun _ g e f => .mtile g e f),
   (0x111, 1, fun _ g e f => .mtileW g e f),
   (0x112, 1, fun _ g e f => .mzero g e f),
   (0x113, 1, fun _ g e f => .mbank g e f),
   (0x118, 1, fun _ g e f => .mdrnSt g e f),
   (0x119, 1, fun _ g e f => .mdrnCvt g e f),
   (0x11A, 1, fun _ g e f => .mdrnAdd g e f),
   (0x11B, 1, fun _ g e f => .mdrnAddc g e f),
   (0x120, 1, fun _ g e f => .mclaimA g e f),
   (0x121, 1, fun _ g e f => .mclaimB g e f),
   (0x122, 1, fun _ g e f => .mrel g e f),
   (0x128, 1, fun _ g e f => .mbndRd g e f),
   (0x129, 1, fun _ g e f => .mbndWr g e f),
   (0x12A, 1, fun _ g e f => .mchkNow g e f),
   (0x130, 1, fun _ g e f => .mwait g e f),
   (0x131, 1, fun _ g e f => .mstat g e f)]
/-- Ports of the matrix slot M (Table 2.17). -/
noncomputable def matrixPorts : List (Nat × Nat × (Nat → BitVec 4 → Bool → BitVec 10 → Instr)) :=
  matrixPorts1
/-- Ports of the copy slots KA and KB (Table 2.18), part 1: first port, number of ports, the operation. -/
noncomputable def copyPorts1 : List (Nat × Nat × (KUnit → Nat → BitVec 4 → Bool → BitVec 10 → Instr)) :=
  [(0x0C4, 1, fun k _ g e f => .kflg k g e f),
   (0x0C5, 1, fun k _ g e f => .ksw k g e f),
   (0x100, 1, fun k _ g e f => .spld k g e f),
   (0x101, 1, fun k _ g e f => .spldH k g e f),
   (0x102, 1, fun k _ g e f => .spldBc k g e f),
   (0x103, 1, fun k _ g e f => .spldG k g e f),
   (0x104, 4, fun k i g e f => .spldAg k g (BitVec.ofNat 2 i) e f),
   (0x108, 1, fun k _ g e f => .spst k g e f),
   (0x109, 1, fun k _ g e f => .spstM k g e f),
   (0x10A, 1, fun k _ g e f => .spstS k g e f),
   (0x10C, 4, fun k i g e f => .spstAg k g (BitVec.ofNat 2 i) e f),
   (0x110, 4, fun k i g e f => .agSet k g (BitVec.ofNat 2 i) e f),
   (0x114, 4, fun k i g e f => .agPos k g (BitVec.ofNat 2 i) e f),
   (0x118, 1, fun k _ g e f => .mopld k g e f),
   (0x119, 1, fun k _ g e f => .mopldT k g e f),
   (0x120, 1, fun k _ g e f => .xcopy k g e f),
   (0x121, 1, fun k _ g e f => .xgath k g e f),
   (0x122, 1, fun k _ g e f => .xscat k g e f),
   (0x123, 1, fun k _ g e f => .xmcast k g e f),
   (0x124, 1, fun k _ g e f => .xred k g e f),
   (0x125, 1, fun k _ g e f => .xhalo k g e f),
   (0x126, 1, fun k _ g e f => .xresh k g e f),
   (0x130, 1, fun k _ g e f => .swInit k g e f),
   (0x131, 1, fun k _ g e f => .swAdd k g e f),
   (0x132, 1, fun k _ g e f => .swWait k g e f),
   (0x133, 1, fun k _ g e f => .swTest k g e f),
   (0x134, 1, fun k _ g e f => .swRd k g e f),
   (0x138, 1, fun k _ g e f => .qput k g e f),
   (0x139, 1, fun k _ g e f => .qget k g e f),
   (0x140, 1, fun k _ g e f => .ingPop k g e f)]
/-- Ports of the copy slots KA and KB (Table 2.18), part 2: first port, number of ports, the operation. -/
noncomputable def copyPorts2 : List (Nat × Nat × (KUnit → Nat → BitVec 4 → Bool → BitVec 10 → Instr)) :=
  [(0x141, 1, fun k _ g e f => .kvApp k g e f),
   (0x142, 1, fun k _ g e f => .kvExt k g e f),
   (0x148, 1, fun k _ g e f => .pfxHash k g e f),
   (0x149, 1, fun k _ g e f => .pfxLook k g e f),
   (0x14A, 1, fun k _ g e f => .pfxIns k g e f),
   (0x14B, 1, fun k _ g e f => .pfxPin k g e f),
   (0x14C, 1, fun k _ g e f => .pfxUnpin k g e f)]
/-- Ports of the copy slots KA and KB (Table 2.18). -/
noncomputable def copyPorts : List (Nat × Nat × (KUnit → Nat → BitVec 4 → Bool → BitVec 10 → Instr)) :=
  copyPorts1 ++ copyPorts2

/-- The row of a port table that holds port `q`, with the port's number in it. -/
def findPort {α : Type} : List (Nat × Nat × α) → Nat → Option (Nat × α)
  | [], _ => none
  | (base, n, mk) :: rest, q => if base ≤ q && q < base + n then some (q - base, mk) else findPort rest q

/-- Tables 2.14 to 2.18: the operation of a port of a slot. -/
noncomputable def decodePort (m : MoveFields) : Option Instr :=
  match m.slot with
  | .c => (findPort controlPorts m.port.toNat).map fun r => r.2 r.1 m.g m.e m.f
  | .s => (findPort scalarPorts m.port.toNat).map fun r => r.2 r.1 m.g m.e m.f
  | .va => (findPort vectorPorts m.port.toNat).map fun r => r.2 .va r.1 m.g m.e m.f
  | .vb => (findPort vectorPorts m.port.toNat).map fun r => r.2 .vb r.1 m.g m.e m.f
  | .m => (findPort matrixPorts m.port.toNat).map fun r => r.2 r.1 m.g m.e m.f
  | .ka => (findPort copyPorts m.port.toNat).map fun r => r.2 .ka r.1 m.g m.e m.f
  | .kb => (findPort copyPorts m.port.toNat).map fun r => r.2 .kb r.1 m.g m.e m.f

/-- R34 to R38, R48: the instruction a parcel of a slot stands for; `lit` whether slot L is present. -/
noncomputable def decodeMove (slot : Slot) (lit : Bool) (p : Parcel) : Except Reject Instr :=
  let m := MoveFields.ofParcel slot p
  match moveFault slot lit p with
  | some r => .error r
  | none =>
    if toRegister m.port then .ok (.move slot m.g m.port m.e m.f)
    else match decodePort m with
      | some i => .ok i
      | none => .error .destination

/-- R28: the parcels of the present slots, given the parcels after the header: moves in slot order, and the literal. -/
def splitSlots (h : Header) : List Slot → List Parcel → List (Slot × Parcel) × List Parcel
  | [], ps => ([], ps)
  | sl :: rest, ps =>
    if h.has sl.index then
      match ps with
      | [] => ([], [])
      | p :: ps' => let r := splitSlots h rest ps'; ((sl, p) :: r.1, r.2)
    else splitSlots h rest ps
/-- R28: the moves and the literal of a bundle with header `h` and following parcels `ps`. -/
def splitBundle (h : Header) (ps : List Parcel) : List (Slot × Parcel) × Option Parcel :=
  let r := splitSlots h slotList ps
  (r.1, if h.has 7 then r.2.head? else none)
/-- R48: the first faulty move in slot order, with its place among the parcels after the header. -/
def firstBad (lit : Bool) : List (Slot × Parcel) → Nat → Option (Nat × Reject)
  | [], _ => none
  | (sl, p) :: rest, i =>
    match moveFault sl lit p with
    | some r => some (i, r)
    | none => firstBad lit rest (i + 1)

/-- R26: a parcel from its three bytes, lowest address first. -/
def parcelOfBytes (b0 b1 b2 : Byte) : Parcel := b2 ++ b1 ++ b0
/-- R26: the bytes of a parcel, lowest address first. -/
def parcelBytes (p : Parcel) : List Byte := [p.extractLsb' 0 8, p.extractLsb' 8 8, p.extractLsb' 16 8]

/-- The slots in which a bare parcel of the table is looked for, in turn (DESIGN CHOICE log 4). -/
def tableSlots : List Slot := [.m, .ka, .va, .s, .c]
/-- The first slot of a list in which a parcel decodes, with its instruction. -/
noncomputable def firstSlot (p : Parcel) : List Slot → Option (Slot × Instr)
  | [] => none
  | sl :: rest =>
    match decodeMove sl true p with
    | .ok i => some (sl, i)
    | .error _ => firstSlot p rest
/-- The slot and instruction of a bare word of the opcode table, its bytes laid out as the hardware stores them (DESIGN CHOICE log 4). -/
noncomputable def tableInstr (nbits w : Nat) : Option (Slot × Instr) :=
  if nbits = 24 then firstSlot (parcelOfBytes (BitVec.ofNat 8 w) (BitVec.ofNat 8 (w / 256)) (BitVec.ofNat 8 (w / 65536))) tableSlots
  else none
/-- The instruction the decoder reads from a word of the opcode table (DESIGN CHOICE log 4). -/
noncomputable def decodeTableWord (nbits w : Nat) : Option Instr := (tableInstr nbits w).map (·.2)

/-! ## The encoder -/

/-- Tables 2.3 and 2.14 to 2.18: the move parcel's fields of an instruction; none for a step that has no encoding. -/
def Instr.fields : Instr → Option MoveFields
  | .move slot g d e f => some ⟨slot, g, d, e, f⟩
  | .br g e f => some ⟨.c, g, 0x100, e, f⟩
  | .bri g e f => some ⟨.c, g, 0x101, e, f⟩
  | .call g e f => some ⟨.c, g, 0x102, e, f⟩
  | .calli g e f => some ⟨.c, g, 0x103, e, f⟩
  | .ret g e f => some ⟨.c, g, 0x104, e, f⟩
  | .loop g x e f => some ⟨.c, g, 0x108 + BitVec.setWidth 9 x, e, f⟩
  | .endl g x e f => some ⟨.c, g, 0x10A + BitVec.setWidth 9 x, e, f⟩
  | .setf g x e f => some ⟨.c, g, 0x110 + BitVec.setWidth 9 x, e, f⟩
  | .setrm g e f => some ⟨.c, g, 0x118, e, f⟩
  | .fenceAcq g x e f => some ⟨.c, g, 0x120 + BitVec.setWidth 9 x, e, f⟩
  | .fenceRel g x e f => some ⟨.c, g, 0x124 + BitVec.setWidth 9 x, e, f⟩
  | .fenceAr g x e f => some ⟨.c, g, 0x128 + BitVec.setWidth 9 x, e, f⟩
  | .xfence g e f => some ⟨.c, g, 0x12C, e, f⟩
  | .pbar g e f => some ⟨.c, g, 0x12D, e, f⟩
  | .bara g e f => some ⟨.c, g, 0x130, e, f⟩
  | .baraRlx g e f => some ⟨.c, g, 0x131, e, f⟩
  | .barw g e f => some ⟨.c, g, 0x132, e, f⟩
  | .bart g e f => some ⟨.c, g, 0x133, e, f⟩
  | .fork g e f => some ⟨.c, g, 0x138, e, f⟩
  | .join g e f => some ⟨.c, g, 0x139, e, f⟩
  | .yield g e f => some ⟨.c, g, 0x13A, e, f⟩
  | .endTask g e f => some ⟨.c, g, 0x13B, e, f⟩
  | .tickw g e f => some ⟨.c, g, 0x13C, e, f⟩
  | .launch g e f => some ⟨.c, g, 0x13D, e, f⟩
  | .trap g e f => some ⟨.c, g, 0x140, e, f⟩
  | .tret g e f => some ⟨.c, g, 0x141, e, f⟩
  | .crgnOpen g e f => some ⟨.c, g, 0x142, e, f⟩
  | .crgnClose g e f => some ⟨.c, g, 0x143, e, f⟩
  | .svc g e f => some ⟨.c, g, 0x144, e, f⟩
  | .abort g e f => some ⟨.c, g, 0x145, e, f⟩
  | .srrd g e f => some ⟨.c, g, 0x148, e, f⟩
  | .srwr g e f => some ⟨.c, g, 0x149, e, f⟩
  | .add g e f => some ⟨.s, g, 0x100, e, f⟩
  | .sub g e f => some ⟨.s, g, 0x101, e, f⟩
  | .mul g e f => some ⟨.s, g, 0x102, e, f⟩
  | .mulh g e f => some ⟨.s, g, 0x103, e, f⟩
  | .mulhu g e f => some ⟨.s, g, 0x104, e, f⟩
  | .and g e f => some ⟨.s, g, 0x105, e, f⟩
  | .or g e f => some ⟨.s, g, 0x106, e, f⟩
  | .xor g e f => some ⟨.s, g, 0x107, e, f⟩
  | .andn g e f => some ⟨.s, g, 0x108, e, f⟩
  | .shl g e f => some ⟨.s, g, 0x109, e, f⟩
  | .shr g e f => some ⟨.s, g, 0x10A, e, f⟩
  | .sar g e f => some ⟨.s, g, 0x10B, e, f⟩
  | .rotl g e f => some ⟨.s, g, 0x10C, e, f⟩
  | .minS g e f => some ⟨.s, g, 0x10D, e, f⟩
  | .maxS g e f => some ⟨.s, g, 0x10E, e, f⟩
  | .minu g e f => some ⟨.s, g, 0x10F, e, f⟩
  | .maxu g e f => some ⟨.s, g, 0x110, e, f⟩
  | .clz g e f => some ⟨.s, g, 0x111, e, f⟩
  | .ctz g e f => some ⟨.s, g, 0x112, e, f⟩
  | .popc g e f => some ⟨.s, g, 0x113, e, f⟩
  | .sextB g e f => some ⟨.s, g, 0x114, e, f⟩
  | .sextH g e f => some ⟨.s, g, 0x115, e, f⟩
  | .sextW g e f => some ⟨.s, g, 0x116, e, f⟩
  | .zextB g e f => some ⟨.s, g, 0x117, e, f⟩
  | .zextH g e f => some ⟨.s, g, 0x118, e, f⟩
  | .zextW g e f => some ⟨.s, g, 0x119, e, f⟩
  | .sel g e f => some ⟨.s, g, 0x11A, e, f⟩
  | .addW g e f => some ⟨.s, g, 0x11B, e, f⟩
  | .subW g e f => some ⟨.s, g, 0x11C, e, f⟩
  | .mulW g e f => some ⟨.s, g, 0x11D, e, f⟩
  | .lea g e f => some ⟨.s, g, 0x11E, e, f⟩
  | .cmpEq g e f => some ⟨.s, g, 0x120, e, f⟩
  | .cmpNe g e f => some ⟨.s, g, 0x121, e, f⟩
  | .cmpLt g e f => some ⟨.s, g, 0x122, e, f⟩
  | .cmpLe g e f => some ⟨.s, g, 0x123, e, f⟩
  | .cmpLtu g e f => some ⟨.s, g, 0x124, e, f⟩
  | .cmpLeu g e f => some ⟨.s, g, 0x125, e, f⟩
  | .div g e f => some ⟨.s, g, 0x130, e, f⟩
  | .divu g e f => some ⟨.s, g, 0x131, e, f⟩
  | .rem g e f => some ⟨.s, g, 0x132, e, f⟩
  | .remu g e f => some ⟨.s, g, 0x133, e, f⟩
  | .divW g e f => some ⟨.s, g, 0x134, e, f⟩
  | .divuW g e f => some ⟨.s, g, 0x135, e, f⟩
  | .remW g e f => some ⟨.s, g, 0x136, e, f⟩
  | .remuW g e f => some ⟨.s, g, 0x137, e, f⟩
  | .ldB g x e f => some ⟨.s, g, 0x140 + BitVec.setWidth 9 x, e, f⟩
  | .ldH g x e f => some ⟨.s, g, 0x144 + BitVec.setWidth 9 x, e, f⟩
  | .ldW g x e f => some ⟨.s, g, 0x148 + BitVec.setWidth 9 x, e, f⟩
  | .ldD g x e f => some ⟨.s, g, 0x14C + BitVec.setWidth 9 x, e, f⟩
  | .lduB g x e f => some ⟨.s, g, 0x150 + BitVec.setWidth 9 x, e, f⟩
  | .lduH g x e f => some ⟨.s, g, 0x154 + BitVec.setWidth 9 x, e, f⟩
  | .lduW g x e f => some ⟨.s, g, 0x158 + BitVec.setWidth 9 x, e, f⟩
  | .stB g x e f => some ⟨.s, g, 0x160 + BitVec.setWidth 9 x, e, f⟩
  | .stH g x e f => some ⟨.s, g, 0x164 + BitVec.setWidth 9 x, e, f⟩
  | .stW g x e f => some ⟨.s, g, 0x168 + BitVec.setWidth 9 x, e, f⟩
  | .stD g x e f => some ⟨.s, g, 0x16C + BitVec.setWidth 9 x, e, f⟩
  | .pwldW g x e f => some ⟨.s, g, 0x170 + BitVec.setWidth 9 x, e, f⟩
  | .pwldD g x e f => some ⟨.s, g, 0x178 + BitVec.setWidth 9 x, e, f⟩
  | .aadd g x e f => some ⟨.s, g, 0x180 + BitVec.setWidth 9 x, e, f⟩
  | .amin g x e f => some ⟨.s, g, 0x182 + BitVec.setWidth 9 x, e, f⟩
  | .amax g x e f => some ⟨.s, g, 0x184 + BitVec.setWidth 9 x, e, f⟩
  | .aminu g x e f => some ⟨.s, g, 0x186 + BitVec.setWidth 9 x, e, f⟩
  | .amaxu g x e f => some ⟨.s, g, 0x188 + BitVec.setWidth 9 x, e, f⟩
  | .aand g x e f => some ⟨.s, g, 0x18A + BitVec.setWidth 9 x, e, f⟩
  | .aor g x e f => some ⟨.s, g, 0x18C + BitVec.setWidth 9 x, e, f⟩
  | .axor g x e f => some ⟨.s, g, 0x18E + BitVec.setWidth 9 x, e, f⟩
  | .axchg g x e f => some ⟨.s, g, 0x190 + BitVec.setWidth 9 x, e, f⟩
  | .acas g x e f => some ⟨.s, g, 0x192 + BitVec.setWidth 9 x, e, f⟩
  | .aaddN g x e f => some ⟨.s, g, 0x1A0 + BitVec.setWidth 9 x, e, f⟩
  | .aminN g x e f => some ⟨.s, g, 0x1A2 + BitVec.setWidth 9 x, e, f⟩
  | .amaxN g x e f => some ⟨.s, g, 0x1A4 + BitVec.setWidth 9 x, e, f⟩
  | .aminuN g x e f => some ⟨.s, g, 0x1A6 + BitVec.setWidth 9 x, e, f⟩
  | .amaxuN g x e f => some ⟨.s, g, 0x1A8 + BitVec.setWidth 9 x, e, f⟩
  | .aandN g x e f => some ⟨.s, g, 0x1AA + BitVec.setWidth 9 x, e, f⟩
  | .aorN g x e f => some ⟨.s, g, 0x1AC + BitVec.setWidth 9 x, e, f⟩
  | .axorN g x e f => some ⟨.s, g, 0x1AE + BitVec.setWidth 9 x, e, f⟩
  | .msel u g e f => some ⟨u.slot, g, 0x0C3, e, f⟩
  | .fadd u g x e f => some ⟨u.slot, g, 0x100 + BitVec.setWidth 9 x, e, f⟩
  | .fsub u g x e f => some ⟨u.slot, g, 0x104 + BitVec.setWidth 9 x, e, f⟩
  | .fmul u g x e f => some ⟨u.slot, g, 0x108 + BitVec.setWidth 9 x, e, f⟩
  | .ffma u g x e f => some ⟨u.slot, g, 0x10C + BitVec.setWidth 9 x, e, f⟩
  | .ffms u g x e f => some ⟨u.slot, g, 0x110 + BitVec.setWidth 9 x, e, f⟩
  | .fnma u g x e f => some ⟨u.slot, g, 0x114 + BitVec.setWidth 9 x, e, f⟩
  | .fmin u g x e f => some ⟨u.slot, g, 0x118 + BitVec.setWidth 9 x, e, f⟩
  | .fmax u g x e f => some ⟨u.slot, g, 0x11C + BitVec.setWidth 9 x, e, f⟩
  | .fabs u g x e f => some ⟨u.slot, g, 0x120 + BitVec.setWidth 9 x, e, f⟩
  | .fneg u g x e f => some ⟨u.slot, g, 0x124 + BitVec.setWidth 9 x, e, f⟩
  | .fcpys u g x e f => some ⟨u.slot, g, 0x128 + BitVec.setWidth 9 x, e, f⟩
  | .fcmpEq u g e f => some ⟨u.slot, g, 0x12C, e, f⟩
  | .fcmpNe u g e f => some ⟨u.slot, g, 0x12D, e, f⟩
  | .fcmpLt u g e f => some ⟨u.slot, g, 0x12E, e, f⟩
  | .fcmpLe u g e f => some ⟨u.slot, g, 0x12F, e, f⟩
  | .fcmpUn u g e f => some ⟨u.slot, g, 0x130, e, f⟩
  | .vsel u g e f => some ⟨u.slot, g, 0x138, e, f⟩
  | .iadd u g e f => some ⟨u.slot, g, 0x140, e, f⟩
  | .isub u g e f => some ⟨u.slot, g, 0x141, e, f⟩
  | .imul u g e f => some ⟨u.slot, g, 0x142, e, f⟩
  | .imulh u g e f => some ⟨u.slot, g, 0x143, e, f⟩
  | .imulhu u g e f => some ⟨u.slot, g, 0x144, e, f⟩
  | .iand u g e f => some ⟨u.slot, g, 0x145, e, f⟩
  | .ior u g e f => some ⟨u.slot, g, 0x146, e, f⟩
  | .ixor u g e f => some ⟨u.slot, g, 0x147, e, f⟩
  | .iandn u g e f => some ⟨u.slot, g, 0x148, e, f⟩
  | .ishl u g e f => some ⟨u.slot, g, 0x149, e, f⟩
  | .ishr u g e f => some ⟨u.slot, g, 0x14A, e, f⟩
  | .isar u g e f => some ⟨u.slot, g, 0x14B, e, f⟩
  | .imin u g e f => some ⟨u.slot, g, 0x14C, e, f⟩
  | .imax u g e f => some ⟨u.slot, g, 0x14D, e, f⟩
  | .iminu u g e f => some ⟨u.slot, g, 0x14E, e, f⟩
  | .imaxu u g e f => some ⟨u.slot, g, 0x14F, e, f⟩
  | .iabs u g e f => some ⟨u.slot, g, 0x150, e, f⟩
  | .iaddSat u g e f => some ⟨u.slot, g, 0x151, e, f⟩
  | .isubSat u g e f => some ⟨u.slot, g, 0x152, e, f⟩
  | .icmpEq u g e f => some ⟨u.slot, g, 0x158, e, f⟩
  | .icmpNe u g e f => some ⟨u.slot, g, 0x159, e, f⟩
  | .icmpLt u g e f => some ⟨u.slot, g, 0x15A, e, f⟩
  | .icmpLe u g e f => some ⟨u.slot, g, 0x15B, e, f⟩
  | .icmpLtu u g e f => some ⟨u.slot, g, 0x15C, e, f⟩
  | .icmpLeu u g e f => some ⟨u.slot, g, 0x15D, e, f⟩
  | .cvtFH u g e f => some ⟨u.slot, g, 0x160, e, f⟩
  | .cvtFHh u g e f => some ⟨u.slot, g, 0x161, e, f⟩
  | .cvtFB u g e f => some ⟨u.slot, g, 0x162, e, f⟩
  | .cvtFBh u g e f => some ⟨u.slot, g, 0x163, e, f⟩
  | .cvtHF u g e f => some ⟨u.slot, g, 0x164, e, f⟩
  | .cvtBF u g e f => some ⟨u.slot, g, 0x165, e, f⟩
  | .cvtIF u g e f => some ⟨u.slot, g, 0x166, e, f⟩
  | .cvtFI u g e f => some ⟨u.slot, g, 0x167, e, f⟩
  | .cvtI8I u g e f => some ⟨u.slot, g, 0x168, e, f⟩
  | .cvtII8 u g e f => some ⟨u.slot, g, 0x169, e, f⟩
  | .vbcast u g e f => some ⟨u.slot, g, 0x170, e, f⟩
  | .vperm u g e f => some ⟨u.slot, g, 0x171, e, f⟩
  | .vrot u g e f => some ⟨u.slot, g, 0x172, e, f⟩
  | .vslup u g e f => some ⟨u.slot, g, 0x173, e, f⟩
  | .vsldn u g e f => some ⟨u.slot, g, 0x174, e, f⟩
  | .vextl u g e f => some ⟨u.slot, g, 0x175, e, f⟩
  | .mand u g e f => some ⟨u.slot, g, 0x178, e, f⟩
  | .mor u g e f => some ⟨u.slot, g, 0x179, e, f⟩
  | .mxor u g e f => some ⟨u.slot, g, 0x17A, e, f⟩
  | .mnot u g e f => some ⟨u.slot, g, 0x17B, e, f⟩
  | .mpop u g e f => some ⟨u.slot, g, 0x17C, e, f⟩
  | .mfirst u g e f => some ⟨u.slot, g, 0x17D, e, f⟩
  | .frcp u g e f => some ⟨u.slot, g, 0x180, e, f⟩
  | .frsq u g e f => some ⟨u.slot, g, 0x181, e, f⟩
  | .fsqrt u g e f => some ⟨u.slot, g, 0x182, e, f⟩
  | .fexp2 u g e f => some ⟨u.slot, g, 0x183, e, f⟩
  | .flog2 u g e f => some ⟨u.slot, g, 0x184, e, f⟩
  | .fdiv u g e f => some ⟨u.slot, g, 0x185, e, f⟩
  | .rsumF u g e f => some ⟨u.slot, g, 0x188, e, f⟩
  | .rmaxF u g e f => some ⟨u.slot, g, 0x189, e, f⟩
  | .rminF u g e f => some ⟨u.slot, g, 0x18A, e, f⟩
  | .rsumI u g e f => some ⟨u.slot, g, 0x18B, e, f⟩
  | .rmaxI u g e f => some ⟨u.slot, g, 0x18C, e, f⟩
  | .rminI u g e f => some ⟨u.slot, g, 0x18D, e, f⟩
  | .smx u g e f => some ⟨u.slot, g, 0x190, e, f⟩
  | .smxf u g e f => some ⟨u.slot, g, 0x191, e, f⟩
  | .qnt u g x e f => some ⟨u.slot, g, 0x1A0 + BitVec.setWidth 9 x, e, f⟩
  | .dqnt u g x e f => some ⟨u.slot, g, 0x1A8 + BitVec.setWidth 9 x, e, f⟩
  | .mcfg g e f => some ⟨.m, g, 0x0C4, e, f⟩
  | .msla g e f => some ⟨.m, g, 0x0C5, e, f⟩
  | .mslb g e f => some ⟨.m, g, 0x0C6, e, f⟩
  | .mklen g e f => some ⟨.m, g, 0x0C7, e, f⟩
  | .mbthr g e f => some ⟨.m, g, 0x0C8, e, f⟩
  | .mchk g e f => some ⟨.m, g, 0x0C9, e, f⟩
  | .mdtm g e f => some ⟨.m, g, 0x0CA, e, f⟩
  | .mgrp g e f => some ⟨.m, g, 0x0CB, e, f⟩
  | .mbPa g e f => some ⟨.m, g, 0x100, e, f⟩
  | .mbP g e f => some ⟨.m, g, 0x101, e, f⟩
  | .mbS g e f => some ⟨.m, g, 0x102, e, f⟩
  | .mbA g e f => some ⟨.m, g, 0x103, e, f⟩
  | .mbD g e f => some ⟨.m, g, 0x104, e, f⟩
  | .mtile g e f => some ⟨.m, g, 0x110, e, f⟩
  | .mtileW g e f => some ⟨.m, g, 0x111, e, f⟩
  | .mzero g e f => some ⟨.m, g, 0x112, e, f⟩
  | .mbank g e f => some ⟨.m, g, 0x113, e, f⟩
  | .mdrnSt g e f => some ⟨.m, g, 0x118, e, f⟩
  | .mdrnCvt g e f => some ⟨.m, g, 0x119, e, f⟩
  | .mdrnAdd g e f => some ⟨.m, g, 0x11A, e, f⟩
  | .mdrnAddc g e f => some ⟨.m, g, 0x11B, e, f⟩
  | .mclaimA g e f => some ⟨.m, g, 0x120, e, f⟩
  | .mclaimB g e f => some ⟨.m, g, 0x121, e, f⟩
  | .mrel g e f => some ⟨.m, g, 0x122, e, f⟩
  | .mbndRd g e f => some ⟨.m, g, 0x128, e, f⟩
  | .mbndWr g e f => some ⟨.m, g, 0x129, e, f⟩
  | .mchkNow g e f => some ⟨.m, g, 0x12A, e, f⟩
  | .mwait g e f => some ⟨.m, g, 0x130, e, f⟩
  | .mstat g e f => some ⟨.m, g, 0x131, e, f⟩
  | .kflg k g e f => some ⟨k.slot, g, 0x0C4, e, f⟩
  | .ksw k g e f => some ⟨k.slot, g, 0x0C5, e, f⟩
  | .spld k g e f => some ⟨k.slot, g, 0x100, e, f⟩
  | .spldH k g e f => some ⟨k.slot, g, 0x101, e, f⟩
  | .spldBc k g e f => some ⟨k.slot, g, 0x102, e, f⟩
  | .spldG k g e f => some ⟨k.slot, g, 0x103, e, f⟩
  | .spldAg k g x e f => some ⟨k.slot, g, 0x104 + BitVec.setWidth 9 x, e, f⟩
  | .spst k g e f => some ⟨k.slot, g, 0x108, e, f⟩
  | .spstM k g e f => some ⟨k.slot, g, 0x109, e, f⟩
  | .spstS k g e f => some ⟨k.slot, g, 0x10A, e, f⟩
  | .spstAg k g x e f => some ⟨k.slot, g, 0x10C + BitVec.setWidth 9 x, e, f⟩
  | .agSet k g x e f => some ⟨k.slot, g, 0x110 + BitVec.setWidth 9 x, e, f⟩
  | .agPos k g x e f => some ⟨k.slot, g, 0x114 + BitVec.setWidth 9 x, e, f⟩
  | .mopld k g e f => some ⟨k.slot, g, 0x118, e, f⟩
  | .mopldT k g e f => some ⟨k.slot, g, 0x119, e, f⟩
  | .xcopy k g e f => some ⟨k.slot, g, 0x120, e, f⟩
  | .xgath k g e f => some ⟨k.slot, g, 0x121, e, f⟩
  | .xscat k g e f => some ⟨k.slot, g, 0x122, e, f⟩
  | .xmcast k g e f => some ⟨k.slot, g, 0x123, e, f⟩
  | .xred k g e f => some ⟨k.slot, g, 0x124, e, f⟩
  | .xhalo k g e f => some ⟨k.slot, g, 0x125, e, f⟩
  | .xresh k g e f => some ⟨k.slot, g, 0x126, e, f⟩
  | .swInit k g e f => some ⟨k.slot, g, 0x130, e, f⟩
  | .swAdd k g e f => some ⟨k.slot, g, 0x131, e, f⟩
  | .swWait k g e f => some ⟨k.slot, g, 0x132, e, f⟩
  | .swTest k g e f => some ⟨k.slot, g, 0x133, e, f⟩
  | .swRd k g e f => some ⟨k.slot, g, 0x134, e, f⟩
  | .qput k g e f => some ⟨k.slot, g, 0x138, e, f⟩
  | .qget k g e f => some ⟨k.slot, g, 0x139, e, f⟩
  | .ingPop k g e f => some ⟨k.slot, g, 0x140, e, f⟩
  | .kvApp k g e f => some ⟨k.slot, g, 0x141, e, f⟩
  | .kvExt k g e f => some ⟨k.slot, g, 0x142, e, f⟩
  | .pfxHash k g e f => some ⟨k.slot, g, 0x148, e, f⟩
  | .pfxLook k g e f => some ⟨k.slot, g, 0x149, e, f⟩
  | .pfxIns k g e f => some ⟨k.slot, g, 0x14A, e, f⟩
  | .pfxPin k g e f => some ⟨k.slot, g, 0x14B, e, f⟩
  | .pfxUnpin k g e f => some ⟨k.slot, g, 0x14C, e, f⟩
  | _ => none

/-- The words of an instruction: the parcel of its slot; none for a step that has no encoding. -/
def encode (i : Instr) : Option (Slot × Parcel) := i.fields.map fun m => (m.slot, m.parcel)

end Sys2Proof
end

