-- ==== Sys2Proof/Machine/State.lean ====
section
/-! DEFINITION. The state of a package: 256 cores, 8 dies, and what the firmware, the host link and the clock hold.
Plain data. Every field cites the rule of spec/ that names it; the model's own fields say so. -/
namespace Sys2Proof.Machine

/-! ## Values -/

/-- A 64-bit value with its poison mark (R39, R328). -/
structure SVal where
  val : W64
  poi : Bool
deriving DecidableEq, Repr
/-- A vector-width value with a poison mark for each lane (R39, R211). -/
structure VVal where
  val : Vec
  poi : Mask
deriving DecidableEq, Repr
/-- A value on its way through a move, by the width of its source (Table 2.8). -/
inductive Val
  /-- 64-bit -/
  | sc (v : SVal)
  /-- vector-width -/
  | vec (v : VVal)
  /-- mask -/
  | msk (v : Mask)
deriving DecidableEq, Repr

/-- An s register with its full/empty bit (R163). -/
structure SReg where
  v : SVal
  full : Bool
deriving DecidableEq, Repr
/-- A v or o register with its full/empty bit (R163). -/
structure VReg where
  v : VVal
  full : Bool
deriving DecidableEq, Repr

/-- The register files of Table 7.1. -/
structure RegFile where
  /-- s0 to s63 -/
  s : Vector SReg 64
  /-- v0 to v63 -/
  v : Vector VReg 64
  /-- o0 to o15 -/
  o : Vector VReg 16
  /-- p0 (unused, 0) to p7 -/
  p : Vector Bool 8
  /-- m0 to m7 -/
  m : Vector Mask 8
  /-- f0 to f7: the values whose shadow has closed (R186, R191) -/
  f : Vector (BitVec 24) 8
  /-- lc0, lc1 (R296) -/
  lc : Vector W32 2
  /-- LS0, LS1 (R294) -/
  ls : Vector W32 2
deriving DecidableEq, Repr

/-- Latches and result queue of a 64-bit unit: C, S or M (R40, R168). -/
structure SUnit where
  x : SVal
  y : SVal
  d : BitVec 10
  q : Vector SVal 4
deriving DecidableEq, Repr
/-- Latches and result queue of a vector-width unit: VA, VB, KA or KB (R40, R168). -/
structure VUnitSt where
  x : VVal
  y : VVal
  d : BitVec 10
  msel : BitVec 3
  q : Vector VVal 4
deriving DecidableEq, Repr
/-- The seven units. -/
structure Units where
  s : SUnit
  c : SUnit
  m : SUnit
  va : VUnitSt
  vb : VUnitSt
  ka : VUnitSt
  kb : VUnitSt
  /-- the D latches (bit the slot's index) and the MSEL latches (8 more) that a parity error has poisoned (R334) -/
  bad : BitVec 16
deriving DecidableEq, Repr

/-- A short result issued and not yet landed (R168, R320): it lands when `left` further bundles of its group have
issued; `dsel` is the selector CMP, FCMP or ICMP captured (R41). -/
structure Short where
  unit : Unit7
  val : Val
  flags : BitVec 9
  dsel : Option (BitVec 10)
  left : Nat
deriving DecidableEq, Repr
/-- What a long operation does when it completes. -/
inductive LongEnd
  /-- writes its value -/
  | value
  /-- an out-of-window PWLD of window `n`: writes 0 and PWSTAT (R181) -/
  | window (n : BitVec 3)
  /-- BART on the sync word at an offset of a core, for a generation other than `g`, in bundle `p` (none once its stream has been replaced) and issued before access
  number `n` of its task (R300) -/
  | test (c : CoreId) (off : Nat) (g : W32) (p : Option Nat) (n : Nat)
deriving DecidableEq, Repr
/-- A long operation in flight (R165, R210): `left` cycles to completion. -/
structure Long where
  unit : Unit7
  val : Val
  flags : BitVec 9
  dsel : BitVec 10
  left : Nat
  fin : LongEnd
deriving DecidableEq, Repr

/-- Where an access goes: the scratchpad of a core, or a physical address of tiers 0 to 3 (R61, R65, R90). -/
inductive Loc
  /-- scratchpad offset of a core -/
  | sp (c : CoreId) (off : Nat)
  /-- physical address -/
  | pa (a : Nat)
deriving DecidableEq, Repr

/-- The atomic operations of Table 7.10. -/
inductive AOp | add | min | max | minu | maxu | and | or | xor | xchg | cas
deriving DecidableEq, Repr
/-- What a memory request does (R180, R181, R182). -/
inductive ReqOp
  /-- load of `size` bytes, sign-extended or not -/
  | load (signed : Bool)
  /-- store of the low bytes of the operand -/
  | store
  /-- atomic; `ret` for the returning form -/
  | atomic (op : AOp) (ret : Bool)
deriving DecidableEq, Repr
/-- A request of the S slot that is issued and not yet performed (R173, R97): `seq` its place in the task's order, `cls` its
alias class (an atomic belongs to every class), `x` the expected value of ACAS. -/
structure Req where
  seq : Nat
  cls : BitVec 2
  op : ReqOp
  loc : Loc
  size : Nat
  data : SVal
  x : SVal
  dsel : BitVec 10
  /-- the dynamic index of its bundle, none once its stream has been replaced (R97) -/
  pos : Option Nat
deriving DecidableEq, Repr

/-- A pending wait of a copy slot, recorded and issued again by a trap or save (R126, R137, R275, R319). -/
inductive WaitKind
  /-- SW.WAIT on the word at `addr` for a generation other than `g` -/
  | sw (addr : W64) (g : W32)
  /-- QGET on channel `ch` -/
  | qget (ch : BitVec 3)
  /-- ING.POP with its operand `f`, and its step c once the channel has released a tick -/
  | ing (f : W64) (c : Option Nat)
  /-- a SW.WAIT or ING.POP that has taken its value; where `acq`, it waits as FENCE.ACQ.PKG for the loads and atomics before it (R102 rule 4), where not, it has
  taken all ones on an overflow, which is no acquire (R124) -/
  | bound (v : Val) (acq : Bool)
deriving DecidableEq, Repr
/-- A pending wait: its kind, unit and destination, the dynamic index of its bundle (31, before every bundle of a stream, where its stream has been replaced since;
none while it is recorded, to be issued again) and its number in the task's order (R97, R319). -/
structure Wait where
  kind : WaitKind
  unit : Unit7
  dsel : BitVec 10
  pos : Option Nat
  seq : Nat
deriving DecidableEq, Repr
/-- A pending SVC (R326). -/
structure Svc where
  num : BitVec 8
  x : W64
  y : W64
  dsel : BitVec 10
deriving DecidableEq, Repr

/-! ## The dynamic bundle stream -/

/-- A dispatched bundle of the dynamic stream (R27, R28, R48): its header's parcel address, the address after it in
sequence, and either its moves by slot and its literal, or a trap marker with cause, SLOT (7 for no single slot) and TADDR. -/
structure Disp where
  pc : W32
  next : W32
  align : BitVec 4
  q : Bool
  moves : List (Slot × Parcel)
  lit : Option Parcel
  marker : Option (BitVec 8 × Nat × W64)
  /-- one of the bundles that a header's RUN adds (R27) -/
  cont : Bool
deriving DecidableEq, Repr
/-- The stream: dispatched bundles `win`, the first of index `base`; where dispatch continues; redirections and
code-base changes (with the old base) that wait for their dynamic index; the next bundle of each group (control, vector, matrix, copy). -/
structure Stream where
  win : List Disp
  base : Nat
  fpc : W32
  run : Nat
  runpc : W32
  redirs : List (Nat × W32)
  cbsw : List (Nat × W64)
  gpos : Vector Nat 4
deriving DecidableEq, Repr
/-- What the bundle being issued gives its moves (the model's own, DESIGN CHOICE log 10): its dynamic index, literal, header address. -/
structure IssueCtx where
  idx : Nat
  lit : Option Parcel
  pc : W32
  q : Bool
  align : BitVec 4
  /-- an issued-cause trap waits for the bundle's other moves -/
  mute : Bool
deriving DecidableEq, Repr
/-- A register a move writes, while the moves of its bundle still read (R42). -/
inductive RegWrite
  /-- write a value through a selector, marking s, v, o full -/
  | put (sel : BitVec 10) (v : Val)
  /-- write a value through D: an acceptance, which leaves the full/empty bit as it is (R9, R165) -/
  | val (sel : BitVec 10) (v : Val)
  /-- the access of a timestamp has filled a register (Table 4.2) -/
  | fill (sel : BitVec 10) (ts : Nat)
  /-- empty the register a long operation names -/
  | empty (sel : BitVec 10)
  /-- write a system register (R176) -/
  | sys (n : Nat) (v : W64)
deriving DecidableEq, Repr
/-- What the last move executed on a core did (the model's own, DESIGN CHOICE log 10). -/
inductive Disposition
  /-- issued, with its effect or guarded off -/
  | issued
  /-- held: nothing changed; the kind of wait of Table 14.9, 0 for none of them -/
  | held (why : Nat)
  /-- a trap was taken whose bundle is not issued, with its cause -/
  | trapped (cause : BitVec 8)
  /-- a trap was taken whose bundle is issued (R318) -/
  | trappedIssued (cause : BitVec 8)
  /-- the move issued, and its trap is due once the bundle's other moves have issued -/
  | due (slot : Slot) (cause : BitVec 8) (addr : W64)
  /-- unwound to a containment region (R329) -/
  | unwound
  /-- the stream was replaced: TRET or END (R306, R322), or the context was killed (R331) -/
  | steered
deriving DecidableEq, Repr

/-! ## System registers -/

/-- RMODE (Table 8.5). -/
structure RMode where
  isat : Bool
  mode : BitVec 3
deriving DecidableEq, Repr
/-- A register with a four-bundle shadow (R191). -/
inductive ShReg
  /-- f0 to f7 -/
  | f (n : BitVec 3)
  /-- RMODE -/
  | rm
deriving DecidableEq, Repr
/-- An open shadow: the new value is in force from dynamic bundle `close` on (R191). RMODE is held in bits [3:0]. -/
structure Shadow where
  reg : ShReg
  new : BitVec 24
  close : Nat
deriving DecidableEq, Repr
/-- The system registers of Table 7.5 and Table 13.2 that hold no trap state. -/
structure SysRegs where
  cls : BitVec 2
  lock : Bool
  bte : Bool
  fve : Bool
  dze : Bool
  thbase : W32
  rmode : RMode
  rseed : W64
  fpstat : BitVec 9
  pwb : Vector W64 8
  pws : Vector W32 8
  pwstat : BitVec 9
  wdti : W32
  codebase : W64
  mdbase : W64
deriving DecidableEq, Repr
/-- The rest of Tables 7.5 and 13.2, and the five stochastic streams (R197). -/
structure SysRegs2 where
  shdmode : BitVec 2
  shddim : BitVec 24
  shdblk : W64
  tickch : BitVec 3
  lateq : BitVec 16
  nullq : BitVec 16
  cbar : W64
  sbar : W64
  spuse : W32
  rng : Vector W64 5
deriving DecidableEq, Repr

/-! ## Traps and regions -/

/-- TSNAPn (Table 14.2). -/
structure TSnap where
  locks : Bool
  valid : Bool
  drop : Bool
  nshd : BitVec 4
  nres : BitVec 5
  offk : BitVec 6
  offm : BitVec 6
  offv : BitVec 6
  offc : BitVec 6
deriving DecidableEq, Repr
/-- The bank of one trap level (R317, Table 14.1). -/
structure TrapBank where
  tpc : W32
  slot : BitVec 3
  group : BitVec 3
  cause : BitVec 8
  addr : W64
  snap : TSnap
deriving DecidableEq, Repr
/-- A late-write buffer (R320): short results, queues and latches, open shadows, the groups' positions and next-bundle address with the
pending branches (`stream`, no bundle dispatched, DEDUCED log 18), waits, LOCK, CRGND, and TPCn at entry; `tp` is the trap point's dynamic index and `wrote` the
shadowed registers the handler has written (R191 rule 5). -/
structure LateBuf where
  shorts : List Short
  units : Units
  shadows : List Shadow
  stream : Stream
  waits : List Wait
  lock : Bool
  crgnd : Nat
  tpc : W32
  tp : Nat
  wrote : List ShReg
  /-- f0 to f7 and RMODE with every shadow of `shadows` still open -/
  oldF : Vector (BitVec 24) 8
  oldRm : RMode
deriving DecidableEq, Repr
/-- An open containment region (R329): its handler and the number of engine commands accepted before it opened. -/
structure Region where
  handler : W32
  mark : Nat
deriving DecidableEq, Repr
/-- Trap level, banks, buffers and the region stack (innermost first), with CRGNC and CRGNA (Table 14.6). -/
structure TrapState where
  tl : BitVec 2
  bank1 : TrapBank
  bank2 : TrapBank
  buf1 : Option LateBuf
  buf2 : Option LateBuf
  regions : List Region
  crgnc : BitVec 13
  crgna : W64
deriving DecidableEq, Repr

/-! ## Copy slots, channels, tensor maps -/

/-- A dimension descriptor (Table 5.5): `ext` and `win` are EXTM + 1 and WINM + 1. -/
structure Dim where
  str : W64
  wrap : Bool
  ext : Nat
  hi : Nat
  lo : Nat
  win : Nat
deriving DecidableEq, Repr
/-- A tensor map (R116). -/
structure TMap where
  base : W64
  ndim : Nat
  esize : Nat
  freg : BitVec 3
  dims : Vector Dim 4
  btab : W64
deriving DecidableEq, Repr
/-- An address generator (R118): no map until AG.SETn loads one. -/
structure AGen where
  map : Option TMap
  org : W64
  k : Nat
deriving DecidableEq, Repr

/-- One side of an engine transfer: contiguous from an address, or the walk of a map from an origin (R132). -/
inductive Side
  /-- contiguous -/
  | flat (a : W64)
  /-- tensor-map walk -/
  | walk (m : TMap) (org : W64)
deriving DecidableEq, Repr
/-- A face slab of XHALO (Table 6.11): its dimension and direction, the neighbour's die, and its list of element
source and destination addresses. -/
structure Slab where
  die : DieId
  elems : List (W64 × W64)
deriving DecidableEq, Repr
/-- What an accepted engine command does, with the fields of its block fixed at acceptance (R129). -/
inductive EngKind
  /-- XCOPY (R132) -/
  | xcopy (src dst : Side)
  /-- XGATH (`scat = false`) and XSCAT (R133) -/
  | xlist (scat : Bool) (list : W64) (next rowb first ntok : Nat) (mem : Side)
  /-- XMCAST (R157): source, destination offset, target dies, target core number, receive sync word -/
  | xmcast (src : Side) (dst : W64) (dies : List DieId) (core : Nat) (rsw : W64)
  /-- XRED (R158) -/
  | xred (rtag : BitVec 8) (op : BitVec 4) (nocont : Bool) (len : Nat) (src dst : W64) (root : Nat) (dset : List Nat)
  /-- XHALO (R159) -/
  | xhalo (slabs : List Slab) (rsw : W64) (eb : Nat)
  /-- XRESH (R160) -/
  | xresh (rtag : BitVec 8) (smap dmap : TMap) (nmode nblk : W64)
  /-- MOPLD.T (R234) -/
  | mopldT (ctrl : W32) (reg : BitVec 24) (off nu : Nat) (src : Side) (btab : Option W64)
  /-- KV.APP (R262): rows, record, row size, source; `p0` the first position once reserved -/
  | kvapp (ntok : Nat) (seqRec : W64) (rowb : Nat) (src : Side) (p0 : Option Nat)
deriving DecidableEq, Repr
/-- An accepted engine command (R89, R129, R131): its number, block address, flags, completion word, nominal count, logical
time, bytes done and counted, and its status once it ends; `acq` while its KFLG.ACQ wait is still due; `extents` the
list once read (R133); `poi` whether poisoned data was carried; `started` once it has started (R129). A command reads and writes in pieces (R107) in no order of their
own (R100): `got` holds the pieces read, each by its place with its bytes and their poison, all of those before `rpos` among them; `parts` the places of the
pieces written beyond `pos`, before which all are. -/
structure EngCmd where
  id : Nat
  kind : EngKind
  blk : W64
  flg : BitVec 7
  sw : W64
  n : Nat
  eb : Nat
  total : Nat
  lt : Nat
  pos : Nat
  counted : Nat
  acq : List Nat
  extents : Option (List (W64 × Nat × Nat))
  poi : Bool
  started : Bool
  rpos : Nat
  got : List (Nat × List (Byte × Bool))
  parts : List Nat
deriving DecidableEq, Repr
/-- A copy slot's configuration, address generators and engine queue (R118, R128, R129). -/
structure KSlot where
  flg : BitVec 7
  sw : W64
  ag : Vector AGen 4
  queue : List EngCmd
deriving DecidableEq, Repr
/-- A channel message (R136): its words with their poison, and the timestamp of the store it is. -/
structure Msg where
  words : Vector W32 16
  poi : BitVec 16
  ts : Nat
deriving DecidableEq, Repr
/-- An inbound channel (R135, R138, R139): messages oldest first, capacity in messages, ashpit ring oldest first, which the model keeps as messages and not as bytes of
tier-0 memory (DESIGN CHOICE log 84). -/
structure Channel where
  msgs : List Msg
  cap : Nat
  ring : List Msg
deriving DecidableEq, Repr
/-- Bank states of Table 5.1: ENTERING holds the rows converted, EXITING the rows still to convert. -/
inductive BankMode | active | entering (rows : Nat) | retain | exiting (rows : Nat)
deriving DecidableEq, Repr
/-- A task record (Table 13.4) and whether the accesses issued before its FORK are all performed, given as the request
number it waits for (R302). -/
structure TaskRec where
  entry : W32
  joinw : W64
  args : Vector W64 6
  after : Nat
deriving DecidableEq, Repr

/-! ## The matrix array -/

/-- A value of an operand: exact dyadic `±m·2^e`, infinite, or NaN (R188). -/
inductive Fx
  /-- NaN -/
  | nan
  /-- infinity -/
  | inf (neg : Bool)
  /-- finite -/
  | fin (neg : Bool) (m : Nat) (e : Int)
deriving DecidableEq, Repr
/-- Operand-slot states of Table 10.6. -/
inductive SlotSt | empty | loading | ready | matrix
deriving DecidableEq, Repr
/-- An operand slot (R229, R232): data and scale plane as listed bytes (an unlisted byte is 0, DESIGN CHOICE log 7), poisoned half bytes of the data (2o the
low and 2o + 1 the high half of byte o), slot bound, the issued MOPLDs not yet complete (LAST, for an A pair), the number of accepted MOPLD.Ts, whether a load with LAST
has completed since LOADING, whether the matrix holds it as part of an A pair. -/
structure OSlot where
  st : SlotSt
  data : List Host.Cell
  scale : List Host.Cell
  poi : List Nat
  bound : W32
  loads : List (Bool × Bool)
  pend : Nat
  done : Bool
  apair : Bool
deriving DecidableEq, Repr
/-- The matrix configuration ports (Table 10.3). -/
structure MPorts where
  mcfg : BitVec 15
  msla : BitVec 5
  mslb : BitVec 5
  mklen : BitVec 9
  mbthr : W32
  mchkN : BitVec 11
  mchkStep : BitVec 8
  mdtm : W64
  mgrp : BitVec 3
deriving DecidableEq, Repr
/-- Bank states of Table 10.10. -/
inductive BankSt | free | live | hi | lo
deriving DecidableEq, Repr
/-- The snapshot of a tile or beat (R230): its ports, the formats in force, wide mode, the slot bounds of the A pair and of each
member's B slot; `due` a re-check, `rel` that a slot it names has been released since (R245). -/
structure TileSnap where
  ports : MPorts
  fa : BitVec 24
  fb : BitVec 24
  wide : Bool
  bia : W32
  bib : List W32
  due : Bool
  rel : Bool
deriving DecidableEq, Repr
/-- An accumulator bank (R227, R240, R243, R245). -/
structure Bank where
  acc : Vector (Vector W32 128) 256
  poi : Vector (BitVec 128) 256
  st : BankSt
  bnd : W32
  s : W32
  tiles : List (TileSnap × W32)
  nonrep : Bool
deriving DecidableEq, Repr
/-- The four drains (R247). -/
inductive DrainKind | st | cvt | add | addc
deriving DecidableEq, Repr
/-- A queued drain with what its issue fixed (R247): its bank, whether it is HI, ZR, type or clamp, format, rounding mode, the rows still to write
with each element's column and location, the row number of the first of them, each member's bound entry, the dynamic index of its bundle
(none once its stream has been replaced) and its number in the task's order, the state of stochastic stream 2 for its draws (R197), each member's drain bound; and what its rows have given: each member's largest magnitude and whether an element saturated, and the flags
(R248, R256). -/
structure Drain where
  kind : DrainKind
  bank : Bool
  wide : Bool
  zr : Bool
  typ : BitVec 2
  clamp : W32
  fmt : BitVec 24
  rm : BitVec 3
  row : Nat
  rows : List (List (Nat × Loc))
  entry : List (Option Loc)
  pos : Option Nat
  seq : Nat
  rng : W64
  bndd : List W32
  seen : List (W32 × Bool)
  flags : BitVec 9
deriving DecidableEq, Repr
/-- An operation in the sequencer's queue (R236): a tile with its beat and start MPC, a zeroing, a bank change, a drain. -/
inductive SeqOp
  /-- MTILE or MTILE.W -/
  | tile (t : TileSnap) (beat : Nat) (mpc0 : W32) (flags : BitVec 9)
  /-- MZERO of a bank, and of its wide pair -/
  | zero (b both : Bool)
  /-- MBANK -/
  | bank (b : Bool)
  /-- a drain -/
  | drain (d : Drain)
deriving DecidableEq, Repr
/-- A column of A pushed by a beat, each element with its poison mark. -/
abbrev ACol := Vector (Fx × Bool) 256
/-- A row of B pushed by a beat. -/
abbrev BRow := Vector (Fx × Bool) 128
/-- What a pushing beat brings to the bound (R243): its exact term, amax, bmax, the K-steps np, the input bounds. -/
structure BeatBound where
  term : Fx
  amax : Fx
  bmax : Fx
  np : Nat
  bia : W32
  bib : W32
deriving DecidableEq, Repr
/-- A pair travelling in the array in beat mode (R241): pushed at count `t`; an empty pair has no operands. -/
structure BeatPair where
  t : Nat
  acc : Bool
  ops : List (ACol × BRow)
  b : BeatBound
deriving DecidableEq, Repr
/-- Sticky fields of MSTAT (Table 10.16). -/
structure MSticky where
  crot : BitVec 8
  ccol : BitVec 7
  crow : BitVec 8
  cdef : Bool
  cmis : Bool
  rrun : Bool
  bex : Bool
deriving DecidableEq, Repr
/-- The matrix array and its sequencer. `pendMeta` holds the pending cause of a metadata word with its TADDR (R242), `pendMis` a
re-check mismatch with its bank (R251), `pendNv` the FP-invalid trap of R256; `leader` is the core that leads the group, `width` the formed
group's width. -/
structure Matrix where
  ports : MPorts
  slots : Vector OSlot 32
  bank0 : Bank
  bank1 : Bank
  bia : W32
  bib : W32
  queue : List SeqOp
  pairs : List BeatPair
  beat : Nat
  mpc : W32
  rot : BitVec 8
  count : Nat
  now : Bool
  /-- a check that was due has passed to the next tile that qualifies (R250) -/
  passed : Bool
  sticky : MSticky
  pendMeta : Option (BitVec 8 × W64)
  pendMis : Option (Bool × W64)
  pendNv : Bool
  leader : Option CoreId
  width : Nat
deriving DecidableEq, Repr

/-! ## Translation -/

/-- A cached translation (R72, R82): the context, the page's VA and size, its leaf entry, and the SEQ when its walk
began. -/
structure Tlb where
  ctx : BitVec 16
  va : W64
  size : BitVec 2
  leaf : W64
  seq : W32
deriving DecidableEq, Repr
/-- An invalidation-log entry (Table 3.8). -/
structure LogEnt where
  page : W64
  size : BitVec 2
  seq : W32
  kind : BitVec 16
  ctx : BitVec 16
deriving DecidableEq, Repr

/-! ## A task and a core -/

/-- Task states of Table 13.6 a core can be in; an idle core has ENDED or no task. -/
inductive TaskSt | none | loading | running | waiting | stopping | saving | saved | ended | killed
deriving DecidableEq, Repr
/-- What placement gives a task (R298, R299), and the card it runs (R277, R278). -/
structure TaskInfo where
  st : TaskSt
  ctx : BitVec 16
  job : Nat
  crewRank : Nat
  crewSize : Nat
  spanRank : Nat
  spanSize : Nat
  taskId : W32
  first : Nat
  joinw : W64
  card : Option Nat
  cardLeft : Nat
  /-- the card's task has issued its first bundle -/
  cardOn : Bool
  /-- the die cycle at which a core reset by a card watchdog rejoins its crew, 0 for none -/
  rejoin : Nat
  /-- the number of the card's first engine command (R278) -/
  engFrom : Nat
  /-- the number of the card's first access (R278) -/
  reqFrom : Nat
  refused : Bool
deriving DecidableEq, Repr

/-- What a group's bundle had changed by its landings when one of its moves traps unissued (R169, the model's own, DESIGN CHOICE log 10). -/
structure Undo where
  regs : RegFile
  units : Units
  shorts : List Short
  fpstat : BitVec 9
  wq : List (Nat × RegWrite)
deriving DecidableEq, Repr
/-- Registers and pipeline of a core. -/
structure Pipe where
  regs : RegFile
  units : Units
  shorts : List Short
  longs : List Long
  shadows : List Shadow
  stream : Stream
  sys : SysRegs
  sys2 : SysRegs2
  trap : TrapState
  waits : List Wait
  svc : Option Svc
  cyc : W64
  ib : IssueCtx
  /-- the register writes of this cycle's moves, each with the index of its slot: they take effect at the cycle's end (R42, R43); none outside a cycle
  (the model's own, DESIGN CHOICE log 10) -/
  wq : Option (List (Nat × RegWrite))
  undo : Option Undo
  /-- registers that loads and QGET have filled and no group has read since, with the timestamp of the access (Table 4.2) -/
  fills : List (BitVec 10 × Nat)
  /-- the guard that the C move of a bundle with an implied alignment read when the groups reached it, with the bundle's index (R35) -/
  cguard : Option (Nat × Bool)
  /-- the index of the slot whose move executes (R43, the model's own, DESIGN CHOICE log 10) -/
  wslot : Nat
  /-- a long operation of this unit completed invalid with FVE = 1: the trap is due (R212) -/
  fpDue : Option Unit7
  /-- an engine command of the task has read poisoned control data at this address: a consumption is due (Table 14.5) -/
  engPoison : Option W64
  /-- the wait of Table 14.9 each group is held in, 0 for another hold, none when it last issued (the model's own, DESIGN CHOICE log 10) -/
  holds : Vector (Option Nat) 4
  /-- the cycles that the copy group's next bundle has been held by R113 row 6 so far (the model's own, DESIGN CHOICE log 59) -/
  stall : Nat
  /-- the v registers that the banks have served to each group's next bundle, which R164 holds (the model's own, DESIGN CHOICE log 59) -/
  served : Vector (BitVec 64) 4
  /-- the v registers that the banks deliver in this cycle (R164, the model's own, DESIGN CHOICE log 59) -/
  busy : List Nat
  disp : Disposition
deriving DecidableEq, Repr
/-- A compute core (R18). -/
structure Core where
  pipe : Pipe
  ka : KSlot
  kb : KSlot
  mx : Matrix
  task : TaskInfo
  /-- requests issued and not performed, oldest first (R173) -/
  reqs : List Req
  /-- the number of the next access of the task (R97) -/
  seq : Nat
  /-- the logical times of the four class paths (R91) -/
  lt : Vector Nat 4
  /-- the largest logical time of any path that has run here (R109) -/
  floor : Nat
  /-- the largest logical time of an engine command of the task that has ended (R315) -/
  engLt : Nat
  /-- the number of the next engine command -/
  engSeq : Nat
  chans : Vector Channel 8
  deque : List TaskRec
  /-- scratchpad bytes: canonical list, unlisted 0 (R110, DESIGN CHOICE log 7) -/
  sp : List Host.Cell
  /-- poisoned aligned 8-byte words of scratchpad, ascending (R111) -/
  spPoi : List Nat
  banks : Vector BankMode 48
  /-- CYC at the last access of each bank (R112) -/
  bankUse : Vector W64 48
  /-- persist tracker, oldest first (R283) -/
  tracker : List Nat
  tlb : List Tlb
  /-- applied mark (R83) -/
  mark : W32
deriving DecidableEq, Repr

/-! ## Dies -/

/-- A die-cache copy of a line homed elsewhere (R93), with its poisoned aligned 8-byte words (R86). -/
structure Copy where
  line : Nat
  data : List Byte
  poi : List Nat
  wts : Nat
  rts : Nat
  /-- the die cycle at which its lease was granted (R94) -/
  born : Nat
deriving DecidableEq, Repr
/-- A prefix-table entry (Table 11.3). -/
structure PfxEnt where
  hash : W64
  parent : W64
  base : W64
  age : W32
  ctx : BitVec 16
  pin : BitVec 8
  gen : BitVec 7
  v : Bool
deriving DecidableEq, Repr
/-- A lockstep pair of control cores (R335). -/
inductive PairSt | inService | halted | out
deriving DecidableEq, Repr
/-- One compute die. -/
structure Die where
  live : Bool
  isolated : Bool
  tlb : List Tlb
  log : List LogEnt
  seq : W32
  /-- heat counters by 64 KiB region of PA (R74) -/
  heat : List (Nat × BitVec 16)
  copies : List Copy
  /-- lines of main memory homed here that its cache holds, oldest first (R75, R279) -/
  lines : List Nat
  pfx : Vector PfxEnt 64
  age : W32
  /-- free entries of the 8 MiB channel pool (R138) -/
  pool : Nat
  /-- correctable errors of a row: row, time in cycles (R86) -/
  rowErrs : List (Nat × Nat)
  /-- retired rows on spare rows (R86) and retired frames (R87) -/
  retired : List Nat
  badFrames : List Nat
  pairs : Vector PairSt 2
  /-- contexts whose drain this die still owes (R331) -/
  owed : List (BitVec 16)
  /-- dusk steps 2 and 3 complete (R286) -/
  duskOk : Bool
  /-- the die has been reset or isolated since bring-up (R287) -/
  wasReset : Bool
  /-- ports whose link is down (R140) -/
  links : List Nat
  /-- wts and rts of every location homed here are at least this (R162) -/
  timeBase : Nat
deriving DecidableEq, Repr

/-! ## Package -/

/-- A block of a key-value pool in use (R260): offset in tokens, size in tokens, references, and how many windows list it as a
sink extent. -/
structure Block where
  off : Nat
  len : Nat
  refs : Nat
  sinks : Nat
deriving DecidableEq, Repr
/-- A key-value pool (R260). -/
structure Pool where
  va : W64
  k : Nat
  row : Nat
  blocks : List Block
deriving DecidableEq, Repr
/-- An extent that KV.EXT or PFX.PIN has put into a sequence record's list (R260, R269): the record's address, with its core in own scratchpad, the extent's base,
whether it holds sink slots, and the prefix entry that it pins. -/
structure Listing where
  seqRec : W64
  core : Option CoreId
  base : W64
  sink : Bool
  pin : Option (DieId × Fin 64)
deriving DecidableEq, Repr
/-- A registered backing mapping (MAP with LAZY, R73, R341). -/
structure Lazy where
  va : W64
  pa : Nat
  bytes : Nat
  attrs : W64
deriving DecidableEq, Repr
/-- A context (R341): existence, page-table root, channel mode and quota left, report address, service pool and the pages
MAPREQ mapped, kill generation, the kill report while the drain runs (R331, R332), watchdog count, pools, the extents that records list (R260), model seed and
prefix quota, corrected soft errors, backings. -/
structure Ctx where
  id : BitVec 16
  root : Nat
  ashpit : Bool
  quota : Nat
  report : W64
  poolBase : Nat
  poolSize : Nat
  mapped : List (W64 × Nat)
  /-- frames unmapped, each until every core's mark reaches the number of its log entry (R84, R326) -/
  limbo : List (Nat × W32)
  kgen : BitVec 16
  killed : Option (List Byte)
  wd : Nat
  pools : Vector (Option Pool) 4
  listed : List Listing
  seed : W64
  pfxQuota : Nat
  soft : W32
  lazies : List Lazy
deriving DecidableEq, Repr
/-- A launch record (Table 13.5). -/
structure Launch where
  crew : Nat
  cls : BitVec 2
  stream : Nat
  dx : Nat
  dy : Nat
  dz : Nat
  anyo : Bool
  origin : BitVec 12
  codebase : W64
  entry : W32
  thbase : W32
  mdbase : W64
  shdmode : W64
  shdblk : W64
deriving DecidableEq, Repr
/-- The rest of Table 13.5. -/
structure Launch2 where
  rseed : W64
  pwb : Vector W64 8
  pws : Vector W32 8
  cboff : Nat
  sboff : Nat
  wdti : W32
  tickch : BitVec 3
  quant : Nat
  weight : Nat
  cards : W64
  done : W64
  doneval : W64
  spuse : Nat
deriving DecidableEq, Repr
/-- Where a card of a card set stands (R277, R278): `again` for a replay. -/
inductive CardSt | waiting | running (c : CoreId) (again : Bool) | replay (reset : CoreId) | done
deriving DecidableEq, Repr
/-- Where a job stands (R309 to R316). -/
inductive JobSt | queued | placed | stopping | saving | saved | finished
deriving DecidableEq, Repr
/-- A job: its number, record, place, deficit (R313), cards (R276), the dies and first core of its crews, when it was placed (R298), whether a
saved state is what loads (R311), the records taken on each die (R298 item 4), its place in the order of arrivals (R313), and the logical time its
first tasks start from (R310, R316). -/
structure Job where
  num : Nat
  ctx : BitVec 16
  lr : Launch
  lr2 : Launch2
  st : JobSt
  deficit : Int
  dies : List DieId
  first : Nat
  placedAt : Nat
  resumed : Bool
  cards : List CardSt
  forks : Vector Nat 8
  arrived : Nat
  lt : Nat
deriving DecidableEq, Repr
/-- An image of a saved task (R312): its job, the core it stood on, and the core record as it stood. -/
structure SavedTask where
  job : Nat
  place : CoreId
  core : Core
deriving DecidableEq, Repr

/-- A migration (R78): phase 1 open to 4 redirect, its dirty lines, its slot of the journal (R289), the passes made. -/
structure Migration where
  ctx : BitVec 16
  va : W64
  size : BitVec 2
  old : Nat
  new : Nat
  phase : Nat
  dirty : List Nat
  slot : Nat
  pass : Nat
  seq : W32
deriving DecidableEq, Repr
/-- A replicated page (R80): its copies lie at the frame's offset in every live die's slot. -/
structure Replica where
  ctx : BitVec 16
  va : Nat
  size : Nat
  frame : Nat
deriving DecidableEq, Repr
/-- A write held by a migration switch (R79), with the core and the request that made it. -/
structure HeldWrite where
  core : CoreId
  req : Req
deriving DecidableEq, Repr
/-- A packet in flight (Table 6.2): the model carries channel messages (DESIGN CHOICE log 22); with the die it stands at. -/
structure Packet where
  kind : BitVec 8
  ndata : BitVec 5
  vc : BitVec 3
  src : CoreId
  dst : CoreId
  atDie : DieId
  ctx : BitVec 16
  kgen : BitVec 16
  ch : BitVec 3
  msg : Msg
  /-- the job and the card whose task sent it (R278) -/
  card : Option (Nat × Nat)
deriving DecidableEq, Repr
/-- A collective instance (R155): context, core number, tag, job, governing core and command, whether XRESH, the ranks that take part,
those whose command a call has paired with (rank, core, command), the contributions read and the results combined so far by
rank, phases done, the NAN and OVF flags, the first non-zero status. -/
structure Coll where
  ctx : BitVec 16
  corenum : Nat
  rtag : BitVec 8
  job : Nat
  gov : CoreId
  cmd : Nat
  resh : Bool
  parts : List Nat
  paired : List (Nat × CoreId × Nat)
  contribs : List (Nat × List (W32 × Bool))
  partials : List (Nat × List (W32 × Bool))
  phase : Nat
  flags : BitVec 2
  status : Nat
  /-- a die of the instance has been reset (R161 item 2) -/
  lost : Bool
deriving DecidableEq, Repr
/-- A tick channel (Table 11.4): the step released last, none before step 0. -/
structure TickCh where
  period : Nat
  phase : Nat
  grace : Nat
  en : Bool
  last : Option Nat
  conf : Bool
deriving DecidableEq, Repr
/-- An ingest queue (R273): ring address, size, channel, window size, and the address of the stamp window in tier 0 of its die. -/
structure Ingest where
  ring : Nat
  k : Nat
  ch : BitVec 2
  wi : Nat
  win : Nat
deriving DecidableEq, Repr
/-- A command queue's registers (Table 15.2). -/
structure CmdQueue where
  qbase : W64
  qtail : W64
  qlog : BitVec 4
  en : Bool
  qcons : W64
deriving DecidableEq, Repr
/-- An accepted command (Table 15.3, R340): its ticket, the host address of its entry, the fields read, and whether it has begun (a command that
ends later). -/
structure Cmd where
  ticket : Nat
  entry : Nat
  opc : Byte
  ctx : BitVec 16
  tag : W32
  args : Vector W64 5
  rsv : Bool
  begun : Bool
deriving DecidableEq, Repr
/-- The configuration record (Table 15.7). -/
structure ConfigRec where
  ilvsz : BitVec 7
  durdirty : BitVec 5
  pcoord : BitVec 12
  part : BitVec 24
  wrap : BitVec 3
  leasemax : W32
  leaselen : BitVec 16
  fluew : BitVec 16
  bkidle : W32
  latmax : W32
  quant : W32
  evqlog : W32
  evqbase : W64
deriving DecidableEq, Repr
/-- A copy of a signed record of the serial flash (R88, R291, R344): its sequence number, whether its write has completed and nothing has damaged it
since, what it holds, and its signature with the record key. -/
structure FlashCopy (α : Type) where
  seq : Nat
  ok : Bool
  val : α
  sig : List Byte
deriving DecidableEq, Repr
/-- What the serial flash keeps through power loss (R88, R291, R336): two copies of the retirement table, rows as (die, row), two of the bring-up
number, two of the damper steps of each cluster. -/
structure Flash where
  rows0 : FlashCopy (List (Nat × Nat))
  rows1 : FlashCopy (List (Nat × Nat))
  boot0 : FlashCopy W32
  boot1 : FlashCopy W32
  damper0 : FlashCopy (Vector Nat 64)
  damper1 : FlashCopy (Vector Nat 64)
deriving DecidableEq, Repr
/-- The DAWN.REPORT bytes that are not copies of other state (Table 15.8). -/
structure Dawn where
  code : Byte
  bits : Byte
  excluded : BitVec 16
  dusk : List Byte
  journal : List (Nat × Nat × Byte × Nat)
deriving DecidableEq, Repr
/-- A RAS event: kind, die, structure or item (R334). -/
structure Ras where
  kind : Nat
  die : Nat
  item : Nat
deriving DecidableEq, Repr
/-- Logical times of a location (R90). -/
structure Times where
  wts : Nat
  rts : Nat
deriving DecidableEq, Repr
/-- A granule write under way to a tier-3 device (R281, R282): its bytes and poisoned words as they stood when it was made. -/
structure Granule where
  addr : Nat
  data : List Byte
  poi : List Nat
deriving DecidableEq, Repr

/-- The two products (R1). -/
inductive Product | hv8x | hv1x
deriving DecidableEq, Repr
/-- The state of the device the management port reads (R347). -/
inductive Phase | bringUp | recovery | running | dusk
deriving DecidableEq, Repr
/-- An error of a storage structure (Table 14.10): `bits` wrong bits in a word of scratchpad; in the others, whether it is uncorrectable. -/
inductive Upset
  /-- the scratchpad word of a core at an offset -/
  | word (c : CoreId) (off bits : Nat)
  /-- a line of the data of a die's cache -/
  | line (d : DieId) (line : Nat) (bad : Bool)
  /-- the tags or the directory of a die's cache: the lines of the set -/
  | tags (d : DieId) (lines : List Nat) (bad : Bool)
  /-- an s, v or o register, by its selector -/
  | reg (c : CoreId) (f : BitVec 10) (bad : Bool)
  /-- the 32-bit word of an operand slot that holds a byte -/
  | operand (c : CoreId) (slot off : Nat) (bad : Bool)
  /-- an accumulator -/
  | acc (c : CoreId) (b : Bool) (i : Fin 256) (j : Fin 128) (bad : Bool)
  /-- a latch (0 X, 1 Y, 2 to 5 result queue entry 0 to 3, 6 D, 7 MSEL) of a unit -/
  | latch (c : CoreId) (u : Unit7) (k : Nat)
  /-- the late-write buffer of a trap level of a core: the short result of a place in it, or a latch of a unit by the numbers of `latch` -/
  | late (c : CoreId) (second : Bool) (k : Sum Nat (Unit7 × Nat))
  /-- an entry of the instruction cache, or of the metadata cache, of a core -/
  | code (c : CoreId) (meta_ : Bool)
  /-- a translation that a core, or the cache of its die, holds -/
  | transl (c : CoreId) (va : W64)
  /-- PC, TL, TPC or the region stack of the task of a core -/
  | control (c : CoreId) (bad : Bool)
deriving DecidableEq, Repr
/-- Who makes the next step (the model's own, DESIGN CHOICE log 1). -/
inductive Turn
  /-- the machine step `i` of the table, on core `c` where it concerns one -/
  | event (c : CoreId) (i : Instr)
  /-- one cycle of core `c` in which the groups of the bit mask (control, vector, matrix, copy) may issue -/
  | cycle (c : CoreId) (groups : BitVec 4)
  /-- `n` cycles of the die clock pass -/
  | time (n : Nat)
  /-- an error of a storage structure (R111, R112, R284, R334) -/
  | upset (u : Upset)
  /-- what the next steps of engine transfers perform: how many kilobytes ahead, and which pieces wait (R100) -/
  | pick (ahead waits : Nat)
deriving DecidableEq, Repr

/-- Memory and its order. -/
structure MemState where
  /-- tiers 0 to 3 as any path sees them at their home: canonical list, unlisted 0 (R61, DESIGN CHOICE log 7) -/
  mem : List Host.Cell
  /-- poisoned aligned 8-byte words of memory, ascending (R86) -/
  poi : List Nat
  /-- host memory: canonical list, unlisted 0 (R338, DESIGN CHOICE log 20) -/
  host : List Host.Cell
  /-- what the tier-3 devices hold: canonical list, unlisted 0 (R281) -/
  pmem : List Host.Cell
  ppoi : List Nat
  granules : List Granule
  /-- dirty lines of tier 3, oldest first (R280) -/
  dirty : List Nat
  /-- dirty lines of tiers 0 to 2 (R279) -/
  vdirty : List Nat
  /-- frame and bytes of the pages whose leaf has HT = 1, and of those with NA = 1 (R68, R74, R279) -/
  hot : List (Nat × Nat)
  noAlloc : List (Nat × Nat)
  /-- frame and bytes of pages with HT = 1 whose leaf is gone, each with the number of the log entry until every core has applied it: stale accesses count
  still (R75 item 4) -/
  hotOld : List (Nat × Nat × W32)
  /-- wts and rts of 128-byte lines (R90, DEDUCED log 8) -/
  times : List (Loc × Times)
  tier2 : Nat
  tier3 : Nat
  migs : List Migration
  migQueue : List Migration
  held : List HeldWrite
deriving DecidableEq, Repr
/-- Clock, ticks and ingest. -/
structure TimeState where
  /-- 1588 seconds, and fifths of a nanosecond within the second (R270) -/
  secs : Nat
  fifths : Nat
  /-- fifths of a nanosecond still to be slewed, and cycles since the last fifth was (R346) -/
  slew : Int
  slewCyc : Nat
  timePort : Bool
  /-- an edge preceded by a valid frame has come since the selection (R346) -/
  locked : Bool
  holdover : Bool
  /-- the last valid time-of-day frame not yet used: seconds of the next edge (R346) -/
  frame : Option Nat
  /-- die-clock cycles since the last edge or selection (R346) -/
  sinceEdge : Nat
  ticks : Vector TickCh 4
  ingest : Vector (Option Ingest) 16
  /-- die-clock cycles since bring-up -/
  dcyc : Nat
  /-- what has passed of the LEASEMAX cycles after which logical time advances: for each cluster, in units of 1/1250 of its cycle, and for engine paths, in die
  cycles (R91) -/
  lease : Vector Nat 64
  leaseEng : Nat
deriving DecidableEq, Repr
/-- What the firmware keeps. -/
structure Firmware where
  cfg : ConfigRec
  ctxs : List Ctx
  streams : List (Nat × BitVec 16)
  /-- the timestamp of each stream's last completion word (R316) -/
  streamLt : List (Nat × Nat)
  jobs : List Job
  nextJob : Nat
  nextPlace : Nat
  /-- the number of the next request that arrives at the scheduler (R313) -/
  nextArrival : Nat
  saved : List SavedTask
  /-- the next entry of the host's event ring, and the events dropped since one was written (R342) -/
  evNext : Nat
  evLost : Nat
  ras : List Ras
  flash : Flash
  dawn : Dawn
  boot : W32
  unprotected : Bool
  /-- each cluster's clock in steps below 1.25 GHz by the damper, and out of service (R336) -/
  damper : Vector Nat 64
  clusterOut : List Nat
  /-- 25 MHz steps of the power limit (R349) -/
  throttle : Nat
  /-- the addresses of the tables the firmware has allocated for MAP, newest first (the model's own, DESIGN CHOICE log 23) -/
  tables : List Nat
  /-- frames that UNMAP released, with their bytes, each until every core's mark reaches the number of its log entry and no access at it is outstanding (R84) -/
  limbo : List (Nat × Nat × W32)
  /-- replicated pages (R80) -/
  replicas : List Replica
  /-- retired frames whose kind-3 entry waits for migrations of their pages (R87) -/
  retiring : List Nat
  /-- dusk has completed: the record is written, where there is one (R286) -/
  duskDone : Bool
  duskCause : BitVec 2
  duskTime : Nat × Nat
  duskLines : Nat
  duskPLines : Nat
deriving DecidableEq, Repr
/-- Links and host. -/
structure LinkState where
  queues : Vector CmdQueue 4
  cmds : List Cmd
  ticket : Nat
  net : List Packet
  colls : List Coll
  /-- how far the SPDM negotiation has come (1 version, 2 capabilities, 3 algorithms) and the last response: of SPDM, or the data of a host
  load (R345, R105) -/
  spdm : Nat
  response : List Byte
  /-- partition routes that avoid dies out of service (R161) -/
  detours : List DieId
deriving DecidableEq, Repr

/-- The state of a package. -/
structure State where
  cores : Vector Core 256
  dies : Vector Die 8
  m : MemState
  t : TimeState
  fw : Firmware
  link : LinkState
  product : Product
  phase : Phase
  /-- the core whose move executes (the model's own, DESIGN CHOICE log 1) -/
  cur : CoreId
  /-- the next turns (the model's own, DESIGN CHOICE log 1) -/
  agenda : List Turn
  /-- how many free values have been drawn (the model's own, DESIGN CHOICE log 11) -/
  free : Nat
  /-- which pieces the next step of an engine transfer performs: how many kilobytes ahead, and a bit for each piece there that waits (R100, the model's own,
  DESIGN CHOICE log 1) -/
  pick : Nat × Nat
deriving DecidableEq, Repr

/-! ## The other outcomes of a step -/

/-- Why the machine stops with a fault. The machine has none of its own: a fault of a program is a trap, a command's a
status. -/
inductive Fault
  /-- Raised by nobody: the spec names no condition that stops the machine as a whole. Safe. -/
  | stopped
deriving DecidableEq, Repr
/-- Why the model refuses. -/
inductive Refusal
  /-- Raised by an arm of `exec` whose instruction has no meaning yet; safe. -/
  | notModelled (mnemonic : String)
deriving DecidableEq, Repr

/-! ## Reset -/

/-- Scalar zero, not poisoned. -/
def SVal.zero : SVal := ⟨0, false⟩
/-- The vector of zeros, not poisoned. -/
def VVal.zero : VVal := ⟨Vec.zero, 0⟩
/-- R163: registers at task start. -/
def RegFile.start : RegFile :=
  { s := Vector.replicate 64 ⟨SVal.zero, true⟩, v := Vector.replicate 64 ⟨VVal.zero, true⟩,
    o := Vector.replicate 16 ⟨VVal.zero, true⟩, p := Vector.replicate 8 false,
    m := (Vector.replicate 8 (0 : Mask)).set 0 (BitVec.allOnes 256),
    f := Vector.replicate 8 0, lc := Vector.replicate 2 0, ls := Vector.replicate 2 0 }
/-- Latches and queue of a 64-bit unit at task start (R40, R163). -/
def SUnit.start : SUnit := ⟨SVal.zero, SVal.zero, 0, Vector.replicate 4 SVal.zero⟩
/-- Latches and queue of a vector-width unit at task start (R40, R163). -/
def VUnitSt.start : VUnitSt := ⟨VVal.zero, VVal.zero, 0, 0, Vector.replicate 4 VVal.zero⟩
/-- All units at task start. -/
def Units.start : Units :=
  ⟨SUnit.start, SUnit.start, SUnit.start, VUnitSt.start, VUnitSt.start, VUnitSt.start, VUnitSt.start, 0⟩
/-- A stream whose four groups start, aligned, at a parcel address (R319, R329). -/
def Stream.startAt (pc : W32) : Stream :=
  { win := [], base := 32, fpc := pc, run := 0, runpc := pc, redirs := [], cbsw := [], gpos := Vector.replicate 4 32 }
/-- The system registers with no reset value from launch: 0 (DESIGN CHOICE log 6). -/
def SysRegs.start : SysRegs :=
  { cls := 0, lock := false, bte := false, fve := false, dze := false, thbase := 0, rmode := ⟨false, 0⟩, rseed := 0,
    fpstat := 0, pwb := Vector.replicate 8 0, pws := Vector.replicate 8 0, pwstat := 0, wdti := 0, codebase := 0,
    mdbase := 0 }
/-- Seed of stochastic stream `k` (R197). -/
def rngSeed (seed : W64) (k : Nat) : W64 :=
  let x := seed ^^^ (BitVec.ofNat 64 (k + 1) * 0x9E3779B97F4A7C15#64)
  if x = 0 then 1 else x
/-- The five streams seeded (R197). -/
def rngSeeds (seed : W64) : Vector W64 5 := Vector.ofFn fun k => rngSeed seed k.val
/-- See `SysRegs.start`. -/
def SysRegs2.start : SysRegs2 :=
  { shdmode := 0, shddim := 0, shdblk := 0, tickch := 0, lateq := 0, nullq := 0, cbar := 0, sbar := 0, spuse := 0,
    rng := rngSeeds 0 }
/-- TSNAP at reset: 0 (Table 14.2). -/
def TSnap.zero : TSnap := ⟨false, false, false, 0, 0, 0, 0, 0, 0⟩
/-- A trap bank at reset: 0 (Table 7.5). -/
def TrapBank.zero : TrapBank := ⟨0, 0, 0, 0, 0, TSnap.zero⟩
/-- Trap state at task start: level 0, no region open. -/
def TrapState.start : TrapState := ⟨0, TrapBank.zero, TrapBank.zero, none, none, [], 0, 0⟩
/-- Pipeline of a core at task start at parcel address `pc`. -/
def Pipe.start (pc : W32) : Pipe :=
  { regs := RegFile.start, units := Units.start, shorts := [], longs := [], shadows := [], stream := Stream.startAt pc,
    sys := SysRegs.start, sys2 := SysRegs2.start, trap := TrapState.start, waits := [], svc := none, cyc := 0,
    ib := ⟨0, none, 0, false, 0, false⟩, wq := none, undo := none, fills := [], cguard := none, wslot := 0, fpDue := none, engPoison := none,
    holds := Vector.replicate 4 none, stall := 0, served := Vector.replicate 4 0, busy := [], disp := .issued }
/-- A copy slot at task start. -/
def KSlot.start : KSlot := ⟨0, 0, Vector.replicate 4 ⟨none, 0, 0⟩, []⟩
/-- An operand slot at task start (R232). -/
def OSlot.start : OSlot := ⟨.empty, [], [], [], 0, [], 0, false, false⟩
/-- The configuration ports' reset values (Table 10.3). -/
def MPorts.start : MPorts := ⟨0, 0, 0, 0, 0x7F800000, 0, 0, 0, 1⟩
/-- A FREE bank (R240). -/
def Bank.zero : Bank :=
  { acc := Vector.replicate 256 (Vector.replicate 128 0), poi := Vector.replicate 256 0, st := .free, bnd := 0, s := 0,
    tiles := [], nonrep := false }
/-- The matrix array at task start. MPC starts at 0 (DESIGN CHOICE log 6). -/
def Matrix.start : Matrix :=
  { ports := MPorts.start, slots := Vector.replicate 32 OSlot.start, bank0 := Bank.zero, bank1 := Bank.zero, bia := 0,
    bib := 0, queue := [], pairs := [], beat := 0, mpc := 0, rot := 0, count := 0, now := false, passed := false,
    sticky := ⟨0, 0, 0, false, false, false, false⟩, pendMeta := none, pendMis := none, pendNv := false, leader := none,
    width := 1 }
/-- No task. -/
def TaskInfo.none : TaskInfo :=
  { st := .none, ctx := 0, job := 0, crewRank := 0, crewSize := 0, spanRank := 0, spanSize := 0, taskId := 0, first := 0,
    joinw := 0, card := Option.none, cardLeft := 0, cardOn := false, rejoin := 0, engFrom := 0, reqFrom := 0, refused := false }
/-- A core after reset: no task; every bank ACTIVE (Table 5.1). -/
def Core.reset : Core :=
  { pipe := Pipe.start 0, ka := KSlot.start, kb := KSlot.start, mx := Matrix.start, task := TaskInfo.none, reqs := [],
    seq := 0, lt := Vector.replicate 4 0, floor := 0, engLt := 0, engSeq := 0, chans := Vector.replicate 8 ⟨[], 16, []⟩, deque := [],
    sp := [], spPoi := [], banks := Vector.replicate 48 .active, bankUse := Vector.replicate 48 0, tracker := [], tlb := [], mark := 0 }
/-- A die after reset: live, nothing cached, prefix table invalid, 8,192 free pool entries of 1 KiB by sixteenth. -/
def Die.reset : Die :=
  { live := true, isolated := false, tlb := [], log := [], seq := 0, heat := [], copies := [], lines := [], wasReset := false,
    pfx := Vector.replicate 64 ⟨0, 0, 0, 0, 0, 0, 0, false⟩, age := 0, pool := 131072, rowErrs := [], retired := [],
    badFrames := [], pairs := Vector.replicate 2 .inService, owed := [], duskOk := false,
    links := [], timeBase := 0 }
/-- The configuration defaults of Table 15.7 (LATMAX: R314); PART is the own package: origin 0, extents 2 (1 on an HV1X, DESIGN CHOICE log 6). -/
def ConfigRec.default : ConfigRec :=
  { ilvsz := 0, durdirty := 16, pcoord := 0, part := 0x111000, wrap := 7, leasemax := 4096, leaselen := 8, fluew := 8,
    bkidle := 65536, latmax := 16384, quant := 1000000, evqlog := 0, evqbase := 0 }
/-- The defaults on a product: an HV1X is a partition of extent 1 in every dimension (R1, R16). -/
def ConfigRec.on (p : Product) : ConfigRec := match p with | .hv8x => ConfigRec.default | .hv1x => { ConfigRec.default with part := 0 }
/-- Memory after reset: nothing listed. -/
def MemState.reset : MemState :=
  { mem := [], poi := [], host := [], pmem := [], ppoi := [], granules := [], dirty := [], vdirty := [], hot := [], noAlloc := [], hotOld := [], times := [], tier2 := 0,
    tier3 := 0, migs := [], migQueue := [], held := [] }
/-- The clock after reset (DESIGN CHOICE log 6). -/
def TimeState.reset : TimeState :=
  { secs := 0, fifths := 0, slew := 0, slewCyc := 0, timePort := false, locked := false, holdover := false, frame := none, sinceEdge := 0,
    ticks := Vector.replicate 4 ⟨1000, 0, 0, false, none, false⟩, ingest := Vector.replicate 16 none, dcyc := 0, lease := Vector.replicate 64 0, leaseEng := 0 }
/-- The flash as the model finds it first (DESIGN CHOICE log 6). -/
def Flash.reset : Flash :=
  let z : Vector Nat 64 := Vector.replicate 64 0
  ⟨⟨0, true, [], []⟩, ⟨1, true, [], []⟩, ⟨0, true, 0, []⟩, ⟨1, true, 0, []⟩, ⟨0, true, z, []⟩, ⟨1, true, z, []⟩⟩
/-- The firmware's records after reset. -/
def Firmware.reset : Firmware :=
  { cfg := ConfigRec.default, ctxs := [], streams := [], streamLt := [], jobs := [], nextJob := 1, nextPlace := 0, nextArrival := 0, saved := [],
    evNext := 0, evLost := 0, ras := [], flash := Flash.reset, dawn := ⟨0, 0, 0, [], []⟩, boot := 0,
    unprotected := false, damper := Vector.replicate 64 0, clusterOut := [], throttle := 0, tables := [], limbo := [], replicas := [], retiring := [], duskDone := false, duskCause := 0,
    duskTime := (0, 0), duskLines := 0, duskPLines := 0 }
/-- The links after reset: queues disabled (Table 15.2). -/
def LinkState.reset : LinkState :=
  { queues := Vector.replicate 4 ⟨0, 0, 0, false, 0⟩, cmds := [], ticket := 0, net := [], colls := [],
    spdm := 0, response := [], detours := [] }
/-- The machine right after reset: bring-up is still to run (R343). -/
def State.reset : State :=
  { cores := Vector.replicate 256 Core.reset, dies := Vector.replicate 8 Die.reset, m := MemState.reset,
    t := TimeState.reset, fw := Firmware.reset, link := LinkState.reset, product := .hv8x, phase := .bringUp, cur := 0,
    agenda := [], free := 0, pick := (0, 0) }

end Sys2Proof.Machine
end

