-- ==== Sys2Proof/Machine/Flags.lean ====
section
/-! DEFINITION. Number formats, rounding and flags (chapter 8), and the exact arithmetic under them. -/
namespace Sys2Proof.Machine

/-! ## Flags (Table 8.7) -/

/-- FPSTAT bits. -/
abbrev Flags := BitVec 9
/-- NX: a rounded result differs from the exact value. -/
def fNX : Flags := 1
/-- UF: a tiny result was inexact. -/
def fUF : Flags := 2
/-- OF: overflow. -/
def fOF : Flags := 4
/-- DZ: division of a finite non-zero value by zero, or the log of zero. -/
def fDZ : Flags := 8
/-- NV: invalid. -/
def fNV : Flags := 16
/-- NAN: a NaN result. -/
def fNAN : Flags := 32
/-- QOV: the quantiser left an element saturated, or clamped a scale. -/
def fQOV : Flags := 64
/-- QRT: the quantiser retried a block. -/
def fQRT : Flags := 128
/-- ISAT: a conversion to integer saturated. -/
def fISAT : Flags := 256
/-- `f` if `b`, else no flag. -/
def flagIf (b : Bool) (f : Flags) : Flags := if b then f else 0

/-! ## Formats (R183, R186 to R188) -/

/-- A floating or integer format: an IEEE format is a signed format of SPEC 0; `exp = 0` is an integer format. -/
structure Fmt where
  signed : Bool
  exp : Nat
  man : Nat
  bias : Int
  spec : Nat
deriving DecidableEq, Repr
/-- FP32 (Table 8.1). -/
def fp32 : Fmt := ⟨true, 8, 23, 127, 0⟩
/-- FP16 (Table 8.1). -/
def fp16 : Fmt := ⟨true, 5, 10, 15, 0⟩
/-- BF16 (Table 8.1). -/
def bf16 : Fmt := ⟨true, 8, 7, 127, 0⟩
/-- Width of a code (R187). -/
def Fmt.width (F : Fmt) : Nat := (if F.signed then 1 else 0) + F.exp + F.man
/-- Table 8.2: the format a register value describes. -/
def Fmt.ofReg (v : BitVec 24) : Fmt :=
  ⟨v.getLsbD 23, (v.extractLsb' 20 3).toNat, (v.extractLsb' 17 3).toNat, (v.extractLsb' 9 8).toInt, (v.extractLsb' 7 2).toNat⟩
/-- SCALE of a format register (Table 8.2). -/
def fmtScale (v : BitVec 24) : Nat := (v.extractLsb' 5 2).toNat
/-- NRT of a format register (Table 8.2). -/
def fmtNrt (v : BitVec 24) : Nat := (v.extractLsb' 3 2).toNat
/-- The block-start threshold T = JUMP + 1 (Table 8.2). -/
def fmtJump (v : BitVec 24) : Nat := (v.extractLsb' 0 3).toNat + 1
/-- R187: whether a format value is valid. -/
def fmtValid (v : BitVec 24) : Bool :=
  let F := Fmt.ofReg v
  1 ≤ F.width && F.width ≤ 8 && F.spec != 3 && fmtScale v != 3 && (F.exp != 0 || F.spec == 2)
    && (F.spec != 0 || (2 ≤ F.exp && 1 ≤ F.man))
/-- Largest magnitude code of a float format (Table 8.3). -/
def Fmt.maxCode (F : Fmt) : Nat :=
  match F.spec with
  | 0 => (2 ^ F.exp - 1) * 2 ^ F.man - 1
  | 1 => 2 ^ (F.exp + F.man) - 2
  | _ => 2 ^ (F.exp + F.man) - 1
/-- The NaN code produced (Table 8.3). -/
def Fmt.nanCode (F : Fmt) : Nat :=
  match F.spec with
  | 0 => (2 ^ F.exp - 1) * 2 ^ F.man + 2 ^ (F.man - 1)
  | _ => 2 ^ (F.exp + F.man) - 1
/-- The code of +∞ under SPEC 0. -/
def Fmt.infCode (F : Fmt) : Nat := (2 ^ F.exp - 1) * 2 ^ F.man
/-- The sign bit's weight, 0 for an unsigned format. -/
def Fmt.signBit (F : Fmt) (neg : Bool) : Nat := if F.signed && neg then 2 ^ (F.exp + F.man) else 0
/-- R188: the value of a code. -/
def Fmt.decode (F : Fmt) (c : Nat) : Fx :=
  if F.exp = 0 then
    if F.signed && 2 ^ F.man ≤ c then .fin true (2 ^ (F.man + 1) - c) (-F.bias) else .fin false c (-F.bias)
  else
    let neg := F.signed && c / 2 ^ (F.exp + F.man) % 2 = 1
    let e := c / 2 ^ F.man % 2 ^ F.exp
    let f := c % 2 ^ F.man
    if e = 2 ^ F.exp - 1 && F.spec = 0 then (if f = 0 then .inf neg else .nan)
    else if e = 2 ^ F.exp - 1 && F.spec = 1 && f = 2 ^ F.man - 1 then .nan
    else if e = 0 then .fin neg f (1 - F.bias - F.man)
    else .fin neg (2 ^ F.man + f) (e - F.bias - F.man)
/-- R188: emax(F), with the two formats that have no finite positive value. -/
def Fmt.emax (F : Fmt) : Int :=
  if F.exp = 0 then (if F.man = 0 then -F.bias else (F.man : Int) - 1 - F.bias)
  else if F.maxCode / 2 ^ F.man = 0 then
    (if F.maxCode = 0 then 1 - F.bias else (Nat.log2 F.maxCode : Int) + 1 - F.bias - F.man)
  else ((F.maxCode / 2 ^ F.man : Nat) : Int) - F.bias

/-! ## Exact values -/

/-- An exact real: its magnitude is `(m + t)·2^e` with `t = 0`, or `0 < t < 1` when `st`. -/
structure Ex where
  neg : Bool
  m : Nat
  e : Int
  st : Bool
deriving DecidableEq, Repr
/-- Whether an exact value is zero. -/
def Ex.isZero (x : Ex) : Bool := x.m == 0 && !x.st
/-- What an exact computation gives: a NaN from a NaN operand, a NaN made from others, an infinity, or a real. -/
inductive Res
  /-- NaN from a NaN operand -/
  | nan
  /-- NaN from non-NaN operands: sets NV -/
  | nv
  /-- exact infinity -/
  | inf (neg : Bool)
  /-- a finite division by zero: sets DZ -/
  | dz (neg : Bool)
  /-- exact real -/
  | ex (x : Ex)
deriving DecidableEq, Repr

/-- Left shift by an integer that is not negative. -/
def shl (m : Nat) (k : Int) : Nat := m * 2 ^ k.toNat
/-- The exact sum of two finite values; a zero of opposite signs is +0, or −0 towards −∞ (`down`, R185). -/
def addFin (down : Bool) (n1 : Bool) (m1 : Nat) (e1 : Int) (n2 : Bool) (m2 : Nat) (e2 : Int) : Ex :=
  let e := min e1 e2
  let a := shl m1 (e1 - e)
  let b := shl m2 (e2 - e)
  if n1 = n2 then ⟨n1, a + b, e, false⟩
  else if a = b then ⟨down, 0, e, false⟩
  else if b < a then ⟨n1, a - b, e, false⟩
  else ⟨n2, b - a, e, false⟩
/-- Exact sum (R185). -/
def fxAdd (down : Bool) : Fx → Fx → Res
  | .nan, _ => .nan
  | _, .nan => .nan
  | .inf a, .inf b => if a = b then .inf a else .nv
  | .inf a, .fin _ _ _ => .inf a
  | .fin _ _ _, .inf b => .inf b
  | .fin n1 m1 e1, .fin n2 m2 e2 => .ex (addFin down n1 m1 e1 n2 m2 e2)
/-- Negation. -/
def Fx.neg : Fx → Fx | .nan => .nan | .inf a => .inf !a | .fin n m e => .fin (!n) m e
/-- Exact product; none is 0·∞ (R214). -/
def fxMul : Fx → Fx → Option Fx
  | .nan, _ => some .nan
  | _, .nan => some .nan
  | .inf a, .inf b => some (.inf (a != b))
  | .inf a, .fin n m _ => if m = 0 then none else some (.inf (a != n))
  | .fin n m _, .inf a => if m = 0 then none else some (.inf (a != n))
  | .fin n1 m1 e1, .fin n2 m2 e2 => some (.fin (n1 != n2) (m1 * m2) (e1 + e2))
/-- A value as the result of a computation that rounds it. -/
def Fx.res : Fx → Res | .nan => .nan | .inf a => .inf a | .fin n m e => .ex ⟨n, m, e, false⟩
/-- Exact product as a result. -/
def fxMulRes (a b : Fx) : Res := match fxMul a b with | some x => x.res | none => .nv
/-- `f·a + b` exactly; 0·∞ is invalid whatever `b` is, unless an operand is NaN (Table 9.3). -/
def fxFma (down : Bool) (f a b : Fx) : Res :=
  if f = .nan || a = .nan || b = .nan then .nan
  else match fxMul f a with
    | none => .nv
    | some p => fxAdd down p b
/-- The quotient of magnitudes with at least 128 significant bits (R221). -/
def divMag (m1 : Nat) (e1 : Int) (m2 : Nat) (e2 : Int) (neg : Bool) : Ex :=
  let k := 128 + Nat.log2 m2
  let n := m1 * 2 ^ k
  ⟨neg, n / m2, e1 - e2 - k, n % m2 != 0⟩
/-- f / x (Table 9.8). -/
def fxDiv : Fx → Fx → Res
  | .nan, _ => .nan
  | _, .nan => .nan
  | .inf _, .inf _ => .nv
  | .inf a, .fin n _ _ => .inf (a != n)
  | .fin n _ _, .inf a => .ex ⟨n != a, 0, 0, false⟩
  | .fin n1 m1 e1, .fin n2 m2 e2 =>
    if m2 = 0 then (if m1 = 0 then .nv else .dz (n1 != n2))
    else if m1 = 0 then .ex ⟨n1 != n2, 0, 0, false⟩
    else divMag m1 e1 m2 e2 (n1 != n2)  |> .ex
/-- The integer square root, bit by bit from `2^k` down. -/
def isqrtFrom (n : Nat) : Nat → Nat → Nat
  | 0, r => r
  | k + 1, r => if (r + 2 ^ k) * (r + 2 ^ k) ≤ n then isqrtFrom n k (r + 2 ^ k) else isqrtFrom n k r
/-- The integer square root. -/
def isqrt (n : Nat) : Nat := isqrtFrom n (Nat.log2 n / 2 + 1) 0
/-- √f of a positive finite value. -/
def sqrtMag (m : Nat) (e : Int) : Ex :=
  let m' := if e % 2 = 0 then m else 2 * m
  let e' := if e % 2 = 0 then e else e - 1
  let n := m' * 2 ^ 160
  let r := isqrt n
  ⟨false, r, e' / 2 - 80, r * r != n⟩
/-- 1/√f of a positive finite value. -/
def rsqrtMag (m : Nat) (e : Int) : Ex :=
  let m' := if e % 2 = 0 then m else 2 * m
  let e' := if e % 2 = 0 then e else e - 1
  let n := 2 ^ 240 / m'
  let r := isqrt n
  ⟨false, r, -(e' / 2) - 120, r * r * m' != 2 ^ 240⟩
/-- ln 2 in units of 2^-256. -/
def ln2Fixed : Nat := 80260960185991308862233904206310070533990667611589946606122867505419956976171
/-- log2 e in units of 2^-256. -/
def log2eFixed : Nat := 167052672916848388242985626561247531987276682633131050150846402744536260568207
/-- The Taylor terms of e^x, x in units of 2^-256, from term `k` on. -/
def expTaylor (x : Nat) : Nat → Nat → Nat → Nat
  | 0, _, _ => 0
  | fuel + 1, k, t => t + expTaylor x fuel (k + 1) (t * x / 2 ^ 256 / (k + 1))
/-- 2^t for 0 ≤ t < 1 in units of 2^-256 (UNVERIFIED log 13). -/
def exp2Fixed (t : Nat) : Nat := expTaylor (t * ln2Fixed / 2 ^ 256) 70 0 (2 ^ 256)
/-- Floor of an exact value in units of 2^-256, for a value that is not below −2^20, and whether the rest is zero. -/
def fixed256 (n : Bool) (m : Nat) (e : Int) : Int × Bool :=
  let a : Nat := if 0 ≤ e + 256 then m * 2 ^ (e + 256).toNat else m / 2 ^ (-(e + 256)).toNat
  let exact := 0 ≤ e + 256 || m % 2 ^ (-(e + 256)).toNat = 0
  if n then (if exact then -(a : Int) else -(a : Int) - 1, exact) else (a, exact)
/-- 2^f of a finite value, |f| below 2^20 (UNVERIFIED log 13). -/
def exp2Mag (n : Bool) (m : Nat) (e : Int) : Ex :=
  let v := (fixed256 n m e).1
  let i := v / 2 ^ 256
  let t := (v % 2 ^ 256).toNat
  if t = 0 && (fixed256 n m e).2 then ⟨false, 1, i, false⟩ else ⟨false, exp2Fixed t, i - 256, true⟩
/-- `k` fraction bits of log2 y, 1 ≤ y < 2 in units of 2^-256, by squaring. -/
def log2Bits : Nat → Nat → Nat → Nat
  | 0, _, acc => acc
  | k + 1, y, acc =>
    let y2 := y * y / 2 ^ 256
    if 2 ^ 257 ≤ y2 then log2Bits k (y2 / 2) (2 * acc + 1) else log2Bits k y2 (2 * acc)
/-- log2 of a positive finite value (UNVERIFIED log 13). -/
def log2Mag (m : Nat) (e : Int) : Ex :=
  let l := Nat.log2 m
  let i : Int := l + e
  if m = 2 ^ l then ⟨i < 0, i.natAbs, 0, false⟩
  else
    let fr := log2Bits 100 (m * 2 ^ 256 / 2 ^ l) 0
    let v : Int := i * 2 ^ 100 + fr
    if 0 ≤ v then ⟨false, v.toNat, -100, true⟩ else ⟨true, (-v).toNat - 1, -100, true⟩

/-! ## Rounding (R194 to R196) -/

/-- R194: rounds a magnitude to a multiple of `2^q`: the multiple and whether it is inexact. -/
def roundMag (mode d : Nat) (x : Ex) (q : Int) : Nat × Bool :=
  if q ≤ x.e then (shl x.m (x.e - q), x.st)
  else
    let s := (q - x.e).toNat
    let k := x.m / 2 ^ s
    let r := x.m % 2 ^ s
    let inexact := r != 0 || x.st
    let up := match mode with
      | 0 => 2 ^ s < 2 * r || (2 * r = 2 ^ s && (x.st || k % 2 = 1))
      | 1 => false
      | 2 => inexact && !x.neg
      | 3 => inexact && x.neg
      | _ => decide (2 ^ 16 ≤ r * 2 ^ 16 / 2 ^ s + d)
    (if up then k + 1 else k, inexact)
/-- floor(log2 |x|) of a non-zero exact value. -/
def Ex.log2 (x : Ex) : Int := (Nat.log2 x.m : Int) + x.e
/-- Table 8.6: the code of an overflow; below a signed integer format of M = 0 it is the most negative value, as R195 has it too (DESIGN CHOICE log 68). -/
def Fmt.overflow (F : Fmt) (mode : Nat) (neg : Bool) : Nat :=
  if F.exp = 0 then (if neg then 2 ^ F.man else 2 ^ F.man - 1)
  else
    let inf := F.spec = 0 && (match mode with | 1 => false | 2 => !neg | 3 => neg | _ => true)
    F.signBit neg + (if inf then F.infCode else F.maxCode)
/-- R194, R195: the code of an exact value under a mode with draw `d`; its flags; whether it overflowed. What is not zero and rounds to zero is tiny, in a narrow
integer format too (R185). A negative value that an unsigned format cannot hold sets NV alone (DESIGN CHOICE log 68). -/
def Fmt.round (F : Fmt) (mode d : Nat) (x : Ex) : Nat × Flags × Bool :=
  if x.isZero then (if F.exp = 0 then 0 else F.signBit x.neg, 0, false)
  else if F.exp = 0 then
    let (k, nx) := roundMag mode d x (-F.bias)
    if x.neg && !F.signed then (if k = 0 then (0, fNX ||| fUF, false) else (0, fNV, false))
    else
      let lim := if x.neg then 2 ^ F.man else 2 ^ F.man - 1
      if lim < k then (F.overflow mode x.neg, fOF ||| fNX, true)
      else (if x.neg then (2 ^ (F.man + 1) - k) % 2 ^ (F.man + 1) else k, flagIf nx fNX ||| flagIf (k = 0) fUF, false)
  else
    let e := max x.log2 (1 - F.bias)
    let (k, nx) := roundMag mode d x (e - F.man)
    if x.neg && !F.signed && k != 0 then (0, fNV, false)
    else
      let c := (e + F.bias - 1).toNat * 2 ^ F.man + k
      if F.maxCode < c then (F.overflow mode x.neg, fOF ||| fNX, true)
      else (F.signBit x.neg + c, flagIf nx fNX ||| flagIf (nx && c < 2 ^ F.man) fUF, false)
/-- R196: the code of ±∞. -/
def Fmt.ofInf (F : Fmt) (neg : Bool) : Nat × Flags :=
  if neg && !F.signed then (0, fNV)
  else if F.exp = 0 then (F.overflow 0 neg, fNV)
  else if F.spec = 0 then (F.signBit neg + F.infCode, 0)
  else (F.signBit neg + F.maxCode, fNV)
/-- R185, R196: the code of a NaN. -/
def Fmt.ofNan (F : Fmt) : Nat × Flags :=
  if F.exp = 0 || F.spec = 2 then (0, fNV) else (F.nanCode, fNAN)
/-- The code and flags of a result under a mode with draw `d`, and whether it overflowed. -/
def Res.code (r : Res) (F : Fmt) (mode d : Nat) : Nat × Flags × Bool :=
  match r with
  | .nan => let (c, f) := F.ofNan; (c, f, false)
  | .nv => let (c, f) := F.ofNan; (c, f ||| fNV, false)
  | .inf n => let (c, f) := F.ofInf n; (c, f, false)
  | .dz n => let (c, f) := F.ofInf n; (c, f ||| fDZ, false)
  | .ex x => F.round mode d x

/-! ## fp32 shorthands (R7) -/

/-- The value of an fp32 pattern. -/
def fx32 (w : W32) : Fx := fp32.decode w.toNat
/-- The fp32 pattern of a code. -/
def w32 (n : Nat) : W32 := BitVec.ofNat 32 n
/-- RNE(x, fp32) with flags (R7). -/
def rne (r : Res) : W32 × Flags := let (c, f, _) := r.code fp32 0 0; (w32 c, f)
/-- RNE(a + b, fp32) (R205). -/
def fadd32 (a b : W32) : W32 × Flags := rne (fxAdd false (fx32 a) (fx32 b))
/-- RU(x): an exact non-negative value rounded towards +∞ to fp32 (R7). -/
def ru (x : Ex) : W32 := w32 (fp32.round 2 0 x).1
/-- RU of a result: NaN and infinity give +∞ (R243). -/
def ruRes : Res → W32
  | .ex x => ru x
  | _ => 0x7F800000
/-- +∞ in fp32. -/
def inf32 : W32 := 0x7F800000
/-- The canonical fp32 NaN (Table 8.1). -/
def nan32 : W32 := 0x7FC00000
/-- Whether an fp32 pattern is a NaN. -/
def isNan32 (w : W32) : Bool := fx32 w == .nan
/-- A bound as stored: a negative value or a NaN counts as +∞ (R232, R244). -/
def bound32 (w : W32) : W32 := match fx32 w with
  | .nan => inf32
  | .inf _ => inf32
  | .fin n m _ => if n && m != 0 then inf32 else if m = 0 then 0 else w
/-- Order of the values of two finite or infinite fx: `a < b`. -/
def fxLt : Fx → Fx → Bool
  | .nan, _ => false
  | _, .nan => false
  | .inf a, .inf b => a && !b
  | .inf a, .fin _ _ _ => a
  | .fin _ _ _, .inf b => !b
  | .fin n1 m1 e1, .fin n2 m2 e2 =>
    let x := addFin false n1 m1 e1 (!n2) m2 e2
    x.neg && x.m != 0
/-- Equality of values; zeros are equal. -/
def fxEq : Fx → Fx → Bool
  | .nan, _ => false
  | _, .nan => false
  | a, b => !fxLt a b && !fxLt b a
/-- The sign of a value. -/
def Fx.isNeg : Fx → Bool | .nan => false | .inf a => a | .fin n _ _ => n
/-- `a` before `b` in the order in which −0 lies below +0 (Table 9.3). -/
def fxTotalLt (a b : Fx) : Bool := fxLt a b || (fxEq a b && a.isNeg && !b.isNeg)
/-- Greater of two bounds (neither NaN). -/
def maxBound (a b : W32) : W32 := if fxLt (fx32 a) (fx32 b) then b else a
/-- |x|. -/
def Fx.abs : Fx → Fx | .nan => .nan | .inf _ => .inf false | .fin _ m e => .fin false m e

/-! ## Conversions to integers (R199) -/

/-- R199: conversion of a floating value to an n-bit signed integer, by ISAT, under a mode with draw `d`. -/
def toIntN (n : Nat) (isat : Bool) (mode d : Nat) (x : Fx) : Nat × Flags :=
  let lo : Int := -(2 ^ (n - 1))
  let hi : Int := 2 ^ (n - 1) - 1
  let wrap (k : Int) : Nat := (k % (2 ^ n : Int)).toNat
  match x with
  | .nan => (0, fNV)
  | .inf neg => if isat then (wrap (if neg then lo else hi), fNV) else (0, fNV)
  | .fin neg m e =>
    let (k, nx) := roundMag mode d ⟨neg, m, e, false⟩ 0
    let v : Int := if neg then -(k : Int) else k
    if lo ≤ v && v ≤ hi then (wrap v, flagIf nx fNX)
    else if isat then (wrap (if v < lo then lo else hi), flagIf nx fNX ||| fISAT)
    else (wrap v, flagIf nx fNX)
/-- R199: a wider integer to an n-bit signed one. -/
def narrowInt (n : Nat) (isat : Bool) (v : Int) : Nat × Flags :=
  let lo : Int := -(2 ^ (n - 1))
  let hi : Int := 2 ^ (n - 1) - 1
  let wrap (k : Int) : Nat := (k % (2 ^ n : Int)).toNat
  if lo ≤ v && v ≤ hi then (wrap v, 0)
  else if isat then (wrap (if v < lo then lo else hi), fISAT) else (wrap v, 0)
/-- An integer as an exact value. -/
def intEx (v : Int) : Ex := ⟨v < 0, v.natAbs, 0, false⟩

/-! ## Stochastic draws (R197) -/

/-- One step of a stream. -/
def rngStep (x : W64) : W64 :=
  let x := x ^^^ (x <<< 13)
  let x := x ^^^ (x >>> 7)
  x ^^^ (x <<< 17)
/-- The next `n` draws of a stream and the stream after them. -/
def rngDraws : Nat → W64 → List Nat × W64
  | 0, x => ([], x)
  | n + 1, x =>
    let x := rngStep x
    let r := rngDraws n x
    ((x >>> 48).toNat :: r.1, r.2)

/-! ## The softmax weight (R149) -/

/-- RNE(e^d, fp32) for a finite d ≤ 0 (UNVERIFIED log 13). -/
def expWeight (m : Nat) (e : Int) : W32 × Flags :=
  if m = 0 then (0x3F800000, 0)
  else if 7 ≤ (Nat.log2 m : Int) + e then (0, fNX)
  else
    let v := (fixed256 true m e).1 * log2eFixed
    let i := v / 2 ^ 512
    let t := ((v % 2 ^ 512) / 2 ^ 256).toNat
    let r := fp32.round 0 0 ⟨false, exp2Fixed t, i - 256, true⟩
    (w32 r.1, r.2.1 &&& fNX)

/-! ## Flags of a list -/

/-- The union of flags. -/
def orFlags (l : List Flags) : Flags := l.foldl (· ||| ·) 0

end Sys2Proof.Machine
end

