-- ==== Sys2Proof/Machine/Memory.lean ====
section
/-! DEFINITION. Memory as canonical lists of cells, the physical address map (R61 to R64), translation (R65 to R73),
performed accesses with their timestamps (R89 to R94), migration and replication as an access meets them. -/
namespace Sys2Proof.Machine

/-! ## Cells -/

/-- A memory: listed cells, addresses strictly rising, none zero; an unlisted address reads 0 (DESIGN CHOICE log 7). -/
abbrev Memory := List Host.Cell

/-- What an unlisted address reads as (DESIGN CHOICE log 7). -/
def Memory.default : Byte := 0
/-- The byte at an address. -/
def Memory.read : Memory → Nat → Byte
  | [], _ => Memory.default
  | (a', b) :: r, a => if a = a' then b else if a < a' then Memory.default else Memory.read r a
/-- Writes one byte, keeping the canonical form. -/
def Memory.write : Memory → Nat → Byte → Memory
  | [], a, b => if b = Memory.default then [] else [(a, b)]
  | (a', b') :: r, a, b =>
    if a < a' then (if b = Memory.default then (a', b') :: r else (a, b) :: (a', b') :: r)
    else if a = a' then (if b = Memory.default then r else (a, b) :: r)
    else (a', b') :: Memory.write r a b
/-- The canonical form. -/
def Memory.wf : Memory → Bool
  | [] => true
  | (_, b) :: [] => b != Memory.default
  | (a, b) :: (a', b') :: r => b != Memory.default && decide (a < a') && Memory.wf ((a', b') :: r)
/-- `n` bytes from address `a`, lowest first. -/
def Memory.bytes (m : Memory) (a : Nat) : Nat → List Byte
  | 0 => []
  | n + 1 => Memory.read m a :: Memory.bytes m (a + 1) n
/-- A list of bytes as a number, little-endian (R4). -/
def natOfBytes : List Byte → Nat
  | [] => 0
  | b :: r => b.toNat + 256 * natOfBytes r
/-- The `n` low bytes of a number, lowest first (R4). -/
def bytesOfNat : Nat → Nat → List Byte
  | 0, _ => []
  | n + 1, v => BitVec.ofNat 8 v :: bytesOfNat n (v / 256)
/-- Writes a list of bytes from address `a` up. -/
def Memory.writeBytes : Memory → Nat → List Byte → Memory
  | m, _, [] => m
  | m, a, b :: r => Memory.writeBytes (Memory.write m a b) (a + 1) r
/-- The number in `n` bytes from `a`, little-endian (R4). -/
def Memory.readN (m : Memory) (a n : Nat) : Nat := natOfBytes (Memory.bytes m a n)
/-- Writes the `n` low bytes of `v` (R4). -/
def Memory.writeN (m : Memory) (a n v : Nat) : Memory := Memory.writeBytes m a (bytesOfNat n v)

/-- Adds a number to an ascending list without repeats. -/
def setAdd (l : List Nat) (w : Nat) : List Nat :=
  match l with
  | [] => [w]
  | x :: r => if w < x then w :: x :: r else if w = x then x :: r else x :: setAdd r w
/-- The aligned 8-byte words that `n` bytes from `a` touch. -/
def wordsOf (a n : Nat) : List Nat := (List.range ((a + n + 7) / 8 - a / 8)).map (a / 8 + ·)
/-- Whether any of `n` bytes from `a` lies in a poisoned word (R111, DEDUCED log 16). -/
def poisonAt (p : List Nat) (a n : Nat) : Bool := (wordsOf a n).any fun w => p.contains w
/-- Poison after a write of `n` bytes at `a`: poisoned data marks the words it touches; clean data clears the words it
covers whole (R111). -/
def poisonWrite (p : List Nat) (a n : Nat) (bad : Bool) : List Nat :=
  if bad then (wordsOf a n).foldl setAdd p
  else if p.isEmpty then p
  else p.filter fun w => !(a ≤ 8 * w && 8 * w + 8 ≤ a + n)

/-! ## Parts of the state -/

/-- Core `c`. -/
def State.core (s : State) (c : CoreId) : Core := s.cores[c.val]'c.isLt
/-- Core `c` replaced. -/
def State.setCore (s : State) (c : CoreId) (k : Core) : State := { s with cores := s.cores.set c.val k c.isLt }
/-- Core `c` changed. -/
def State.modCore (s : State) (c : CoreId) (f : Core → Core) : State := s.setCore c (f (s.core c))
/-- Die `d`. -/
def State.die (s : State) (d : DieId) : Die := s.dies[d.val]'d.isLt
/-- Die `d` changed. -/
def State.modDie (s : State) (d : DieId) (f : Die → Die) : State := { s with dies := s.dies.set d.val (f (s.die d)) d.isLt }
/-- Every die changed. -/
def State.modDies (s : State) (f : Die → Die) : State := { s with dies := s.dies.map f }
/-- Removes the copies that die caches hold of lines of a range. -/
def State.dropCopies (s : State) (a n : Nat) : State :=
  s.modDies fun d => if d.copies.isEmpty then d else { d with copies := d.copies.filter fun x => x.line + 128 ≤ a || a + n ≤ x.line }
/-- The context of an identifier. -/
def State.ctx (s : State) (id : BitVec 16) : Option Ctx := s.fw.ctxs.find? fun c => c.id == id
/-- The context of an identifier changed. -/
def State.modCtx (s : State) (id : BitVec 16) (f : Ctx → Ctx) : State :=
  { s with fw := { s.fw with ctxs := s.fw.ctxs.map fun c => if c.id == id then f c else c } }
/-- Draws a free value (DESIGN CHOICE log 11). -/
def State.drawFree (s : State) : BitVec 64 × State := (Config.freeValue s.free, { s with free := s.free + 1 })
/-- R12: dies of the package: 8 on the HV8X, 1 on the HV1X. -/
def State.pkgDies (s : State) : Nat := match s.product with | .hv8x => 8 | .hv1x => 1
/-- Live dies in service. -/
def State.dieLive (s : State) (d : DieId) : Bool := (s.die d).live && d.val < s.pkgDies
/-- Whether a core exists: an HV1X has one die (R1). -/
def State.hasCore (s : State) (c : CoreId) : Bool := c.die.val < s.pkgDies
/-- The 32 bytes of a host event (R342): KIND, CTX, TASKID, TAG, the events dropped before it, VALUE (DESIGN CHOICE log 49). -/
def eventBytes (kind : Nat) (ctx : BitVec 16) (task tag : W32) (value : W64) (lost : Nat) : List Byte :=
  bytesOfNat 2 kind ++ bytesOfNat 2 ctx.toNat ++ bytesOfNat 4 task.toNat ++ bytesOfNat 4 tag.toNat ++ bytesOfNat 4 lost ++ bytesOfNat 8 value.toNat ++ bytesOfNat 8 0
/-- R342: writes a host event to the ring at EVQBASE, of kind 1 NOTIFY, 2 a kill report written, 3 a RAS event: none while EVQLOG gives no ring; a full ring
drops it and counts it for the next one. An entry is free while its KIND is 0, to which the host sets it (DESIGN CHOICE log 49). -/
def State.postEvent (s : State) (kind : Nat) (ctx : BitVec 16) (task tag : W32) (value : W64) : State :=
  let k := s.fw.cfg.evqlog.toNat
  let a := s.fw.cfg.evqbase.toNat % 2 ^ 52 + 32 * (s.fw.evNext % 2 ^ k)
  if k < 4 || 16 < k then s
  else if Memory.readN s.m.host a 2 ≠ 0 then { s with fw := { s.fw with evLost := s.fw.evLost + 1 } }
  else { s with m := { s.m with host := Memory.writeBytes s.m.host a (eventBytes kind ctx task tag value s.fw.evLost) },
                fw := { s.fw with evNext := s.fw.evNext + 1, evLost := 0 } }
/-- Records a RAS event and posts it to the host (R334, R342) (DESIGN CHOICE log 48). -/
def State.rasEvent (s : State) (kind die item : Nat) : State := (({ s with fw := { s.fw with ras := s.fw.ras ++ [⟨kind, die, item⟩] } } : State).postEvent 3 0 0 0 (BitVec.ofNat 64 kind))
/-- The number of a die modulo the package. -/
def dieOf (n : Nat) : DieId := ⟨n % 8, Nat.mod_lt _ (by decide)⟩

/-! ## The physical address map (R61 to R63, R90) -/

/-- The tier windows of Table 3.1; 4 stands for the remote-package window, 5 for everything else. -/
def tierOf (pa : Nat) : Nat :=
  if pa < 0x10000000000 then 0
  else if pa < 0x20000000000 then 1
  else if 0x1000000000000 ≤ pa && pa < 0x1100000000000 then 2
  else if 0x2000000000000 ≤ pa && pa < 0x2040000000000 then 3
  else if 0x8000000000000 ≤ pa && pa < 0xA000000000000 then 4
  else 5
/-- R61: the package's own number, from its coordinate (R15). -/
def State.pkgNumber (s : State) : Nat :=
  let p := s.fw.cfg.pcoord.toNat
  p % 16 + 8 * (p / 16 % 16) + 64 * (p / 256 % 16)
/-- R61: a remote-window PA that names the own package, as the local address. -/
def State.normPa (s : State) (pa : Nat) : Nat :=
  if tierOf pa = 4 && (pa - 0x8000000000000) / 0x10000000000 = s.pkgNumber then pa % 0x10000000000 else pa
/-- R61, R62: whether memory occupies a PA. -/
def State.backed (s : State) (pa0 : Nat) : Bool :=
  let pa := s.normPa pa0
  let ilv := s.fw.cfg.ilvsz.toNat
  match tierOf pa with
  | 0 => s.dieLive (dieOf (pa / 0x2000000000)) && pa % 0x2000000000 < (96 - ilv) * 0x40000000 && pa / 0x2000000000 < 8
  | 1 => pa - 0x10000000000 < s.pkgDies * ilv * 0x40000000
  | 2 => pa - 0x1000000000000 < s.m.tier2
  | 3 => pa - 0x2000000000000 < s.m.tier3
  | _ => false
/-- R61, R62: whether memory occupies every byte of a range: its ends are backed, and neither the end of a tier nor the hole of a die's slot lies between. -/
def State.backedRange (s : State) (a n : Nat) : Bool :=
  let lo := s.normPa a
  let hi := s.normPa (a + n - 1)
  s.backed lo && s.backed hi && lo ≤ hi && tierOf lo = tierOf hi && (tierOf lo ≠ 0 || lo / 0x2000000000 = hi / 0x2000000000)
/-- R63: the die of a 4 KiB granule of an offset. -/
def State.granuleDie (s : State) (off : Nat) : DieId := dieOf (off / 4096 % s.pkgDies)
/-- R90: the home die of a physical address. -/
def State.homeDie (s : State) (pa : Nat) : DieId :=
  match tierOf pa with
  | 0 => dieOf (pa / 0x2000000000)
  | 4 => dieOf (pa % 0x10000000000 / 0x2000000000)
  | 1 => s.granuleDie (pa - 0x10000000000)
  | 2 => s.granuleDie (pa - 0x1000000000000)
  | _ => s.granuleDie (pa - 0x2000000000000)
/-- R63: the PA within a die's slot that holds a tier-1 address. -/
def State.interleaved (s : State) (pa : Nat) : Nat :=
  let a := pa - 0x10000000000
  let g := a / 4096
  g % s.pkgDies * 0x2000000000 + (96 - s.fw.cfg.ilvsz.toNat) * 0x40000000 + (g / s.pkgDies * 4096 + a % 4096)
/-- R90: the die-cache slice of a physical address. -/
def sliceOf (pa : Nat) : Nat := pa / 128 % 32
/-- R90: the home die of a location. -/
def State.locDie (s : State) : Loc → DieId
  | .sp c _ => c.die
  | .pa a => s.homeDie a
/-- R287: the dusk area, the top 1 MiB of tier 3. -/
def State.inDuskArea (s : State) (pa : Nat) : Bool :=
  0 < s.m.tier3 && 0x2000000000000 + s.m.tier3 - 0x100000 ≤ pa && pa < 0x2000000000000 + s.m.tier3

/-! ## Page tables (R67 to R70) -/

/-- The kinds of page size, 0 to 2 (Table 3.3), in bytes. -/
def pageBytes (size : Nat) : Nat := match size with | 0 => 0x10000 | 1 => 0x4000000 | _ => 0x1000000000
/-- The lowest index bit of a level: 46 at the root, 36, 26, 16 (Table 3.3). -/
def levelShift (level : Nat) : Nat := 46 - 10 * level
/-- Bit `i` of an entry. -/
def ebit (e : W64) (i : Nat) : Bool := e.getLsbD i
/-- The frame address of a leaf (Table 3.4). -/
def leafFrame (e : W64) : Nat := e.toNat % 0x10000000000000 / 0x10000 * 0x10000
/-- R70: whether a frame lies in the window of its TIER. -/
def tierMatches (e : W64) : Bool :=
  let t := tierOf (leafFrame e)
  match (e.extractLsb' 8 2).toNat with
  | 0 => t = 0 || t = 4
  | n => t = n
/-- R70 items 1, 3 to 9: whether a leaf of page size `size` is malformed. -/
def State.leafBad (s : State) (e : W64) (size : Nat) : Bool :=
  e.extractLsb' 52 4 != 0 || e.extractLsb' 11 5 != 0 || leafFrame e % pageBytes size != 0
  || !s.backed (leafFrame e) || !s.backed (leafFrame e + pageBytes size - 1) || !tierMatches e
  || (ebit e 5 != (e.extractLsb' 8 2 == 3))
  || (ebit e 3 && (e.extractLsb' 8 2 != 0 || tierOf (leafFrame e) != 0)) || (ebit e 3 && ebit e 4)
  || (ebit e 6 && size == 2)
/-- R70 items 1, 4, 5: whether a non-leaf entry is malformed. -/
def State.tableBad (s : State) (e : W64) : Bool :=
  let a := e.toNat % 0x10000000000000 / 0x2000 * 0x2000
  e.extractLsb' 52 4 != 0 || e.extractLsb' 8 5 != 0 || e.extractLsb' 1 6 != 0 || !s.backed a || 1 < tierOf (s.normPa a)
/-- What a walk finds (R72, R73). -/
inductive Walk
  /-- a leaf: its address, page size 0 to 2, the entry -/
  | leaf (at' : Nat) (size : Nat) (e : W64)
  /-- an entry with V = 0, at its address and level -/
  | absent (at' : Nat) (level : Nat)
  /-- a malformed entry -/
  | malformed
deriving DecidableEq, Repr
/-- The entry of a table for a VA. -/
def entryAt (table va level : Nat) : Nat := table + 8 * (va / 2 ^ levelShift level % 1024)
/-- R67 to R70: what an entry read at `a` on a level of a walk means: the walk's end, or the table of the next level. -/
def State.entryMeans (s : State) (a level : Nat) (e : W64) (bad : Bool) : Sum Walk Nat :=
  if bad then .inl .malformed
  else if !ebit e 0 then .inl (.absent a level)
  else if ebit e 7 then .inl (if level = 0 || s.leafBad e (3 - level) then .malformed else .leaf a (3 - level) e)
  else if level = 3 || s.tableBad e then .inl .malformed
  else .inr (e.toNat % 0x10000000000000 / 0x2000 * 0x2000)
/-- R67 to R70: firmware's walk from a table at `level`, `fuel` levels left: it reads the tables at their homes. -/
def State.walkFrom (s : State) (va : Nat) : Nat → Nat → Nat → Walk
  | 0, _, _ => .malformed
  | fuel + 1, table, level =>
    let a := s.normPa (entryAt table va level)
    match s.entryMeans a level (BitVec.ofNat 64 (Memory.readN s.m.mem a 8)) (poisonAt s.m.poi a 8) with
    | .inl w => w
    | .inr t => s.walkFrom va fuel t (level + 1)
/-- Firmware's walk of a VA from a context's root (R67). -/
def State.walk (s : State) (root va : Nat) : Walk := s.walkFrom va 4 root 0

/-- Writes an 8-byte page-table entry; no die cache keeps a copy of its line (DESIGN CHOICE log 81). -/
def State.writeEntry (s : State) (a : Nat) (e : W64) : State :=
  let s := s.dropCopies (s.normPa a / 128 * 128) 128
  { s with m := { s.m with mem := Memory.writeN s.m.mem (s.normPa a) 8 e.toNat, poi := poisonWrite s.m.poi (s.normPa a) 8 false } }
/-- The pages of a list (frame, bytes) after the page of one leaf entry has given way to that of another: an entry stands in the list while its bit `i`
is set. -/
def State.pagesAfter (s : State) (i : Nat) (l : List (Nat × Nat)) (old new : W64) (bytes : Nat) : List (Nat × Nat) :=
  let isPage (e : W64) : Bool := ebit e 0 && ebit e 7 && ebit e i
  let l := if isPage old then l.erase (s.normPa (leafFrame old), bytes) else l
  if isPage new then (s.normPa (leafFrame new), bytes) :: l else l
/-- Whether a page of such a list holds a PA: in its frame, or in another die's copy of a replicated page (R80). -/
def State.pagesHave (s : State) (l : List (Nat × Nat)) (a : Nat) : Bool :=
  l.any fun p => (p.1 ≤ a && a < p.1 + p.2)
    || ((s.fw.replicas.any fun q => q.frame = p.1) && tierOf a = 0 && p.1 % 0x2000000000 ≤ a % 0x2000000000 && a % 0x2000000000 < p.1 % 0x2000000000 + p.2)
/-- Writes a leaf entry of a page size, and keeps the lists of pages with HT = 1 and with NA = 1 (R68). -/
def State.writeLeaf (s : State) (a size : Nat) (e : W64) : State :=
  let old : W64 := BitVec.ofNat 64 (Memory.readN s.m.mem (s.normPa a) 8)
  let s := s.writeEntry a e
  { s with m := { s.m with hot := s.pagesAfter 6 s.m.hot old e (pageBytes size), noAlloc := s.pagesAfter 10 s.m.noAlloc old e (pageBytes size) } }
/-- Whether a retired frame lies in a range of physical addresses (R87). -/
def State.hasRetired (s : State) (a n : Nat) : Bool := s.dies.any fun d => d.badFrames.any fun f => f < a + n && a < f + 0x10000
/-- How many tables the tier-0 extent of a die holds (R62). -/
def State.tables0 (s : State) : Nat := (96 - s.fw.cfg.ilvsz.toNat) * 0x20000
/-- The PA of the firmware's place `n` for a table: in the tier-0 extents of the dies in service, in the order of the dies, then in tier 1, each from its top down
(DESIGN CHOICE log 23). -/
def State.tableAddr (s : State) (n : Nat) : Nat :=
  let live := (List.finRange 8).filter fun d => s.dieLive d
  let k := live.length * s.tables0
  if n < k then (live.getD (n / s.tables0) 0).val * 0x2000000000 + (s.tables0 - 1 - n % s.tables0) * 0x2000
  else 0x10000000000 + s.pkgDies * s.fw.cfg.ilvsz.toNat * 0x40000000 - 0x2000 * (n - k + 1)
/-- Whether a stamp window, of at most 256 KiB, lies in a range of physical addresses (R273). -/
def State.hasWindow (s : State) (a n : Nat) : Bool := s.t.ingest.any fun q => match q with | some q => q.win < a + n && a < q.win + 0x40000 | none => false
/-- The PA of the next table: the first place of memory that answers, that holds no table yet, without a retired frame (R87 item 3) and outside the stamp windows. -/
def State.nextTable (s : State) : Nat :=
  let bad := s.dies.foldl (fun k d => k + 8 * d.badFrames.length) 0 + 32 * s.t.ingest.countP (·.isSome)
  let free (t : Nat) : Bool := !s.fw.tables.contains t && !s.hasRetired t 0x2000 && !s.hasWindow t 0x2000
  (((List.range (s.fw.tables.length + bad + 1)).map s.tableAddr).find? free).getD (s.tableAddr 0)
/-- Installs a leaf of a page size for a VA, allocating the tables the path lacks (R341 MAP, DESIGN CHOICE log 23); an entry on the path that names no
table, malformed ones among them, gives way to a new table (R73). -/
def State.installFrom (s : State) (va : Nat) (size : Nat) (e : W64) : Nat → Nat → Nat → State
  | 0, _, _ => s
  | fuel + 1, table, level =>
    let a := entryAt table va level
    if level = 3 - size then s.writeLeaf a size e
    else
      let old : W64 := BitVec.ofNat 64 (Memory.readN s.m.mem (s.normPa a) 8)
      if ebit old 0 && !ebit old 7 && !s.tableBad old && !poisonAt s.m.poi (s.normPa a) 8 then s.installFrom va size e fuel (old.toNat % 0x10000000000000 / 0x2000 * 0x2000) (level + 1)
      else
        let t := s.nextTable
        let s := { s with fw := { s.fw with tables := t :: s.fw.tables } }
        (s.writeEntry a (BitVec.ofNat 64 (t + 1))).installFrom va size e fuel t (level + 1)
/-- See `State.installFrom`. -/
def State.installLeaf (s : State) (root va size : Nat) (e : W64) : State := s.installFrom va size e 4 root 0

/-! ## Invalidation logs (R82 to R85) -/

/-- Whether an entry of a log names a cached translation (R83). -/
def LogEnt.names (l : LogEnt) (t : Tlb) : Bool :=
  l.ctx == t.ctx && (l.size == 3 || (
    let n := max (pageBytes l.size.toNat) (pageBytes t.size.toNat)
    l.page.toNat / n == t.va.toNat / n))
/-- Whether sequence number `a` lies after `b`, modulo 2^32 (Table 3.8). -/
def seqAfter (a b : W32) : Bool := a != b && (a - b).toNat < 0x80000000
/-- R83: removes named translations from a list. -/
def tlbPurge (es : List LogEnt) (l : List Tlb) : List Tlb := l.filter fun t => !(es.any fun e => e.names t)
/-- R84: whether a core has applied the entry of a number; one without a task accesses nothing until its next context switch applies
the log, which R85 keeps whole for it (DEDUCED log 35). -/
def Core.applied (k : Core) (seq : W32) : Bool := k.task.st == .none || !seqAfter seq k.mark
/-- R83: core `c` applies its die's log: the entries after its mark for its own context, or at a context switch (`all`) those of the ring for every
context. -/
def State.applyLog (s : State) (c : CoreId) (all : Bool) : State :=
  let k := s.core c
  let d := s.die c.die
  let es := d.log.filter fun e => all || (seqAfter e.seq k.mark && e.ctx == k.task.ctx)
  let s := s.setCore c { k with tlb := tlbPurge es k.tlb, mark := d.seq }
  s.modDie c.die fun d => { d with tlb := tlbPurge es d.tlb }
/-- Every core of the package. -/
def allCores : List CoreId := List.finRange 256
/-- Forced application on every core (R81 step 3). -/
def State.forceLog (s : State) : State := allCores.foldl (fun s c => s.applyLog c true) s
/-- R85: an append to a die's full ring would overwrite an entry that some core of the die has not applied: they apply the log first. -/
def State.makeRoom (s : State) (d : DieId) : State :=
  let mine := allCores.filter fun c => c.die = d
  let due : Bool := match (s.die d).log with
    | e :: _ => 4096 ≤ (s.die d).log.length && mine.any fun c => seqAfter e.seq (s.core c).mark
    | [] => false
  if due then mine.foldl (fun s c => s.applyLog c true) s else s
/-- R82, R85: appends an entry for the page of size `size` at a VA to every die's log; an entry that it overwrites, which every task of the die has applied, leaves no
translation in the die's cache for the commands of a saved one (R84, DEDUCED log 35). -/
def State.appendLog (s : State) (va : Nat) (size : Nat) (kind : Nat) (ctx : BitVec 16) : State :=
  let va := if size < 3 then va / pageBytes size * pageBytes size else va
  let s := (List.finRange 8).foldl State.makeRoom s
  s.modDies fun d => { d with
    tlb := tlbPurge (d.log.take (d.log.length + 1 - 4096)) d.tlb
    log := (d.log ++ [({ page := BitVec.ofNat 64 (va / 0x10000 * 0x10000 % 2 ^ 56), size := BitVec.ofNat 2 size, seq := d.seq + 1, kind := BitVec.ofNat 16 kind, ctx := ctx } : LogEnt)]).drop (d.log.length + 1 - 4096),
    seq := d.seq + 1 }

/-! ## Performed accesses (R90 to R94, R103, R104) -/

/-- The 128-byte line of a location (DEDUCED log 8). -/
def Loc.line : Loc → Loc
  | .sp c o => .sp c (o / 128 * 128)
  | .pa a => .pa (a / 128 * 128)
/-- The logical times of a location: 0, 0 until an access changes them. -/
def timesOf : List (Loc × Times) → Loc → Times
  | [], _ => ⟨0, 0⟩
  | (l, t) :: r, x => if l = x then t else timesOf r x
/-- Sets the logical times of a location. -/
def timesSet : List (Loc × Times) → Loc → Times → List (Loc × Times)
  | [], x, t => [(x, t)]
  | (l, t') :: r, x, t => if l = x then (x, t) :: r else (l, t') :: timesSet r x t
/-- See `timesOf`. -/
def State.times (s : State) (l : Loc) : Times :=
  let t := timesOf s.m.times l.line
  let b := (s.die (s.locDie l)).timeBase
  ⟨max t.wts b, max t.rts b⟩
/-- See `timesSet`. -/
def State.setTimes (s : State) (l : Loc) (t : Times) : State := { s with m := { s.m with times := timesSet s.m.times l.line t } }

/-- Home copy: `n` bytes and whether any is poisoned. -/
def State.homeBytes (s : State) (l : Loc) (n : Nat) : List Byte × Bool :=
  match l with
  | .sp c o => (Memory.bytes (s.core c).sp o n, poisonAt (s.core c).spPoi o n)
  | .pa a => (Memory.bytes s.m.mem a n, poisonAt s.m.poi a n)
/-- R112: the idle time of the banks that an access reaches starts again. -/
def Core.touch (k : Core) (o n : Nat) : Core :=
  let b := o / 0x20000
  let b' := (o + n - 1) / 0x20000
  { k with bankUse := (k.bankUse.setIfInBounds b k.pipe.cyc).setIfInBounds b' k.pipe.cyc }
/-- Writes bytes at the home copy, with their poison. -/
def State.homeWrite (s : State) (l : Loc) (bs : List Byte) (bad : Bool) : State :=
  match l with
  | .sp c o => s.modCore c fun k => { k.touch o bs.length with sp := Memory.writeBytes k.sp o bs, spPoi := poisonWrite k.spPoi o bs.length bad }
  | .pa a => { s with m := { s.m with mem := Memory.writeBytes s.m.mem a bs, poi := poisonWrite s.m.poi a bs.length bad } }
/-- R74, R75: a line of a region moved for a die. -/
def heatAdd : List (Nat × BitVec 16) → Nat → List (Nat × BitVec 16)
  | [], r => [(r, 1)]
  | (x, n) :: rest, r => if x = r then (x, if n = 0xFFFF then n else n + 1) :: rest else (x, n) :: heatAdd rest r
/-- R75: counts a line transfer of PA `a` for die `d`, where a page with HT = 1 holds it (DEDUCED log 24). -/
def State.heat (s : State) (d : DieId) (a : Nat) : State :=
  let stale (p : Nat × Nat × W32) : Bool := p.1 ≤ a && a < p.1 + p.2.1 && s.cores.any fun k => !k.applied p.2.2
  if s.pagesHave s.m.hot a || s.m.hotOld.any stale then s.modDie d fun x => { x with heat := heatAdd x.heat (a / 0x10000) } else s

/-- R78, R79: where the migration filter sends an access to a PA: the PA to use, or a hold. A page that a later migration moves on is followed: migrations stand
in the order in which they opened. -/
def migTarget : List Migration → Nat → Bool → Option Nat
  | [], pa, _ => some pa
  | g :: r, pa, write =>
    if g.old ≤ pa && pa < g.old + pageBytes g.size.toNat then
      if g.phase = 4 then migTarget r (g.new + (pa - g.old)) write
      else if g.phase = 3 && write then none
      else some pa
    else migTarget r pa write
/-- R78: marks the line of a write in the filter's bitmap in phase 2. -/
def migMark (ms : List Migration) (pa : Nat) : List Migration :=
  ms.map fun g => if g.phase = 2 && g.old ≤ pa && pa < g.old + pageBytes g.size.toNat
    then { g with dirty := setAdd g.dirty ((pa - g.old) / 128) } else g
/-- The location an access reaches through the filter; none while a switch holds the write. -/
def State.filter (s : State) (l : Loc) (write : Bool) : Option Loc :=
  match l with
  | .sp c o => some (.sp c o)
  | .pa a => (migTarget s.m.migs a write).map Loc.pa

/-! ## Write-back (R279 to R283) -/

/-- The poisoned aligned 8-byte words among `n` bytes from `a`. -/
def poisonedIn (p : List Nat) (a n : Nat) : List Nat := if p.isEmpty then [] else (wordsOf a n).filter fun w => p.contains w
/-- A granule write as it is made: the home copy of 64 bytes at one moment (R282). -/
def State.granuleOf (s : State) (a : Nat) : Granule := ⟨a, Memory.bytes s.m.mem a 64, poisonedIn s.m.poi a 64⟩
/-- R279, R282: a dirty line is written back, one of tier 3 as two granule writes, and counts for its home die. -/
def State.writeBack (s : State) (line : Nat) : State :=
  if s.m.dirty.contains line then
    let s : State := { s with m := { s.m with dirty := s.m.dirty.filter (· ≠ line), granules := s.m.granules ++ [s.granuleOf line, s.granuleOf (line + 64)] } }
    s.heat (s.homeDie line) line
  else if s.m.vdirty.contains line then
    ({ s with m := { s.m with vdirty := s.m.vdirty.filter (· ≠ line) } } : State).heat (s.homeDie line) line
  else s
/-- The lines that a slice of a die cache holds: 3 MiB (Table 1.2). -/
def sliceLines : Nat := 24576
/-- The lines that slice `n` of die `d` holds: those homed there, and copies of lines homed elsewhere (R22, R93). -/
def State.sliceUse (s : State) (d : DieId) (n : Nat) : Nat :=
  ((s.die d).lines.countP fun l => sliceOf l = n) + (s.die d).copies.countP fun x => sliceOf x.line = n
/-- R68: whether a line belongs to a page with NA = 1: it has the lowest replacement priority. -/
def State.lowLine (s : State) (line : Nat) : Bool := s.pagesHave s.m.noAlloc line
/-- R22, R68, R279 items 2 and 4: a full slice of a die cache makes room for a line: it gives up its oldest line of an NA page, else its oldest copy of one, else its
oldest copy, else its oldest line (DESIGN CHOICE log 17); a dirty one is written back. -/
def State.evictLine (s : State) (d : DieId) (a : Nat) : State :=
  if s.sliceUse d (sliceOf a) < sliceLines then s
  else
    let l := (s.die d).lines.filter fun x => sliceOf x = sliceOf a
    let ys := ((s.die d).copies.filter fun x => sliceOf x.line = sliceOf a).reverse
    match l.find? s.lowLine, (ys.find? fun y => s.lowLine y.line).orElse fun _ => ys.head?, l with
    | some v, _, _ => (s.writeBack v).modDie d fun x => { x with lines := x.lines.erase v }
    | none, some y, _ => s.modDie d fun x => { x with copies := x.copies.erase y }
    | none, none, v :: _ => (s.writeBack v).modDie d fun x => { x with lines := x.lines.erase v }
    | none, none, [] => s
/-- The home slice of PA `a` holds its line: a miss brings it from main memory, and counts as heat where it is made on behalf of a die (R72 item 5, R75). -/
def State.bringLine (s : State) (count : Option DieId) (a : Nat) : State :=
  let line := a / 128 * 128
  let h := s.homeDie a
  if (s.die h).lines.contains line then s
  else
    let s := (s.evictLine h line).modDie h fun x => { x with lines := x.lines ++ [line] }
    match count with | some d => s.heat d line | none => s
/-- R75: the home slice of PA `a` holds its line: a miss brings it from main memory on behalf of die `d`. -/
def State.cacheLine (s : State) (d : DieId) (a : Nat) : State := s.bringLine (some d) a
/-- R280: the dirty tier-3 lines after line `a` is dirtied; under a full budget its slice writes back its oldest first. -/
def State.markDirty (s : State) (a : Nat) : State :=
  let line := a / 128 * 128
  if s.m.dirty.contains line then s
  else
    let d := s.homeDie line
    let mine := s.m.dirty.filter fun x => s.homeDie x = d
    let s := if s.fw.cfg.durdirty.toNat * 8192 ≤ mine.length then
        match (mine.find? fun x => sliceOf x = sliceOf line).orElse fun _ => mine.head? with
        | some x => s.writeBack x
        | none => s
      else s
    { s with m := { s.m with dirty := s.m.dirty ++ [line] } }
/-- R279: a write makes its line dirty at its home. -/
def State.dirtied (s : State) (a : Nat) : State :=
  if tierOf a = 3 then s.markDirty a
  else if s.m.vdirty.contains (a / 128 * 128) then s
  else { s with m := { s.m with vdirty := s.m.vdirty ++ [a / 128 * 128] } }
/-- R281: the device completes a granule write: it is durable. -/
def State.granuleDone (s : State) (g : Granule) : State :=
  { s with m := { s.m with
      pmem := Memory.writeBytes s.m.pmem g.addr g.data,
      ppoi := g.poi.foldl setAdd (poisonWrite s.m.ppoi g.addr 64 false) } }

/-! ## Loads at their homes (R93) -/

/-- `n` bytes of no stated value (DESIGN CHOICE log 11). -/
def State.freeBytes (s : State) : Nat → List Byte × State
  | 0 => ([], s)
  | n + 1 =>
    let (w, s) := s.drawFree
    let (l, s) := s.freeBytes n
    (w.setWidth 8 :: l, s)
/-- Whether the home of a location answers: its die is in service (R161). -/
def State.homeUp (s : State) (l : Loc) : Bool := (s.die (s.locDie l)).live
/-- R93: a load of `n` bytes of one line by a path at logical time `lt`, on die `d`: bytes, poison, the new time; `count` is the die whose heat its transfers are. A copy
serves it no longer than R94 allows after its grant (DEDUCED log 71). A home on a die out of service gives poisoned data (R161). -/
def State.loadBy (s : State) (count : Option DieId) (d : DieId) (lt : Nat) (l : Loc) (n : Nat) : (List Byte × Bool × Nat) × State :=
  let t := s.times l
  if !s.homeUp l then
    let (bs, s) := s.freeBytes n
    ((bs, true, lt), s)
  else if s.locDie l = d then
    let (bs, bad) := s.homeBytes l n
    let s := match l with | .sp c o => s.modCore c fun k => k.touch o n | .pa a => s.bringLine count a
    ((bs, bad, max lt t.wts), s.setTimes l ⟨t.wts, max t.rts lt⟩)
  else
    match l with
    | .sp c o =>
      let (bs, bad) := s.homeBytes l n
      ((bs, bad, max lt t.wts), (s.setTimes l ⟨t.wts, max t.rts lt⟩).modCore c fun k => k.touch o n)
    | .pa a =>
      let line := a / 128 * 128
      match (s.die d).copies.find? fun x => x.line = line && lt ≤ x.rts && s.t.dcyc ≤ x.born + (s.fw.cfg.leaselen.toNat + 1) * s.fw.cfg.leasemax.toNat with
      | some x => (((x.data.drop (a - line)).take n, poisonAt x.poi a n, max lt x.wts), s)
      | none =>
        let t' : Times := ⟨t.wts, max t.rts (lt + s.fw.cfg.leaselen.toNat)⟩
        let x : Copy := ⟨line, Memory.bytes s.m.mem line 128, poisonedIn s.m.poi line 128, t'.wts, t'.rts, s.t.dcyc⟩
        let s := s.evictLine d line
        let s := ((s.setTimes l t').modDie d fun k => { k with copies := x :: k.copies.filter fun y => y.line ≠ line }).bringLine count a
        ((Memory.bytes s.m.mem a n, poisonAt s.m.poi a n, max lt t'.wts), s)
/-- R93: a load by a path on die `d`, whose line transfers count as that die's heat (R75). -/
def State.loadAt (s : State) (d : DieId) (lt : Nat) (l : Loc) (n : Nat) : (List Byte × Bool × Nat) × State := s.loadBy (some d) d lt l n
/-! ## Translation (R65, R66, R71 to R73, R80, R81) -/

/-- A failed check: cause and TADDR. -/
abbrev Err := BitVec 8 × W64

/-- R65: a core runs a task of a context: it is a core of a placed crew of it, until the crew is saved. -/
def State.runsCtx (s : State) (c : CoreId) (ctx : BitVec 16) : Bool :=
  let t := (s.core c).task
  t.ctx == ctx && (t.st == .running || t.st == .waiting || t.st == .ended || t.st == .loading || t.st == .stopping || t.st == .saving) && ctx != 0
/-- R65, Table 3.2: the form of an address: a scratchpad location, or a global VA, or a form fault. -/
def State.form (s : State) (c : CoreId) (a : W64) : Except Err (Sum Loc Nat) :=
  let off := a.toNat % 0x800000
  match (a.extractLsb' 62 2).toNat with
  | 2 => if a.extractLsb' 23 39 = 0 && off < 0x600000 then .ok (.inl (.sp c off)) else .error (0x06, a)
  | 3 =>
    let peer := CoreId.mk' c.die (a.extractLsb' 24 5).toNat
    if a.extractLsb' 29 33 = 0 && !a.getLsbD 23 && off < 0x600000 && s.runsCtx peer (s.core c).task.ctx
    then .ok (.inl (.sp peer off)) else .error (0x06, a)
  | 0 => if a.extractLsb' 56 8 = 0 then .ok (.inr a.toNat) else .error (0x06, a)
  | _ => .error (0x06, a)

/-- The cached leaf that covers a VA. -/
def tlbFind (l : List Tlb) (ctx : BitVec 16) (va : Nat) : Option Tlb :=
  l.find? fun t => t.ctx == ctx && t.va.toNat / pageBytes t.size.toNat == va / pageBytes t.size.toNat
/-- R72: fills core and die caches, dropping the oldest entry of a full one (DESIGN CHOICE log 17). -/
def State.tlbFill (s : State) (c : CoreId) (t : Tlb) : State :=
  let s := s.modCore c fun k => { k with tlb := (k.tlb ++ [t]).drop (k.tlb.length + 1 - 512) }
  s.modDie c.die fun d => { d with tlb := (d.tlb ++ [t]).drop (d.tlb.length + 1 - 16384) }
/-- The leaf entry of a lazy backing's page for a VA (R341 MAP). -/
def Lazy.leaf (l : Lazy) (va : Nat) : W64 × Nat :=
  let size := (l.attrs.extractLsb' 17 2).toNat
  let page := va / pageBytes size * pageBytes size
  (BitVec.ofNat 64 (l.pa + (page - l.va.toNat)) ||| (l.attrs &&& 0x7FF), size)
/-- Whether a leaf permits an access. -/
def leafAdmits (e : W64) : Access → Bool | .read => true | .write => ebit e 1 | .fetch => ebit e 2
/-- What is left of a backing outside a range of VAs. -/
def Lazy.cut (l : Lazy) (lo hi : Nat) : List Lazy :=
  let va := l.va.toNat
  let fin := va + l.bytes
  if fin ≤ lo || hi ≤ va then [l]
  else (if va < lo then [{ l with bytes := lo - va }] else [])
    ++ (if hi < fin then [{ l with va := BitVec.ofNat 64 hi, pa := l.pa + (hi - va), bytes := fin - hi }] else [])
/-- The part of a backing inside a range. -/
def Lazy.inside (l : Lazy) (lo hi : Nat) : List Lazy :=
  let va := l.va.toNat
  let fin := va + l.bytes
  if fin ≤ lo || hi ≤ va then []
  else [{ l with va := BitVec.ofNat 64 (max lo va), pa := l.pa + (max lo va - va), bytes := min hi fin - max lo va }]
/-- R79: the backing of a page that has gone to another frame names that frame, so that a later fault installs no older one (R73). -/
def Ctx.moveLazy (x : Ctx) (va size frame : Nat) : Ctx :=
  let hi := va + pageBytes size
  let tier : Nat := match tierOf frame with | 4 => 0 | t => t
  let attrs (e : W64) : W64 := (e &&& ~~~(0x300 : W64)) ||| BitVec.ofNat 64 (tier * 256)
  { x with lazies := x.lazies.flatMap fun l =>
      l.cut va hi ++ (l.inside va hi).map fun k => { k with pa := frame + (k.va.toNat - va), attrs := attrs k.attrs } }
/-- R73: firmware's answer to a translation fault: a registered backing's leaf, installed unless it holds a retired frame (R87); for a permission fault (`perm`) only where that leaf
permits the access, which is else refused as before. -/
def State.resolveFault (s : State) (ctx : BitVec 16) (va : Nat) (acc : Access) (perm : Bool) : Option State :=
  match s.ctx ctx with
  | none => none
  | some x =>
    match x.lazies.find? fun l => l.va.toNat ≤ va && va < l.va.toNat + l.bytes with
    | none => none
    | some l =>
      let (e, size) := l.leaf va
      if (!perm || leafAdmits e acc) && !s.leafBad e size && !s.hasRetired (s.normPa (leafFrame e)) (pageBytes size) then some (s.installLeaf x.root va size e) else none
/-- R67 to R70, R72 item 5: a walker's walk on die `d` from a table at `level`: it reads the tables through the die's cache, at logical time 0 (DESIGN CHOICE log 81), and
its line transfers are no heat. -/
def State.walkOn (s : State) (d : DieId) (va : Nat) : Nat → Nat → Nat → Walk × State
  | 0, _, _ => (.malformed, s)
  | fuel + 1, table, level =>
    let a := s.normPa (entryAt table va level)
    let ((bs, bad, _), s) := s.loadBy none d 0 (.pa a) 8
    match s.entryMeans a level (BitVec.ofNat 64 (natOfBytes bs)) bad with
    | .inl w => (w, s)
    | .inr t => s.walkOn d va fuel t (level + 1)
/-- R71, R72: the leaf a core uses for a VA: its own cache, the die's, or a walk, which fills both. -/
def State.leafFor (s : State) (c : CoreId) (va : Nat) : Option (W64 × Nat) × State :=
  let ctx := (s.core c).task.ctx
  match tlbFind (s.core c).tlb ctx va with
  | some t => (some (t.leaf, t.size.toNat), s)
  | none =>
    match tlbFind (s.die c.die).tlb ctx va with
    | some t => (some (t.leaf, t.size.toNat), s.modCore c fun k => { k with tlb := (k.tlb ++ [t]).drop (k.tlb.length + 1 - 512) })
    | none =>
      match s.ctx ctx with
      | none => (none, s)
      | some x =>
        match s.walkOn c.die va 4 x.root 0 with
        | (.leaf _ size e, s) =>
          let page := va / pageBytes size * pageBytes size
          (some (e, size), s.tlbFill c ⟨ctx, BitVec.ofNat 64 page, BitVec.ofNat 2 size, e, (s.die c.die).seq⟩)
        | (.absent _ _, s) => (none, s)
        | (.malformed, s) => (none, s.rasEvent 1 c.die.val va)
/-- R81: an access outstanding at a copy of a replicated page goes to the copy kept. -/
def Req.rehome (r : Req) (off bytes frame : Nat) : Req :=
  match r.loc with
  | .pa a => if tierOf a = 0 && off ≤ a % 0x2000000000 && a % 0x2000000000 < off + bytes then { r with loc := .pa (frame + (a % 0x2000000000 - off)) } else r
  | .sp _ _ => r
/-- R81: a replicated page has one copy again, in the frame given: RP is clear, a kind-2 entry is appended and applied, accesses outstanding at the other
copies go to the one kept, and those are free. -/
def State.unreplicate (s : State) (ctx : BitVec 16) (va at' size : Nat) (e : W64) (frame : Nat) : State :=
  let keep : W64 := (e &&& ~~~(BitVec.ofNat 64 0x000FFFFFFFFF0008)) ||| BitVec.ofNat 64 frame
  let page := va / pageBytes size * pageBytes size
  let s := ((s.writeLeaf at' size keep).appendLog va size 2 ctx).forceLog
  let s := if s.normPa (leafFrame e) = frame then s else s.modCtx ctx fun x => x.moveLazy page size frame
  let off := frame % 0x2000000000
  { s with
    cores := s.cores.map fun k => if k.reqs.isEmpty then k else { k with reqs := k.reqs.map fun r => r.rehome off (pageBytes size) frame }
    fw := { s.fw with replicas := s.fw.replicas.filter fun q => !(q.ctx == ctx && q.va = page) } }
/-- R81: the collapse of a replicated page before its first write. -/
def State.collapse (s : State) (ctx : BitVec 16) (va : Nat) : State :=
  match s.ctx ctx with
  | none => s
  | some x =>
    match s.walk x.root va with
    | .leaf a size e => if ebit e 3 then s.unreplicate ctx va a size e (s.normPa (leafFrame e)) else s
    | _ => s
/-- R260, R269: the bytes of an extent that a record lists: a pinned one holds 16 tokens of its block, another its whole block. -/
def Ctx.extentBytes (x : Ctx) (y : Listing) : Nat :=
  ((x.pools.toList.filterMap fun p => p).findSome? fun p =>
    (p.blocks.find? fun b => b.sinks ≠ 0 && p.va.toNat + b.off * p.row ≤ y.base.toNat && y.base.toNat < p.va.toNat + (b.off + b.len) * p.row).map fun b =>
      (if y.pin.isSome then 16 else b.len) * p.row).getD 0
/-- R260 item 6: whether a range of VAs meets a sink extent that a record lists. -/
def Ctx.meetsSink (x : Ctx) (lo hi : Nat) : Bool :=
  x.listed.any fun y => y.sink && y.base.toNat < hi && lo < y.base.toNat + x.extentBytes y
/-- The replicated page whose frame holds a PA. -/
def State.replicaAt (s : State) (a : Nat) : Option Replica := s.fw.replicas.find? fun q => q.frame ≤ a && a < q.frame + pageBytes q.size
/-- R81, R260 item 6: whether the page of a VA may collapse: no sink extent lies in it. -/
def State.mayCollapse (s : State) (ctx : BitVec 16) (va size : Nat) : Bool :=
  let page := va / pageBytes size * pageBytes size
  match s.ctx ctx with | some x => !x.meetsSink page (page + pageBytes size) | none => true
/-- R81: a write through a translation older than REPLICATE reaches the frame of a replicated page: the page collapses first, where it may. -/
def State.collapseAt (s : State) (a : Nat) : State :=
  match s.replicaAt a with
  | some q => if s.mayCollapse q.ctx q.va q.size then s.collapse q.ctx q.va else s
  | none => s
/-- R80, R260 item 6: what such a write leaves at the frame of a page that stays replicated stands in every die's copy of it (DESIGN CHOICE log 80). -/
def State.mirror (s : State) (a : Nat) (bs : List Byte) (bad : Bool) : State :=
  match s.replicaAt a with
  | none => s
  | some _ => (List.finRange 8).foldl (fun s d =>
      let b := d.val * 0x2000000000 + a % 0x2000000000
      if b = a || !s.dieLive d then s
      else
        let s := s.dropCopies (b / 128 * 128) 128
        { s with m := { s.m with mem := Memory.writeBytes s.m.mem b bs, poi := poisonWrite s.m.poi b bs.length bad } }) s
/-- R80: the PA of a leaf's page at an offset, for a reading die: the die's own copy of a replicated page. -/
def State.leafPa (s : State) (d : DieId) (e : W64) (size va : Nat) : Nat :=
  let pa := s.normPa (leafFrame e + va % pageBytes size)
  if ebit e 3 then d.val * 0x2000000000 + pa % 0x2000000000 else pa
/-- R71, R73: the PA of a global VA for an access of core `c`, after firmware. `fuel` bounds the replays. A write to a replicated page with a sink extent, which
firmware does not collapse, is refused as one to a page without W (R260 item 6, DESIGN CHOICE log 80). -/
def State.translateVa (s : State) (c : CoreId) (va : Nat) (acc : Access) : Nat → Except (BitVec 8) Nat × State
  | 0 => (.error 0x05, s)
  | fuel + 1 =>
    let ctx := (s.core c).task.ctx
    let (r, s) := s.leafFor c va
    match r with
    | none =>
      match s.resolveFault ctx va acc false with
      | some s' => s'.translateVa c va acc fuel
      | none => (.error 0x05, s)
    | some (e, size) =>
      match acc with
      | .read => (.ok (s.leafPa c.die e size va), s)
      | .fetch =>
        if ebit e 2 then (.ok (s.leafPa c.die e size va), s)
        else match s.resolveFault ctx va acc true with
          | some s' => ((s'.appendLog va size 0 ctx).applyLog c false).translateVa c va acc fuel
          | none => (.error 0x06, s)
      | .write =>
        if !ebit e 1 then
          match s.resolveFault ctx va acc true with
          | some s' => ((s'.appendLog va size 0 ctx).applyLog c false).translateVa c va acc fuel
          | none => (.error 0x06, s)
        else if ebit e 3 then (if s.mayCollapse ctx va size then ((s.collapse ctx va).applyLog c false).translateVa c va acc fuel else (.error 0x06, s))
        else (.ok (s.leafPa c.die e size va), s)
/-- R65, R66, R71 to R73: the location of an address a core issues, or the cause with TADDR. -/
def State.locate (s : State) (c : CoreId) (a : W64) (acc : Access) : Except Err Loc × State :=
  match s.form c a with
  | .error e => (.error e, s)
  | .ok (.inl l) => (.ok l, s)
  | .ok (.inr va) =>
    match s.translateVa c va acc 3 with
    | (.ok pa, s) => (.ok (.pa pa), s)
    | (.error cause, s) => (.error (cause, a), s)

/-! ## Sync words as the cores that wait on them see them (R124, R126) -/

/-- R91: the task's logical time. -/
def ltime (lt : Vector Nat 4) : Nat := max (max lt[0] lt[1]) (max lt[2] lt[3])
/-- Changes a core's pipeline. -/
def State.modPipeOf (s : State) (c : CoreId) (f : Pipe → Pipe) : State := s.modCore c fun k => { k with pipe := f k.pipe }
/-- Sets core `c`'s class times and its floor (R91, R109). -/
def State.setLt (s : State) (c : CoreId) (lt : Vector Nat 4) : State :=
  s.modCore c fun k => { k with lt := lt, floor := max k.floor (ltime lt) }
/-- R93: a class-0 path of core `c` reads a location at its home. -/
def State.readHome (s : State) (c : CoreId) (l : Loc) : State :=
  let t := s.times l
  let lt := max (s.core c).lt[0] t.wts
  (s.setTimes l ⟨t.wts, max t.rts lt⟩).setLt c ((s.core c).lt.set 0 lt)
/-- R93: a class-0 path of core `c` reads the sync word at `off` of core `h`, on its home die. -/
def State.readWord (s : State) (c h : CoreId) (off : Nat) : State := s.readHome c (.sp h off)
/-- The fields of a sync word (Table 5.6). -/
structure SyncWord where
  target : Nat
  count : Nat
  gen : Nat
  flags : W32
deriving DecidableEq, Repr
/-- ARM. -/
def SyncWord.arm (w : SyncWord) : Bool := w.flags.getLsbD 0
/-- OVF. -/
def SyncWord.ovf (w : SyncWord) : Bool := w.flags.getLsbD 1
/-- REL. -/
def SyncWord.rel (w : SyncWord) : Bool := w.flags.getLsbD 2
/-- The sync word at an offset of core `c`'s scratchpad; its reserved bits read as zero, and an operation on it goes on (R5, DESIGN CHOICE log 64). -/
def State.syncGet (s : State) (c : CoreId) (off : Nat) : SyncWord :=
  let m := (s.core c).sp
  ⟨Memory.readN m off 4, Memory.readN m (off + 4) 4, Memory.readN m (off + 8) 4, BitVec.ofNat 32 (Memory.readN m (off + 12) 4 % 16)⟩
/-- The core and offset a sync-word address names, as core `c` sees it: own or peer form. -/
def syncAddr (c : CoreId) (a : W64) : CoreId × Nat :=
  if a.getLsbD 62 then (CoreId.mk' c.die (a.extractLsb' 24 5).toNat, a.toNat % 0x800000) else (c, a.toNat % 0x800000)
/-- An unpoisoned 64-bit value. -/
def Val.w64 (w : W64) : Val := .sc ⟨w, false⟩
/-- R124, R126: a wait of core `c` on the word at `a` for a generation other than `g` that a store has just written: it takes GEN where that differs, or on OVF all ones. -/
def State.bindWait (s : State) (c : CoreId) (a : W64) (g : W32) : Option WaitKind × State :=
  let (h, off) := syncAddr c a
  let x := s.syncGet h off
  if x.gen ≠ g.toNat then (some (.bound (.w64 (BitVec.ofNat 64 x.gen)) true), s.readWord c h off)
  else if x.ovf then (some (.bound (.w64 (BitVec.allOnes 64)) false), s.readWord c h off)
  else (none, s)
/-- R126: the store at offsets that `hit` holds of, of core `h`'s scratchpad, has been performed: a pending SW.WAIT on a word there, of a core of its die, takes its value
at this moment. -/
def State.bindWaits (s : State) (h : CoreId) (hit : Nat → Bool) : State :=
  (List.range 32).foldl (fun s i =>
    let c := CoreId.mk' h.die i
    (s.core c).pipe.waits.foldl (fun s w =>
      match w.kind with
      | .sw a g =>
        if (syncAddr c a).1 = h && hit (syncAddr c a).2 then
          match s.bindWait c a g with
          | (some k, s) => s.modPipeOf c fun p => { p with waits := p.waits.map fun v => if v.seq = w.seq then { v with kind := k } else v }
          | (none, s) => s
        else s
      | _ => s) s) s

/-! ## Stores at their homes (R93) -/

/-- R93: a store of bytes within one line by a path on die `d` at logical time `lt`: its timestamp. The line becomes dirty (R279,
R280); a context's watchdog count returns to 0 (R333). A store to a home on a die out of service is dropped (R161). Waits on a word that it writes are for the caller. -/
def State.storeRaw (s : State) (d : DieId) (ctx : BitVec 16) (lt : Nat) (l : Loc) (bs : List Byte) (bad : Bool) : Nat × State :=
  if !s.homeUp l then (lt, s.rasEvent 4 (s.locDie l).val (match l with | .sp _ o => o | .pa a => a)) else
  let s := match l with | .pa a => (s.collapseAt a).cacheLine d a | .sp _ _ => s
  let t := s.times l
  let ts := max lt (t.rts + 1)
  let s := (s.setTimes l ⟨ts, ts⟩).homeWrite l bs bad
  let s := match l with
    | .pa a =>
      (({ s with m := { s.m with migs := migMark s.m.migs a } } : State).dirtied a).mirror a bs bad
    | .sp _ _ => s
  (ts, s.modCtx ctx fun x => { x with wd := 0 })
/-- A store, and the waits on a sync word that it writes (R126). -/
def State.storeAt (s : State) (d : DieId) (ctx : BitVec 16) (lt : Nat) (l : Loc) (bs : List Byte) (bad : Bool) : Nat × State :=
  let (ts, s) := s.storeRaw d ctx lt l bs bad
  (ts, match l with | .sp h off => s.bindWaits h (fun o => o < off + bs.length && off < o + 16) | .pa _ => s)

/-! ## Trackers (R283) -/

/-- Whether a line is neither dirty nor under way: every write to it is durable. -/
def State.lineDurable (s : State) (line : Nat) : Bool :=
  !s.m.dirty.contains line && !(s.m.granules.any fun g => g.addr / 128 * 128 = line)
/-- R283: the lines that are durable leave every tracker (DEDUCED log 54). -/
def State.trackersClean (s : State) : State :=
  { s with cores := s.cores.map fun k =>
      if k.tracker.isEmpty then k else { k with tracker := k.tracker.filter fun l => !s.lineDurable l } }
/-- R283: a core's tier-3 write adds its line to the tracker. -/
def State.track (s : State) (c : CoreId) (l : Loc) : State :=
  match l with
  | .pa a => if tierOf a = 3 && !(s.core c).tracker.contains (a / 128 * 128)
      then s.modCore c fun k => { k with tracker := k.tracker ++ [a / 128 * 128] } else s
  | .sp _ _ => s

end Sys2Proof.Machine
end

