-- ==== Sys2Proof/Machine/Operands.lean ====
section
/-! DEFINITION. Operand forms: width conversion (Table 2.8), register files by selector (Tables 2.5, 2.6), latches and
queues, special values (Table 2.7), guards (Table 2.4). -/
namespace Sys2Proof

/-- R168: landing latency of a unit in bundles (Table 7.3). -/
def Unit7.latency : Unit7 → Nat | .s => 2 | .va => 4 | .vb => 4 | .m => 2 | .ka => 6 | .kb => 6 | .c => 2

end Sys2Proof

namespace Sys2Proof.Machine

/-! ## Values (Table 2.8) -/

/-- Mask bit `b` in every lane. -/
def maskAll (b : Bool) : Mask := if b then BitVec.allOnes 256 else 0
/-- The mask whose bit `i` is `f i`. -/
def maskOf (f : Fin 256 → Bool) : Mask := BitVec.ofNat 256 ((List.ofFn f).foldr (fun b n => b.toNat + 2 * n) 0)
/-- Table 2.8, column "to s". -/
def Val.toS : Val → SVal
  | .sc v => v
  | .vec v => ⟨(Vec.lane v.val 0).setWidth 64, v.poi.getLsbD 0⟩
  | .msk m => ⟨m.setWidth 64, false⟩
/-- Table 2.8, column "to v". -/
def Val.toV : Val → VVal
  | .sc v => ⟨Vec.splat (v.val.setWidth 32), maskAll v.poi⟩
  | .vec v => v
  | .msk m => ⟨Vec.tab fun i => boolWord 32 (m.getLsbD i.val), 0⟩
/-- Table 2.8, column "to p". -/
def Val.toP : Val → Bool
  | .sc v => v.val != 0
  | .vec v => Vec.lane v.val 0 != 0
  | .msk m => m != 0
/-- Table 2.8, column "to m". -/
def Val.toM : Val → Mask
  | .sc v => maskAll (v.val != 0)
  | .vec v => maskOf fun i => v.val[i] != 0
  | .msk m => m
/-- Whether a value carries poison into a 64-bit or 1-bit destination. -/
def Val.poiS (v : Val) : Bool := v.toS.poi
/-- Whether any part of a value is poisoned. -/
def Val.poiAny : Val → Bool
  | .sc v => v.poi
  | .vec v => v.poi != 0
  | .msk _ => false

/-! ## Register files -/

/-- Selectors of s (Table 2.6). -/
def selS (f : BitVec 10) : Bool := f.toNat < 0x40
/-- Selectors of v. -/
def selV (f : BitVec 10) : Bool := 0x40 ≤ f.toNat && f.toNat < 0x80
/-- Selectors of p1 to p7. -/
def selP (f : BitVec 10) : Bool := 0x81 ≤ f.toNat && f.toNat < 0x88
/-- Selectors of m. -/
def selM (f : BitVec 10) : Bool := 0x88 ≤ f.toNat && f.toNat < 0x90
/-- Selectors of o. -/
def selO (f : BitVec 10) : Bool := 0x90 ≤ f.toNat && f.toNat < 0xA0
/-- R41: a selector that D may name when an operation writes through it. -/
def dValid (f : BitVec 10) : Bool := f.toNat < 0x80 || (0x81 ≤ f.toNat && f.toNat < 0xA0)
/-- A register number of `k` bits from a selector. -/
def selIx (k : Nat) (f : BitVec 10) : Fin (2 ^ k) := ⟨f.toNat % 2 ^ k, Nat.mod_lt _ (Nat.two_pow_pos k)⟩

/-- R36, R39, R42: a value written through a selector; s0 and m0 discard it, s, v and o become full. -/
def RegFile.put (r : RegFile) (f : BitVec 10) (v : Val) : RegFile :=
  if selS f then (if f = 0 then r else { r with s := r.s.set (selIx 6 f) ⟨v.toS, true⟩ })
  else if selV f then { r with v := r.v.set (selIx 6 f) ⟨v.toV, true⟩ }
  else if selP f then { r with p := r.p.set (selIx 3 f) v.toP }
  else if selM f then (if f = 0x88 then r else { r with m := r.m.set (selIx 3 f) v.toM })
  else if selO f then { r with o := r.o.set (selIx 4 f) ⟨v.toV, true⟩ }
  else r
/-- R9, R165: a value written through D by a short result or an acceptance: the full/empty bit stays. -/
def RegFile.write (r : RegFile) (f : BitVec 10) (v : Val) : RegFile :=
  if selS f then (if f = 0 then r else { r with s := r.s.set (selIx 6 f) { r.s[selIx 6 f] with v := v.toS } })
  else if selV f then { r with v := r.v.set (selIx 6 f) { r.v[selIx 6 f] with v := v.toV } }
  else if selO f then { r with o := r.o.set (selIx 4 f) { r.o[selIx 4 f] with v := v.toV } }
  else r.put f v
/-- R165: the register a long operation names becomes empty; s0 never does, p and m have no bit. -/
def RegFile.drain (r : RegFile) (f : BitVec 10) : RegFile :=
  if selS f then (if f = 0 then r else { r with s := r.s.set (selIx 6 f) { r.s[selIx 6 f] with full := false } })
  else if selV f then { r with v := r.v.set (selIx 6 f) { r.v[selIx 6 f] with full := false } }
  else if selO f then { r with o := r.o.set (selIx 4 f) { r.o[selIx 4 f] with full := false } }
  else r
/-- R37, R165: whether the register of a selector is full; everything but s, v and o always is. -/
def RegFile.full (r : RegFile) (f : BitVec 10) : Bool :=
  if selS f then r.s[selIx 6 f].full
  else if selV f then r.v[selIx 6 f].full
  else if selO f then r.o[selIx 4 f].full
  else true
/-- Table 2.6: the value of a register selector; s0 reads 0. -/
def RegFile.get (r : RegFile) (f : BitVec 10) : Val :=
  if selS f then (if f = 0 then .w64 0 else .sc r.s[selIx 6 f].v)
  else if selV f then .vec r.v[selIx 6 f].v
  else if selP f then .w64 (boolWord 64 r.p[selIx 3 f])
  else if selM f then .msk (if f = 0x88 then BitVec.allOnes 256 else r.m[selIx 3 f])
  else if selO f then .vec r.o[selIx 4 f].v
  else .w64 0
/-- R35: the guard of a move over the predicates. -/
def RegFile.guard (r : RegFile) (g : BitVec 4) : Bool :=
  if g = 0 then true
  else if g.getLsbD 3 then !r.p[selIx 3 (g.setWidth 10)] else r.p[selIx 3 (g.setWidth 10)]
/-- One deferred write. -/
def RegFile.apply (r : RegFile) : RegWrite → RegFile
  | .put f v => r.put f v
  | .val f v => r.write f v
  | .empty f => r.drain f
  | .sys _ _ => r
  | .fill _ _ => r

/-! ## Units -/

/-- The 64-bit unit of C, S or M. -/
def Units.sUnit (u : Units) : Slot → Option SUnit
  | .s => some u.s | .c => some u.c | .m => some u.m | _ => none
/-- The vector-width unit of VA, VB, KA or KB. -/
def Units.vUnit (u : Units) : Slot → Option VUnitSt
  | .va => some u.va | .vb => some u.vb | .ka => some u.ka | .kb => some u.kb | _ => none
/-- Replaces a 64-bit unit. -/
def Units.setS (u : Units) (sl : Slot) (x : SUnit) : Units :=
  match sl with | .s => { u with s := x } | .c => { u with c := x } | .m => { u with m := x } | _ => u
/-- Replaces a vector-width unit. -/
def Units.setV (u : Units) (sl : Slot) (x : VUnitSt) : Units :=
  match sl with | .va => { u with va := x } | .vb => { u with vb := x } | .ka => { u with ka := x } | .kb => { u with kb := x } | _ => u
/-- The D latch of a slot's unit (R40). -/
def Units.d (u : Units) (sl : Slot) : BitVec 10 :=
  match u.sUnit sl with
  | some x => x.d
  | none => match u.vUnit sl with | some x => x.d | none => 0
/-- A latch that a write makes good again: bit the slot's index for D, 8 more for MSEL (R334). -/
def Units.mend (u : Units) (n : Nat) : Units := { u with bad := u.bad &&& ~~~((1 : BitVec 16) <<< n) }
/-- R39, R40: a move into the X, Y or D latch. -/
def Units.putLatch (u : Units) (sl : Slot) (dst : BitVec 9) (v : Val) : Units :=
  let u := if dst = 0xC0 || dst = 0xC1 then u else u.mend sl.index
  match u.sUnit sl, u.vUnit sl with
  | some x, _ =>
    u.setS sl (if dst = 0xC0 then { x with x := v.toS } else if dst = 0xC1 then { x with y := v.toS } else { x with d := v.toS.val.setWidth 10 })
  | none, some x =>
    u.setV sl (if dst = 0xC0 then { x with x := v.toV } else if dst = 0xC1 then { x with y := v.toV } else { x with d := v.toS.val.setWidth 10 })
  | none, none => u
/-- R168: the queue of a 64-bit unit after a landing. -/
def shiftS (q : Vector SVal 4) (v : SVal) : Vector SVal 4 := #v[v, q[0], q[1], q[2]]
/-- R168: the queue of a vector-width unit after a landing. -/
def shiftV (q : Vector VVal 4) (v : VVal) : Vector VVal 4 := #v[v, q[0], q[1], q[2]]
/-- R168: a result lands in its unit's queue. -/
def Units.land (u : Units) (un : Unit7) (v : Val) : Units :=
  match un with
  | .s => { u with s := { u.s with q := shiftS u.s.q v.toS } }
  | .c => { u with c := { u.c with q := shiftS u.c.q v.toS } }
  | .m => { u with m := { u.m with q := shiftS u.m.q v.toS } }
  | .va => { u with va := { u.va with q := shiftV u.va.q v.toV } }
  | .vb => { u with vb := { u.vb with q := shiftV u.vb.q v.toV } }
  | .ka => { u with ka := { u.ka with q := shiftV u.ka.q v.toV } }
  | .kb => { u with kb := { u.kb with q := shiftV u.kb.q v.toV } }
/-- Table 2.6: the queue entry of a selector 0x0A0 + 4u + e. -/
def Units.queue (u : Units) (f : BitVec 10) : Val :=
  let e := selIx 2 f
  match (f.toNat - 0xA0) / 4 with
  | 0 => .sc u.s.q[e]
  | 1 => .vec u.va.q[e]
  | 2 => .vec u.vb.q[e]
  | 3 => .sc u.m.q[e]
  | 4 => .vec u.ka.q[e]
  | 5 => .vec u.kb.q[e]
  | _ => .sc u.c.q[e]

/-! ## Special values and sources -/

/-- The latest released step of a task's tick channel, all ones for none (R38, R271). -/
def State.tickn (s : State) (ch : BitVec 3) : W64 :=
  if ch = 0 || 4 < ch.toNat then BitVec.allOnes 64
  else match (s.t.ticks[selIx 2 (ch.setWidth 10 - 1)]).last with
    | some n => BitVec.ofNat 64 n
    | none => BitVec.allOnes 64
/-- R12, R15: the torus coordinates of a die, x, y or z by `k` = 0, 1, 2: 2·p + t, whatever wraps are closed (DESIGN CHOICE log 79). -/
def State.torus (s : State) (d : DieId) (k : Nat) : Nat :=
  match s.product with
  | .hv1x => 0
  | .hv8x => 2 * (s.fw.cfg.pcoord.toNat / 16 ^ k % 16) + d.val / 2 ^ k % 2
/-- R38: nanoseconds of the 1588 clock. -/
def State.phcns (s : State) : Nat := s.t.fifths / 5
/-- R38, Table 2.7: the special value of a selector, for core `c`: LTIME and MPC as they stand when the move reads, after what a lower slot of the same jointly issued bundle
has made of them (DESIGN CHOICE log 83). -/
def State.special (s : State) (c : CoreId) (f : BitVec 10) : Val :=
  let k := s.core c
  let n (x : Nat) : Val := .w64 (BitVec.ofNat 64 x)
  match f.toNat - 0x110 with
  | 0 => n c.num
  | 1 => n c.die.val
  | 2 => n (s.torus c.die 0)
  | 3 => n (s.torus c.die 1)
  | 4 => n (s.torus c.die 2)
  | 5 => n k.task.crewRank
  | 6 => n k.task.crewSize
  | 7 => n k.task.spanRank
  | 8 => .vec ⟨Vec.tab fun i => BitVec.ofNat 32 i.val, 0⟩
  | 9 => .w64 k.pipe.cyc
  | 10 => n (s.t.secs % 2 ^ 48)
  | 11 => n s.phcns
  | 12 => n (ltime k.lt)
  | 13 => .w64 (k.task.taskId.setWidth 64)
  | 14 => .w64 (s.tickn k.pipe.sys2.tickch)
  | 15 => .w64 (k.mx.mpc.setWidth 64)
  | 16 => n (c.num / 4)
  | 17 => n k.task.spanSize
  | _ => n s.pkgDies
/-- R45, Table 2.6: a literal as a source. -/
def litVal (p : Parcel) (f : BitVec 10) : Val :=
  if f = 0x100 then .w64 (p.setWidth 64)
  else if f = 0x101 then .w64 (p.signExtend 64)
  else if f = 0x102 then .w64 (p.setWidth 64 <<< 32)
  else .w64 (p.setWidth 64 <<< 8)
/-- What reading a source gives (R37). -/
inductive Src
  /-- the value -/
  | ok (v : Val)
  /-- E = 0 on an empty register: the group waits -/
  | wait
  /-- E = 1 on an empty register: cause 0x03 -/
  | empty
  /-- no source of this bundle: cause 0x02 -/
  | illegal
deriving DecidableEq, Repr
/-- R37 to R39, R44, R45: the value of FROM for core `c`. -/
def State.source (s : State) (c : CoreId) (e : Bool) (f : BitVec 10) : Src :=
  let p := (s.core c).pipe
  if !fromListed f then .illegal
  else if isSVO f then
    if p.regs.full f then .ok (p.regs.get f) else if e then .empty else .wait
  else if e then .illegal
  else if f.toNat < 0xA0 then .ok (p.regs.get f)
  else if f.toNat < 0xC0 then .ok (p.units.queue f)
  else if f.toNat < 0x100 then .ok (.w64 ((f.setWidth 6).signExtend 64))
  else if isLit f then (match p.ib.lit with | some l => .ok (litVal l f) | none => .illegal)
  else .ok (s.special c f)

end Sys2Proof.Machine
end

