-- ==== Sys2Proof/Machine/Services.lean ====
section
/-! DEFINITION. Page migration by firmware (R77 to R79), and the firmware services that SVC requests (R326). -/
namespace Sys2Proof.Machine

/-! ## Migration (R77 to R79, R289) -/

/-- Copies a 128-byte line, with its poisoned words, between frames. -/
def State.copyLine (s : State) (src dst : Nat) : State :=
  let s := s.dropCopies dst 128
  { s with m := { s.m with mem := Memory.writeBytes s.m.mem dst (Memory.bytes s.m.mem src 128),
                           poi := (poisonedIn s.m.poi src 128).foldl (fun p w => setAdd p (w - src / 8 + dst / 8)) (poisonWrite s.m.poi dst 128 false) } }
/-- R75, R78 phase 3 to 4: the new frame's heat counters start at zero, the new leaf, the log entries; a backing of the page names the new frame (R73, R79); held
writes may then go. -/
def State.migSwitch (s : State) (g : Migration) : State :=
  let lo := g.new / 0x10000
  let hi := (g.new + pageBytes g.size.toNat) / 0x10000
  let s := s.modDies fun d => if d.heat.isEmpty then d else { d with heat := d.heat.filter fun h => h.1 < lo || hi ≤ h.1 }
  let s := match s.ctx g.ctx with
    | none => s
    | some x =>
      match s.walk x.root g.va.toNat with
      | .leaf a _ e =>
        let tier : Nat := match tierOf g.new with | 4 => 0 | t => t
        s.writeLeaf a g.size.toNat ((e &&& ~~~(BitVec.ofNat 64 0x000FFFFFFFFF0310)) ||| BitVec.ofNat 64 (g.new + tier * 256))
      | _ => s
  let s := s.appendLog g.va.toNat g.size.toNat 1 g.ctx
  let s := s.modCtx g.ctx fun x0 =>
    let x := x0.moveLazy g.va.toNat g.size.toNat g.new
    if x.mapped.any fun q => q.2 = g.old then
      { x with mapped := (x.mapped.map fun q => if q.2 = g.old then (q.1, g.new) else q), limbo := x.limbo ++ [(g.old, (s.die 0).seq)] }
    else x
  { s with m := { s.m with migs := s.m.migs.map fun h => if h.old = g.old then { h with phase := 4, dirty := [], seq := (s.die 0).seq } else h } }
/-- Copies a line and, in tier 3, makes the copy dirty (R280). -/
def State.moveLine (s : State) (src dst : Nat) : State :=
  let s := s.copyLine src dst
  s.dirtied dst
/-- R78 phase 3: every write of a range of tier 3 is made durable at once. -/
def State.persistRange (s : State) (a n : Nat) : State :=
  let mine (x : Nat) : Bool := a ≤ x && x < a + n
  let gs := s.m.granules.filter fun g => mine g.addr
  let s : State := { s with m := { s.m with granules := s.m.granules.filter fun g => !mine g.addr } }
  let s := gs.foldl (fun s g => s.granuleDone g) s
  let lines := s.m.dirty.filter mine
  let s : State := { s with m := { s.m with dirty := s.m.dirty.filter fun x => !mine x } }
  (lines.foldl (fun s l => (s.granuleDone (s.granuleOf l)).granuleDone (s.granuleOf (l + 64))) s).trackersClean
/-- The base of the dusk area (R287). -/
def State.duskBase (s : State) : Nat := 0x2000000000000 + s.m.tier3 - 0x100000
/-- Writes a granule of the dusk area durably. -/
def State.duskGranule (s : State) (a : Nat) (bs : List Byte) : State :=
  { s with m := { s.m with mem := Memory.writeBytes s.m.mem a bs, pmem := Memory.writeBytes s.m.pmem a bs,
                           poi := poisonWrite s.m.poi a bs.length false, ppoi := poisonWrite s.m.ppoi a bs.length false } }
/-- R289: the journal granule of a migration: state 1 SWITCHING, 2 DONE (DESIGN CHOICE log 36). -/
def State.journal (s : State) (g : Migration) (st : Nat) : State :=
  if tierOf g.old = 3 && 0 < s.m.tier3 then
    s.duskGranule (s.duskBase + 64 * (1 + g.slot)) (bytesOfNat 8 g.old ++ bytesOfNat 8 g.new ++ bytesOfNat 8 st ++ List.replicate 40 0)
  else s
/-- Sets or clears MG of a leaf (R78). -/
def State.setMg (s : State) (g : Migration) (on : Bool) : State :=
  match s.ctx g.ctx with
  | some x => (match s.walk x.root g.va.toNat with
    | .leaf a size e => s.writeLeaf a size (if on then e ||| 16 else e &&& ~~~(16 : W64))
    | _ => s)
  | none => s
/-- The lowest journal slot no migration uses (R289). -/
def State.freeSlot (s : State) : Nat := ((List.range 16).find? fun i => s.m.migs.all fun g => g.slot != i).getD 0
/-- R78 phase 1: a migration opens. Its frames are held by the address that accesses carry (R61). -/
def State.openMigration (s : State) (g : Migration) : State :=
  let g := { g with old := s.normPa g.old, new := s.normPa g.new, slot := s.freeSlot, phase := 1, dirty := [], pass := 0 }
  ({ s with m := { s.m with migs := s.m.migs ++ [g] } } : State).setMg g true
/-- R77: a migration starts, or waits, in order, while sixteen are in progress. -/
def State.startMigration (s : State) (g : Migration) : State :=
  if 16 ≤ s.m.migs.length || !s.m.migQueue.isEmpty then
    { s with m := { s.m with migQueue := s.m.migQueue ++ [{ g with old := s.normPa g.old, new := s.normPa g.new }] } }
  else s.openMigration g
/-- R78 phase 3: the switch of a migration, its lines persisted first where DUR = 1. -/
def State.finishSwitch (s : State) (g : Migration) : State :=
  let s := g.dirty.foldl (fun s l => s.moveLine (g.old + 128 * l) (g.new + 128 * l)) s
  let s := if tierOf g.new = 3 then s.persistRange g.new (pageBytes g.size.toNat) else s
  (s.migSwitch { g with dirty := [] }).journal g 2
/-- Starts the first queued migration where one of the sixteen slots is free (R77). -/
def State.startQueued (s : State) : State :=
  match s.m.migQueue with
  | q :: r => if s.m.migs.length < 16 then ({ s with m := { s.m with migQueue := r } } : State).openMigration q else s
  | [] => s
/-- Starts as many queued migrations as there are free slots (R77). -/
def State.startAllQueued (s : State) : State := (List.range 16).foldl (fun s _ => s.startQueued) s
/-- Whether two ranges of addresses meet. -/
def meets (a n b m : Nat) : Bool := a < b + m && b < a + n
/-- Whether a location lies in a range of physical addresses. -/
def Loc.within (l : Loc) (a n : Nat) : Bool := match l with | .pa x => a ≤ x && x < a + n | .sp _ _ => false
/-- Whether a queued operation is a drain that has still to write in a range. -/
def SeqOp.within (o : SeqOp) (a n : Nat) : Bool :=
  match o with
  | .drain d => (d.rows.any fun r => r.any fun q => q.2.within a n) || d.entry.any fun l => match l with | some l => l.within a n | none => false
  | _ => false
/-- Whether an access of a core's task, issued and not performed, has been translated to a range. -/
def Core.within (k : Core) (a n : Nat) : Bool := (k.reqs.any fun r => r.loc.within a n) || k.mx.queue.any fun o => o.within a n
/-- R79 item 1, R84: whether an access that has been translated to a range is still to be performed. -/
def State.underWay (s : State) (a n : Nat) : Bool := (s.cores.any fun k => k.within a n) || s.fw.saved.any fun v => v.core.within a n
/-- R78 phase 4, R79 item 1, R84: whether nothing can reach a released range any more: every core has applied the entry of a number, and no access at the range is outstanding. -/
def State.released (s : State) (a n : Nat) (seq : W32) : Bool := (s.cores.all fun k => k.applied seq) && !s.underWay a n
/-- R87 items 1 and 2: once no migration of a page with a retired frame is left, the kind-3 entry is appended and applied on every core. -/
def State.retireDone (s : State) : State :=
  let busy (f : Nat) : Bool := (s.m.migs ++ s.m.migQueue).any fun g => meets f 0x10000 g.old (pageBytes g.size.toNat)
  if s.fw.retiring.all busy then s
  else
    let s := { s with fw := { s.fw with retiring := s.fw.retiring.filter busy } }
    (s.fw.ctxs.foldl (fun s x => s.appendLog 0 3 3 x.id) s).forceLog
/-- R79 item 5: UNMAP or PROTECT names pages of a range: migrations of them are abandoned before phase 3, and completed from it on. -/
def State.settleMigs (s : State) (ctx : BitVec 16) (lo hi : Nat) : State :=
  let mine (g : Migration) : Bool := g.ctx == ctx && g.va.toNat < hi && lo < g.va.toNat + pageBytes g.size.toNat
  let s := (s.m.migs.filter fun g => mine g && g.phase = 3).foldl (fun s g => s.finishSwitch g) s
  let gone := s.m.migs.filter fun g => mine g && g.phase < 3
  let kept := s.m.migs.filter fun g => !(mine g && g.phase < 3)
  let queue := s.m.migQueue.filter fun g => !mine g
  let s := gone.foldl (fun s g => s.setMg g false) s
  ({ s with m := { s.m with migs := kept, migQueue := queue } } : State).startAllQueued.retireDone
/-- R78, R80, R84, R87: whether firmware may give a range of physical addresses to a page: no retired frame, no copy of a replicated page, no frame of a
migration and no frame whose release is not complete lies in it. -/
def State.assignable (s : State) (a n : Nat) : Bool :=
  let a := s.normPa a
  !s.hasRetired a n
  && !(s.fw.replicas.any fun q => tierOf a = 0 && meets (a % 0x2000000000) n (q.frame % 0x2000000000) (pageBytes q.size))
  && !((s.m.migs ++ s.m.migQueue).any fun g => meets a n g.old (pageBytes g.size.toNat) || meets a n g.new (pageBytes g.size.toNat))
  && !(s.fw.limbo.any fun q => meets a n q.1 q.2.1 && !s.released q.1 q.2.1 q.2.2)

/-! ## Services (R326) -/

/-- Zeroes a range of memory. -/
def Memory.clear (m : Memory) (a n : Nat) : Memory := m.filter fun c => c.1 < a || a + n ≤ c.1
/-- Clears a range of device memory. -/
def State.zeroRange (s : State) (a n : Nat) : State :=
  let s := s.dropCopies a n
  { s with m := { s.m with mem := Memory.clear s.m.mem a n, poi := s.m.poi.filter fun w => !(a ≤ 8 * w && 8 * w < a + n) } }
/-- The pages of 64 KiB of a range. -/
def pages64 (va bytes : Nat) : List Nat := (List.range (bytes / 0x10000)).map fun i => va + 0x10000 * i
/-- A leaf of a tree: where its entry lies, its page's VA, its size 0 to 2, the entry. -/
abbrev LeafAt := Nat × Nat × Nat × W64
/-- The valid leaves of a table whose pages meet a range of VAs. -/
def State.leavesIn (s : State) (lo hi : Nat) : Nat → Nat → Nat → Nat → List LeafAt
  | 0, _, _, _ => []
  | fuel + 1, table, level, base =>
    (List.range 1024).flatMap fun i =>
      let va := base + i * 2 ^ levelShift level
      if hi ≤ va || va + 2 ^ levelShift level ≤ lo then []
      else
        let a := s.normPa (table + 8 * i)
        let e : W64 := BitVec.ofNat 64 (Memory.readN s.m.mem a 8)
        if !ebit e 0 then []
        else if ebit e 7 then (if level = 0 then [] else [(a, va, 3 - level, e)])
        else if level = 3 then []
        else s.leavesIn lo hi fuel (e.toNat % 0x10000000000000 / 0x2000 * 0x2000) (level + 1) va
/-- The valid leaves of a context whose pages meet a range of VAs. -/
def State.leaves (s : State) (x : Ctx) (lo hi : Nat) : List LeafAt := s.leavesIn lo hi 4 x.root 0 0
/-- R78, R84: whether firmware may not yet give a range to a page: a frame of it has been released, and some core has not applied that entry or an
access at the frame is outstanding. -/
def State.pendingRelease (s : State) (a n : Nat) : Bool :=
  let a := s.normPa a
  (s.fw.limbo.any fun q => meets a n q.1 q.2.1 && !s.released q.1 q.2.1 q.2.2)
  || (s.m.migs.any fun g => g.phase = 4 && meets a n g.old (pageBytes g.size.toNat))
  || s.fw.ctxs.any fun x => x.limbo.any fun q => meets a n q.1 0x10000 && !s.released q.1 0x10000 q.2
/-- Whether a page, a backing, a table or a service pool of some context, or a stamp window, lies in a range of physical addresses. -/
def State.inUse (s : State) (a n : Nat) : Bool :=
  let a := s.normPa a
  (s.fw.tables.any fun t => meets a n t 0x2000) || s.hasWindow a n
  || s.fw.ctxs.any fun x =>
    meets a n (s.normPa x.root) 0x2000 || meets a n (s.normPa x.poolBase) x.poolSize
    || (x.lazies.any fun l => meets a n (s.normPa l.pa) l.bytes)
    || (s.leaves x 0 (2 ^ 56)).any fun q => meets a n (s.normPa (leafFrame q.2.2.2)) (pageBytes q.2.2.1)
/-- The places of a page: its frame, and with RP = 1 the copy on every die in service (R80). -/
def State.placesOf (s : State) (e : W64) : List Nat :=
  let f := s.normPa (leafFrame e)
  if ebit e 3 then ((List.finRange 8).filter fun d => s.dieLive d).map fun d => d.val * 0x2000000000 + f % 0x2000000000 else [f]
/-- R82, R84: a leaf has gone: a kind-0 entry is appended; its frame, and every copy of a replicated page, is released with the number of that entry; until every
core has applied it stale accesses count as heat where HT was 1 (R75 item 4). -/
def State.releaseLeaf (s : State) (id : BitVec 16) (q : LeafAt) : State :=
  let (_, va, size, e) := q
  let s := s.appendLog va size 0 id
  let l := (s.placesOf e).map fun f => (f, pageBytes size, (s.die 0).seq)
  let owed (l : List (Nat × Nat × W32)) : List (Nat × Nat × W32) := l.filter fun r => !s.released r.1 r.2.1 r.2.2
  { s with m := { s.m with hotOld := owed (s.m.hotOld ++ if ebit e 6 then l else []) }, fw := { s.fw with
      limbo := owed s.fw.limbo ++ l,
      replicas := s.fw.replicas.filter fun r => !(r.ctx == id && r.va = va) } }
/-- R82, R84: a leaf is cleared. -/
def State.clearLeaf (s : State) (id : BitVec 16) (q : LeafAt) : State := (s.writeLeaf q.1 q.2.2.1 0).releaseLeaf id q
/-- R326: the free frames of a context's pool in the order firmware takes them for a task of die `d`. -/
def State.freeFrames (s : State) (x : Ctx) (d : DieId) : List Nat :=
  let free := (pages64 (s.normPa x.poolBase) x.poolSize).filter fun f =>
    s.backed f && s.assignable f 0x10000 && !(x.mapped.any fun q => q.2 = f) && !(x.limbo.any fun q => q.1 = f && !s.released f 0x10000 q.2)
  let near (f : Nat) : Bool := tierOf f = 0 && f / 0x2000000000 = d.val
  (free.filter near) ++ (free.filter fun f => !near f)
/-- Whether a page of 64 KiB meets a mapping of the context. -/
def State.isMapped (s : State) (x : Ctx) (va : Nat) : Bool :=
  (match s.walk x.root va with | .absent _ _ => false | _ => true)
  || x.lazies.any fun l => l.va.toNat < va + 0x10000 && va < l.va.toNat + l.bytes
/-- MAPREQ (Table 14.4). -/
def State.mapReq (s : State) (x : Ctx) (d : DieId) (va bytes : Nat) : Nat × State :=
  if va % 0x10000 ≠ 0 || bytes % 0x10000 ≠ 0 || bytes = 0 || 2 ^ 56 < va + bytes then (3, s)
  else
    let ps := pages64 va bytes
    if ps.any fun v => s.isMapped x v then (2, s)
    else
      let fs := (s.freeFrames x d).take ps.length
      if fs.length < ps.length then (1, s)
      else
        let s := (ps.zip fs).foldl (fun s q =>
          (s.zeroRange q.2 0x10000).installLeaf x.root q.1 0 (BitVec.ofNat 64 (q.2 + 0x83 + 256 * tierOf q.2))) s
        (0, s.modCtx x.id fun x => { x with mapped := x.mapped ++ (ps.zip fs).map fun q => (BitVec.ofNat 64 q.1, q.2) })
/-- Whether MAPREQ mapped every page of a range. -/
def Ctx.allMapped (x : Ctx) (ps : List Nat) : Bool := ps.all fun v => x.mapped.any fun q => q.1.toNat = v
/-- Changes the leaf of a VA and appends a kind-0 entry (R82). -/
def State.changeLeaf (s : State) (x : Ctx) (va : Nat) (f : W64 → W64) : State :=
  match s.walk x.root va with
  | .leaf a size e => (s.writeLeaf a size (f e)).appendLog va size 0 x.id
  | _ => s
/-- UNMAPREQ (Table 14.4): the frames return to the pool once R84 allows. -/
def State.unmapReq (s : State) (x : Ctx) (va bytes : Nat) : Nat × State :=
  if va % 0x10000 ≠ 0 || bytes % 0x10000 ≠ 0 || bytes = 0 then (3, s)
  else
    let ps := pages64 va bytes
    if !x.allMapped ps then (2, s)
    else
      let s := s.settleMigs x.id va (va + bytes)
      let s := ps.foldl (fun s v => match s.walk x.root v with | .leaf a size e => s.clearLeaf x.id (a, v, size, e) | _ => s) s
      let seq := (s.die 0).seq
      let now : List (W64 × Nat) := match s.ctx x.id with | some x => x.mapped | none => []
      let gone := now.filter fun q => ps.contains q.1.toNat
      (0, s.modCtx x.id fun x => { x with
        mapped := (x.mapped.filter fun q => !ps.contains q.1.toNat),
        limbo := x.limbo ++ gone.map fun q => (q.2, seq) })
/-- PROTREQ (Table 14.4). -/
def State.protReq (s : State) (x : Ctx) (va : Nat) (y : W64) : Nat × State :=
  let bytes := y.toNat / 4 * 4
  if va % 0x10000 ≠ 0 || bytes % 0x10000 ≠ 0 || bytes = 0 then (3, s)
  else
    let ps := pages64 va bytes
    if !x.allMapped ps then (2, s)
    else (0, ps.foldl (fun s v => s.changeLeaf x v fun e => (e &&& ~~~(6 : W64)) ||| ((y &&& 3) <<< 1)) (s.settleMigs x.id va (va + bytes)))
/-- R326: performs a service for core `c`: the 64 bits written to the destination. -/
def State.service (s : State) (c : CoreId) (v : Svc) : W64 × State :=
  let k := s.core c
  match s.ctx k.task.ctx with
  | none => (4, s)
  | some x =>
    let fin (r : Nat × State) : W64 × State := (BitVec.ofNat 64 r.1, r.2.applyLog c false)
    match v.num.toNat with
    | 1 => fin (s.mapReq x c.die v.x.toNat v.y.toNat)
    | 2 => fin (s.unmapReq x v.x.toNat v.y.toNat)
    | 3 => fin (s.protReq x v.x.toNat v.y)
    | 4 => (0, s.postEvent 1 k.task.ctx k.task.taskId (v.y.setWidth 32) v.x)
    | 5 => (x.soft.setWidth 64 <<< 32, s)
    | _ => (4, s)

end Sys2Proof.Machine
end

