-- ==== Sys2Proof/Machine/Ops.lean ====
section
/-! DEFINITION. The named operations the meanings share: register writes, requests, sync words, the bundle stream, and
taking an exception. -/
namespace Sys2Proof.Machine

/-- The outcome of a meaning. -/
abbrev Out := Host.Outcome State Fault Refusal

/-- The core whose move executes. -/
def State.me (s : State) : Core := s.core s.cur
/-- Changes that core. -/
def State.modMe (s : State) (f : Core → Core) : State := s.modCore s.cur f
/-- Its pipeline. -/
def State.pipe (s : State) : Pipe := s.me.pipe
/-- Changes the current core's pipeline. -/
def State.modPipe (s : State) (f : Pipe → Pipe) : State := s.modPipeOf s.cur f
/-- Changes the current core's matrix array. -/
def State.modMx (s : State) (f : Matrix → Matrix) : State := s.modMe fun k => { k with mx := f k.mx }
/-- Records what the move did. -/
def State.setDisp (s : State) (d : Disposition) : State := s.modPipe fun p => { p with disp := d }
/-- The move issued. -/
def State.issued (s : State) : State := s.setDisp .issued
/-- The move holds its group: nothing else changes (Table 14.9 numbers the wait). -/
def State.hold (s : State) (why : Nat) : State := s.setDisp (.held why)

/-! ## Register writes (R42, R43) -/

/-- Restores the five stochastic streams from a seed (R197). -/
def SysRegs2.seed (r : SysRegs2) (v : W64) : SysRegs2 := { r with rng := rngSeeds v }
/-- Table 14.2: TSNAPn as a word. -/
def TSnap.word (t : TSnap) : W64 :=
  (BitVec.ofBool t.locks ++ BitVec.ofBool t.valid ++ BitVec.ofBool t.drop ++ t.nshd ++ t.nres ++ (0 : BitVec 2) ++ t.offk ++ t.offm ++ t.offv ++ t.offc).setWidth 64
/-- Table 14.1: TCAUSEn as a word. -/
def TrapBank.causeWord (b : TrapBank) : W64 := (b.slot ++ b.group ++ b.cause).setWidth 64
/-- A write of one register of a trap bank: 0 TPC, 1 TCAUSE, 2 TADDR, 3 TSNAP. -/
def TrapBank.write (b : TrapBank) (k : Nat) (v : W64) : TrapBank :=
  match k with
  | 0 => { b with tpc := v.setWidth 32 }
  | 1 => { b with slot := v.extractLsb' 11 3, group := v.extractLsb' 8 3, cause := v.extractLsb' 0 8 }
  | 2 => { b with addr := v }
  | _ => { b with snap := { b.snap with drop := v.getLsbD 35 } }
/-- R176, Tables 7.5, 7.6, 11.5, 11.6, 13.2, 14.1, 14.2: a write of a system register takes effect; RO and reserved bits keep (DEDUCED log 51). -/
def Pipe.writeSys (p : Pipe) (n : Nat) (v : W64) : Pipe :=
  let i := p.ib.idx
  match n with
  | 0x000 => { p with sys := { p.sys with lock := v.getLsbD 4, bte := v.getLsbD 2, fve := v.getLsbD 1, dze := v.getLsbD 0 } }
  | 0x002 => { p with sys := { p.sys with thbase := v.setWidth 32 } }
  | 0x010 | 0x011 | 0x012 | 0x013 => { p with trap := { p.trap with bank1 := p.trap.bank1.write (n - 0x010) v } }
  | 0x018 | 0x019 | 0x01A | 0x01B => { p with trap := { p.trap with bank2 := p.trap.bank2.write (n - 0x018) v } }
  | 0x031 => { p with sys := { p.sys with rseed := v }, sys2 := p.sys2.seed v }
  | 0x032 => { p with sys := { p.sys with fpstat := p.sys.fpstat &&& ~~~(v.setWidth 9) } }
  | 0x050 => { p with sys := { p.sys with wdti := v.setWidth 32 } }
  | 0x058 => { p with sys := { p.sys with codebase := v &&& ~~~(0xFF : W64) }, stream := { p.stream with cbsw := p.stream.cbsw ++ [(i + 3, p.sys.codebase)] } }
  | 0x059 => { p with sys := { p.sys with mdbase := v &&& ~~~(0xFF : W64) } }
  | 0x070 => { p with sys2 := { p.sys2 with tickch := if 4 < (v.extractLsb' 0 3).toNat then 0 else v.extractLsb' 0 3 } }
  | 0x071 => { p with sys2 := { p.sys2 with lateq := p.sys2.lateq &&& ~~~(v.extractLsb' 16 16), nullq := p.sys2.nullq &&& ~~~(v.extractLsb' 0 16) } }
  | 0x080 => { p with sys := { p.sys with pwstat := p.sys.pwstat &&& ~~~(v.setWidth 9) } }
  | 0x090 => { p with regs := { p.regs with ls := p.regs.ls.set 0 (v.setWidth 32) } }
  | 0x091 => { p with regs := { p.regs with ls := p.regs.ls.set 1 (v.setWidth 32) } }
  | 0x092 => { p with regs := { p.regs with lc := p.regs.lc.set 0 (v.setWidth 32) } }
  | 0x093 => { p with regs := { p.regs with lc := p.regs.lc.set 1 (v.setWidth 32) } }
  | _ => p
/-- One register write takes effect. -/
def Pipe.apply (p : Pipe) (w : RegWrite) : Pipe :=
  match w with
  | .sys n v => p.writeSys n v
  | .fill f ts => { p with fills := (p.fills.filter fun x => x.1 ≠ f) ++ [(f, ts)] }
  | .put f _ => { p with regs := p.regs.apply w, fills := p.fills.filter fun x => x.1 ≠ f }
  | .val f _ => { p with regs := p.regs.apply w, fills := p.fills.filter fun x => x.1 ≠ f }
  | .empty f => { p with regs := p.regs.apply w, fills := p.fills.filter fun x => x.1 ≠ f }
/-- A register write of the executing move: deferred to the end of its cycle, since a bundle's moves, and those that issue in the same cycle, read the
values before it (R42); at once outside a cycle. -/
def State.regWrite (s : State) (w : RegWrite) : State :=
  s.modPipe fun p => match p.wq with
    | some l => { p with wq := some (l ++ [(p.wslot, w)]) }
    | none => p.apply w
/-- R43 rule 1: the writes of a cycle in ascending slot order. -/
def slotOrder (l : List (Nat × RegWrite)) : List RegWrite :=
  (List.range 7).flatMap fun k => l.filterMap fun w => if w.1 = k then some w.2 else none
/-- The deferred writes take effect; where a long trigger and a move of one cycle name one register the higher slot decides (R43, R165, DESIGN CHOICE log 70). -/
def Pipe.commit (p : Pipe) : Pipe :=
  match p.wq with
  | some l => (slotOrder l).foldl Pipe.apply { p with wq := none }
  | none => p
/-- R43 rule 1: a completion among deferred writes: before them, but after the emptying of its register. -/
def putCompletion (f : BitVec 10) (v : Val) (l : List (Nat × RegWrite)) : List (Nat × RegWrite) :=
  match l.dropWhile fun w => w.2 != .empty f with
  | e :: r => (l.takeWhile fun w => w.2 != .empty f) ++ e :: (e.1, .put f v) :: r
  | [] => (0, .put f v) :: l
/-- The timestamp of an access beside the write of its value among deferred writes. -/
def putFill (f : BitVec 10) (ts : Nat) : List (Nat × RegWrite) → List (Nat × RegWrite)
  | [] => [(0, .fill f ts)]
  | w :: r => match w.2 with | .put g _ => if g = f then w :: (w.1, .fill f ts) :: r else w :: putFill f ts r | _ => w :: putFill f ts r
/-- Writes a register of a core outside a move: completions (R43 rule 1); deferred while a bundle's moves still read. -/
def State.complete (s : State) (c : CoreId) (f : BitVec 10) (v : Val) : State :=
  s.modPipeOf c fun p => match p.wq with
    | some l => { p with wq := some (putCompletion f v l) }
    | none => { p with regs := p.regs.put f v }
/-- Table 4.2: a register is filled by an access of a timestamp, until a group has read it or it is written again. -/
def State.noteFill (s : State) (c : CoreId) (f : BitVec 10) (ts : Nat) : State :=
  s.modPipeOf c fun p => match p.wq with
    | some l => { p with wq := some (putFill f ts l) }
    | none => p.apply (.fill f ts)
/-- Enters flags in FPSTAT (R198). -/
def State.addFlags (s : State) (c : CoreId) (f : Flags) : State :=
  s.modPipeOf c fun p => { p with sys := { p.sys with fpstat := p.sys.fpstat ||| f } }
/-- R168: a short operation of a unit issues: its result lands after the unit's latency. -/
def State.short (s : State) (u : Unit7) (v : Val) (flags : Flags) (dsel : Option (BitVec 10)) : State :=
  (s.modPipe fun p => { p with shorts := p.shorts ++ [⟨u, v, flags, dsel, u.latency⟩] }).issued
/-- R165: a long operation of a unit issues: D's register empties; the result comes in `cycles` cycles. -/
def State.long (s : State) (u : Unit7) (v : Val) (flags : Flags) (d : BitVec 10) (cycles : Nat) : State :=
  ((s.modPipe fun p => { p with longs := p.longs ++ [⟨u, v, flags, d, cycles, .value⟩] }).regWrite (.empty d)).issued
/-- R138: clears the refused mark of the task of core `c`. -/
def State.unrefuse (s : State) (c : CoreId) : State := s.modCore c fun k => { k with task := { k.task with refused := false } }
/-- R9, R138: the acceptance of an enqueueing operation. -/
def State.accept (s : State) (d : BitVec 10) (ok : Bool) : State :=
  ((if ok then s.unrefuse s.cur else s).regWrite (.val d (.w64 (boolWord 64 ok)))).issued
/-- R168, R169, R209: a short result lands: the queue shifts, the flags enter FPSTAT, the captured D is written; its full/empty bit stays (R9, R165). The
moves of the cycle write after it (R43). -/
def Pipe.landShort (p : Pipe) (x : Short) : Pipe :=
  { p with
    units := p.units.land x.unit x.val
    regs := match x.dsel with | some f => p.regs.write f x.val | none => p.regs
    sys := { p.sys with fpstat := p.sys.fpstat ||| x.flags } }

/-! ## Shadows (R191) -/

/-- The value of a shadowed register in force at dynamic bundle `i`, from its closed value. -/
def inForce (l : List Shadow) (r : ShReg) (i : Nat) (base : BitVec 24) : BitVec 24 :=
  l.foldl (fun v x => if x.reg = r && x.close ≤ i then x.new else v) base
/-- f_n as an operation of bundle `i` reads it. -/
def Pipe.fmt (p : Pipe) (n : BitVec 3) : BitVec 24 := inForce p.shadows (.f n) p.ib.idx (p.regs.f[n.toNat]'(by omega))
/-- RMODE packed in bits [3:0]. -/
def RMode.pack (r : RMode) : BitVec 24 := (BitVec.ofBool r.isat ++ r.mode).setWidth 24
/-- RMODE from bits [3:0]. -/
def RMode.ofBits (v : BitVec 24) : RMode := ⟨v.getLsbD 3, v.extractLsb' 0 3⟩
/-- RMODE as an operation of the executing bundle reads it. -/
def Pipe.rmode (p : Pipe) : RMode := RMode.ofBits (inForce p.shadows .rm p.ib.idx p.sys.rmode.pack)
/-- The newest value written to a shadowed register, its shadow closed or not. -/
def Pipe.newest (p : Pipe) (r : ShReg) : BitVec 24 :=
  p.shadows.foldl (fun v x => if x.reg = r then x.new else v) (match r with | .f n => p.regs.f[n.toNat]'(by omega) | .rm => p.sys.rmode.pack)
/-- Sets the closed value of a shadowed register. -/
def Pipe.setShadowed (p : Pipe) (r : ShReg) (v : BitVec 24) : Pipe :=
  match r with
  | .f n => { p with regs := { p.regs with f := p.regs.f.set n.toNat v (by omega) } }
  | .rm => { p with sys := { p.sys with rmode := RMode.ofBits v } }
/-- Closes the shadows in a list: their new values take effect (R329 step 6). -/
def Pipe.closeShadows (p : Pipe) : Pipe :=
  p.shadows.foldl (fun p x => p.setShadowed x.reg x.new) { p with shadows := [] }
/-- Forgets the shadows that have closed for every group: their values become the closed values. -/
def Pipe.pruneShadows (p : Pipe) : Pipe :=
  let low := p.stream.gpos.foldl min p.stream.gpos[0]
  let done := p.shadows.filter fun x => x.close ≤ low
  if done.isEmpty then p
  else { done.foldl (fun p x => p.setShadowed x.reg x.new) p with shadows := p.shadows.filter fun x => !(x.close ≤ low) }
/-- Notes that the handler of the current level has written a shadowed register (R191 rule 5): level 1's saved shadow of a register that a level-2 handler writes stays
(DESIGN CHOICE log 86). -/
def TrapState.noteWrite (t : TrapState) (r : ShReg) : TrapState :=
  match t.tl.toNat with
  | 0 => t
  | 1 => { t with buf1 := t.buf1.map fun b => { b with wrote := r :: b.wrote } }
  | _ => { t with buf2 := t.buf2.map fun b => { b with wrote := r :: b.wrote } }
/-- A write of a shadowed register by the executing bundle (R191). -/
def State.writeShadowed (s : State) (r : ShReg) (v : BitVec 24) : State :=
  s.modPipe fun p => { p with shadows := p.shadows ++ [⟨r, v, p.ib.idx + 5⟩], trap := p.trap.noteWrite r }

/-! ## Requests of the S slot (R97, R106, R173, R180, R182) -/

/-- The value of an atomic's write (R182). -/
def AOp.apply (op : AOp) (n : Nat) (old y x : W64) : W64 :=
  let m (v : W64) : W64 := v &&& BitVec.ofNat 64 (2 ^ (8 * n) - 1)
  let sg (v : W64) : Int := if n = 4 then (v.setWidth 32).toInt else v.toInt
  match op with
  | .add => m (old + y)
  | .min => if sg y < sg old then m y else m old
  | .max => if sg old < sg y then m y else m old
  | .minu => if (m y).toNat < (m old).toNat then m y else m old
  | .maxu => if (m old).toNat < (m y).toNat then m y else m old
  | .and => m (old &&& y)
  | .or => m (old ||| y)
  | .xor => m (old ^^^ y)
  | .xchg => m y
  | .cas => if m old = m x then m y else m old
/-- The low `n` bytes of a value, sign- or zero-extended to 64 bits. -/
def extend (n : Nat) (signed : Bool) (v : Nat) : W64 :=
  match n, signed with
  | 1, true => (BitVec.ofNat 8 v).signExtend 64
  | 2, true => (BitVec.ofNat 16 v).signExtend 64
  | 4, true => (BitVec.ofNat 32 v).signExtend 64
  | _, _ => BitVec.ofNat 64 (v % 2 ^ (8 * n))
/-- Every class path takes at least this time (R97). -/
def ltMerge (lt : Vector Nat 4) (t : Nat) : Vector Nat 4 := lt.map (max t)
/-- Whether an operation is an atomic. -/
def ReqOp.isAtomic : ReqOp → Bool | .atomic _ _ => true | _ => false
/-- Whether an operation writes memory. -/
def ReqOp.writes : ReqOp → Bool | .load _ => false | _ => true
/-- R97: whether a request must follow an earlier one. -/
def Req.after (r r' : Req) : Bool := r.cls == r'.cls || r.op.isAtomic || r'.op.isAtomic
/-- R93, R106: performs a request of core `c` at its location, filtered already. An atomic to a home on a die out of service returns poison (R161 item 3),
and its write is dropped and recorded like a store's (DEDUCED log 69). -/
def State.performAt (s : State) (c : CoreId) (r : Req) (l : Loc) : State :=
  let k := s.core c
  let lt0 := k.lt[r.cls.toNat]'(by omega)
  match r.op with
  | .load sg =>
    let ((bs, bad, lt), s) := s.loadAt c.die lt0 l r.size
    ((s.setLt c (k.lt.set r.cls.toNat lt (by omega))).complete c r.dsel (.sc ⟨extend r.size sg (natOfBytes bs), bad⟩)).noteFill c r.dsel lt
  | .store =>
    let (ts, s) := s.storeAt c.die k.task.ctx lt0 l (bytesOfNat r.size r.data.val.toNat) r.data.poi
    (s.setLt c (k.lt.set r.cls.toNat ts (by omega))).track c l
  | .atomic op ret =>
    let (bs, s) := if s.homeUp l then ((s.homeBytes l r.size).1, s) else s.freeBytes r.size
    let bad := !s.homeUp l || (s.homeBytes l r.size).2
    let old := BitVec.ofNat 64 (natOfBytes bs)
    let t := s.times l
    let bad' := bad || r.data.poi || (r.x.poi && op == .cas)
    let (ts, s) := s.storeAt c.die k.task.ctx (max (ltime k.lt) t.wts) l (bytesOfNat r.size (op.apply r.size old r.data.val r.x.val).toNat) bad'
    let s := (s.setLt c (ltMerge k.lt ts)).track c l
    if ret then s.complete c r.dsel (.sc ⟨extend r.size (r.size == 4) old.toNat, bad⟩) else s
/-- Removes a request. -/
def State.dropReq (s : State) (c : CoreId) (q : Nat) : State := s.modCore c fun k => { k with reqs := k.reqs.filter fun r => r.seq ≠ q }
/-- R112: whether every bank of core `h` that `n` bytes from `off` touch is ACTIVE. -/
def State.banksReady (s : State) (h : CoreId) (off n : Nat) : Bool :=
  (List.range ((off + n + 0x1FFFF) / 0x20000 - off / 0x20000)).all fun i => (s.core h).banks.getD (off / 0x20000 + i) .active == .active
/-- R112: an access starts the exit of a bank that is not ACTIVE: the rows converted are to convert back. -/
def BankMode.wake : BankMode → BankMode
  | .active => .active
  | .entering r => .exiting r
  | .retain => .exiting 64
  | .exiting r => .exiting r
/-- Starts the exit of the banks an access touches. -/
def State.wakeBanks (s : State) (h : CoreId) (off n : Nat) : State :=
  s.modCore h fun k => { k with banks := (Vector.ofFn fun i : Fin 48 =>
    if off / 0x20000 ≤ i.val && i.val * 0x20000 < off + n then k.banks[i].wake else k.banks[i]) }
/-- R89, R97, Table 4.2: whether a move, when its guard holds, takes a place in the order of class 0: an access of class 0, or an atomic. -/
def class0Move (m : Slot × Parcel) : Bool :=
  let t := (m.2.extractLsb' 11 9).toNat
  match m.1 with
  | .c => t = 0x138 || t = 0x13D
  | .s => (0x140 ≤ t && t < 0x170 && t % 4 = 0) || (0x170 ≤ t && t < 0x1B0)
  | .m => t = 0x104 || (0x118 ≤ t && t < 0x11C)
  | .ka | .kb => 0x100 ≤ t && !(0x114 ≤ t && t < 0x118)
  | _ => false
/-- The dispatched bundle of index `i`. -/
def Stream.at (st : Stream) (i : Nat) : Option Disp := if i < st.base then none else st.win[i - st.base]?
/-- The group of a slot's index. -/
def slotGroup (i : Nat) : Nat := if i < 2 then 0 else if i < 4 then 1 else if i < 5 then 2 else 3
/-- Whether a move of group `h` of the executing bundle has run already: one of a lower slot of a group that issues the bundle jointly. -/
def Pipe.ranAlready (p : Pipe) (h j : Nat) (slot : Nat) : Bool :=
  p.ib.mute && j = p.ib.idx && slot < p.wslot && (p.sys.lock || (p.ib.align.getLsbD h && p.ib.align.getLsbD (slotGroup p.wslot)))
/-- Whether group `h` still has such a move to issue in bundle `j`. -/
def Pipe.owesClass0 (p : Pipe) (h j : Nat) : Bool :=
  p.stream.gpos.getD h 0 ≤ j && match p.stream.at j with
    | some b => b.moves.any fun m => m.1.group.index.val = h && class0Move m && !p.ranAlready h j m.1.index
    | none => false
/-- R97: whether a group other than `g` still has a class-0 access to issue that is earlier than bundle `pos`, or in it and of a lower slot: the class
sequence numbers keep slip from reordering them (DEDUCED log 58). -/
def Pipe.owesBefore (p : Pipe) (g : Nat) (pos : Option Nat) : Bool :=
  match pos with
  | none => false
  | some i => [0, 2, 3].any fun h => h ≠ g && (List.range (i + 1 - p.stream.gpos.getD h 0)).any fun k =>
      let j := p.stream.gpos.getD h 0 + k
      (j < i || h < g) && p.owesClass0 h j
/-- R97: whether an access of the slot of a number in bundle `p`, none where its stream has been replaced since, is earlier than the executing move. -/
def Pipe.precedes (k : Pipe) (p : Option Nat) (slot : Nat) : Bool :=
  match p with
  | some i => i < k.ib.idx || (i = k.ib.idx && slot < k.wslot)
  | none => true
/-- Whether a pending wait is a QGET that holds its place in the order of class 0: the QGET is the load of its message (R136). One that a trap or a save has recorded
holds none: it is issued again (R319). -/
def Wait.loads (w : Wait) : Bool := w.pos.isSome && match w.kind with | .qget _ => true | _ => false
/-- Drains of core `c` still queued: they are class-0 accesses (R249). -/
def Core.drainsPending (k : Core) : Bool := k.mx.queue.any fun o => match o with | .drain _ => true | _ => false
/-- R97: whether the access of bundle `p` and number `n` is earlier than that of bundle `q` and number `m`: by their bundles, and by the order in which they
issued where a stream has been replaced since. -/
def earlierPlace (p : Option Nat) (n : Nat) (q : Option Nat) (m : Nat) : Bool :=
  match p, q with
  | some i, some j => i < j
  | _, _ => n < m
/-- R249: whether a queued drain is an earlier access than a request. -/
def Core.drainBefore (k : Core) (r : Req) : Bool :=
  k.drainsPending && k.mx.queue.any fun o => match o with | .drain d => earlierPlace d.pos d.seq r.pos r.seq | _ => false
/-- R249: whether one of some requests waits for a queued drain. -/
def Core.behindDrain (k : Core) (mine : Req → Bool) : Bool :=
  k.drainsPending && k.reqs.any fun r => (r.cls == 0 || r.op.isAtomic) && mine r && k.drainBefore r
/-- R97, R249: whether a request is an earlier class-0 access than one of a higher slot, of bundle `p` and number `n`: in one bundle the S slot is lower. -/
def Core.reqBefore (k : Core) (p : Option Nat) (n : Nat) : Bool :=
  k.reqs.any fun r => (r.cls == 0 || r.op.isAtomic) && !earlierPlace p n r.pos r.seq
/-- R97, R136: whether a pending QGET is an earlier access than one of a lower slot, of bundle `p` and number `n`. -/
def Core.getBefore (k : Core) (p : Option Nat) (n : Nat) : Bool := k.pipe.waits.any fun w => w.loads && earlierPlace w.pos w.seq p n
/-- R97: whether an outstanding access of those chosen, a queued drain where `drains`, or a pending QGET is earlier than the executing move. -/
def Core.owesEarlier (k : Core) (mine : Req → Bool) (drains : Bool) : Bool :=
  (k.reqs.any fun r => mine r && k.pipe.precedes r.pos 1)
  || (drains && k.drainsPending && k.mx.queue.any fun o => match o with | .drain d => k.pipe.precedes d.pos 4 | _ => false)
  || k.pipe.waits.any fun w => w.loads && k.pipe.precedes w.pos w.unit.slot.index
/-- R97, R113 row 4: whether an earlier class-0 access of the task than the executing move's is not yet performed. A pending SW.WAIT is none: it is performed when its word
is tried, and a later access does not wait for it (R100 item 3, DEDUCED log 60). -/
def Core.class0Waits (k : Core) : Bool := k.owesEarlier (fun r => r.cls == 0 || r.op.isAtomic) true
/-- R99: whether an earlier load or atomic makes an acquire wait. -/
def Core.acquireWaits (k : Core) : Bool := k.owesEarlier (fun r => match r.op with | .store => false | _ => true) false
/-- R99, R101: whether an earlier access makes a release wait. -/
def Core.releaseWaits (k : Core) : Bool := k.owesEarlier (fun _ => true) true
/-- Whether any access of core `c` is outstanding. -/
def Core.owesAny (k : Core) : Bool := !k.reqs.isEmpty || k.drainsPending
/-- The tier-3 lines that a core's tracker holds or that its outstanding writes will add (R283). -/
def Core.lines3 (k : Core) : List Nat :=
  k.reqs.foldl (fun l r => match r.loc with
    | .pa a => if r.op.writes && tierOf a = 3 && !l.contains (a / 128 * 128) then l ++ [a / 128 * 128] else l
    | .sp _ _ => l) k.tracker
/-- R283 rule 4: a write to a tier-3 line would pass the 256 lines of the tracker. -/
def Core.trackerFull (k : Core) (l : Loc) : Bool :=
  match l with
  | .pa a => tierOf a = 3 && 256 ≤ k.lines3.length && !k.lines3.contains (a / 128 * 128)
  | .sp _ _ => false
/-- The tier-3 lines that writes of a list of locations, as they are performed, add to a core's tracker. -/
def Core.newLines3 (k : Core) (ls : List Loc) : List Nat :=
  (ls.filterMap fun l => match l with
    | .pa a => if tierOf a = 3 && !k.tracker.contains (a / 128 * 128) then some (a / 128 * 128) else none
    | .sp _ _ => none).eraseDups
/-- R112, R283 rule 4: whether the writes of a list of locations can be performed: their banks are ACTIVE, and the tracker has room for their lines. -/
def State.writesReady (s : State) (c : CoreId) (ls : List Loc) (n : Nat) : Bool :=
  let k := s.core c
  (ls.all fun l => match l with | .sp h off => s.banksReady h off n | .pa _ => true) && k.tracker.length + (k.newLines3 ls).length ≤ max 256 k.tracker.length
/-- What makes such writes wait begins to pass: banks exit, and under a full tracker its lines are written back. -/
def State.readyWrites (s : State) (c : CoreId) (ls : List Loc) (n : Nat) : State :=
  let s := ls.foldl (fun s l => match l with
    | .sp h off => if s.banksReady h off n then s else s.wakeBanks h off n
    | .pa _ => s) s
  if ls.any (fun l => match l with | .pa a => tierOf a = 3 | .sp _ _ => false) then ((s.core c).tracker.foldl (fun s l => s.writeBack l) s).trackersClean else s
/-- R112, R283 rule 4: whether a request of core `c` can be performed at its location, filtered already: its bank is ACTIVE, and the tracker has room for a write's line. -/
def State.reqReady (s : State) (c : CoreId) (r : Req) (l : Loc) : Bool :=
  match l with
  | .sp h off => s.banksReady h off r.size
  | .pa _ => !r.op.writes || s.writesReady c [l] r.size
/-- Performs a request of core `c` at its location, filtered already, or makes what it waits for begin to pass. -/
def State.performThere (s : State) (c : CoreId) (r : Req) (l : Loc) : State :=
  let s := if s.reqReady c r l then s else s.readyWrites c [l] r.size
  if s.reqReady c r l then ((({ s with m := { s.m with held := s.m.held.filter fun h => !(h.core = c && h.req.seq = r.seq) } } : State).dropReq c r.seq).performAt c r l) else s
/-- R79: the held writes of a page that is no longer switching are performed, in their arrival order. -/
def State.releaseHeld (s : State) : State :=
  s.m.held.foldl (fun s h =>
    match (s.core h.core).reqs.find? fun r => r.seq = h.req.seq with
    | none => { s with m := { s.m with held := s.m.held.erase h } }
    | some r => match s.filter r.loc true with
      | some l => s.performThere h.core r l
      | none => s) s
/-- R93: performs request number `q` of core `c` if its class order lets it, no switch holds it and its bank is ACTIVE; else
nothing but the bank's exit, or the write joins those that the switch holds (R78). -/
def State.performReq (s : State) (c : CoreId) (q : Nat) : State :=
  let s := if s.m.held.isEmpty then s else s.releaseHeld
  let k := s.core c
  match k.reqs.find? fun r => r.seq = q with
  | none => s
  | some r =>
    if (k.reqs.takeWhile fun r' => r'.seq ≠ q).any fun r' => r.after r' then s
    else if (r.cls == 0 || r.op.isAtomic) && (k.pipe.owesBefore 0 r.pos || k.drainBefore r || k.getBefore r.pos r.seq) then s
    else match s.filter r.loc r.op.writes with
      | none => if s.m.held.any (fun h => h.core = c && h.req.seq = q) then s else { s with m := { s.m with held := s.m.held ++ [⟨c, r⟩] } }
      | some l => s.performThere c r l
/-- R112, R283 rule 4: whether one of some requests of core `c` waits for a bank that is not ACTIVE, or for room in the tracker. -/
def State.banksShut (s : State) (c : CoreId) (mine : Req → Bool) : Bool :=
  (s.core c).reqs.any fun r => mine r && match s.filter r.loc r.op.writes with | some l => !s.reqReady c r l | none => false
/-- R173: whether the core holds its 1,024 requests. -/
def Core.full (k : Core) : Bool := 1024 ≤ k.reqs.length
/-- A request of the S slot issues (R97, R165, R173): it takes the task's next number; one that returns a value empties D. -/
def State.request (s : State) (cls : BitVec 2) (op : ReqOp) (loc : Loc) (size : Nat) (data x : SVal) (d : BitVec 10) (fills : Bool) : State :=
  if s.me.full || (op.writes && s.me.trackerFull loc) then s.hold 0 else
  let s := s.modMe fun k => { k with reqs := k.reqs ++ [⟨k.seq, cls, op, loc, size, data, x, d, some k.pipe.ib.idx⟩], seq := k.seq + 1 }
  let s := if op.writes then s.unrefuse s.cur else s
  (if fills then s.regWrite (.empty d) else s).issued
/-- Performs what can be performed of core `c`, oldest first. -/
def State.performAll (s : State) (c : CoreId) : State := ((s.core c).reqs.map (·.seq)).foldl (fun s q => s.performReq c q) s
/-- A BART in flight, its stream replaced. -/
def Long.unplace (l : Long) : Long := match l.fin with | .test h off g _ n => { l with fin := .test h off g none n } | _ => l
/-- The streams that the positions of core `c`'s requests, BARTs and queued drains count in are given up: nothing earlier can issue any more. -/
def Core.unplace (k : Core) : Core :=
  { k with reqs := k.reqs.map fun r => { r with pos := none },
           pipe := if k.pipe.longs.isEmpty then k.pipe else { k.pipe with longs := k.pipe.longs.map Long.unplace },
           mx := if k.mx.queue.isEmpty then k.mx else { k.mx with queue := k.mx.queue.map fun o => match o with | .drain d => .drain { d with pos := none } | o => o } }
/-- R319 item 3: the pending waits of a core are recorded, to be issued again: they hold no access any more. -/
def Core.recordWaits (k : Core) : Core :=
  if k.pipe.waits.isEmpty then k else { k with pipe := { k.pipe with waits := k.pipe.waits.map fun w => { w with pos := none } } }
/-- A pending wait stands before every bundle of the stream in force: streams start at 32. -/
def Wait.past (w : Wait) : Wait := { w with pos := some 31 }
/-- R275, R319: a recorded wait as it is issued again: into its place among the waits, not as a move, so that a word found overflowed completes it with all ones and raises nothing
(DESIGN CHOICE log 87). -/
def Wait.again (w : Wait) : Wait := match w.kind with | .ing f _ => { w with kind := .ing f none, pos := some 31 } | _ => w.past
/-- R319, R322: recorded waits are issued again: each takes the task's next number, by which the commands that wait for it know it (R100 item 3). -/
def Core.reissue (k : Core) (l : List Wait) : Core :=
  let f (i : Nat) : Nat := match l.findIdx? (fun w => w.seq = i) with | some j => k.seq + j | none => i
  let g (x : KSlot) : KSlot := { x with queue := x.queue.map fun e => { e with acq := e.acq.map f } }
  { k with ka := g k.ka, kb := g k.kb, seq := k.seq + l.length,
           pipe := { k.pipe with waits := k.pipe.waits ++ (l.zip (List.range l.length)).map fun q => { q.1.again with seq := k.seq + q.2 } } }
/-- Switches in progress complete, and the writes they held are performed (R79). -/
def State.finishSwitches (s : State) : State := ((s.m.migs.filter fun g => g.phase = 3).foldl (fun s g => s.finishSwitch g) s).releaseHeld
/-- Waits until every request of core `c` is performed, but for those behind a drain or a bank that is not ACTIVE: a switch in progress completes first (R79
rule 2). -/
def State.settle (s : State) (c : CoreId) : State :=
  let s := s.performAll c
  if (s.core c).reqs.isEmpty then s else s.finishSwitches.performAll c
/-- Whether an operation gives a value back. -/
def ReqOp.returns : ReqOp → Bool | .load _ => true | .atomic _ ret => ret | .store => false
/-- Whether an operation is a load or an atomic (R99). -/
def ReqOp.reads : ReqOp → Bool | .store => false | _ => true
/-- The requests of a list, newest first, that some chosen ones need performed: themselves and what their class order puts before them (R97). -/
def needed (mine : Req → Bool) : List Req → List Req → List Req
  | [], acc => acc
  | r :: rest, acc => needed mine rest (if mine r || acc.any fun x => x.after r then r :: acc else acc)
/-- Waits until the requests of core `c` that a condition chooses are performed; the others, stores mostly, are not waited for. -/
def State.settleSome (s : State) (c : CoreId) (mine : Req → Bool) : State :=
  let go (s : State) : State := (needed mine (s.core c).reqs.reverse []).foldl (fun s r => s.performReq c r.seq) s
  if !(s.core c).reqs.any mine then s
  else
    let s := go s
    if (s.core c).reqs.any mine then go s.finishSwitches else s

/-! ## Sync words (R122 to R124, R299) -/

/-- Writes a sync word that an operation has read; what was poisoned stays so (R111, R328). -/
def State.syncPut (s : State) (c : CoreId) (off : Nat) (w : SyncWord) : State :=
  let poi (o : Nat) : Bool := poisonAt (s.core c).spPoi o 8
  (s.homeWrite (.sp c off) (bytesOfNat 4 w.target ++ bytesOfNat 4 w.count) (poi off)).homeWrite (.sp c (off + 8))
    (bytesOfNat 4 w.gen ++ bytesOfNat 4 w.flags.toNat) (poi (off + 8))
/-- R123: the word after an arrival of weight `w`. -/
def SyncWord.arrive (x : SyncWord) (w : Nat) : SyncWord :=
  let c := x.count + w
  if w = 0 || x.ovf then (if x.ovf then { x with count := min c 0xFFFFFFFF } else x)
  else if c = x.target then { x with gen := (x.gen + 1) % 2 ^ 32, count := if x.arm then 0 else c }
  else if x.target < c then { x with flags := x.flags ||| 2, count := min c 0xFFFFFFFF }
  else { x with count := c }
/-- R299: the words an arrival at a word is counted on: the span barrier word of every die of the span, else the word. An arrival of an engine command
counts so while its span is saved, or waits to be loaded again, too (R134). -/
def State.syncCopies (s : State) (c : CoreId) (off : Nat) : List (CoreId × Nat) :=
  match s.fw.jobs.find? fun j => j.st != .finished && (s.core c).task.job = j.num && j.lr2.sboff = off && c.num = j.first && j.dies.contains c.die with
  | some j => j.dies.map fun d => (CoreId.mk' d j.first, off)
  | none => [(c, off)]
/-! ## Fences (R99, R101, R102) -/

/-- The lt merge of a fence (R99). -/
def State.mergeClasses (s : State) (c : CoreId) : State := s.setLt c (ltMerge (s.core c).lt (ltime (s.core c).lt))
/-- R95, Table 4.1: the extra action of an acquire of scope PKG or wider on core `c`: the log is applied and expired copies drop. -/
def State.acquireAction (s : State) (c : CoreId) : State :=
  let s := s.applyLog c false
  let t := ltime (s.core c).lt
  s.modDie c.die fun d => { d with copies := d.copies.filter fun x => t ≤ x.rts }
/-- R102 rule 4: a completed wait acts as FENCE.ACQ.PKG. -/
def State.acquirePkg (s : State) (c : CoreId) : State := (s.mergeClasses c).acquireAction c
/-- R102 rule 4: whether loads or atomics of core `c` earlier than an access of bundle `p` and number `n` cannot be performed yet (a queued drain, a lagging group or a
pending QGET is before them), or a QGET is such a load, so that a wait that ends as FENCE.ACQ.PKG goes on. -/
def State.readsStuck (s : State) (c : CoreId) (p : Option Nat) (n : Nat) : Bool :=
  let mine (r : Req) : Bool := r.op.reads && r.seq < n
  (s.core c).getBefore p n || ((s.core c).reqs.any mine) && ((s.settleSome c mine).core c).reqs.any mine
/-- The same of the executing move of the C slot. -/
def State.waitStuck (s : State) : Bool := s.readsStuck s.cur (some s.pipe.ib.idx) s.me.seq
/-- A wait on the sync word at `off` of core `h` completes for core `c`: it acts as FENCE.ACQ.PKG, so that the loads and atomics issued are performed, it
reads the word and acquires (R102 rule 4); the refused mark goes (R138). -/
def State.waitDone (s : State) (c h : CoreId) (off : Nat) : State :=
  let s := (s.unrefuse c).settleSome c fun r => r.op.reads
  (s.readWord c h off).acquirePkg c

/-! ## Pending waits (R124, R126, R275) -/

/-- A wait of core `c` completes with a value: its destination fills and the refused mark clears (R138). -/
def State.waitFills (s : State) (c : CoreId) (d : BitVec 10) (v : Val) : State := (s.complete c d v).unrefuse c
/-- R102 rule 4: a wait of core `c` that has taken its value completes as FENCE.ACQ.PKG, once the loads and atomics issued before it are performed. -/
def State.waitTakes (s : State) (c : CoreId) (w : Wait) (v : Val) : Option Wait × State :=
  let mine (r : Req) : Bool := r.op.reads && !earlierPlace w.pos w.seq r.pos r.seq
  let s := s.settleSome c mine
  if ((s.core c).reqs.any mine) || (s.core c).pipe.waits.any fun x => x.loads && x.seq < w.seq then (some { w with kind := .bound v true }, s) else (none, (s.waitFills c w.dsel v).acquirePkg c)
/-- R124, R126: a pending SW.WAIT on the word at `a` completes where GEN ≠ g, with GEN, or on OVF, with all ones and no acquire. -/
def State.trySw (s : State) (c : CoreId) (w : Wait) (a : W64) (g : W32) : Option Wait × State :=
  let (h, off) := syncAddr c a
  let x := s.syncGet h off
  if x.gen ≠ g.toNat then (s.readWord c h off).waitTakes c w (.w64 (BitVec.ofNat 64 x.gen))
  else if x.ovf then (none, (s.readWord c h off).waitFills c w.dsel (.w64 (BitVec.allOnes 64)))
  else (some w, s)
/-- What has become of a pending wait: it goes on as `r`, or is over. -/
def State.setWait (s : State) (c : CoreId) (w : Wait) (r : Option Wait) : State :=
  s.modPipeOf c fun p => { p with waits := match r with
    | some v => p.waits.map fun x => if x.seq = w.seq then v else x
    | none => p.waits.filter fun x => x.seq ≠ w.seq }
/-- Tries the pending waits of core `c` in their order. -/
def State.eachWait (s : State) (c : CoreId) (f : State → Wait → Option Wait × State) : State :=
  ((s.core c).pipe.waits.map (·.seq)).foldl (fun s n => match (s.core c).pipe.waits.find? fun w => w.seq = n with
    | some w => let (r, s) := f s w; s.setWait c w r
    | none => s) s
/-- R124, R126: the word at `off` of core `h` has changed: the waits on it, of the cores of its die, complete at this moment. -/
def State.wakeSync (s : State) (h : CoreId) (off : Nat) : State :=
  (List.range 32).foldl (fun s i =>
    let c := CoreId.mk' h.die i
    if (s.core c).pipe.waits.isEmpty then s
    else s.eachWait c fun s w => match w.kind with
      | .sw a g => if syncAddr c a = (h, off) then s.trySw c w a g else (some w, s)
      | _ => (some w, s)) s

/-! ## Arrivals (R123, R131, R299) -/

/-- R123: an arrival of weight `w` at a sync word by a path at time `lt`: its timestamp; the waits it completes end. -/
def State.syncArrive (s : State) (c : CoreId) (off w lt : Nat) : Nat × State :=
  let l := s.syncCopies c off
  let (ts, s) := l.foldl (fun (acc : Nat × State) x =>
    let t := acc.2.times (.sp x.1 x.2)
    let ts := max lt (t.rts + 1)
    (max acc.1 ts, ((acc.2.setTimes (.sp x.1 x.2) ⟨ts, ts⟩).syncPut x.1 x.2 ((acc.2.syncGet x.1 x.2).arrive w)))) (lt, s)
  (ts, l.foldl (fun s x => s.wakeSync x.1 x.2) s)
/-- R131: sets ERR of a word. -/
def State.syncErr (s : State) (c : CoreId) (off : Nat) : State :=
  s.syncPut c off { s.syncGet c off with flags := (s.syncGet c off).flags ||| 8 }

/-! ## Engine commands end (R130, R131) -/

/-- The queue of a copy slot. -/
def Core.kslot (k : Core) : KUnit → KSlot | .ka => k.ka | .kb => k.kb
/-- Replaces a copy slot. -/
def Core.setK (k : Core) (u : KUnit) (x : KSlot) : Core := match u with | .ka => { k with ka := x } | .kb => { k with kb := x }
/-- Operand slot `n`, modulo 32. -/
def Matrix.slot (m : Matrix) (n : Nat) : OSlot := m.slots[n % 32]'(Nat.mod_lt _ (by decide))
/-- Replaces operand slot `n`. -/
def Matrix.setSlot (m : Matrix) (n : Nat) (x : OSlot) : Matrix := { m with slots := m.slots.set (n % 32) x (Nat.mod_lt _ (by decide)) }
/-- Table 10.6: a LOADING slot is READY once a load with LAST has completed and none is pending. -/
def OSlot.settle (x : OSlot) : OSlot :=
  if x.st = .loading && x.done && x.loads.isEmpty && x.pend = 0 then { x with st := .ready, done := false } else x
/-- An accepted MOPLD.T leaves a slot: complete with LAST or not, or failed (R234 item 6). -/
def OSlot.completeT (x : OSlot) (last ok : Bool) : OSlot :=
  ({ x with pend := x.pend - 1, done := ok && (x.done || last) }).settle
/-- The slots a load acts on: an A pair or one slot. -/
def loadSlots (n : Nat) (pair : Bool) : List Nat := if pair then [n / 2 * 2, n / 2 * 2 + 1] else [n]
/-- The slots a load control word names (Table 10.7). -/
def ctrlSlots (ctrl : W32) : List Nat := loadSlots (ctrl.extractLsb' 0 5).toNat (!ctrl.getLsbD 5)
/-- R234: a MOPLD.T leaves its slots. -/
def Matrix.endLoadT (m : Matrix) (ctrl : W32) (ok : Bool) : Matrix :=
  (ctrlSlots ctrl).foldl (fun m n => m.setSlot n ((m.slot n).completeT (ctrl.getLsbD 10) ok)) m
/-- Whether core `c` still has command `id` in a queue. -/
def State.cmdQueued (s : State) (c : CoreId) (id : Nat) : Bool :=
  ((s.core c).ka.queue ++ (s.core c).kb.queue).any fun e => e.id = id
/-- R155, R158, R160: a command that ends leaves its collective: a failure is the instance's status. An instance is gone once every participant has brought a command to it
and none is left; until then the calls to the others stand. -/
def State.leaveColl (s : State) (c : CoreId) (id status : Nat) : State :=
  let mine (q : Coll) : Bool := q.job = (s.core c).task.job
  let l := s.link.colls.map fun q =>
    if q.status = 0 && mine q && (q.paired.any fun p => p.2.1 = c && p.2.2 = id) then { q with status := status } else q
  let l := l.filter fun q => !mine q || !(q.parts.all fun r => q.paired.any fun p => p.1 = r) || s.cmdQueued q.gov q.cmd || q.paired.any fun p => s.cmdQueued p.2.1 p.2.2
  { s with link := { s.link with colls := l } }
/-- Table 14.5: whether the completion word of a command of core `c` is poisoned. -/
def State.wordPoisoned (s : State) (c : CoreId) (e : EngCmd) : Bool :=
  e.sw ≠ 0 && poisonAt (s.core (syncAddr c e.sw).1).spPoi (syncAddr c e.sw).2 16
/-- The chunks of at most 1 KiB in which `n` bytes are counted (R131 item 1). -/
def chunks (n : Nat) : List Nat := List.replicate (n / 1024) 1024 ++ (if n % 1024 = 0 then [] else [n % 1024])
/-- The weights of the last arrivals of a command: N less the bytes counted, at once after a release, a failure or an XRESH, else in chunks (R131, R160 item 6). -/
def EngCmd.lastArrivals (e : EngCmd) (status : Nat) : List Nat :=
  let whole : Bool := match e.kind with | .xresh _ _ _ _ _ => true | _ => e.flg.getLsbD 1
  if whole || (status ≠ 0 && status ≠ 4) then [e.n - e.counted] else chunks (e.n - e.counted)
/-- R112: whether the banks of a command's completion word are ACTIVE. -/
def State.wordReady (s : State) (c : CoreId) (e : EngCmd) : Bool := e.sw = 0 || s.banksReady (syncAddr c e.sw).1 (syncAddr c e.sw).2 16
/-- Starts their exit. -/
def State.wakeWord (s : State) (c : CoreId) (e : EngCmd) : State := if e.sw = 0 then s else s.wakeBanks (syncAddr c e.sw).1 (syncAddr c e.sw).2 16
/-- R112: whether the banks that the end of a command accesses, those of its block and its completion word, are ACTIVE. -/
def State.endReady (s : State) (c : CoreId) (e : EngCmd) : Bool := s.wordReady c e && s.banksReady c (e.blk.toNat % 0x800000) 64
/-- Starts their exit. -/
def State.wakeEnd (s : State) (c : CoreId) (e : EngCmd) : State := (s.wakeWord c e).wakeBanks c (e.blk.toNat % 0x800000) 64
/-- R329 step 4: the commands that an unwinding of the current core to its innermost region ends. -/
def Core.unwinds (k : Core) : List EngCmd :=
  match k.pipe.trap.regions with
  | r :: _ => (k.ka.queue ++ k.kb.queue).filter fun e => r.mark ≤ e.id
  | [] => []
/-- R130, R131: an engine command of core `c` ends: STATUS is written, a failure sets ERR, the rest of N arrives. One that reads a poisoned completion word
ends with STATUS 4 and counts as consuming at its task (Table 14.5). The core's floor follows the path's time (R109). -/
def State.engineEnd (s : State) (c : CoreId) (u : KUnit) (e : EngCmd) (status : Nat) : State :=
  let spoilt := s.wordPoisoned c e
  let status := if status = 0 && spoilt then 4 else status
  let s := if spoilt then s.modPipeOf c fun p => { p with engPoison := some e.sw } else s
  let (lt, s) := s.storeAt c.die (s.core c).task.ctx e.lt (.sp c (e.blk.toNat % 0x800000 + 60)) (bytesOfNat 4 status) false
  let s := s.modCore c fun k => ({ k with engLt := max k.engLt lt, floor := max k.floor lt } : Core).setK u { k.kslot u with queue := (k.kslot u).queue.filter fun x => x.id ≠ e.id }
  let s := match e.kind with
    | .mopldT ctrl _ _ _ _ _ => s.modCore c fun k => { k with mx := k.mx.endLoadT ctrl (status = 0) }
    | _ => s
  let s := s.leaveColl c e.id status
  if e.sw = 0 then s
  else
    let (h, off) := syncAddr c e.sw
    let s := if status = 0 then s else s.syncErr h off
    let (ts, s) := (e.lastArrivals status).foldl (fun (a : Nat × State) w => a.2.syncArrive h off w a.1) (lt, s)
    s.modCore c fun k => { k with engLt := max k.engLt ts, floor := max k.floor ts }

/-! ## The dynamic stream (R27 to R32, R48, R295) -/

/-- The code base that dynamic bundle `i` is fetched from (R176 rule 2). -/
def Pipe.fetchBase (p : Pipe) (i : Nat) : W64 :=
  match p.stream.cbsw.find? fun x => i < x.1 with
  | some x => x.2
  | none => p.sys.codebase
/-- R26: the byte address of a parcel. -/
def parcelAddr (base : W64) (n : W32) : W64 := base + n.setWidth 64 * 3
/-- R27: reads a byte of code; a line that no cache holds is transferred (R75). -/
def State.fetchByte (s : State) (c : CoreId) (a : W64) : Except (BitVec 8) Byte × State :=
  if a.extractLsb' 56 8 ≠ 0 then (.error 0x06, s)
  else match s.translateVa c a.toNat .fetch 3 with
    | (.ok pa, s) =>
      let pa := (migTarget s.m.migs pa false).getD pa
      (.ok (Memory.read s.m.mem pa), s.cacheLine c.die pa)
    | (.error x, s) => (.error x, s)
/-- R26, R27: fetches parcel `n`; a failure gives its cause and its byte address. -/
def State.fetchParcel (s : State) (c : CoreId) (base : W64) (n : W32) : Except Err Parcel × State :=
  let a := parcelAddr base n
  match s.fetchByte c a with
  | (.error x, s) => (.error (x, a), s)
  | (.ok b0, s) =>
    match s.fetchByte c (a + 1) with
    | (.error x, s) => (.error (x, a), s)
    | (.ok b1, s) =>
      match s.fetchByte c (a + 2) with
      | (.error x, s) => (.error (x, a), s)
      | (.ok b2, s) => (.ok (parcelOfBytes b0 b1 b2), s)
/-- R27: fetches `k` parcels from parcel `n` on. -/
def State.fetchParcels (s : State) (c : CoreId) (base : W64) : Nat → W32 → Except Err (List Parcel) × State
  | 0, _ => (.ok [], s)
  | k + 1, n =>
    match s.fetchParcel c base n with
    | (.error e, s) => (.error e, s)
    | (.ok p, s) =>
      match s.fetchParcels c base k (n + 1) with
      | (.error e, s) => (.error e, s)
      | (.ok ps, s) => (.ok (p :: ps), s)
/-- R28 to R30, R48, Table 14.1: the bundle at a parcel address, or a trap marker in its place; a marker keeps the Q mark of a header that was read
(R323). -/
def State.fetchBundle (s : State) (c : CoreId) (base : W64) (pc : W32) : (Disp × Nat) × State :=
  let mark (next : W32) (q : Bool) (cause : BitVec 8) (slot : Nat) (a : W64) : Disp := ⟨pc, next, 0xF, q, [], none, some (cause, slot, a), false⟩
  match s.fetchParcel c base pc with
  | (.error (x, a), s) => ((mark (pc + 1) false x 7 a, 0), s)
  | (.ok hp, s) =>
    let h := Header.ofParcel hp
    let next := pc + BitVec.ofNat 32 h.len
    if h.bad then ((mark next h.q 0x01 7 (parcelAddr base pc), 0), s)
    else match s.fetchParcels c base (h.len - 1) (pc + 1) with
      | (.error (x, a), s) => ((mark next h.q x 7 a, 0), s)
      | (.ok ps, s) =>
        let (mv, lit) := splitBundle h ps
        match firstBad (h.has 7) mv 0 with
        | some (i, _) =>
          let slot := (mv[i]?.map fun m => m.1.index).getD 7
          ((mark next h.q 0x02 slot (parcelAddr base (pc + 1 + BitVec.ofNat 32 i)), 0), s)
        | none => ((⟨pc, next, h.align, h.q, mv, lit, none, false⟩, if h.pres = 0 then h.run.toNat else 0), s)
/-- Dispatches the next bundle of core `c`'s stream (R31, R295). -/
def State.dispatchOne (s : State) (c : CoreId) : State :=
  let p := (s.core c).pipe
  let st := p.stream
  let i := st.base + st.win.length
  let st := match st.redirs.find? fun r => r.1 = i with
    | some r => { st with fpc := r.2, run := 0, redirs := st.redirs.filter fun x => x.1 ≠ i }
    | none => st
  if 0 < st.run then
    let d : Disp := ⟨st.runpc, st.fpc, 0, false, [], none, none, true⟩
    s.modPipeOf c fun p => { p with stream := { st with win := st.win ++ [d], run := st.run - 1 } }
  else
    let ((d, run), s) := s.fetchBundle c (p.fetchBase i) st.fpc
    s.modPipeOf c fun p => { p with stream := { st with win := st.win ++ [d], fpc := d.next, run := run, runpc := d.pc } }
/-- Dispatches until bundle `i` is in the window, at most `fuel` bundles. -/
def State.dispatchTo (s : State) (c : CoreId) (i : Nat) : Nat → State
  | 0 => s
  | fuel + 1 =>
    let st := (s.core c).pipe.stream
    if i < st.base + st.win.length then s else (s.dispatchOne c).dispatchTo c i fuel
/-- Drops the bundles that every group has issued. -/
def Stream.prune (st : Stream) : Stream :=
  let low := st.gpos.foldl min st.gpos[0]
  { st with win := st.win.drop (low - st.base), base := max st.base (min low (st.base + st.win.length)) }
/-- R320 item 5: a stream as a late-write buffer holds it, no bundle dispatched: the address of the bundle of the group that is behind (its place in a RUN with it), and
the taken branches that lie behind that bundle, each at the index of its target. -/
def Stream.saved (st : Stream) : Stream :=
  let low := st.gpos.foldl min st.gpos[0]
  let l := st.win.drop (low - st.base)
  let bends := ((l.zip (l.drop 1)).zip (List.range l.length)).filterMap fun x =>
    if x.1.2.pc ≠ x.1.1.next && !x.1.2.cont then some (low + x.2 + 1, x.1.2.pc) else none
  let st' : Stream := { st with win := [], base := max low st.base, redirs := bends ++ st.redirs }
  match l with
  | [] => st'
  | d :: _ =>
    let n := (l.takeWhile fun e => e.cont).length
    if d.cont then { st' with fpc := d.next, runpc := d.pc, run := n + (if n = l.length then st.run else 0) } else { st' with fpc := d.pc, run := 0 }
/-- The byte address of the parcel of `slot` in the executing bundle (R48). -/
def State.moveAddr (s : State) (slot : Slot) : W64 :=
  let p := s.pipe
  let k := match p.stream.at p.ib.idx with
    | some d => (d.moves.takeWhile fun m => m.1 != slot).length
    | none => 0
  parcelAddr (p.fetchBase p.ib.idx) (p.ib.pc + 1 + BitVec.ofNat 32 k)

/-! ## Killing a context (R331, R332) -/

/-- Table 14.8: the kill report. -/
def State.killReport (s : State) (x : Ctx) (reason : Nat) (cause : BitVec 8) (who : CoreId) (pc : W32) (addr code : W64) : List Byte :=
  let k := s.core who
  let t := k.pipe.trap
  let cw (b : TrapBank) : Nat := b.cause.toNat + 256 * b.group.toNat + 2048 * b.slot.toNat
  bytesOfNat 2 x.id.toNat ++ bytesOfNat 2 (x.kgen + 1).toNat ++ bytesOfNat 1 reason ++ bytesOfNat 1 cause.toNat
  ++ bytesOfNat 1 who.die.val ++ bytesOfNat 1 who.num ++ bytesOfNat 4 k.task.taskId.toNat ++ bytesOfNat 4 pc.toNat
  ++ bytesOfNat 8 addr.toNat
  ++ bytesOfNat 8 t.bank1.tpc.toNat ++ bytesOfNat 8 (cw t.bank1) ++ bytesOfNat 8 t.bank1.addr.toNat
  ++ bytesOfNat 8 t.bank2.tpc.toNat ++ bytesOfNat 8 (cw t.bank2) ++ bytesOfNat 8 t.bank2.addr.toNat
  ++ bytesOfNat 8 code.toNat ++ bytesOfNat 6 s.t.secs ++ bytesOfNat 2 0 ++ bytesOfNat 4 s.phcns ++ bytesOfNat 36 0
/-- R306 item 2: the pipeline of a task that has ended: nothing of it goes on. Its registers are discarded: no task reads them before a task's start gives all of
them values (R163), and they stand here as they stood at END (R352, R357). -/
def Pipe.halt (p : Pipe) : Pipe :=
  { Pipe.start 0 with regs := p.regs, sys := p.sys, sys2 := p.sys2, trap := { p.trap with tl := 0, buf1 := none, buf2 := none, regions := [] }, cyc := p.cyc }
/-- R331 step 2: a core of a killed context: its state is discarded; its scratchpad is not erased. -/
def Core.kill (k : Core) : Core :=
  { k with pipe := Pipe.start 0, ka := KSlot.start, kb := KSlot.start, mx := Matrix.start, reqs := [], deque := [], tracker := [],
           task := { k.task with st := .killed, card := none, refused := false } }
/-- R331 steps 1 to 3: the kill generation advances, the cores stop, what is not performed is dropped; every live die owes
its drain acknowledgement. -/
def State.killContext (s : State) (id : BitVec 16) (reason : Nat) (cause : BitVec 8) (who : CoreId) (pc : W32) (addr code : W64) : State :=
  match s.ctx id with
  | none => s
  | some x =>
    if x.killed.isSome then s
    else
      let rep := s.killReport x reason cause who pc addr code
      let s := s.modCtx id fun x => { x with kgen := x.kgen + 1, killed := some rep }
      let cores := s.cores.map fun k => if k.task.ctx == id && k.task.st != .none then k.kill else k
      let dies := Vector.ofFn fun n : Fin 8 => if s.dieLive n then { s.dies[n] with owed := id :: s.dies[n].owed } else s.dies[n]
      let held := s.m.held.filter fun h => (s.core h.core).task.ctx != id
      let saved := s.fw.saved.map fun v => if v.core.task.ctx == id then { v with core := v.core.kill } else v
      let net := s.link.net.filter fun p => p.ctx != id
      let colls := s.link.colls.filter fun c => c.ctx != id
      { s with cores := cores, dies := dies, fw := { s.fw with saved := saved }, m := { s.m with held := held },
               link := { s.link with net := net, colls := colls } }

/-! ## Long operations complete (R210) -/

/-- R321: of two units whose faults wait for the same boundary, the one of the lower slot. -/
def lowerUnit (a : Option Unit7) (b : Unit7) : Unit7 := match a with | some u => if u.slot.index ≤ b.slot.index then u else b | none => b
/-- R210: a long operation completes. -/
def State.completeLong (s : State) (c : CoreId) (l : Long) : State :=
  match l.fin with
  | .value =>
    let s := (s.complete c l.dsel l.val).addFlags c l.flags
    s.modPipeOf c fun p => if p.sys.fve && l.flags &&& fNV != 0 then { p with fpDue := some (lowerUnit p.fpDue l.unit) } else p
  | .window n =>
    (s.complete c l.dsel l.val).modPipeOf c fun p =>
      { p with sys := { p.sys with pwstat := p.sys.pwstat ||| 0x100 ||| (1 <<< n.toNat) } }
  | .test h off g _ _ =>
    let b := (s.syncGet h off).gen != g.toNat
    let s := s.complete c l.dsel (.w64 (boolWord 64 b))
    if b then s.waitDone c h off else s.readWord c h off
/-- Whether a long operation of core `c` whose time is over can complete: a BART that is to answer 1 acts as FENCE.ACQ.PKG (R102 rule 4). -/
def State.mayComplete (s : State) (c : CoreId) (l : Long) : Bool :=
  match l.fin with
  | .test h off g p n => s.phase != .dusk && ((s.syncGet h off).gen == g.toNat || !s.readsStuck c p n)
  | _ => true

/-! ## Reading and writing through addresses -/

/-- Reads `n` bytes at address `a` as core `c` sees it, by a path at time `lt`: bytes, poison, the new time; or the cause. -/
def State.readVa (s : State) (c : CoreId) (lt : Nat) (a : W64) (n : Nat) : Nat → Except Err (List Byte × Bool × Nat) × State
  | 0 => (.ok ([], false, lt), s)
  | fuel + 1 =>
    if n = 0 then (.ok ([], false, lt), s)
    else
      let k := min n (64 - a.toNat % 64)
      match s.locate c a .read with
      | (.error e, s) => (.error e, s)
      | (.ok l, s) =>
        let ((bs, bad, lt), s) := s.loadAt c.die lt ((s.filter l false).getD l) k
        match s.readVa c lt (a + BitVec.ofNat 64 k) (n - k) fuel with
        | (.ok (r, bad', lt), s) => (.ok (bs ++ r, bad || bad', lt), s)
        | (.error e, s) => (.error e, s)
/-- R79: the location a write reaches; a switch that holds it completes first. -/
def State.forWrite (s : State) (l : Loc) : Loc × State :=
  match s.filter l true with
  | some l => (l, s)
  | none =>
    let s := s.finishSwitches
    ((s.filter l true).getD l, s)
/-- Writes bytes at address `a` as core `c` sees it, for its context, by a path at time `lt`: the new time; or the cause. -/
def State.writeVa (s : State) (c : CoreId) (lt : Nat) (a : W64) (bs : List Byte) (bad : Bool) : Nat → Except Err Nat × State
  | 0 => (.ok lt, s)
  | fuel + 1 =>
    if bs.isEmpty then (.ok lt, s)
    else
      let k := min bs.length (64 - a.toNat % 64)
      match s.locate c a .write with
      | (.error e, s) => (.error e, s)
      | (.ok l, s) =>
        let (l, s) := s.forWrite l
        let (lt, s) := s.storeAt c.die (s.core c).task.ctx lt l (bs.take k) bad
        s.writeVa c lt (a + BitVec.ofNat 64 k) (bs.drop k) bad fuel

/-! ## Taking an exception (R317 to R321) -/

/-- R326: a pending SVC of core `c` is performed and writes its destination. -/
def State.completeSvc (s : State) (c : CoreId) : State :=
  match (s.core c).pipe.svc with
  | none => s
  | some v =>
    let (w, s) := s.service c v
    (s.complete c v.dsel (.w64 w)).modPipeOf c fun p => { p with svc := none }
/-- Inserts a long operation before those with more cycles left; one of the same time goes behind (R210). -/
def insertLong (x : Long) : List Long → List Long
  | [] => [x]
  | y :: r => if x.left < y.left then x :: y :: r else y :: insertLong x r
/-- R319 step 2: loads, returning atomics, long operations and a pending SVC complete, long operations in the order of their times; stores are not waited
for. -/
def State.drainLongs (s : State) (c : CoreId) : State :=
  let s := s.settleSome c fun r => r.op.returns
  let s := ((s.core c).pipe.longs.foldl (fun l x => insertLong x l) []).foldl (fun s l => s.completeLong c l) s
  (s.modPipeOf c fun p => { p with longs := [] }).completeSvc c
/-- A signed position as TSNAP codes it (Table 14.2). -/
def offset6 (pos tp : Nat) : BitVec 6 := BitVec.ofInt 6 ((pos : Int) - tp)
/-- R317: the handler's parcel address of level `n`. -/
def handlerAddr (thbase : W32) (n : Nat) : W32 := thbase + BitVec.ofNat 32 (16 * (n - 1))
/-- R320: the late-write buffer of a pipeline at trap point `tp` with TPC `pc`. -/
def Pipe.lateBuf (p : Pipe) (tp : Nat) (pc : W32) : LateBuf :=
  { shorts := p.shorts, units := p.units, shadows := p.shadows, stream := p.stream.saved,
    waits := p.waits, lock := p.sys.lock, crgnd := p.trap.regions.length, tpc := pc, tp := tp, wrote := [],
    oldF := p.regs.f, oldRm := p.sys.rmode }
/-- R319 steps 6 to 8: the bank and buffer of level `n` are written, the level and LOCK change, the handler starts. -/
def Pipe.enter (p : Pipe) (n : Nat) (tp : Nat) (pc : W32) (slot group : Nat) (cause : BitVec 8) (addr : W64) : Pipe :=
  let b := p.lateBuf tp pc
  let g := p.stream.gpos
  let snap : TSnap := ⟨p.sys.lock, true, false, BitVec.ofNat 4 (b.shadows.countP fun x => tp < x.close),
    BitVec.ofNat 5 b.shorts.length, offset6 g[3] tp, offset6 g[2] tp, offset6 g[1] tp, offset6 g[0] tp⟩
  let bank : TrapBank := ⟨pc, BitVec.ofNat 3 slot, BitVec.ofNat 3 group, cause, addr, snap⟩
  let p := p.closeShadows
  let trap := if n = 1 then { p.trap with tl := 1, bank1 := bank, buf1 := some b }
              else { p.trap with tl := 2, bank2 := bank, buf2 := some b }
  { p with trap := trap, sys := { p.sys with lock := false }, shorts := [], waits := [], wq := none, undo := none,
           cguard := none, stall := 0, served := Vector.replicate 4 0, stream := Stream.startAt (handlerAddr p.sys.thbase n) }
/-- Group `g` has issued the executing bundle. -/
def Pipe.pass (p : Pipe) (g : Nat) : Pipe :=
  { p with stream := { p.stream with gpos := p.stream.gpos.setIfInBounds g (p.ib.idx + 1) } }
/-- The trap's pipeline before entry: an unissued bundle's landings and writes are undone; an issued one's stand, as do those of the bundles that other groups
have issued in the cycle. -/
def Pipe.atTrap (p : Pipe) (issued : Bool) : Pipe :=
  let p := { p with ib := { p.ib with mute := false } }
  match issued, p.undo with
  | false, some u => ({ p with regs := u.regs, units := u.units, shorts := u.shorts, sys := { p.sys with fpstat := u.fpstat }, wq := some u.wq, undo := none } : Pipe).commit
  | _, _ => { p.commit with undo := none }
/-- R317 to R319, R321, R323: takes a trap on the current core at the executing bundle: `slot` and `group` as TCAUSE has them,
`issued` as Table 14.3 marks the cause. A fault at level 2, or one that a completion raises while level 2 is entered, kills the context with
reason 1, one at an unmarked trap point in QMODE with reason 6. A completion that is invalid while level 1 is entered raises its trap in the handler. -/
def State.takeTrap (s : State) (slot group : Nat) (cause : BitVec 8) (addr : W64) (issued : Bool) : State :=
  let c := s.cur
  let s := s.modPipe fun p => p.atTrap issued
  let s := if issued then s.modPipe fun p => p.pass group else s
  let tp := s.pipe.ib.idx + (if issued then 1 else 0)
  let s := if issued then s.dispatchTo c tp 24 else s
  let (pc, q) := match issued, s.pipe.stream.at tp with
    | true, some d => (d.pc, d.q)
    | _, _ => (s.pipe.ib.pc, s.pipe.ib.q)
  let tl := s.pipe.trap.tl.toNat
  if 2 ≤ tl then (s.killContext s.me.task.ctx 1 cause c pc addr 0).setDisp (.trapped cause)
  else if s.pipe.sys.cls = 2 && !q then (s.killContext s.me.task.ctx 6 cause c pc addr 0).setDisp (.trapped cause)
  else
    let s := ((s.modMe fun k => k.unplace.recordWaits).modPipe fun p => { p with fpDue := none }).drainLongs c
    match (if tl = 1 then s.pipe.fpDue else none) with
    | some u => (s.killContext s.me.task.ctx 1 0x11 c pc (BitVec.ofNat 64 u.index) 0).setDisp (.trapped cause)
    | none => (s.modPipe fun p => p.enter (tl + 1) tp pc slot group cause addr).setDisp (if issued then .trappedIssued cause else .trapped cause)
/-- A trap of a move of `slot`, its bundle not issued. -/
def State.trapAt (s : State) (slot : Slot) (cause : BitVec 8) (addr : W64) : State :=
  s.takeTrap slot.index slot.group.index.val cause addr false
/-- A trap of a move of `slot`, its bundle issued (causes 0x04, 0x0E, 0x10): it is taken after the bundle's other moves. -/
def State.trapIssued (s : State) (slot : Slot) (cause : BitVec 8) (addr : W64) : State :=
  if s.pipe.ib.mute then s.setDisp (.due slot cause addr) else s.takeTrap slot.index slot.group.index.val cause addr true

/-! ## Poison consumption and unwinding (R328, R329) -/

/-- The region depth recorded at entry to the current level (R320). -/
def TrapState.entryDepth (t : TrapState) : Nat :=
  match t.tl.toNat with
  | 0 => 0
  | 1 => (t.buf1.map (·.crgnd)).getD 0
  | _ => (t.buf2.map (·.crgnd)).getD 0
/-- A poisoned zero in the register of a selector that a cancelled operation emptied. -/
def Pipe.poisonZero (p : Pipe) (f : BitVec 10) : Pipe :=
  if selS f || selV f || selO f then { p with regs := p.regs.put f (.sc ⟨0, true⟩) } else p
/-- R329: unwinds the current core to its innermost region `r`, `rest` the regions outside it. -/
def State.unwind (s : State) (addr : W64) (r : Region) (rest : List Region) : State :=
  let c := s.cur
  let depth := s.pipe.trap.regions.length
  let s := (s.modMe fun k => k.unplace.recordWaits).modPipe fun p => p.atTrap false
  let dsels := (s.me.reqs.filter fun q => match q.op with | .load _ => true | .atomic _ ret => ret | .store => false).map (·.dsel)
  let s := s.settle c
  let p := s.pipe
  let all := dsels ++ p.longs.map (·.dsel) ++ p.waits.map (·.dsel) ++ (p.svc.map (·.dsel)).toList
  let s := s.modPipe fun p => (all.foldl Pipe.poisonZero { p with shorts := [], longs := [], waits := [], svc := none }).closeShadows
  let kill (u : KUnit) (s : State) : State :=
    (((s.me.kslot u).queue.filter fun e => r.mark ≤ e.id)).foldl (fun s e => s.engineEnd c u e 5) s
  let engc := ((s.me.ka.queue ++ s.me.kb.queue).any fun e => r.mark ≤ e.id)
  let s := kill .kb (kill .ka s)
  let matc := !s.me.mx.queue.isEmpty
  let s := s.modMx fun m => { m with queue := [], pendMeta := none, bank0 := { m.bank0 with nonrep := true }, bank1 := { m.bank1 with nonrep := true } }
  let crgnc : BitVec 13 := BitVec.ofNat 13 (0x08 + 256 * depth + (if engc then 2048 else 0) + (if matc then 4096 else 0))
  (s.modPipe fun p => { p with
    trap := { p.trap with regions := rest, crgnc := crgnc, crgna := addr }
    stall := 0, served := Vector.replicate 4 0
    stream := Stream.startAt r.handler, fpDue := none, cguard := none }).setDisp .unwound
/-- R328, R329: a use of `slot` consumes poison that `addr` carried. -/
def State.consume (s : State) (slot : Slot) (addr : W64) : State :=
  let t := s.pipe.trap
  if t.regions.length ≤ t.entryDepth then s.trapAt slot 0x08 addr
  else match t.regions with
    | r :: rest => s.unwind addr r rest
    | [] => s.trapAt slot 0x08 addr

/-! ## The return from a trap (R322) -/

/-- The shadows of the level returned to, by R191 rule 5: those of registers the handler wrote are dropped, as are the handler's
own, whose values stand; `shift` moves them to a fresh stream at trap point `tp`. -/
def LateBuf.restoredShadows (b : LateBuf) (fresh : Option Nat) : List Shadow :=
  (b.shadows.filter fun x => !b.wrote.contains x.reg).map fun x => match fresh with
    | some i => { x with close := i + (x.close - b.tp) }
    | none => x
/-- The value a shadowed register had before the shadows of a buffer. -/
def LateBuf.old (b : LateBuf) : ShReg → BitVec 24
  | .f n => b.oldF[n.toNat]'(by omega)
  | .rm => b.oldRm.pack
/-- R322: level `n`'s snapshot is no longer valid and the level below is in force. -/
def TrapState.leave (t : TrapState) (n : Nat) : TrapState :=
  if n = 1 then { t with tl := 0, buf1 := none, bank1 := { t.bank1 with snap := { t.bank1.snap with valid := false } } }
  else { t with tl := 1, buf2 := none, bank2 := { t.bank2 with snap := { t.bank2.snap with valid := false } } }
/-- R322: restores a buffer into the pipeline, beside the handler's own pending waits, which stand before the stream returned to; `pc` is TPCn now and `drop` TSNAPn.DROP. A register with a restored shadow
has the value before it again (R191 rule 5), and one that a recorded wait names is empty again. -/
def Pipe.leave (p : Pipe) (b : LateBuf) (n : Nat) (pc : W32) (drop : Bool) : Pipe :=
  let same : Bool := pc = b.tpc
  let shadows := b.restoredShadows (if same then none else some 32)
  let p := p.closeShadows
  let p := shadows.foldl (fun p x => p.setShadowed x.reg (b.old x.reg)) p
  { p with regs := b.waits.foldl (fun r w => r.drain w.dsel) p.regs, units := b.units, shorts := if drop then [] else b.shorts, shadows := shadows, waits := p.waits.map Wait.past, cguard := none,
           stall := 0, served := Vector.replicate 4 0, stream := if same then b.stream else Stream.startAt pc, trap := p.trap.leave n,
           sys := { p.sys with lock := b.lock } }

/-! ## Issue of a move (R35, R37, R324, R253) -/

/-- A value whose use consumes poison goes on only if it carries none (Table 14.5, first row): `sel` the selector that carried
it. -/
def State.needClean (s : State) (slot : Slot) (bad : Bool) (sel : W64) (act : State → State) : State :=
  if bad then s.consume slot sel else act s
/-- What stands in the way of any move of the M slot: a pending metadata cause (R242), a handler (R324), a group led by another
core (R253). -/
def State.matrixGate (s : State) (mstat : Bool) (act : State → State) : State :=
  let m := s.me.mx
  match m.pendMeta with
  | some (x, a) =>
    let s := s.modMx fun m => { m with pendMeta := none }
    if x = 0x08 then s.consume .m a else s.trapAt .m x a
  | none =>
    if s.pipe.trap.tl ≠ 0 && !mstat then s.trapAt .m 0x02 (s.moveAddr .m)
    else match m.leader with
      | some l => if l ≠ s.cur then s.trapAt .m 0x0C (BitVec.ofNat 64 l.num) else act s
      | none => act s
/-- The guard of a move of a slot: a C move whose bundle has waited since its groups reached it keeps the guard read then (R35). -/
def Pipe.guardOf (p : Pipe) (slot : Slot) (g : BitVec 4) : Bool :=
  match slot, p.cguard with
  | .c, some (i, b) => if i = p.ib.idx then b else p.regs.guard g
  | _, _ => p.regs.guard g
/-- R35, R37: issues a move of a slot: guard, source, then its action on the value. -/
def State.issueMove (s : State) (slot : Slot) (g : BitVec 4) (e : Bool) (f : BitVec 10) (mstat : Bool) (act : Val → State → State) : State :=
  if g = 8 then s.trapAt slot 0x02 (s.moveAddr slot)
  else if !s.pipe.guardOf slot g then s.issued
  else
    let go (s : State) : State :=
      match s.source s.cur e f with
      | .ok v => act v s
      | .wait => s.hold 1
      | .empty => s.trapAt slot 0x03 (f.setWidth 64)
      | .illegal => s.trapAt slot 0x02 (s.moveAddr slot)
    if slot = .m then s.matrixGate mstat go else go s
/-- R65, R71, R73, R180: the location of an aligned access of `n` bytes at `a`: the form, the alignment, the translation, in
this order; a failure raises its cause with TADDR = `a`. -/
def State.locating (s : State) (slot : Slot) (a : W64) (n : Nat) (acc : Access) (act : Loc → State → State) : State :=
  match s.form s.cur a with
  | .error e => s.trapAt slot e.1 e.2
  | .ok _ =>
    if a.toNat % n ≠ 0 then s.trapAt slot 0x07 a
    else match s.locate s.cur a acc with
      | (.ok l, s) => act l s
      | (.error e, s) => s.trapAt slot e.1 e.2
/-- R41: the action goes on only if D names a register. A D latch that a parity error has poisoned is consumed here, with what it holds as the address (R334,
DESIGN CHOICE log 48). -/
def State.needD (s : State) (slot : Slot) (act : BitVec 10 → State → State) : State :=
  let d := s.pipe.units.d slot
  if s.pipe.units.bad.getLsbD slot.index then s.consume slot (d.setWidth 64)
  else if dValid d then act d s else s.trapAt slot 0x02 (s.moveAddr slot)
/-- Whether every other group has reached the executing bundle (R102 rule 1, R300). -/
def State.othersReached (s : State) : Bool := s.pipe.stream.gpos.all fun p => s.pipe.ib.idx ≤ p

end Sys2Proof.Machine
end

