-- ==== Sys2Proof/Machine/Issue.lean ====
section
/-! DEFINITION. The issue of bundles: slip, alignment and steering (R33, R170, R171), landings at the bundle's start (R168,
R212), the bundle's moves and their order (R42, R43), the trap marker (R48). Parametric in how one move runs. -/
namespace Sys2Proof

/-- The group number of a slot. -/
def Slot.gix (x : Slot) : Nat := x.group.index.val

end Sys2Proof

namespace Sys2Proof.Machine

/-- Runs a meaning after another. -/
def Out.bind (o : Out) (f : State → Out) : Out :=
  match o with
  | .next s => f s
  | .fault e => .fault e
  | .refused r => .refused r
/-- How one move of a bundle runs: its slot, its parcel, the state. -/
abbrev RunMove := Slot → Parcel → State → Out

/-- The TO field of a parcel (Table 2.3). -/
def toOf (p : Parcel) : Nat := (p.extractLsb' 11 9).toNat
/-- Whether a bundle holds a C move to one of the ports. -/
def Disp.hasC (d : Disp) (ports : List Nat) : Bool := d.moves.any fun m => m.1 == .c && ports.contains (toOf m.2)
/-- R170 rule 2: a steering bundle. -/
def Disp.steering (d : Disp) : Bool := d.hasC [0x100, 0x101, 0x102, 0x103, 0x104, 0x10A, 0x10B, 0x141, 0x13B]
/-- Operations whose bundle acts as if its ALIGN named every group: FENCE, PBAR, BARW, JOIN, END, TICKW, TRET, ABORT, SRWR. -/
def Disp.alignsAll (d : Disp) : Bool :=
  d.hasC [0x120, 0x121, 0x122, 0x123, 0x124, 0x125, 0x126, 0x127, 0x128, 0x129, 0x12A, 0x12B, 0x12D, 0x132, 0x139, 0x13B,
    0x13C, 0x141, 0x145, 0x149]
/-- Whether the bundle writes a shadowed register through SETF or SETRM. -/
def Disp.opensShadow (d : Disp) : Bool := d.hasC [0x110, 0x111, 0x112, 0x113, 0x114, 0x115, 0x116, 0x117, 0x118]
/-- TSTAT.QMODE: the task is of class 2 (Table 7.6). -/
def SysRegs.qmode (r : SysRegs) : Bool := r.cls == 2
/-- The groups a bundle aligns (R33, R101, R323). -/
def Pipe.alignOf (p : Pipe) (d : Disp) : BitVec 4 :=
  if d.alignsAll || d.marker.isSome || (d.q && p.sys.qmode) then 0xF
  else if d.hasC [0x12C] then d.align ||| 9 else d.align
/-- The next bundle of a group. -/
def Pipe.pos (p : Pipe) (g : Nat) : Nat := p.stream.gpos.getD g 0
/-- R33, R44, R101, R171: the groups that issue bundle `d` together with group `g` (DEDUCED log 9). -/
def Pipe.together (p : Pipe) (g : Nat) (d : Disp) : List Nat :=
  let a := p.alignOf d
  if p.sys.lock then [0, 1, 2, 3]
  else if a.getLsbD g then [0, 1, 2, 3].filter fun h => a.getLsbD h
  else [g]
/-- R170 rule 2: no steering bundle that the control group has still to issue stands before the next bundle of group `g`. -/
def Pipe.steered (p : Pipe) (g : Nat) : Bool :=
  let i := p.pos g
  (List.range (i - p.pos 0)).all fun k => match p.stream.at (p.pos 0 + k) with
    | some d => !(d.steering && p.pos 0 + k + 2 < i)
    | none => true
/-- R170, R191: whether group `g` may come to its next bundle: slip, steering. -/
def Pipe.mayReach (p : Pipe) (g : Nat) : Bool :=
  let i := p.pos g
  ([0, 1, 2, 3].all fun h => h = g || i < p.pos h + 16) && p.steered g
  && (List.range (i - p.pos 0)).all fun k => match p.stream.at (p.pos 0 + k) with
    | some d => !(d.opensShadow && p.pos 0 + k + 5 ≤ i)
    | none => true
/-- R97, R113 row 4, R302: whether a move of group `g` waits at its issue for its place in the order of class 0: those of the copy slots, of MB.D, and the
block reads of the C slot, which are performed there. The accesses of the S slot and the drains issue, and wait afterwards. -/
def waitsAtIssue (m : Slot × Parcel) : Bool :=
  class0Move m && match m.1 with | .s => false | .m => toOf m.2 = 0x104 | _ => true
/-- R97, R113 row 4: the class sequence numbers: such a move of group `g` in bundle `d` issues after the earlier class-0 moves of the groups that do not
issue with it; within a bundle a lower slot is earlier (DEDUCED log 58). -/
def Pipe.inClassOrder (p : Pipe) (g : Nat) (d : Disp) : Bool :=
  let i := p.pos g
  !(d.moves.any fun m => m.1.gix = g && waitsAtIssue m)
  || [0, 2, 3].all fun h => (p.together g d).contains h
      || (List.range (i + 1 - p.pos h)).all fun k => (k + p.pos h = i && g ≤ h) || !p.owesClass0 h (k + p.pos h)
/-- R33, R97: whether the alignment of bundle `d` lets group `g` issue it, its companions stand at it too, and the class order lets them. -/
def Pipe.mayIssue (p : Pipe) (g : Nat) (d : Disp) : Bool :=
  let i := p.pos g
  let a := p.alignOf d
  ((!a.getLsbD g) || [0, 1, 2, 3].all fun h => !a.getLsbD h || i ≤ p.pos h)
  && (p.together g d).all fun h => p.pos h = i && p.inClassOrder h d

/-! ## Landings -/

/-- Counts one bundle of the groups: results at 1 come due at 0. -/
def Pipe.countDown (p : Pipe) (gs : List Nat) : Pipe :=
  { p with shorts := p.shorts.map fun x => if gs.contains x.unit.slot.gix then { x with left := x.left - 1 } else x }
/-- R168: the oldest due short result of a unit lands. -/
def Pipe.landUnit (p : Pipe) (u : Unit7) : Pipe :=
  match p.shorts.find? fun x => x.unit = u && x.left = 0 with
  | some x => ({ p with shorts := p.shorts.erase x }).landShort x
  | none => p
/-- The units in ascending order of their slots. -/
def unitOrder : List Unit7 := [.c, .s, .va, .vb, .m, .ka, .kb]
/-- R43: the due result of some of the groups that lands next: of the lowest slot, its oldest. -/
def Pipe.dueShort (p : Pipe) (gs : List Nat) : Option Short :=
  unitOrder.findSome? fun u => p.shorts.find? fun x => x.unit = u && gs.contains x.unit.slot.gix && x.left = 0
/-- Whether a landing writes a poisoned value to p, which lane 0 reaches, or to m (Tables 2.8, 14.5, last row) (DEDUCED log 52). -/
def Short.consumes (x : Short) : Bool :=
  match x.dsel with | some f => (selP f && x.val.poiS) || (selM f && x.val.poiAny) | none => false
/-- What the landings at a bundle's start meet. -/
inductive Landing
  /-- all landed -/
  | done
  /-- a result landed invalid with FVE = 1 (R212) -/
  | invalid (u : Unit7)
  /-- a result's D write consumes poison -/
  | poison (u : Unit7) (f : BitVec 10)
deriving DecidableEq, Repr
/-- The slot of a landing's fault. -/
def Landing.slot : Landing → Option Slot | .done => none | .invalid u => some u.slot | .poison u _ => some u.slot
/-- A landing's fault is taken. -/
def Landing.take (l : Landing) (s : State) : State :=
  match l with
  | .poison u f => s.consume u.slot (f.setWidth 64)
  | .invalid u => s.trapAt u.slot 0x11 (BitVec.ofNat 64 u.index)
  | .done => s
/-- Of two faults of one bundle's landings, the one met first: results land in ascending slot order (R321). -/
def Landing.first : Landing → Landing → Landing | .done, l => l | l, _ => l
/-- Lands every due result of the groups in ascending slot order, at most `fuel`, with the fault of the lowest slot; an invalid result under FVE that is
to trap stands in the snapshot too; one whose D write consumes poison does not land. -/
def Pipe.landAll (p : Pipe) (gs : List Nat) (l : Landing) : Nat → Pipe × Landing
  | 0 => (p, l)
  | fuel + 1 =>
    match p.dueShort gs with
    | none => (p, l)
    | some x =>
      if x.consumes then ({ p with shorts := p.shorts.erase x } : Pipe).landAll gs (l.first (.poison x.unit (x.dsel.getD 0))) fuel
      else
        let p' := p.landUnit x.unit
        if p.sys.fve && x.flags &&& fNV != 0 && l == .done then
          let undo := p.undo.map fun (u : Undo) =>
            let q := ({ p with regs := u.regs, units := u.units, sys := { p.sys with fpstat := u.fpstat } }).landShort x
            ({ u with regs := q.regs, units := q.units, fpstat := q.sys.fpstat,
                      shorts := u.shorts.erase { x with left := 1 } } : Undo)
          ({ p' with undo := undo } : Pipe).landAll gs (.invalid x.unit) fuel
        else p'.landAll gs l fuel

/-! ## The moves of a bundle -/

/-- How a bundle went. -/
inductive Went
  /-- every move issued; the trap of the lowest slot that has one due -/
  | issued (due : Option (Slot × BitVec 8 × W64))
  /-- the group waits -/
  | held (why : Nat)
  /-- a trap, an unwind or a steering replaced the stream -/
  | left
  /-- a move of slot `sl` faults, its bundle unissued, and the trap of slot `x`, a lower one, is due (R321) -/
  | beaten (x sl : Slot)
deriving DecidableEq, Repr
/-- The state in which the move of a slot runs. -/
def State.atSlot (s : State) (sl : Slot) : State := s.modPipe fun p => { p with wslot := sl.index }
/-- Whether the last move on the current core took a trap or unwound. -/
def State.faulted (s : State) : Bool :=
  match s.pipe.disp with | .trapped _ => true | .trappedIssued _ => true | .unwound => true | _ => false
/-- Whether the current core may issue at all: a running task outside a stop. -/
def Core.canIssue (k : Core) : Bool := k.task.st == .running || k.task.st == .waiting
/-- A fault leaves the bundle unissued: a move that faulted in `t`, after the effects of its bundle's lower slots, and in `u` without them, takes its fault in the
state `s0` in which none of them has acted (R318, R330). -/
def State.refault (s0 t u : State) : State :=
  if u.faulted then u
  else match t.pipe.disp with
    | .trapped _ =>
      let n := t.pipe.trap.tl.toNat
      let b := if n = 1 then t.pipe.trap.bank1 else t.pipe.trap.bank2
      if n = s0.pipe.trap.tl.toNat + 1 then s0.takeTrap b.slot.toNat b.group.toNat b.cause b.addr false else t
    | _ => t
/-- A move that steers has run: a trap that another move of its bundle has raised as issued is taken in the stream it leads to (R318 item 2). -/
def State.steerDue (s : State) (due : Option (Slot × BitVec 8 × W64)) : State :=
  let s := s.modPipe Pipe.commit
  match due with
  | some (x, cause, a) =>
    if s.me.canIssue then
      (s.modPipe fun p => { p with undo := none, ib := { p.ib with idx := p.pos x.gix - 1 } }).takeTrap x.index x.gix cause a true
    else s
  | none => s
/-- A bundle that waits starts the exit of the banks that the accesses of its lower slots, performed in `t`, wait for (R112). -/
def State.banksAs (s t : State) : State := { s with cores := s.cores.zipWith (fun k u => { k with banks := u.banks }) t.cores }
/-- Runs the moves in slot order on `s`; `s0` is the state with the bundle's landings alone. A C move that steers runs last, or, where it would then wait for
accesses of its own bundle, as if before them. A move that waits only for an access of its own bundle's lower slots finds it performed, as `fin` performs it (R97,
DEDUCED log 58). -/
def runMoves (run : RunMove) (fin : State → State) (s0 : State) : List (Slot × Parcel) → Option (Slot × BitVec 8 × W64) → State → Except Out (State × Went)
  | [], due, s => .ok (s, .issued due)
  | (sl, p) :: r, due, s =>
    match run sl p (s.atSlot sl) with
    | .next t =>
      match t.pipe.disp with
      | .issued => runMoves run fin s0 r due t
      | .due x c a => runMoves run fin s0 r (due.orElse fun _ => some (x, c, a)) t
      | .held w =>
        match run sl p (s0.atSlot sl) with
        | .next u =>
          if u.pipe.disp = .held w then .ok (u, .held w)
          else match run sl p ((fin (s.atSlot sl)).atSlot sl) with
            | .next t =>
              if t.pipe.disp = .issued then runMoves run fin s0 r due t
              else .ok (s0.banksAs t, .held w)
            | o => .error o
        | o => .error o
      | .steered =>
        match runMoves run fin s0 r due s with
        | .ok (u, .issued d) =>
          match run sl p (u.atSlot sl) with
          | .next v => .ok ((if v.pipe.disp = .steered then v else t).steerDue d, .left)
          | o => .error o
        | o => o
      | _ =>
        match due with
        | some (x, _) => .ok (s, .beaten x sl)
        | none =>
          match run sl p (s0.atSlot sl) with
          | .next u => .ok (s0.refault t u, .left)
          | o => .error o
    | o => .error o
/-- R164: the v registers that the moves of the groups read in a bundle, in slot order. -/
def Pipe.vReads (p : Pipe) (gs : List Nat) (d : Disp) : List Nat :=
  d.moves.filterMap fun m =>
    let f := (m.2.extractLsb' 0 10).toNat
    if gs.contains m.1.gix && 0x40 ≤ f && f < 0x80 && p.regs.guard (m.2.extractLsb' 20 4) then some (f - 0x40) else none
/-- R164: the banks serve a bundle's reads, in slot order: each delivers one register per cycle, to every read of it. `busy` are the registers delivered in this cycle,
`got` those that the bundle has been served. -/
def bankServe (busy : List Nat) (got : BitVec 64) (l : List Nat) : List Nat × BitVec 64 :=
  l.foldl (fun a r =>
    if a.2.getLsbD r then a
    else match a.1.find? fun q => q % 4 = r % 4 with
      | none => (a.1 ++ [r], a.2 ||| (1 <<< r))
      | some q => if q = r then (a.1, a.2 ||| (1 <<< r)) else a) (busy, got)
/-- R164: a bundle that could issue has its reads served: the pipeline after, and whether none is left. -/
def Pipe.serve (p : Pipe) (g : Nat) (l : List Nat) : Pipe × Bool :=
  let (busy, got) := bankServe p.busy (p.served.getD g 0) l
  ({ p with busy := busy, served := p.served.setIfInBounds g got }, l.all fun r => got.getLsbD r)
/-- Records what holds the groups. -/
def Pipe.noteHolds (p : Pipe) (gs : List Nat) (w : Option Nat) : Pipe :=
  { p with holds := gs.foldl (fun v g => v.setIfInBounds g w) p.holds }
/-- After a bundle has issued: the groups move on, its writes are to be committed at the cycle's end, what is behind every group is forgotten. -/
def Pipe.retire (p : Pipe) (gs : List Nat) : Pipe :=
  let p := (gs.foldl Pipe.pass { p with undo := none }).pruneShadows
  ({ p with stream := p.stream.prune, ib := { p.ib with mute := false },
            cguard := if gs.contains 0 then none else p.cguard,
            served := gs.foldl (fun v g => v.setIfInBounds g 0) p.served,
            stall := if gs.contains 3 then 0 else p.stall }).noteHolds gs none
/-- The state in which the moves of a bundle start: its context, the snapshot, the results that land. -/
def Pipe.begin (p : Pipe) (gs : List Nat) (i : Nat) (d : Disp) : Pipe × Landing :=
  let p := { p with ib := ⟨i, d.lit, d.pc, d.q, p.alignOf d, true⟩, wq := some (p.wq.getD []),
                       undo := some ⟨p.regs, p.units, p.shorts, p.sys.fpstat, p.wq.getD []⟩ }
  (p.countDown gs).landAll gs .done 32
/-- The selectors that the guard-on moves of the groups read in a bundle: FROM, their guards' predicates, s63 of a RET (R295), and the mask that MSEL names for an
operation of a vector-width unit. -/
def Pipe.bundleReads (p : Pipe) (gs : List Nat) (d : Disp) : List (BitVec 10) :=
  (d.moves.filter fun m => gs.contains m.1.gix).flatMap fun m =>
    let g := m.2.extractLsb' 20 4
    BitVec.ofNat 10 (0x80 + g.toNat % 8) :: (if p.guardOf m.1 g then
      m.2.extractLsb' 0 10 :: (if m.1 == .c && toOf m.2 = 0x104 then [0x3F] else []) ++ (match p.units.vUnit m.1 with
        | some u => if 0x100 ≤ toOf m.2 then [BitVec.ofNat 10 (0x88 + u.msel.toNat)] else []
        | none => []) else [])
/-- The fills of registers that a group reads in a bundle. -/
def Pipe.readFills (p : Pipe) (g : Nat) (d : Disp) : List (BitVec 10 × Nat) := p.fills.filter fun x => (p.bundleReads [g] d).contains x.1
/-- Table 4.2: groups read, in a bundle, registers that accesses filled before it: the classes in which a group makes accesses take the timestamps of those
accesses, before the accesses of the bundle: every class in the control group, class 0 in the matrix and the copy group, none in the vector group (DEDUCED log 25). -/
def State.readTimes (s : State) (p : Pipe) (gs : List Nat) (d : Disp) : State :=
  gs.foldl (fun s g =>
    let l := p.readFills g d
    let ts := l.foldl (fun n x => max n x.2) 0
    if l.isEmpty || g = 1 then s
    else if g = 0 then s.setLt s.cur (ltMerge s.me.lt ts)
    else s.setLt s.cur (s.me.lt.set 0 (max s.me.lt[0] ts))) s
/-- What the control group has read is noted no more: every class has its time. -/
def Pipe.dropFills (q p : Pipe) (gs : List Nat) (d : Disp) : Pipe :=
  if gs.contains 0 then { q with fills := q.fills.filter fun x => !(p.readFills 0 d).contains x } else q
/-- R35: what a bundle that waits keeps: the guard that its C move of an implied alignment read. -/
def Pipe.latchGuard (p : Pipe) (i : Nat) (gs : List Nat) (d : Disp) (used : Pipe) : Pipe :=
  if gs.contains 0 && (d.alignsAll || d.hasC [0x12C]) then
    match d.moves.find? fun m => m.1 == .c with
    | some m => { p with cguard := some (i, used.guardOf .c (m.2.extractLsb' 20 4)) }
    | none => p
  else p
/-- R35, R37: whether a bundle that is held has come to the wait of its C move, no move of it being held before issue by a full/empty wait. -/
def State.cWaits (run : RunMove) (fin : State → State) (moves : List (Slot × Parcel)) (s0 : State) : Bool :=
  (match moves.find? fun m => m.1 == .c with
    | some m => (match run .c m.2 (s0.atSlot .c) with
      | .next u => (match u.pipe.disp with | .held w => w ≠ 1 | _ => false)
      | _ => false)
    | none => false)
  && (match runMoves run fin s0 (moves.filter fun m => m.1 != .c) none s0 with | .ok (_, .held w) => w ≠ 1 | _ => true)
/-- Whether a bundle went into a trap or an unwinding. -/
def Went.faulted (w : Went) (t : State) : Bool :=
  match w, t.pipe.disp with | .left, .steered => false | .left, _ => true | _, _ => false
/-- R242 item 2: whether the matrix group, among the groups of a bundle, has reached an M-slot move while a metadata cause is pending. -/
def State.metaDue (s : State) (gs : List Nat) (i : Nat) (d : Disp) : Bool :=
  s.me.mx.pendMeta.isSome && gs.contains 2 && s.pipe.pos 2 = i && d.moves.any fun m => m.1 == .m
/-- The state in which a cause is raised at bundle `i`, none of whose moves has run. -/
def State.atBundle (s : State) (i : Nat) (d : Disp) : State :=
  s.modPipe fun p => { p with ib := ⟨i, d.lit, d.pc, d.q, 0xF, false⟩, undo := none }
/-- R242: the pending metadata cause is raised at the bundle, before any hold of it. -/
def State.raiseMeta (s : State) (i : Nat) (d : Disp) : State :=
  match s.me.mx.pendMeta with
  | some (x, a) =>
    let s := (s.modMx fun m => { m with pendMeta := none }).atBundle i d
    if x = 0x08 then s.consume .m a else s.trapAt .m x a
  | none => s
/-- R212, Table 14.3: the trap of a long operation that completed invalid is raised at the vector group's boundary. -/
def State.raiseFp (s : State) (u : Unit7) (i : Nat) (d : Disp) : State :=
  ((s.atBundle i d).modPipe fun p => { p with fpDue := none }).trapAt u.slot 0x11 (BitVec.ofNat 64 u.index)
/-- Of two faults, the one of the lower slot (R321). -/
def lowerFault (a b : Option (Slot × State)) : Option (Slot × State) :=
  match a, b with
  | some x, some y => if y.1.index < x.1.index then some y else some x
  | none, y => y
  | x, none => x
/-- The fault that a bundle's groups meet before its moves run: a landing's, a long completion's at the vector group's boundary, a pending metadata cause. -/
def State.dueFault (s s0 : State) (l : Landing) (gs : List Nat) (i : Nat) (d : Disp) : Option (Slot × State) :=
  let fp : Option (Slot × State) := if gs.contains 1 then s.pipe.fpDue.map fun u => (u.slot, s.raiseFp u i d) else none
  let meta_ : Option (Slot × State) := if s.metaDue gs i d then some (.m, s.raiseMeta i d) else none
  lowerFault (lowerFault fp (l.slot.map fun x => (x, l.take s0))) meta_
/-- R321: the part of a bundle that issues where slot `sl` faults and the trap of slot `x`, a lower one whose bundle counts as issued, is due. -/
def beatenPart (gs : List Nat) (d : Disp) (x sl : Slot) : List Nat × Disp :=
  (gs.filter fun g => g < sl.gix || g = x.gix, { d with moves := d.moves.filter fun m => m.1.index < sl.index })
/-- The moves of the groups `gs` issue on `s0`, the state with the bundle's landings, or the bundle is held or faults; `part` issues the part of it that R321 leaves. A
bundle that could issue waits while a bank has one of its reads still to serve (R164). -/
def State.issueMoves (part : Slot → Slot → Out) (run : RunMove) (fin : State → State) (gs : List Nat) (i : Nat) (d : Disp) (s s0 : State) : Out :=
  let p0 := s0.pipe
  let moves := d.moves.filter fun m => gs.contains m.1.gix
  match runMoves run fin s0 moves none s0 with
  | .error o => o
  | .ok (t, .held w) =>
    .next (t.modPipe fun _ => { (if s0.cWaits run fin moves then s.pipe.latchGuard i gs d p0 else s.pipe).noteHolds gs (some w) with
      disp := .held w, stall := t.pipe.stall })
  | .ok (t, .left) => .next (t.modPipe fun p => { p with ib := { p.ib with mute := false } })
  | .ok (_, .beaten x y) => part x y
  | .ok (t, .issued due) =>
    let (q, all) := s.pipe.serve (gs.headD 0) (p0.vReads gs d)
    if !all then .next (s.modPipe fun _ => { q.noteHolds gs (some 0) with disp := .held 0 })
    else
      -- a full/empty wait that is over clears the refused mark (R138)
      let t := if gs.any (fun g => s.pipe.holds.getD g none = some 1) then t.unrefuse t.cur else t
      let t := t.modPipe fun p => { (p.dropFills p0 gs d).retire gs with busy := q.busy }
      match due with
      | some (sl, c, a) => .next (t.trapIssued sl c a)
      | none => .next t
/-- The groups `gs` issue, or the bundle is held or faults; `again` issues the part of it that R321 leaves. -/
def State.issuePart (again : List Nat → Disp → Out) (run : RunMove) (fin : State → State) (gs : List Nat) (i : Nat) (d : Disp) (s : State) : Out :=
  let start (gs : List Nat) : State × Landing :=
    let (p0, l) := s.pipe.begin gs i d
    ((s.modPipe fun _ => p0).readTimes p0 gs d, l)
  let (s0, l) := start gs
  let moves := d.moves.filter fun m => gs.contains m.1.gix
  let part (x sl : Slot) : Out := let q := beatenPart gs d x sl; again q.1 q.2
  match s.dueFault s0 l gs i d with
  | some (sl, own) =>
    -- a lower slot's fault of the bundle comes first
    match runMoves run fin s0 (moves.filter fun m => m.1.index < sl.index) none s0 with
    | .ok (_, .beaten x y) => part x y
    | .ok (_, .issued (some (x, _))) =>
      -- its group issues the bundle, whose landings stand
      if x.gix = sl.gix then
        let q := beatenPart gs d x sl
        s.issueMoves part run fin q.1 i d (start q.1).1
      else part x sl
    | .ok (t, w) => .next (if w.faulted t then t.modPipe fun p => { p with ib := { p.ib with mute := false } } else own)
    | .error o => o
  | none => s.issueMoves part run fin gs i d s0
/-- R42, R43, R164, R168, R212, R318, R321: the groups `gs` issue bundle `d` of index `i`. -/
def State.issueGroups (run : RunMove) (fin : State → State) (gs : List Nat) (i : Nat) (d : Disp) (s : State) : Out :=
  s.issuePart (fun gs' d' => s.issuePart (fun _ _ => .next s) run fin gs' i d') run fin gs i d
/-- R170, R171, R48: group `g` of the current core issues its next bundle, if it may; else nothing changes but what dispatch
fetched. A pending metadata cause and the trap of an invalid long completion wait for no other group (R242, Table 14.3). -/
def State.tryBundle (run : RunMove) (fin : State → State) (g : Nat) (s : State) : Out :=
  let fp := if g = 1 then s.pipe.fpDue else none
  let free := s.pipe.mayReach g
  if !s.me.canIssue || !(free || (fp.isSome && s.pipe.steered g)) then .next s
  else
    let i := s.pipe.pos g
    let s := s.dispatchTo s.cur i 20
    match s.pipe.stream.at i with
    | none => .next s
    | some d =>
      if free && s.pipe.mayIssue g d then
        match d.marker with
        | some (cause, slot, a) => .next ((s.atBundle i d).takeTrap slot 4 cause a false)
        | none => s.issueGroups run fin (s.pipe.together g d) i d
      else match fp with
        | some u => .next (s.raiseFp u i d)
        | none => .next (if free && s.metaDue (s.pipe.together g d) i d then s.raiseMeta i d else s)
/-- R112, R249: whether one of some requests of the current core stands behind a queued drain or a bank that is not ACTIVE. -/
def State.stuck (s : State) (mine : Req → Bool) : Bool := s.me.behindDrain mine || s.banksShut s.cur mine
/-- R319 step 2: whether accesses that a trap entry waits for are so stuck. -/
def State.entryStuck (s : State) : Bool :=
  s.stuck (fun r => r.op.returns) || ((s.pipe.longs.any fun l => match l.fin with | .test _ _ _ _ _ => true | _ => false) && s.stuck fun r => r.op.reads)
/-- R329 steps 3 and 4: whether accesses that an unwinding waits for are so stuck, or the banks of the commands that it ends are not ACTIVE. -/
def State.unwindStuck (s : State) : Bool := (s.stuck fun _ => true) || s.me.unwinds.any fun e => !s.endReady s.cur e
/-- The words and blocks of those commands are accessed: their banks exit (R112). -/
def State.wakeUnwinds (s : State) : State := s.me.unwinds.foldl (fun s e => if s.endReady s.cur e then s else s.wakeEnd s.cur e) s
/-- R319 step 2, R329 step 3: whether what a trap entry or an unwinding waits for is so stuck. -/
def State.owesAccess (s t : State) : Bool :=
  match t.pipe.disp with
  | .unwound => s.unwindStuck
  | _ => s.entryStuck
/-- The pending waits of `s` keep the places they have in `t`. -/
def Core.placesOf (k t : Core) : Core :=
  { k with pipe := { k.pipe with waits := k.pipe.waits.map fun w => match t.pipe.waits.find? fun v => v.seq = w.seq with | some v => { w with pos := v.pos } | none => w } }
/-- See `State.tryBundle`. What a trap entry or an unwinding waits for is performed before: where it stands behind a queued drain or a bank that is not ACTIVE, the
sequencer goes on to it first and the bank exits, as `fin` runs them, and the group waits while that cannot be. The pending waits, which a trap entry records, hold
nothing of it. -/
def State.tryGroup (run : RunMove) (fin : State → State) (g : Nat) (s : State) : Out :=
  (s.tryBundle run fin g).bind fun t =>
    if !t.faulted || !s.owesAccess t then .next t
    else
      let u := (fin (s.modMe Core.recordWaits)).modMe fun k => k.placesOf s.me
      if u.owesAccess t then .next ((if t.pipe.disp = .unwound then u.wakeUnwinds else u).hold 0) else u.tryBundle run fin g
/-- Whether group `g` of the current core may issue its next bundle in a cycle that starts in this state: what the other groups issue in the cycle
itself does not count yet (R33, R170). -/
def State.mayStart (s : State) (g : Nat) : Bool :=
  let fp := g = 1 && s.pipe.fpDue.isSome && s.pipe.steered g
  s.me.canIssue && (fp || s.pipe.mayReach g &&
    let i := s.pipe.pos g
    let s := s.dispatchTo s.cur i 20
    match s.pipe.stream.at i with
    | some d => s.pipe.mayIssue g d || s.metaDue (s.pipe.together g d) i d
    | none => false)
/-- The groups of a mask that may issue in this cycle. -/
def State.startMask (s : State) (gs : BitVec 4) : BitVec 4 :=
  [0, 1, 2, 3].foldl (fun (m : BitVec 4) g => if gs.getLsbD g && s.mayStart g then m ||| ((1 : BitVec 4) <<< g) else m) 0
/-- The groups that issue the next bundle of group `g` with it. -/
def State.companions (s : State) (g : Nat) : List Nat :=
  let i := s.pipe.pos g
  let s := s.dispatchTo s.cur i 20
  match s.pipe.stream.at i with
  | some d => s.pipe.together g d
  | none => [g]
/-- R321: of a fault taken by group `g` in `t` and those of the groups `r` of the mask that would be taken at earlier bundles in `s`, the earliest. -/
def State.firstFault (s t : State) (run : RunMove) (fin : State → State) (gs : BitVec 4) (g : Nat) : List Nat → State
  | [] => t
  | h :: r =>
    if gs.getLsbD h && s.pipe.pos h < s.pipe.pos g then
      match s.tryGroup run fin h with
      | .next u => if u.faulted then s.firstFault u run fin gs h r else s.firstFault t run fin gs g r
      | _ => s.firstFault t run fin gs g r
    else s.firstFault t run fin gs g r
/-- One cycle of the current core: each group of the mask in turn issues what it may (R33: aligned groups together), and has its reads served in this order (R164,
DESIGN CHOICE log 59). Of several faults the core takes the one whose bundle comes first (R321). -/
def State.cycleGroups (run : RunMove) (fin : State → State) (gs : BitVec 4) : List Nat → State → Out
  | [], s => .next s
  | g :: r, s =>
    if !gs.getLsbD g then s.cycleGroups run fin gs r
    else
      (s.tryGroup run fin g).bind fun t =>
        match t.pipe.disp with
        | .issued =>
          -- companions that issued with `g` do not issue again in this cycle
          t.cycleGroups run fin (gs &&& maskBehind t s r) r
        | .held _ =>
          -- companions held with `g` are not tried again in this cycle
          t.cycleGroups run fin (gs &&& (s.companions g).foldl (fun (m : BitVec 4) h => m &&& ~~~((1 : BitVec 4) <<< h)) 0xF) r
        | _ => .next (if t.faulted then s.firstFault t run fin gs g r else t)
where
  /-- the groups of `r` that did not move in this issue -/
  maskBehind (t s : State) (r : List Nat) : BitVec 4 :=
    r.foldl (fun m h => if t.pipe.pos h = s.pipe.pos h then m ||| (1 <<< h) else m) 0

end Sys2Proof.Machine
end

