-- ==== Sys2Proof/Machine/Launch.lean ====
section
/-! DEFINITION. Launch records, partitions and queued jobs (R16, R152, R309), and the end of a task (R306). -/
namespace Sys2Proof.Machine

/-- A little-endian field of a record. -/
def fld (bs : List Byte) (off n : Nat) : Nat := natOfBytes ((bs.drop off).take n)
/-- Whether bytes of a record are all zero. -/
def zeros (bs : List Byte) (off n : Nat) : Bool := ((bs.drop off).take n).all fun b => b == 0
/-- A nibble of a coordinate: x, y, z by `k`. -/
def nib (v k : Nat) : Nat := v / 16 ^ k % 16
/-- R16, Table 15.7: origin and extent of the partition in dimension `k`. -/
def State.partOrigin (s : State) (k : Nat) : Nat := match s.product with | .hv1x => 0 | .hv8x => nib s.fw.cfg.part.toNat k
/-- See `State.partOrigin`. -/
def State.partExtent (s : State) (k : Nat) : Nat := match s.product with | .hv1x => 1 | .hv8x => nib (s.fw.cfg.part.toNat / 4096) k + 1
/-- R15: the die of this package at a global coordinate. -/
def State.dieAt (s : State) (x y z : Nat) : Option DieId :=
  match s.product with
  | .hv1x => if x = 0 && y = 0 && z = 0 then some 0 else none
  | .hv8x =>
    let p := s.fw.cfg.pcoord.toNat
    if x / 2 = nib p 0 && y / 2 = nib p 1 && z / 2 = nib p 2 then some (dieOf (x % 2 + 2 * (y % 2) + 4 * (z % 2))) else none
/-- R16: whether a die of this package lies in the partition. -/
def State.inPart (s : State) (d : DieId) : Bool :=
  d.val < s.pkgDies && (List.range 3).all fun k => s.partOrigin k ≤ s.torus d k && s.torus d k < s.partOrigin k + s.partExtent k
/-- R152: the dies of a box in rank order, where all lie in this package (DESIGN CHOICE log 50). -/
def State.boxDies (s : State) (ox oy oz dx dy dz : Nat) : Option (List DieId) :=
  let w (k o i : Nat) : Nat := s.partOrigin k + (o + i - s.partOrigin k) % s.partExtent k
  (List.range (dx * dy * dz)).mapM fun r => s.dieAt (w 0 ox (r % dx)) (w 1 oy (r / dx % dy)) (w 2 oz (r / (dx * dy)))
/-- Table 13.5: the first part of a launch record. -/
def Launch.ofBytes (b : List Byte) : Launch :=
  { crew := fld b 2 1, cls := BitVec.ofNat 2 (fld b 1 1), stream := fld b 4 2, dx := fld b 8 1, dy := fld b 9 1, dz := fld b 10 1,
    anyo := 128 ≤ fld b 13 1, origin := BitVec.ofNat 12 (fld b 12 2), codebase := BitVec.ofNat 64 (fld b 16 8 / 256 * 256),
    entry := BitVec.ofNat 32 (fld b 24 4), thbase := BitVec.ofNat 32 (fld b 28 4), mdbase := BitVec.ofNat 64 (fld b 32 8 / 256 * 256),
    shdmode := BitVec.ofNat 64 (fld b 40 8), shdblk := BitVec.ofNat 64 (fld b 48 8) }
/-- Table 13.5: the rest of a launch record. -/
def Launch2.ofBytes (b : List Byte) : Launch2 :=
  { rseed := BitVec.ofNat 64 (fld b 56 8), pwb := Vector.ofFn fun i => BitVec.ofNat 64 (fld b (64 + 8 * i.val) 8),
    pws := Vector.ofFn fun i => BitVec.ofNat 32 (fld b (128 + 4 * i.val) 4), cboff := fld b 160 4, sboff := fld b 164 4,
    wdti := BitVec.ofNat 32 (fld b 168 4), tickch := BitVec.ofNat 3 (fld b 172 1), quant := fld b 176 4, weight := fld b 180 1,
    cards := BitVec.ofNat 64 (fld b 184 8), done := BitVec.ofNat 64 (fld b 192 8), doneval := BitVec.ofNat 64 (fld b 200 8),
    spuse := fld b 208 4 }
/-- R151, Table 6.5: whether SHDBLK holds what its mode allows: BC of 1 or more in heads mode and 0 else, BT, BH and BW 0 but in space-time mode. -/
def shardBlkOk (mode : Nat) (blk : W64) : Bool :=
  (if mode = 2 then blk.extractLsb' 48 16 != 0 else blk.extractLsb' 48 16 == 0) && (mode == 1 || blk.extractLsb' 0 48 == 0)
/-- R309: whether a launch record is valid by itself: reserved fields 0 and values within their limits (DEDUCED log 51). -/
def launchValid (b : List Byte) : Bool :=
  let l := Launch.ofBytes b
  let m := Launch2.ofBytes b
  fld b 0 1 = 1 && fld b 1 1 < 3 && 1 ≤ l.crew && l.crew ≤ 32 && zeros b 3 1 && zeros b 6 2 && zeros b 11 1
  && fld b 13 1 / 16 % 8 = 0 && zeros b 14 2
  && 1 ≤ l.dx && l.dx ≤ 16 && 1 ≤ l.dy && l.dy ≤ 16 && 1 ≤ l.dz && l.dz ≤ 16
  && l.shdmode.toNat < 3 && shardBlkOk l.shdmode.toNat l.shdblk && m.cboff % 16 = 0 && m.cboff < 0x600000 && m.sboff % 16 = 0 && m.sboff < 0x600000
  && fld b 172 4 ≤ 4 && (l.cls != 0 || 1 ≤ m.weight) && zeros b 181 3
  && m.done.toNat % 8 = 0 && m.done.toNat < 2 ^ 56 && m.spuse % 2048 = 0 && m.spuse ≤ 0x600000 && zeros b 212 44
/-- R309, R310: whether the span box fits the partition, at ORIGIN when the record fixes it. -/
def State.boxFits (s : State) (l : Launch) : Bool :=
  [(0, l.dx), (1, l.dy), (2, l.dz)].all fun q =>
    q.2 ≤ s.partExtent q.1
    && (l.anyo || (s.partOrigin q.1 ≤ nib l.origin.toNat q.1 && nib l.origin.toNat q.1 + q.2 ≤ s.partOrigin q.1 + s.partExtent q.1))
/-- Jobs of a context that wait to be placed (R310). -/
def State.launchQueue (s : State) (ctx : BitVec 16) : Nat := s.fw.jobs.countP fun j => j.ctx == ctx && j.st == .queued
/-- Queues a job (R309) whose tasks observe what precedes a logical time (R310), and the completion word before it in its stream (R316): its number, and
the state. -/
def State.queueJob (s : State) (ctx : BitVec 16) (b : List Byte) (lt : Nat) : Nat × State :=
  let n := s.fw.nextJob
  let before := ((s.fw.streamLt.find? fun x => x.1 = (Launch.ofBytes b).stream).map (·.2)).getD 0
  let j : Job := { num := n, ctx := ctx, lr := Launch.ofBytes b, lr2 := Launch2.ofBytes b, st := .queued, deficit := 0,
                   dies := [], first := 0, placedAt := 0, resumed := false, cards := [], forks := Vector.replicate 8 0, arrived := s.fw.nextArrival, lt := max lt before }
  (n, { s with fw := { s.fw with jobs := s.fw.jobs ++ [j], nextJob := n + 1, nextArrival := s.fw.nextArrival + 1 } })
/-- The job of a number. -/
def State.job (s : State) (n : Nat) : Option Job := s.fw.jobs.find? fun j => j.num = n
/-- Changes a job. -/
def State.modJob (s : State) (n : Nat) (f : Job → Job) : State :=
  { s with fw := { s.fw with jobs := s.fw.jobs.map fun j => if j.num = n then f j else j } }

/-! ## The end of a task (R306) -/

/-- R277: the address of the card set's DONE word, as core `c` reads it. -/
def State.cardDone (s : State) (c : CoreId) (j : Job) : Option W64 :=
  match s.readVa c (ltime (s.core c).lt) (j.lr2.cards + 48) 8 4 with
  | (.ok (bs, _, _), _) => some (BitVec.ofNat 64 (natOfBytes bs))
  | _ => none
/-- R277: firmware arrives on DONE for a card, and sets ERR on it for an invalid one. -/
def State.countCard (s : State) (c : CoreId) (j : Job) (bad : Bool) : State :=
  match s.cardDone c j with
  | none => s
  | some w =>
    let (h, off) := syncAddr c w
    let s := if bad then s.syncErr h off else s
    (s.syncArrive h off 1 (ltime (s.core c).lt)).2
/-- The sync words on which the ended task of core `c` still owes an arrival: its card set's DONE word and its join word. -/
def State.endWords (s : State) (c : CoreId) : List (CoreId × Nat) :=
  let t := (s.core c).task
  let done := if t.card.isSome then (s.job t.job).bind fun j => s.cardDone c j else none
  (done.toList ++ (if t.joinw = 0 then [] else [t.joinw])).map fun a => syncAddr c a
/-- R102, R277, R304, R306: a task of core `c` that has ended makes its release arrivals, on its card set's DONE word and on its join word, once every access
it has issued is performed, its drains among them, and the words' banks are ACTIVE (R112). -/
def State.endArrivals (s : State) (c : CoreId) : State :=
  let t := (s.core c).task
  if t.st != .ended || (t.card.isNone && t.joinw = 0) || (s.core c).owesAny then s
  else if (s.endWords c).any fun w => !s.banksReady w.1 w.2 16 then (s.endWords c).foldl (fun s w => s.wakeBanks w.1 w.2 16) s
  else
    let s := s.mergeClasses c
    let s := match t.card, s.job t.job with
      | some i, some j => (s.countCard c j false).modJob j.num fun j => { j with cards := j.cards.set i .done }
      | _, _ => s
    let s := if t.joinw = 0 then s
      else
        let (h, off) := syncAddr c t.joinw
        let (ts, s) := s.syncArrive h off 1 (ltime (s.core c).lt)
        s.setLt c (ltMerge (s.core c).lt ts)
    s.modCore c fun k => { k with task := { k.task with card := none, joinw := 0 } }
/-- R277, R304, R306: every core whose ended task owes arrivals makes those that are due; none once dusk has begun (R286, R292). -/
def State.endOwed (s : State) : State :=
  if s.phase == .dusk || !(s.cores.any fun k => k.task.st == .ended && (k.task.card.isSome || k.task.joinw != 0)) then s
  else (allCores.filter fun c => let t := (s.core c).task; t.st == .ended && (t.card.isSome || t.joinw != 0)).foldl State.endArrivals s
/-- R306: the task of core `c` ends: its register state is discarded, its accesses go on without it, it arrives on its join word and its card's DONE
word, and the core becomes idle. -/
def State.endTask (s : State) (c : CoreId) : State :=
  let owes := (s.core c).task.card.isSome || (s.core c).task.joinw ≠ 0
  let s := s.modCore c fun k => k.unplace.recordWaits
  let s := if owes then s.settle c else s
  let s := s.modCtx (s.core c).task.ctx fun x => { x with wd := 0 }
  let s := s.modCore c fun k => { k with
    pipe := { k.pipe.halt with disp := .steered },
    reqs := (k.reqs.map fun r => { r with dsel := 0 }), task := { k.task with st := .ended } }
  s.endArrivals c

end Sys2Proof.Machine
end

