-- ==== Sys2Proof/Machine/Place.lean ====
section
/-! DEFINITION. Where jobs are placed and which wait (R298, R308, R313, R316): the cores a request will take, who holds them, and whom firmware may
pre-empt for it. Which of several fitting places a request takes is the model's choice (DESIGN CHOICE log 40). -/
namespace Sys2Proof.Machine

/-- The cores of a placed job: its crews in rank order (R298). -/
def Job.cores (j : Job) : List CoreId := j.dies.flatMap fun d => (List.range j.lr.crew).map fun i => CoreId.mk' d (j.first + i)
/-- The clusters a crew of a job takes on a die (R298 item 1). -/
def Job.clusters (j : Job) : Nat := (j.lr.crew + 3) / 4
/-- Whether a job's crews hold cores. -/
def Job.resident (j : Job) : Bool := j.st == .placed || j.st == .stopping || j.st == .saving
/-- Where a span's crews lie: the dies in rank order and the first cluster on each (R298 item 3). -/
abbrev Place := List DieId × Nat
/-- Whether `n` clusters at a place meet the clusters that a job's crews hold. -/
def Job.holds (k : Job) (p : Place) (n : Nat) : Bool :=
  k.resident && p.1.any (fun d => k.dies.contains d) && k.first < 4 * (p.2 + n) && 4 * p.2 < k.first + 4 * k.clusters

/-! ## Waiting jobs -/

/-- Whether a job is its stream's next: no earlier job of the stream is unfinished (R316). -/
def State.streamReady (s : State) (j : Job) : Bool :=
  j.lr.stream = 0 || !(s.fw.jobs.any fun k => k.ctx == j.ctx && k.lr.stream = j.lr.stream && k.num < j.num)
/-- Whether a saved task that waits at a TICKW bundle may go on: its channel has released the step (R308). -/
def State.tickCame (s : State) (v : SavedTask) : Bool :=
  match v.core.pipe.stream.at (v.core.pipe.pos 0) with
  | some d => (match d.moves.find? fun m => m.1 == .c && toOf m.2 == 0x13C with
    | some m =>
      let p := v.core.pipe
      let t := s.setCore v.place { v.core with pipe := { p with ib := { p.ib with lit := d.lit } } }
      let fs := MoveFields.ofParcel .c m.2
      let x := s.tickn p.sys2.tickch
      (match t.source v.place fs.e fs.f with
        | .ok y => x ≠ BitVec.allOnes 64 && (y.toS.val.setWidth 40).toNat ≤ x.toNat
        | _ => true)
    | none => true)
  | none => true
/-- Whether a saved tick job is due: the tick that one of its tasks waits for has been released; other jobs always are (R308, R313). -/
def State.tickDue (s : State) (j : Job) : Bool :=
  if j.st != .saved || j.lr.cls != 2 then true
  else
    let l := s.fw.saved.filter fun v => v.job = j.num && v.core.task.st != .ended
    l.isEmpty || l.any s.tickCame
/-- Whether a job waits to be placed or loaded (R311, R313). -/
def State.waits (s : State) (j : Job) : Bool :=
  (j.st == .queued || j.st == .saved) && s.streamReady j && s.tickDue j && (match s.ctx j.ctx with | some x => x.killed.isNone | none => false)
/-- Of a list of jobs, the one that arrived first. -/
def earliest : List Job → Option Job
  | [] => none
  | j :: r => match earliest r with
    | some k => if k.arrived < j.arrived then some k else some j
    | none => some j
/-- The oldest waiting request of a class (R313 item 5). -/
def State.firstWaiting (s : State) (cls : BitVec 2) : Option Job := earliest (s.fw.jobs.filter fun r => r.lr.cls == cls && s.waits r)

/-! ## Places (R152, R298, R336) -/

/-- The dies of a job's box at an origin, where the box fits the partition and lies in this package (R152, R298). A saved span keeps its dies (R152). -/
def State.boxFor (s : State) (j : Job) (ox oy oz : Nat) : Option (List DieId) :=
  if j.resumed then some j.dies
  else if !s.boxFits j.lr || (!j.lr.anyo && j.lr.origin.toNat ≠ ox + 16 * oy + 256 * oz)
      || ([(0, ox), (1, oy), (2, oz)].any fun q => q.2 < s.partOrigin q.1 || s.partOrigin q.1 + s.partExtent q.1 ≤ q.2) then none
  else s.boxDies ox oy oz j.lr.dx j.lr.dy j.lr.dz
/-- Whether a crew's clusters from a first one on are there and in service on a die (R298 item 1, R336). -/
def State.usable (s : State) (j : Job) (d : DieId) (cluster : Nat) : Bool :=
  cluster + j.clusters ≤ 8 && s.dieLive d && !s.link.detours.contains d
  && (List.range j.clusters).all fun i => !s.fw.clusterOut.contains (8 * d.val + cluster + i)
/-- Whether those clusters are free as well. -/
def State.clustersFree (s : State) (j : Job) (d : DieId) (cluster : Nat) : Bool :=
  s.usable j d cluster
  && (List.range (4 * j.clusters)).all (fun i => let k := s.core (CoreId.mk' d (4 * cluster + i)); k.task.st == .none)
  && !(s.fw.jobs.any fun k => k.holds ([d], cluster) j.clusters)
/-- The box origins a job may be placed at: its own, or any in the package. -/
def State.origins (s : State) (j : Job) : List (Nat × Nat × Nat) :=
  let (o, p) := (j.lr.origin.toNat, s.fw.cfg.pcoord.toNat)
  if j.lr.anyo then (List.range 8).map fun d => (2 * nib p 0 + d % 2, 2 * nib p 1 + d / 2 % 2, 2 * nib p 2 + d / 4) else [(nib o 0, nib o 1, nib o 2)]
/-- The places a job's span fits. -/
def State.places (s : State) (j : Job) : List Place :=
  (s.origins j).flatMap fun o => match s.boxFor j o.1 o.2.1 o.2.2 with
    | some ds => ((List.range 8).filter fun c => ds.all fun d => s.usable j d c).map fun c => (ds, c)
    | none => []

/-! ## Pre-emption (R308, R313, R323) -/

/-- R308, R323: whether the task of a core waits at a Q-marked TICKW bundle. -/
def Core.atQTickw (k : Core) : Bool :=
  let i := k.pipe.pos 0
  k.pipe.stream.gpos.all (fun p => p = i) && k.pipe.holds.all (fun h => h = some 5)
  && match k.pipe.stream.at i with | some d => d.q && d.hasC [0x13C] | none => false
/-- R308: whether every task of a placed tick crew that has not ended waits at a Q-marked TICKW. -/
def State.tickIdle (s : State) (j : Job) : Bool := j.cores.all fun c => let k := s.core c; k.task.st == .ended || k.atQTickw
/-- R313 items 1 to 4: whether a placed job may be pre-empted for a waiting one. -/
def State.victim (s : State) (v r : Job) : Bool :=
  if v.lr.cls = 2 then s.tickIdle v && v.num != r.num
  else v.lr.cls.toNat < r.lr.cls.toNat || (v.lr.cls = 0 && r.lr.cls = 0 && v.deficit ≤ 0)
/-- Whether every crew that holds cores of a place leaves them or may be pre-empted for a request. -/
def State.yields (s : State) (r : Job) (p : Place) : Bool :=
  s.fw.jobs.all fun v => !v.holds p r.clusters || v.st != .placed || s.victim v r
/-- When the victim placed longest ago was placed, of those that must leave a place for a request; none where no placed crew is in its way. -/
def State.oldestVictim (s : State) (r : Job) (p : Place) : Option Nat :=
  ((s.fw.jobs.filter fun v => v.st == .placed && v.holds p r.clusters).map (·.placedAt)).min?
/-- R313 item 1: of two places, the one that needs the more recently placed victims: its oldest victim is the younger one. -/
def State.newerPlace (s : State) (r : Job) (p q : Place) : Place :=
  match s.oldestVictim r p, s.oldestVictim r q with
  | some a, some b => if a < b then q else p
  | some _, none => q
  | none, _ => p
/-- R313 items 1 and 5: the cores that a waiting request will take: a free place; else, of those whose crews are leaving or may be pre-empted, the one with the most
recently placed victims; else the first that fits. -/
def State.target (s : State) (r : Job) : Option Place :=
  let l := s.places r
  match l.find? fun p => p.1.all fun d => s.clustersFree r d p.2 with
  | some p => some p
  | none =>
    match l.filter fun p => s.yields r p with
    | p :: rest => some (rest.foldl (fun a b => s.newerPlace r a b) p)
    | [] => l.head?
/-- Whether two spans' places have a cluster in common. -/
def placesMeet (p : Place) (n : Nat) (q : Place) (m : Nat) : Bool := p.1.any (fun d => q.1.contains d) && p.2 < q.2 + m && q.2 < p.2 + n
/-- R313 items 1 to 3 and 5: whether firmware may place a waiting job at a place: it uses no core reserved for the oldest waiting request of its class or
a higher one. -/
def State.unreserved (s : State) (j : Job) (p : Place) : Bool :=
  [(0 : BitVec 2), 1, 2].all fun cls => cls.toNat < j.lr.cls.toNat ||
    match s.firstWaiting cls with
    | some r => r.num = j.num || (match s.target r with | some q => !placesMeet p j.clusters q r.clusters | none => true)
    | none => true
/-- R313: whether firmware may pre-empt a placed job: it holds cores that a waiting request will take, and no victim in that request's way was placed
later. -/
def State.mayPreempt (s : State) (v : Job) : Bool :=
  (s.fw.jobs.filter fun r => s.waits r).any fun r =>
    match s.target r with
    | some p => s.unreserved r p && v.holds p r.clusters && s.victim v r && s.yields r p
        && !(s.fw.jobs.any fun w => w.st == .placed && v.placedAt < w.placedAt && w.holds p r.clusters && s.victim w r)
    | none => false
/-- R307: whether another bulk job waits for cores that a job's span holds. -/
def State.bulkWaitsFor (s : State) (n : Nat) : Bool :=
  match s.job n with
  | some j => s.fw.jobs.any fun r => r.num != n && r.lr.cls == 0 && s.waits r
      && (match s.target r with | some p => j.holds p r.clusters | none => false)
  | none => false

end Sys2Proof.Machine
end

