-- ==== Sys2Proof/Machine/Tensor.lean ====
section
/-! DEFINITION. Tensor maps (R116, R117) and the addresses of their walks (R118). -/
namespace Sys2Proof.Machine

/-- Table 5.5: dimension descriptor `k` of a record. -/
def Dim.ofBytes (b : List Byte) (k : Nat) : Dim :=
  { str := BitVec.ofNat 64 (fld b (16 + 16 * k) 8), wrap := (fld b (27 + 16 * k) 1) % 2 = 1, ext := fld b (24 + 16 * k) 3 + 1,
    hi := fld b (31 + 16 * k) 1, lo := fld b (30 + 16 * k) 1, win := fld b (28 + 16 * k) 2 + 1 }
/-- Table 5.5: a map from its 96 bytes. -/
def TMap.ofBytes (b : List Byte) : TMap :=
  { base := BitVec.ofNat 64 (fld b 0 8), ndim := fld b 8 1 / 32 % 4, esize := fld b 8 1 / 8 % 4, freg := BitVec.ofNat 3 (fld b 8 1),
    dims := Vector.ofFn fun k => Dim.ofBytes b k.val, btab := BitVec.ofNat 64 (fld b 80 8) }
/-- EB, the element size in bytes. -/
def TMap.eb (m : TMap) : Nat := 2 ^ m.esize
/-- V, the window volume (R117). -/
def TMap.vol (m : TMap) : Nat := m.dims[0].win * m.dims[1].win * m.dims[2].win * m.dims[3].win
/-- R117: whether a record is a valid map. -/
def mapValid (b : List Byte) : Bool :=
  let m := TMap.ofBytes b
  fld b 8 4 / 128 = 0 && zeros b 12 4 && zeros b 88 8 && m.esize != 3 && m.vol < 2 ^ 32
  && (List.finRange 4).all fun (k : Fin 4) =>
    let d := m.dims[k]
    fld b (27 + 16 * k.val) 1 / 2 = 0 && d.win != 65536
    && (k.val != 0 || (d.lo == 0 && d.hi == 0))
    && (k.val ≤ m.ndim || (d.ext == 1 && d.win == 1 && d.lo == 0 && d.hi == 0))
/-- R118: the position along a dimension, or none for an element without an address. -/
def Dim.pos (d : Dim) (q : Int) : Option Int :=
  if q < -(d.lo : Int) || (d.ext + d.hi : Int) ≤ q then (if d.wrap then some (q % d.ext) else none) else some q
/-- A component of an origin, packed as AG.POS (R120). -/
def orgAt (org : W64) (k : Nat) : Int := (org.extractLsb' (16 * k) 16).toInt
/-- R118: the address of the element at an index within the window placed at an origin. -/
def TMap.at (m : TMap) (org : W64) (i : Vector Nat 4) : Option W64 :=
  ((List.finRange 4).mapM fun (k : Fin 4) => (m.dims[k].pos (orgAt org k.val + i[k])).map fun (q : Int) =>
    if k.val ≤ m.ndim then BitVec.ofInt 64 q * m.dims[k].str else 0).map fun l => l.foldl (· + ·) m.base
/-- R118: the address of element `k` of the walk. -/
def TMap.addr (m : TMap) (org : W64) (k : Nat) : Option W64 :=
  let c := m.dims[0].win
  let w := m.dims[1].win
  let h := m.dims[2].win
  m.at org #v[k % c, k / c % w, k / (c * w) % h, k / (c * w * h)]

/-- Reads `n` bytes at `a` as a class-0 load of the executing move: it waits for earlier class-0 accesses and for its banks; a failure raises
its cause, poison is consumed. -/
def State.readRecord (s : State) (slot : Slot) (a : W64) (n : Nat) (act : List Byte → State → State) : State :=
  if s.me.class0Waits then s.hold 0
  else
    let at' := match s.form s.cur a with | .ok (.inl (.sp h off)) => some (h, off) | _ => none
    match at'.filter fun x => !s.banksReady x.1 x.2 n with
    | some (h, off) => (s.wakeBanks h off n).hold 0
    | none => match s.readVa s.cur s.me.lt[0] a n (n / 32 + 2) with
      | (.error e, s) => s.trapAt slot e.1 e.2
      | (.ok (bs, bad, lt), s) => (s.setLt s.cur (s.me.lt.set 0 (max s.me.lt[0] lt))).needClean slot bad a fun s => act bs s
/-- R117: reads the map at `a` for an operation of a slot; a misaligned address raises `mis`, an invalid map 0x02. -/
def State.readMap (s : State) (slot : Slot) (a : W64) (mis : BitVec 8) (act : TMap → State → State) : State :=
  match s.form s.cur a with
  | .error e => s.trapAt slot e.1 e.2
  | .ok _ =>
    if a.toNat % 32 ≠ 0 then s.trapAt slot mis a
    else s.readRecord slot a 96 fun bs s => if mapValid bs then act (TMap.ofBytes bs) s else s.trapAt slot 0x02 a

end Sys2Proof.Machine
end

