-- ==== Sys2Proof/Machine/Control.lean ====
section
/-! DEFINITION. The control slot C: system registers (R175, R176), steering (R293 to R296), formats (R190, R297), fences (R99,
R101, R284), barriers (R300), work units (R301 to R310), traps and regions (R322 to R330), moves (R42). -/
namespace Sys2Proof.Machine

/-! ## Moves (R36, R39, R40, R42) -/

/-- Whether a value brings poison to a destination that cannot carry it (Table 14.5): lane 0 reaches p and the D latch, every lane m (Table 2.8). -/
def Val.spoils (v : Val) (d : BitVec 9) : Bool :=
  ((d == 0xC2 || (0x81 ≤ d.toNat && d.toNat < 0x88)) && v.poiS) || (0x88 ≤ d.toNat && d.toNat < 0x90 && v.poiAny)
/-- MOVE (R42): a source value goes into a register, or into the X, Y or D latch of the slot's unit. -/
def execMove (slot : Slot) (g : BitVec 4) (d : BitVec 9) (e : Bool) (f : BitVec 10) (s : State) : Out :=
  .next (s.issueMove slot g e f false fun v s =>
    if !toRegister d then s.trapAt slot 0x02 (s.moveAddr slot)
    else s.needClean slot (v.spoils d) (f.setWidth 64) fun s =>
      if d.toNat < 0xC0 then (s.regWrite (.put (d.setWidth 10) v)).issued
      else (s.modPipe fun p => { p with units := p.units.putLatch slot d v }).issued)

/-! ## Control operations in general -/

/-- A C-slot operation on the 64-bit value of F. -/
def controlOp (g : BitVec 4) (e : Bool) (f : BitVec 10) (act : SVal → State → State) (s : State) : Out :=
  .next (s.issueMove .c g e f false fun v s => act v.toS s)
/-- As `controlOp`, for an operation whose F consumes poison (Table 14.5). -/
def controlClean (g : BitVec 4) (e : Bool) (f : BitVec 10) (act : W64 → State → State) (s : State) : Out :=
  .next (s.issueMove .c g e f false fun v s => s.needClean .c v.poiS (f.setWidth 64) fun s => act v.toS.val s)
/-- The address after the executing bundle's header in sequence (R296). -/
def State.nextPc (s : State) : W32 := match s.pipe.stream.at s.pipe.ib.idx with | some d => d.next | none => s.pipe.ib.pc + 1
/-- R295: the stream continues at `target` after the two delay bundles. -/
def State.steer (s : State) (target : W32) : State :=
  (s.modPipe fun p => { p with stream := { p.stream with redirs := p.stream.redirs ++ [(p.ib.idx + 3, target)] } }).issued
/-- R295 rule 2: the link: what follows the second delay bundle in sequence; a free value where that bundle cannot be fetched
(DEDUCED log 19). -/
def State.linkAddr (s : State) : W32 × State :=
  let i := s.pipe.ib.idx + 2
  let s := s.dispatchTo s.cur i 4
  match s.pipe.stream.at i with
  | some d =>
    match d.marker with
    | some (x, _, _) =>
      if (x = 0x05 || x = 0x06) && d.next = d.pc + 1 then
        let (v, s) := s.drawFree
        (v.setWidth 32, s)
      else (d.next, s)
    | none => (d.next, s)
  | none =>
    let (v, s) := s.drawFree
    (v.setWidth 32, s)

/-! ## Branches and loops (R295, R296) -/

/-- The selector of s63. -/
def linkReg : BitVec 10 := 0x3F
/-- BR (R295): target b + F. -/
def execBr (g : BitVec 4) (e : Bool) (f : BitVec 10) (s : State) : Out :=
  controlClean g e f (fun v s => s.steer (s.pipe.ib.pc + v.setWidth 32)) s
/-- BRI (R295): target F[31:0]. -/
def execBri (g : BitVec 4) (e : Bool) (f : BitVec 10) (s : State) : Out := controlClean g e f (fun v s => s.steer (v.setWidth 32)) s
/-- A call: the link goes to s63 and the stream to the target. -/
def State.callTo (s : State) (target : W32) : State :=
  let (l, s) := s.linkAddr
  (s.regWrite (.put linkReg (.w64 (l.setWidth 64)))).steer target
/-- CALL (R295). -/
def execCall (g : BitVec 4) (e : Bool) (f : BitVec 10) (s : State) : Out :=
  controlClean g e f (fun v s => s.callTo (s.pipe.ib.pc + v.setWidth 32)) s
/-- CALLI (R295). -/
def execCalli (g : BitVec 4) (e : Bool) (f : BitVec 10) (s : State) : Out := controlClean g e f (fun v s => s.callTo (v.setWidth 32)) s
/-- RET (R295): reads s63 under the E = 0 rule. -/
def execRet (g : BitVec 4) (e : Bool) (f : BitVec 10) (s : State) : Out :=
  controlOp g e f (fun _ s =>
    if !s.pipe.regs.full linkReg then s.hold 1
    else
      let v := (s.pipe.regs.get linkReg).toS
      s.needClean .c v.poi (linkReg.setWidth 64) fun s => s.steer (v.val.setWidth 32)) s
/-- LOOP.n (R296). -/
def execLoop (g : BitVec 4) (n : BitVec 1) (e : Bool) (f : BitVec 10) (s : State) : Out :=
  controlClean g e f (fun v s =>
    (s.modPipe fun p => { p with regs := { p.regs with
      lc := p.regs.lc.set n.toNat (v.setWidth 32) (by omega), ls := p.regs.ls.set n.toNat s.nextPc (by omega) } }).issued) s
/-- ENDL.n (R296). -/
def execEndl (g : BitVec 4) (n : BitVec 1) (e : Bool) (f : BitVec 10) (s : State) : Out :=
  controlOp g e f (fun _ s =>
    let c := s.pipe.regs.lc[n.toNat]'(by omega)
    let set (v : W32) (s : State) : State := s.modPipe fun p => { p with regs := { p.regs with lc := p.regs.lc.set n.toNat v (by omega) } }
    if 1 < c.toNat then (set (c - 1) s).steer (s.pipe.regs.ls[n.toNat]'(by omega)) else (set 0 s).issued) s

/-! ## Formats and rounding (R190, R297) -/

/-- SETF.fn (R190): an invalid value raises cause 0x0F with TADDR holding it. -/
def execSetf (g : BitVec 4) (n : BitVec 3) (e : Bool) (f : BitVec 10) (s : State) : Out :=
  controlClean g e f (fun v s =>
    if v.toNat < 2 ^ 24 && fmtValid (v.setWidth 24) then (s.writeShadowed (.f n) (v.setWidth 24)).issued else s.trapAt .c 0x0F v) s
/-- R193: the RMODE value after a write of bits [3:0]: MODE 5 to 7 leaves MODE as it is. -/
def rmodeAfter (old v : BitVec 24) : BitVec 24 :=
  if 4 < (v.extractLsb' 0 3).toNat then (BitVec.ofBool (v.getLsbD 3) ++ old.extractLsb' 0 3).setWidth 24 else (v.extractLsb' 0 4).setWidth 24
/-- A write of RMODE in its shadow (R191, R193). -/
def State.writeRmode (s : State) (v : W64) : State := s.writeShadowed .rm (rmodeAfter (s.pipe.newest .rm) (v.setWidth 24))
/-- SETRM (R297). -/
def execSetrm (g : BitVec 4) (e : Bool) (f : BitVec 10) (s : State) : Out := controlClean g e f (fun v s => (s.writeRmode v).issued) s

/-! ## System registers (R174 to R176, R294) -/

/-- Table 7.6: TSTAT as a word. -/
def SysRegs.tstat (r : SysRegs) : W64 :=
  (r.cls ++ BitVec.ofBool r.lock ++ BitVec.ofBool r.qmode ++ BitVec.ofBool r.bte ++ BitVec.ofBool r.fve ++ BitVec.ofBool r.dze).setWidth 64
/-- A register of a trap bank: 0 TPC, 1 TCAUSE, 2 TADDR, 3 TSNAP. -/
def TrapBank.read (b : TrapBank) : Nat → W64
  | 0 => b.tpc.setWidth 64
  | 1 => b.causeWord
  | 2 => b.addr
  | _ => b.snap.word
/-- R329: CRGNH. -/
def TrapState.crgnh (t : TrapState) : W64 := match t.regions with | r :: _ => r.handler.setWidth 64 | [] => 0
/-- The access of a system register (Tables 7.5, 13.2, R329): none for an unlisted number, else whether it is RO. -/
def sysAccess (n : Nat) : Option Bool :=
  match n with
  | 0x001 | 0x020 | 0x021 | 0x022 | 0x060 | 0x061 | 0x062 | 0x094 | 0x095 | 0x096 | 0x0A0 => some true
  | 0x000 | 0x002 | 0x010 | 0x011 | 0x012 | 0x013 | 0x018 | 0x019 | 0x01A | 0x01B | 0x030 | 0x031 | 0x032 | 0x050 | 0x058
  | 0x059 | 0x070 | 0x071 | 0x080 | 0x090 | 0x091 | 0x092 | 0x093 => some false
  | n => if 0x040 ≤ n && n < 0x050 then some true else none
/-- The value of a listed system register (Tables 7.5, 13.2, R175). -/
def Pipe.readSys (p : Pipe) (n : Nat) : W64 :=
  match n with
  | 0x000 => p.sys.tstat
  | 0x001 => p.trap.tl.setWidth 64
  | 0x002 => p.sys.thbase.setWidth 64
  | 0x010 | 0x011 | 0x012 | 0x013 => p.trap.bank1.read (n - 0x010)
  | 0x018 | 0x019 | 0x01A | 0x01B => p.trap.bank2.read (n - 0x018)
  | 0x020 => p.trap.crgnh
  | 0x021 => p.trap.crgnc.setWidth 64
  | 0x022 => BitVec.ofNat 64 p.trap.regions.length
  | 0x030 => p.rmode.pack.setWidth 64
  | 0x031 => p.sys.rseed
  | 0x032 => p.sys.fpstat.setWidth 64
  | 0x050 => p.sys.wdti.setWidth 64
  | 0x058 => p.sys.codebase
  | 0x059 => p.sys.mdbase
  | 0x060 => p.sys2.shdmode.setWidth 64
  | 0x061 => p.sys2.shddim.setWidth 64
  | 0x062 => p.sys2.shdblk
  | 0x070 => p.sys2.tickch.setWidth 64
  | 0x071 => (p.sys2.lateq ++ p.sys2.nullq).setWidth 64
  | 0x080 => p.sys.pwstat.setWidth 64
  | 0x090 => (p.regs.ls[0]).setWidth 64
  | 0x091 => (p.regs.ls[1]).setWidth 64
  | 0x092 => (p.regs.lc[0]).setWidth 64
  | 0x093 => (p.regs.lc[1]).setWidth 64
  | 0x094 => p.sys2.cbar
  | 0x095 => p.sys2.sbar
  | 0x096 => p.sys2.spuse.setWidth 64
  | 0x0A0 => p.trap.crgna
  | n => if n < 0x048 then p.sys.pwb.getD (n - 0x040) 0 else (p.sys.pws.getD (n - 0x048) 0).setWidth 64
/-- SRRD (R175). -/
def execSrrd (g : BitVec 4) (e : Bool) (f : BitVec 10) (s : State) : Out :=
  controlClean g e f (fun v s =>
    match sysAccess v.toNat with
    | some _ => s.short .c (.w64 (s.pipe.readSys v.toNat)) 0 none
    | none => s.trapAt .c 0x02 v) s
/-- SRWR (R176): an unlisted number raises 0x02, a read-only one 0x06, after a poisoned value of X is consumed (DESIGN CHOICE log 85). -/
def execSrwr (g : BitVec 4) (e : Bool) (f : BitVec 10) (s : State) : Out :=
  controlClean g e f (fun v s =>
    let x := s.pipe.units.c.x
    s.needClean .c x.poi (f.setWidth 64) fun s =>
      match sysAccess v.toNat with
      | some false => if v = 0x030 then (s.writeRmode x.val).issued else (s.regWrite (.sys v.toNat x.val)).issued
      | some true => s.trapAt .c 0x06 v
      | none => s.trapAt .c 0x02 v) s

/-! ## Fences (R96, R99, R101, R284) -/

/-- R95, R96: whether a scope has the extra action at an acquire. -/
def State.scopeActs (s : State) (scope : BitVec 2) : Bool := 2 ≤ scope.toNat || (scope = 1 && s.product == .hv1x)
/-- FENCE.ACQ (R99). -/
def execFenceAcq (g : BitVec 4) (scope : BitVec 2) (e : Bool) (f : BitVec 10) (s : State) : Out :=
  controlOp g e f (fun _ s =>
    if s.me.acquireWaits then s.hold 0
    else
      let s := s.mergeClasses s.cur
      (if s.scopeActs scope then s.acquireAction s.cur else s).issued) s
/-- FENCE.REL (R99); it waits for every earlier access, which R99 allows (DESIGN CHOICE log 26). -/
def execFenceRel (g : BitVec 4) (_scope : BitVec 2) (e : Bool) (f : BitVec 10) (s : State) : Out :=
  controlOp g e f (fun _ s => if s.me.releaseWaits then s.hold 0 else (s.mergeClasses s.cur).issued) s
/-- FENCE.AR (R99). -/
def execFenceAr (g : BitVec 4) (scope : BitVec 2) (e : Bool) (f : BitVec 10) (s : State) : Out :=
  controlOp g e f (fun _ s =>
    if s.me.releaseWaits then s.hold 0
    else
      let s := s.mergeClasses s.cur
      (if s.scopeActs scope then s.acquireAction s.cur else s).issued) s
/-- XFENCE (R101): later engine commands start at LTIME, which covers every performed access. -/
def execXfence (g : BitVec 4) (e : Bool) (f : BitVec 10) (s : State) : Out :=
  controlOp g e f (fun _ s => if s.me.releaseWaits then s.hold 0 else s.issued) s
/-- PBAR (R284): FENCE.REL.SYS, then every tracked line is written back and durable. After dusk began it never completes. -/
def execPbar (g : BitVec 4) (e : Bool) (f : BitVec 10) (s : State) : Out :=
  controlOp g e f (fun _ s =>
    if s.me.releaseWaits || s.phase == .dusk then s.hold 0
    else if s.me.tracker.isEmpty then (s.mergeClasses s.cur).issued
    else ((s.me.tracker.foldl (fun s l => s.writeBack l) s).trackersClean).hold 0) s

/-! ## Barriers (R124, R300) -/

/-- R112: a word's access waits until its banks are ACTIVE, and starts their exit. -/
def State.bankOpen (s : State) (h : CoreId) (off n : Nat) (act : State → State) : State :=
  if s.banksReady h off n then act s else (s.wakeBanks h off n).hold 0
/-- R113 rows 1 to 3 for a sync-word address: own or peer form, 16-byte aligned. -/
def State.syncTarget (s : State) (slot : Slot) (a : W64) (act : CoreId → Nat → State → State) : State :=
  match s.form s.cur a with
  | .ok (.inl (.sp h off)) => if off % 16 ≠ 0 then s.trapAt slot 0x07 a else act h off s
  | .error e => s.trapAt slot e.1 e.2
  | _ => s.trapAt slot 0x06 a
/-- R124, Table 14.5: an overflowed word raises cause 0x0D; a poisoned one is consumed. -/
def State.syncUse (s : State) (slot : Slot) (a : W64) (h : CoreId) (off : Nat) (act : State → State) : State :=
  s.needClean slot (poisonAt (s.core h).spPoi off 16) a fun s => if (s.syncGet h off).ovf then s.trapAt slot 0x0D a else act s
/-- R300: a card task may not name its crew's barrier words. -/
def State.cardBarrier (s : State) (h : CoreId) (off : Nat) : Bool :=
  s.me.task.card.isSome && [s.pipe.sys2.cbar, s.pipe.sys2.sbar].any fun b => b != 0 && syncAddr s.cur b == (h, off)
/-- A barrier operation: the word X names, its bank (R112), its checks in R300's order. -/
def barrierOp (g : BitVec 4) (e : Bool) (f : BitVec 10) (needsD : Bool) (act : W32 → BitVec 10 → CoreId → Nat → State → State) (s : State) : Out :=
  .next (s.issueMove .c g e f false fun v s =>
    let x := s.pipe.units.c.x
    s.needClean .c (x.poi || v.poiS) (f.setWidth 64) fun s => s.syncTarget .c x.val fun h off s => s.bankOpen h off 16 fun s => s.syncUse .c x.val h off fun s =>
      let go (d : BitVec 10) (s : State) : State :=
        if s.cardBarrier h off then s.trapAt .c 0x06 x.val else act (v.toS.val.setWidth 32) d h off s
      if needsD then s.needD .c go else go 0 s)
/-- BARA (R300): once every other group has reached the bundle, a release arrival of weight F. -/
def execBara (g : BitVec 4) (e : Bool) (f : BitVec 10) (s : State) : Out :=
  barrierOp g e f false (fun w _ h off s =>
    if !s.othersReached || s.me.releaseWaits then s.hold 0
    else
      let s := s.mergeClasses s.cur
      let (ts, s) := s.syncArrive h off w.toNat (ltime s.me.lt)
      (s.setLt s.cur (ltMerge s.me.lt ts)).issued) s
/-- BARA.RLX (R300): a relaxed arrival of weight F. -/
def execBaraRlx (g : BitVec 4) (e : Bool) (f : BitVec 10) (s : State) : Out :=
  barrierOp g e f false (fun w _ h off s =>
    let (ts, s) := s.syncArrive h off w.toNat s.me.lt[0]
    (s.setLt s.cur (s.me.lt.set 0 (max s.me.lt[0] ts))).issued) s
/-- BARW (R300): waits until GEN ≠ F, then acquires. -/
def execBarw (g : BitVec 4) (e : Bool) (f : BitVec 10) (s : State) : Out :=
  barrierOp g e f false (fun w _ h off s =>
    if (s.syncGet h off).gen = w.toNat then s.hold 2 else if s.waitStuck then s.hold 0 else (s.waitDone s.cur h off).issued) s
/-- BART (R300): 8 cycles later D receives whether GEN ≠ F; a true result is an acquire. -/
def execBart (g : BitVec 4) (e : Bool) (f : BitVec 10) (s : State) : Out :=
  barrierOp g e f true (fun w d h off s =>
    ((s.modPipe fun p => { p with longs := p.longs ++ [⟨.c, .w64 0, 0, d, 8, .test h off w (some s.pipe.ib.idx) s.me.seq⟩] }).regWrite (.empty d)).issued) s

/-! ## Forked work, END, ticks, launches (R301 to R310) -/

/-- The peer form of an own scratchpad address; others unchanged (R302). -/
def peerForm (c : CoreId) (a : W64) : W64 := if a.extractLsb' 62 2 = 2 then BitVec.ofNat 64 (3 * 2 ^ 62 + c.num * 2 ^ 24 + a.toNat % 0x800000) else a
/-- R113 rows 1 to 3 for a sync word or JOINW. -/
def State.syncOk (s : State) (a : W64) : Bool :=
  match s.form s.cur a with | .ok (.inl (.sp _ off)) => off % 16 = 0 | _ => false
/-- R113 rows 1 to 3 for an own-scratchpad address of `n` bytes with an alignment. -/
def State.ownRange (s : State) (slot : Slot) (a : W64) (align n : Nat) (act : Nat → State → State) : State :=
  match s.form s.cur a with
  | .ok (.inl (.sp _ off)) =>
    if a.extractLsb' 62 2 ≠ 2 then s.trapAt slot 0x06 a
    else if off % align ≠ 0 then s.trapAt slot 0x07 a
    else if 0x600000 < off + n then s.trapAt slot 0x06 (a + BitVec.ofNat 64 (0x600000 - off))
    else act off s
  | .error e => s.trapAt slot e.1 e.2
  | _ => s.trapAt slot 0x06 a
/-- R113 rows 4 and 5 for `n` bytes of own scratchpad at `off`: class 0 and the banks; else the group holds. -/
def State.ownReady (s : State) (off n : Nat) (act : State → State) : State :=
  if s.me.class0Waits then s.hold 0
  else if !s.banksReady s.cur off n then (s.wakeBanks s.cur off n).hold 0
  else act s
/-- FORK (R302). -/
def execFork (g : BitVec 4) (e : Bool) (f : BitVec 10) (s : State) : Out :=
  controlClean g e f (fun a s => s.ownRange .c a 64 64 fun off s => s.needD .c fun d s => s.ownReady off 64 fun s =>
    let ((bs, bad, lt), s) := s.loadAt s.cur.die s.me.lt[0] (.sp s.cur off) 64
    let s := s.setLt s.cur (s.me.lt.set 0 lt)
    s.needClean .c bad a fun s =>
      let jw := BitVec.ofNat 64 (fld bs 8 8)
      if !zeros bs 4 4 || (jw != 0 && !s.syncOk jw) then s.trapAt .c 0x02 a
      else if 64 ≤ s.me.deque.length then s.accept d false
      else
        let r : TaskRec := { entry := BitVec.ofNat 32 (fld bs 0 4), joinw := peerForm s.cur jw,
                             args := Vector.ofFn fun i => BitVec.ofNat 64 (fld bs (16 + 8 * i.val) 8), after := s.me.seq }
        (s.modMe fun k => { k with deque := r :: k.deque }).accept d true) s
/-- JOIN (R304): waits until COUNT = TARGET. -/
def execJoin (g : BitVec 4) (e : Bool) (f : BitVec 10) (s : State) : Out :=
  controlClean g e f (fun a s => s.syncTarget .c a fun h off s => s.bankOpen h off 16 fun s =>
    s.needClean .c (poisonAt (s.core h).spPoi off 16) a fun s =>
      let w := s.syncGet h off
      if w.arm then s.trapAt .c 0x02 a
      else if w.ovf then s.trapAt .c 0x0D a
      else if w.count ≠ w.target then s.hold 2
      else if s.waitStuck then s.hold 0
      else (s.waitDone s.cur h off).issued) s
/-- YIELD (R307): a bulk job's quantum ends at once if another bulk job waits for cores of its span. -/
def execYield (g : BitVec 4) (e : Bool) (f : BitVec 10) (s : State) : Out :=
  controlOp g e f (fun _ s =>
    let n := s.me.task.job
    if s.pipe.sys.cls = 0 && s.bulkWaitsFor n then (s.modJob n fun j => { j with deficit := min j.deficit 0 }).issued else s.issued) s
/-- R306 step 1, R254: the pending cause of the matrix group that END or a trigger raises first. -/
def State.matrixPending (s : State) : Option (BitVec 8 × W64 × State) :=
  let m := s.me.mx
  match m.pendMeta, m.pendMis, m.pendNv with
  | some (x, a), _, _ => some (x, a, s.modMx fun m => { m with pendMeta := none })
  | none, some (_, a), _ => some (0x0B, a, s.modMx fun m => { m with pendMis := none })
  | none, none, true => some (0x11, 3, s.modMx fun m => { m with pendNv := false })
  | none, none, false => none
/-- R306 step 1, R329: END raises a pending cause with GROUP 2 and SLOT 7; a poisoned metadata word is consumed, and unwinds to an open region. -/
def State.endCause (s : State) (cause : BitVec 8) (a : W64) : State :=
  match s.pipe.trap.regions with
  | r :: rest => if cause = 0x08 && s.pipe.trap.entryDepth < (r :: rest).length then s.unwind a r rest else s.takeTrap 7 2 cause a false
  | [] => s.takeTrap 7 2 cause a false
/-- END (R306). -/
def execEndTask (g : BitVec 4) (e : Bool) (f : BitVec 10) (s : State) : Out :=
  controlOp g e f (fun _ s =>
    match s.matrixPending with
    | some (cause, a, s) => s.endCause cause a
    | none => s.endTask s.cur) s
/-- TICKW (R308): cause 0x02 with TADDR holding TICKCH when no channel is named. -/
def execTickw (g : BitVec 4) (e : Bool) (f : BitVec 10) (s : State) : Out :=
  controlClean g e f (fun v s =>
    let ch := s.pipe.sys2.tickch
    if ch = 0 then s.trapAt .c 0x02 (ch.setWidth 64)
    else match (s.t.ticks[selIx 2 (ch.setWidth 10 - 1)]).last with
      | some n => if (v.setWidth 40).toNat ≤ n then (s.unrefuse s.cur).issued else s.hold 5
      | none => s.hold 5) s
/-- R310: whether STREAM of a record names a stream of the context, or none. -/
def State.streamOk (s : State) (ctx : BitVec 16) (n : Nat) : Bool := n = 0 || s.fw.streams.any fun x => x.1 = n && x.2 == ctx
/-- R112: a record in a scratchpad is read once its banks are ACTIVE. -/
def State.recordOpen (s : State) (l : Loc) (act : State → State) : State := match l with | .sp h off => s.bankOpen h off 256 act | .pa _ => act s
/-- LAUNCH (R310). -/
def execLaunch (g : BitVec 4) (e : Bool) (f : BitVec 10) (s : State) : Out :=
  controlClean g e f (fun a s => s.needD .c fun d s => s.locating .c a 64 .read fun l s =>
    if s.me.releaseWaits then s.hold 0
    else s.recordOpen l fun s =>
      let s := s.mergeClasses s.cur
      match s.readVa s.cur s.me.lt[0] a 256 8 with
      | (.error x, s) => s.trapAt .c x.1 x.2
      | (.ok (bs, bad, lt), s) =>
        let s := s.setLt s.cur (s.me.lt.set 0 lt)
        s.needClean .c bad a fun s =>
          let ctx := s.me.task.ctx
          if !launchValid bs || !s.boxFits (Launch.ofBytes bs) then s.trapAt .c 0x02 a
          else if s.pipe.sys.cls.toNat < (Launch.ofBytes bs).cls.toNat || !s.streamOk ctx (Launch.ofBytes bs).stream then s.trapAt .c 0x06 a
          else if 64 ≤ s.launchQueue ctx then s.accept d false
          else (s.queueJob ctx bs (ltime s.me.lt)).2.accept d true) s

/-! ## Traps, services and regions (R322, R325 to R330) -/

/-- TRAP (R325): cause 0x0E, its bundle issued, TADDR := F. -/
def execTrap (g : BitVec 4) (e : Bool) (f : BitVec 10) (s : State) : Out := controlClean g e f (fun v s => s.trapIssued .c 0x0E v) s
/-- TRET (R322). -/
def execTret (g : BitVec 4) (e : Bool) (f : BitVec 10) (s : State) : Out :=
  controlOp g e f (fun _ s =>
    let t := s.pipe.trap
    let back (b : LateBuf) (n : Nat) (k : TrapBank) (s : State) : State :=
      if t.regions.length ≠ b.crgnd then s.trapAt .c 0x02 (BitVec.ofNat 64 t.regions.length)
      else (((s.modMe Core.unplace).modPipe fun p => p.leave b n k.tpc k.snap.drop).modMe fun k => k.reissue b.waits).setDisp .steered
    match t.tl.toNat, t.buf1, t.buf2 with
    | 1, some b, _ => back b 1 t.bank1 s
    | 2, _, some b => back b 2 t.bank2 s
    | _, _, _ => s.trapAt .c 0x02 0) s
/-- CRGN.OPEN (R330). -/
def execCrgnOpen (g : BitVec 4) (e : Bool) (f : BitVec 10) (s : State) : Out :=
  controlClean g e f (fun v s =>
    if 4 ≤ s.pipe.trap.regions.length then s.trapAt .c 0x02 v
    else
      let r : Region := ⟨v.setWidth 32, s.me.engSeq⟩
      (s.modPipe fun p => { p with trap := { p.trap with regions := r :: p.trap.regions } }).issued) s
/-- CRGN.CLOSE (R330). -/
def execCrgnClose (g : BitVec 4) (e : Bool) (f : BitVec 10) (s : State) : Out :=
  controlOp g e f (fun _ s =>
    let t := s.pipe.trap
    if t.regions.length ≤ t.entryDepth then s.trapAt .c 0x02 (BitVec.ofNat 64 t.regions.length)
    else (s.modPipe fun p => { p with trap := { p.trap with regions := p.trap.regions.drop 1 } }).issued) s
/-- SVC (R326). -/
def execSvc (g : BitVec 4) (e : Bool) (f : BitVec 10) (s : State) : Out :=
  controlOp g e f (fun v s =>
    let u := s.pipe.units.c
    s.needClean .c (v.poi || u.x.poi || u.y.poi) (f.setWidth 64) fun s =>
      if v.val.toNat ≥ 256 then s.trapAt .c 0x02 v.val
      else s.needD .c fun d s =>
        if s.pipe.svc.isSome then s.hold 0
        else ((s.modPipe fun p => { p with svc := some ⟨v.val.setWidth 8, u.x.val, u.y.val, d⟩ }).regWrite (.empty d)).issued) s
/-- ABORT (R327): waits as FENCE.REL.SYS, then kills the context with reason 2 and CODE := F. -/
def execAbort (g : BitVec 4) (e : Bool) (f : BitVec 10) (s : State) : Out :=
  controlOp g e f (fun v s =>
    if s.me.releaseWaits then s.hold 0
    else (s.killContext s.me.task.ctx 2 0 s.cur s.pipe.ib.pc 0 v.val).setDisp .steered) s

end Sys2Proof.Machine
end

