-- ==== Sys2Proof/Machine/Array.lean ====
section
/-! DEFINITION. The matrix array's arithmetic: operand layouts (R228, R229), accumulation (R204), the error bound (R243), tile beats
with their metadata (R237, R242), beat mode's travelling pairs (R241). -/
namespace Sys2Proof.Machine

/-! ## Configuration fields (Table 10.4) -/

/-- AF. -/
def MPorts.af (p : MPorts) : BitVec 3 := p.mcfg.extractLsb' 0 3
/-- BF. -/
def MPorts.bf (p : MPorts) : BitVec 3 := p.mcfg.extractLsb' 4 3
/-- ATYP. -/
def MPorts.atyp (p : MPorts) : Nat := (p.mcfg.extractLsb' 8 2).toNat
/-- BTYP. -/
def MPorts.btyp (p : MPorts) : Nat := (p.mcfg.extractLsb' 10 2).toNat
/-- WIDE. -/
def MPorts.wide (p : MPorts) : Bool := p.mcfg.getLsbD 12
/-- SP. -/
def MPorts.sp (p : MPorts) : Bool := p.mcfg.getLsbD 13
/-- BANK. -/
def MPorts.bank (p : MPorts) : Bool := p.mcfg.getLsbD 14
/-- Width classes of Table 10.1. -/
inductive WClass | w8 | w4 | w16
deriving DecidableEq, Repr
/-- R228: the class of an operand type and its format register. -/
def wclass (typ : Nat) (reg : BitVec 24) : WClass := if typ ≠ 0 then .w16 else if (Fmt.ofReg reg).width ≤ 4 then .w4 else .w8
/-- Beats per tile (Table 10.1). -/
def WClass.beats : WClass → Nat | .w16 => 128 | _ => 256
/-- The K-steps of pushing beat `k` (Table 10.1). -/
def WClass.steps : WClass → Nat → List Nat | .w4, k => [2 * k, 2 * k + 1] | _, k => [k]
/-- Pushing beats of a snapshot (R237). -/
def TileSnap.beats (t : TileSnap) : Nat := if t.ports.mklen = 0 then (wclass t.ports.atyp t.fa).beats else t.ports.mklen.toNat

/-! ## Operands (R229) -/

/-- The data byte, scale byte and the poison of its low and high halves at an offset of the slots from `s` on. -/
def Matrix.opByte (m : Matrix) (s o : Nat) : Nat × Nat × Bool × Bool :=
  let x := m.slot (s + o / 0x8000)
  ((Memory.read x.data (o % 0x8000)).toNat, (Memory.read x.scale (o % 0x8000)).toNat, x.poi.contains (2 * (o % 0x8000)), x.poi.contains (2 * (o % 0x8000) + 1))
/-- R188, R200, R229: the value of a code with its scale. -/
def operandFx (typ : Nat) (reg : BitVec 24) (scale code : Nat) : Fx :=
  match typ with
  | 1 => bf16.decode code
  | 2 => fp16.decode code
  | _ =>
    if scale = 255 then .nan
    else match (Fmt.ofReg reg).decode (code % 2 ^ (Fmt.ofReg reg).width) with
      | .fin n m e => .fin n m (e + scale - 127)
      | x => x
/-- Table 10.2: the element of line `r` at K-step `k`, for an operand `w` elements wide. -/
def Matrix.elem (m : Matrix) (typ : Nat) (reg : BitVec 24) (s w r k : Nat) : Fx × Bool :=
  match wclass typ reg with
  | .w8 => let (d, c, p, q) := m.opByte s (k * w + r); (operandFx typ reg c d, p || q)
  | .w4 =>
    let (d, c, p, q) := m.opByte s (k / 2 * w + r)
    if k % 2 = 0 then (operandFx typ reg c (d % 16), p) else (operandFx typ reg c (d / 16), q)
  | .w16 =>
    let (d0, _, p0, q0) := m.opByte s (k * (2 * w) + 2 * r)
    let (d1, _, p1, q1) := m.opByte s (k * (2 * w) + 2 * r + 1)
    (operandFx typ reg 127 (d0 + 256 * d1), p0 || q0 || p1 || q1)
/-- The column of A at K-step `k`, from the leader's slots. -/
def Matrix.aCol (m : Matrix) (t : TileSnap) (k : Nat) : ACol :=
  Vector.ofFn fun r => m.elem t.ports.atyp t.fa t.ports.msla.toNat 256 r.val k
/-- The row of B at K-step `k`, from a member's slot. -/
def Matrix.bRow (m : Matrix) (t : TileSnap) (k : Nat) : BRow :=
  Vector.ofFn fun n => m.elem t.ports.btyp t.fb t.ports.mslb.toNat 128 n.val k
/-- The pairs of a pushing beat: A columns of beat `ka` of `lead`, B rows of beat `kb` of `m`. -/
def beatOps (lead m : Matrix) (t : TileSnap) (ka kb : Nat) : List (ACol × BRow) :=
  let c := wclass t.ports.atyp t.fa
  ((c.steps ka).zip (c.steps kb)).map fun q => (lead.aCol t q.1, m.bRow t q.2)

/-! ## Accumulation (R204) -/

/-- A computation's exact result as a value, with its invalid flag. -/
def Res.fx : Res → Fx × Flags
  | .nan => (.nan, 0)
  | .nv => (.nan, fNV)
  | .inf n => (.inf n, 0)
  | .dz n => (.inf n, 0)
  | .ex x => (.fin x.neg x.m x.e, 0)
/-- The exact product of element (i, j): one K-step, or the sum of a fused pair's two; with NV where invalid. -/
def beatProduct (ops : List (ACol × BRow)) (i : Fin 256) (j : Fin 128) : Fx × Flags :=
  match ops.map fun (q : ACol × BRow) => (fxMulRes (q.1[i]).1 (q.2[j]).1).fx with
  | [] => (.fin false 0 0, 0)
  | p :: r => r.foldl (fun (a b : Fx × Flags) => let (x, f) := (fxAdd false a.1 b.1).fx; (x, a.2 ||| b.2 ||| f)) p
/-- Whether element (i, j) takes poison from a pair (R256). -/
def beatPoison (ops : List (ACol × BRow)) (i : Fin 256) (j : Fin 128) : Bool :=
  ops.any fun (q : ACol × BRow) => (q.1[i]).2 || (q.2[j]).2
/-- The flags accumulation can set (R256). -/
def accFlags : Flags := fNV ||| fNAN ||| fOF
/-- Normal mode: acc := RNE(acc + P, fp32). -/
def macNormal (acc : W32) (p : Fx × Flags) : W32 × Flags :=
  let (c, f) := rne (fxAdd false (fx32 acc) p.1)
  (c, (f ||| p.2) &&& accFlags)
/-- Wide mode on (hi, lo). -/
def macWide (hi lo : W32) (p : Fx × Flags) : W32 × W32 × Flags :=
  let x := fxAdd false (fx32 hi) p.1
  let (sum, f) := rne x
  let lo' := match x, fx32 sum with
    | .ex v, .fin n m e => (rne (fxAdd false (fx32 lo) ((fxAdd false (.fin v.neg v.m v.e) (.fin (!n) m e)).fx).1)).1
    | _, .fin _ _ _ => lo
    | _, _ => 0
  (sum, lo', (f ||| p.2) &&& accFlags)
/-- The bank of a number. -/
def Matrix.bank (m : Matrix) (b : Bool) : Bank := if b then m.bank1 else m.bank0
/-- Replaces a bank. -/
def Matrix.setBank (m : Matrix) (b : Bool) (x : Bank) : Matrix := if b then { m with bank1 := x } else { m with bank0 := x }
/-- Changes a bank. -/
def Matrix.modBank (m : Matrix) (b : Bool) (f : Bank → Bank) : Matrix := m.setBank b (f (m.bank b))
/-- What one element adds in a beat: nothing, or an exact product with its poison. -/
abbrev Adds := Fin 256 → Fin 128 → Option ((Fx × Flags) × Bool)
/-- R204: every element of bank `b` accumulates what the beat brings it, with the other bank as its lo parts in wide mode. -/
def Matrix.accumulate (m : Matrix) (b wide : Bool) (p : Adds) : Matrix × Flags :=
  let B := m.bank b
  let L := m.bank (!b)
  let r : Vector (Vector (W32 × W32 × Flags) 128) 256 := Vector.ofFn fun i => Vector.ofFn fun j =>
    let hi := (B.acc[i])[j]
    let lo := (L.acc[i])[j]
    match p i j with
    | none => (hi, lo, 0)
    | some (x, _) => if wide then macWide hi lo x else let (c, f) := macNormal hi x; (c, lo, f)
  let poi : Vector (BitVec 128) 256 := Vector.ofFn fun i =>
    B.poi[i] ||| BitVec.ofNat 128 ((List.finRange 128).foldl (fun n (j : Fin 128) => match p i j with
      | some (_, true) => n + 2 ^ j.val
      | _ => n) 0)
  let m := m.setBank b { B with acc := r.map fun v => v.map fun x => x.1, poi := poi }
  let m := if wide then m.setBank (!b) { L with acc := r.map fun v => v.map fun x => x.2.1 } else m
  (m, r.foldl (fun f v => v.foldl (fun f x => f ||| x.2.2) f) 0)

/-! ## The bound (R243) -/

/-- The largest of the magnitudes, +∞ for a NaN. -/
def maxAbs (l : List (Fx × Bool)) : Fx :=
  l.foldl (fun a x => match x.1.abs with
    | .nan => .inf false
    | y => if fxLt a y then y else a) (.fin false 0 0)
/-- A product of bounds: +∞·0 is 0. -/
def boundMul (a b : Fx) : Fx := match fxMul a b with | some x => x | none => .fin false 0 0
/-- An exact sum of bounds. -/
def boundAdd (a b : Fx) : Fx := ((fxAdd false a b).fx).1
/-- Whether a value is finite. -/
def Fx.isFin : Fx → Bool | .fin _ _ _ => true | _ => false
/-- What a pair brings to the bound. -/
def beatBound (ops : List (ACol × BRow)) (bia bib : W32) : BeatBound :=
  let am := ops.map fun q => maxAbs q.1.toList
  let bm := ops.map fun q => maxAbs q.2.toList
  let zero : Fx := .fin false 0 0
  if (am ++ bm).all Fx.isFin then
    { term := ((am.zip bm).map fun q => boundMul q.1 q.2).foldl boundAdd zero, amax := am.foldl boundAdd zero,
      bmax := bm.foldl boundAdd zero, np := ops.length, bia := bia, bib := bib }
  else { term := .inf false, amax := .inf false, bmax := .inf false, np := ops.length, bia := bia, bib := bib }
/-- R243, R256: bank `b` updates its bound; a poisoned operand makes it +∞. -/
def Matrix.bound (m : Matrix) (b wide : Bool) (x : BeatBound) (bad : Bool) : Matrix :=
  let B := m.bank b
  let s := ruRes (fxAdd false (fx32 B.s) x.term)
  let ua : Fx := .fin false 1 (if wide then -48 else -24)
  let parts := [boundMul ua (fx32 s), .fin false 1 (-150), boundMul (fx32 x.bia) x.bmax, boundMul (fx32 x.bib) x.amax,
    boundMul (.fin false x.np 0) (boundMul (fx32 x.bia) (fx32 x.bib))]
  let bnd := ruRes (parts.foldl boundAdd (fx32 B.bnd)).res
  m.setBank b { B with s := s, bnd := if bad then inf32 else bnd }
/-- Whether any element of a beat is poisoned. -/
def opsBad (ops : List (ACol × BRow)) : Bool := ops.any fun q => q.1.toList.any (·.2) || q.2.toList.any (·.2)

/-! ## Members and banks -/

/-- The cores whose arrays an operation of core `c` steers (R253). -/
def State.members (s : State) (c : CoreId) : List CoreId :=
  (List.range (s.core c).mx.width).map fun g => CoreId.mk' c.die (c.num + g)
/-- Changes the matrix array of a core. -/
def State.modMxOf (s : State) (c : CoreId) (f : Matrix → Matrix) : State := s.modCore c fun k => { k with mx := f k.mx }
/-- Changes the arrays of every member of core `c`'s group. -/
def State.modMembers (s : State) (c : CoreId) (f : Matrix → Matrix) : State := (s.members c).foldl (fun s m => s.modMxOf m f) s
/-- R239: a bank zeroed, with the other bank of its wide pair (`both`); the states are set at issue (R240). -/
def Matrix.zeroBank (m : Matrix) (b both : Bool) : Matrix :=
  let z (x : Bank) : Bank := { Bank.zero with st := x.st }
  let m := m.modBank b z
  if both then m.modBank (!b) z else m
/-- R240: whether a bank belongs to a wide pair. -/
def Bank.wide (x : Bank) : Bool := x.st == .hi || x.st == .lo
/-- R240: the states of a bank and its pair become FREE. -/
def Matrix.freeBank (m : Matrix) (b both : Bool) : Matrix :=
  let z (x : Bank) : Bank := { x with st := .free }
  let m := m.modBank b z
  if both then m.modBank (!b) z else m

/-! ## Tile beats (R237, R242) -/

/-- What a tile's next beat gives. -/
inductive BeatOut
  /-- the beat ran, with the flags it raised; the next MPC -/
  | ran (mpc : W32) (f : Flags) (s : State)
  /-- the stream ended early, its last word consumed -/
  | ended (mpc : W32) (s : State)
  /-- the metadata word stops the tile: a cause and its TADDR -/
  | stopped (x : BitVec 8) (a : W64) (s : State)
/-- R46: the metadata word at MPC = `n` of core `c`, its poison, or a cause, with the word's address. -/
def State.metaWord (s : State) (c : CoreId) (n : W32) : (Except (BitVec 8) (BitVec 24 × Bool) × W64) × State :=
  let a := (s.core c).pipe.sys.mdbase + n.setWidth 64 * 3
  match s.readVa c (s.core c).lt[0] a 3 4 with
  | (.error e, s) => ((.error e.1, a), s)
  | (.ok (bs, bad, _), s) => ((.ok (BitVec.ofNat 24 (natOfBytes bs), bad), a), s)
/-- R47: whether a valid-marked word is an invalid one for a class. -/
def metaBad (cls : WClass) (w : BitVec 24) : Bool := w.extractLsb' 0 15 != 0 || cls.beats ≤ (w.extractLsb' 15 8).toNat
/-- A pair pushed on every member of core `c`'s group, A line `ka`, B line `kb`, accumulating into bank `b` at once. -/
def State.push (s : State) (c : CoreId) (t : TileSnap) (b wide : Bool) (ka kb : Nat) : Flags × State :=
  let lead := (s.core c).mx
  ((s.members c).zip (List.range 4)).foldl (fun (acc : Flags × State) q =>
    let m := (acc.2.core q.1).mx
    let ops := beatOps lead m t ka kb
    let (m, f) := m.accumulate b wide fun i j => some (beatProduct ops i j, beatPoison ops i j)
    (acc.1 ||| f, acc.2.modMxOf q.1 fun _ => m.bound b wide (beatBound ops t.bia (t.bib.getD q.2 0)) (opsBad ops))) (0, s)
/-- R237: beat `n` of a tile of core `c`, its metadata word at `mpc` where SP = 1. -/
def State.tileBeat (s : State) (c : CoreId) (t : TileSnap) (wide : Bool) (n : Nat) (mpc : W32) : BeatOut :=
  let b := t.ports.bank
  if !t.ports.sp then
    let (f, s) := s.push c t b wide n n
    .ran mpc f s
  else match s.metaWord c mpc with
    | ((.error x, a), s) => .stopped x a s
    | ((.ok (w, bad), a), s) =>
      if bad then .stopped 0x08 a s
      else if !w.getLsbD 23 then .ended (mpc + 1) s
      else if metaBad (wclass t.ports.atyp t.fa) w then .stopped 0x02 a s
      else
        let (f, s) := s.push c t b wide (w.extractLsb' 15 8).toNat n
        .ran (mpc + 1) f s
/-- R237: BIA and BIB of the members at a tile's start. -/
def State.inputBounds (s : State) (c : CoreId) (t : TileSnap) : State :=
  ((s.members c).zip (List.range 4)).foldl (fun s q => s.modMxOf q.1 fun m => { m with bia := t.bia, bib := t.bib.getD q.2 0 }) s
/-- Every beat of a tile from beat `n` on: the flags, or the cause that stops it. -/
def State.runTile (s : State) (c : CoreId) (t : TileSnap) (wide : Bool) : Nat → Nat → W32 → Flags → Except Err Flags × State
  | 0, _, _, f => (.ok f, s)
  | fuel + 1, n, mpc, f =>
    if t.beats ≤ n then (.ok f, s)
    else match s.tileBeat c t wide n mpc with
      | .ran mpc f' s => s.runTile c t wide fuel (n + 1) mpc (f ||| f')
      | .ended _ s => (.ok f, s)
      | .stopped x a s => (.error (x, a), s)

/-! ## Beat mode (R241) -/

/-- The pair that element (i, j) holds at the present count: none is a pair of zeros. -/
def Matrix.held (m : Matrix) (i : Fin 256) (j : Fin 128) : Option BeatPair := m.pairs.find? fun p => p.t + i.val + j.val = m.beat
/-- What a shifting beat brings: element (i, j) adds the pair that reaches it, if it is accumulating. -/
def Matrix.arriving (m : Matrix) : Adds := fun i j =>
  match m.held i j with
  | some p => if p.acc then some (beatProduct p.ops i j, beatPoison p.ops i j) else none
  | none => none
/-- What MB.A brings: every element's held product. -/
def Matrix.heldProducts (m : Matrix) : Adds := fun i j =>
  match m.held i j with
  | some p => some (beatProduct p.ops i j, beatPoison p.ops i j)
  | none => some ((.fin false 0 0, 0), false)
/-- Whether the next shifting beat, or the pair it pushes, accumulates anywhere. -/
def Matrix.shiftAccumulates (m : Matrix) (acc : Bool) : Bool := acc || m.pairs.any fun p => p.acc && m.beat + 1 ≤ p.t + 382
/-- The greater of two values. -/
def fxMax (x y : Fx) : Fx := if fxLt x y then y else x
/-- Of what two pairs bring to the bound, what comes with the larger term; with equal terms the larger of each part. -/
def BeatBound.larger (x y : BeatBound) : BeatBound :=
  if fxLt x.term y.term then y
  else if fxLt y.term x.term then x
  else { term := x.term, amax := fxMax x.amax y.amax, bmax := fxMax x.bmax y.bmax, np := max x.np y.np, bia := maxBound x.bia y.bia, bib := maxBound x.bib y.bib }
/-- What the travelling pair with the largest term brings to the bound (R241 item 3, R243); zeros where none travels. -/
def Matrix.travelling (m : Matrix) : BeatBound × Bool :=
  m.pairs.foldl (fun (acc : BeatBound × Bool) p => (acc.1.larger p.b, acc.2 || opsBad p.ops))
    (({ term := .fin false 0 0, amax := .fin false 0 0, bmax := .fin false 0 0, np := 0, bia := 0, bib := 0 } : BeatBound), false)
/-- A shifting beat that pushes a pair: the count advances and the pairs that have left every element are forgotten. -/
def Matrix.shift (m : Matrix) (acc : Bool) (ops : List (ACol × BRow)) (x : BeatBound) (b wide : Bool) : Matrix × Flags :=
  let t := m.beat + 1
  let m := { m with beat := t, pairs := ((m.pairs ++ [({ t := t, acc := acc, ops := ops, b := x } : BeatPair)]).filter fun p => t ≤ p.t + 382) }
  m.accumulate b wide m.arriving

end Sys2Proof.Machine
end

