-- ==== Sys2Proof/Machine/Matrix.lean ====
section
/-! DEFINITION. The matrix slot M: configuration (R230), tiles and their checks (R231, R237), banks (R239, R240), beats (R241), claims
(R235), bounds (R244 to R246), drains (R247), re-check (R250 to R252), grouping (R253), status (R254, R255). -/
namespace Sys2Proof.Machine

/-! ## Operations of the slot in general -/

/-- An M-slot operation on the 64-bit value of F. -/
def matrixOp (g : BitVec 4) (e : Bool) (f : BitVec 10) (act : SVal → State → State) (s : State) : Out :=
  .next (s.issueMove .m g e f false fun v s => act v.toS s)
/-- A configuration port (R230, Table 14.5): a poisoned value is consumed; else the port takes it at issue. -/
def matrixPort (g : BitVec 4) (e : Bool) (f : BitVec 10) (set : W64 → MPorts → MPorts) (s : State) : Out :=
  matrixOp g e f (fun v s => s.needClean .m v.poi (f.setWidth 64) fun s =>
    (s.modMx fun m => { m with ports := set v.val m.ports }).issued) s
/-- A trap 0x02 with TADDR the byte address of the trigger's parcel. -/
def State.badTrigger (s : State) : State := s.trapAt .m 0x02 (s.moveAddr .m)

/-- MCFG (R230). -/
def execMcfg (g : BitVec 4) (e : Bool) (f : BitVec 10) (s : State) : Out := matrixPort g e f (fun v p => { p with mcfg := v.setWidth 15 }) s
/-- MSLA (R230). -/
def execMsla (g : BitVec 4) (e : Bool) (f : BitVec 10) (s : State) : Out := matrixPort g e f (fun v p => { p with msla := v.setWidth 5 }) s
/-- MSLB (R230). -/
def execMslb (g : BitVec 4) (e : Bool) (f : BitVec 10) (s : State) : Out := matrixPort g e f (fun v p => { p with mslb := v.setWidth 5 }) s
/-- MKLEN (R230). -/
def execMklen (g : BitVec 4) (e : Bool) (f : BitVec 10) (s : State) : Out := matrixPort g e f (fun v p => { p with mklen := v.setWidth 9 }) s
/-- MBTHR (R230). -/
def execMbthr (g : BitVec 4) (e : Bool) (f : BitVec 10) (s : State) : Out := matrixPort g e f (fun v p => { p with mbthr := v.setWidth 32 }) s
/-- MCHK (R230). -/
def execMchk (g : BitVec 4) (e : Bool) (f : BitVec 10) (s : State) : Out :=
  matrixPort g e f (fun v p => { p with mchkN := v.setWidth 11, mchkStep := v.extractLsb' 16 8 }) s
/-- MDTM (R230). -/
def execMdtm (g : BitVec 4) (e : Bool) (f : BitVec 10) (s : State) : Out := matrixPort g e f (fun v p => { p with mdtm := v }) s
/-- MGRP (R230). -/
def execMgrp (g : BitVec 4) (e : Bool) (f : BitVec 10) (s : State) : Out := matrixPort g e f (fun v p => { p with mgrp := v.setWidth 3 }) s

/-! ## Grouping (R253) -/

/-- Whether a core runs a task of the crew of core `c`. -/
def State.sameCrew (s : State) (c d : CoreId) : Bool :=
  let t := (s.core d).task
  (t.st == .running || t.st == .waiting) && t.job = (s.core c).task.job && t.ctx == (s.core c).task.ctx
/-- R253: the cores of a group of width `n` led by core `c`. -/
def groupOf (c : CoreId) (n : Nat) : List CoreId := (List.range n).map fun g => CoreId.mk' c.die (c.num + g)
/-- R253: the group of core `c` forms at, or dissolves to, the width MGRP names: the members take the leader's bank states. -/
def State.formGroup (s : State) (c : CoreId) : State :=
  let lead := (s.core c).mx
  let n := lead.ports.mgrp.toNat
  let s := (s.members c).foldl (fun s m => s.modMxOf m fun x => { x with leader := none, width := 1 }) s
  if n = 1 then s
  else
    let s := (groupOf c n).foldl (fun s m => s.modMxOf m fun x =>
      { x with leader := some c, width := 1, bank0 := { x.bank0 with st := lead.bank0.st }, bank1 := { x.bank1 with st := lead.bank1.st } }) s
    s.modMxOf c fun x => { x with width := n }
/-- R253: whether a group is to form or dissolve at the next queued operation of core `c`. -/
def Core.regroups (k : Core) : Bool := [1, 2, 4].contains k.mx.ports.mgrp.toNat && k.mx.ports.mgrp.toNat ≠ k.mx.width
/-- R253: what stops the formation: 0x06 with a core number, or (none) a member's queue (DEDUCED log 32). -/
def State.formStop (s : State) (c : CoreId) : Option (Option Nat) :=
  let n := (s.core c).mx.ports.mgrp.toNat
  if c.num % n ≠ 0 then some (some c.num)
  else match (groupOf c n).find? fun m => !s.sameCrew c m with
    | some m => some (some m.num)
    | none => if (groupOf c n ++ s.members c).all fun m => (s.core m).mx.queue.isEmpty then none else some none
/-- A queued operation of the current core: a group that MGRP names forms or dissolves first. -/
def State.grouped (s : State) (act : State → State) : State :=
  if !s.me.regroups then act s
  else match s.formStop s.cur with
    | some (some n) => s.trapAt .m 0x06 (BitVec.ofNat 64 n)
    | some none => s.hold 0
    | none => act (s.formGroup s.cur)
/-- R236: an operation enters the sequencer's queue of four, or holds the group. -/
def State.enqueue (s : State) (o : SeqOp) : State :=
  if 4 ≤ s.me.mx.queue.length then s.hold 0 else (s.modMx fun m => { m with queue := m.queue ++ [o] }).issued

/-! ## Tiles (R231, R237, R240, R250) -/

/-- The snapshot of the current core's ports (R230); `w` for MTILE.W. -/
def State.snapshot (s : State) (w : Bool) : TileSnap :=
  let m := s.me.mx
  let p := m.ports
  let a := p.msla.toNat
  { ports := p, fa := s.pipe.fmt p.af, fb := s.pipe.fmt p.bf, wide := w || p.wide || (m.bank p.bank).st == .hi,
    bia := maxBound (m.slot a).bound (m.slot (a + 1)).bound,
    bib := (s.members s.cur).map fun c => ((s.core c).mx.slot p.mslb.toNat).bound, due := false, rel := false }
/-- Table 10.5, order 6: whether the state of bank `b` forbids an accumulating operation. -/
def Matrix.forbids (m : Matrix) (b wide : Bool) : Bool :=
  (m.bank b).st == .lo || (wide && (m.bank b).st != .hi && (m.bank (!b)).st != .free)
/-- R231, Table 10.5, orders 2 to 6: the first check that fails, with its TADDR. -/
def State.tileCheck (s : State) (t : TileSnap) : Option Err :=
  let p := t.ports
  let here := s.moveAddr .m
  let owned (c : CoreId) (n : Nat) : Bool := ((s.core c).mx.slot n).st == .matrix
  let a := p.msla.toNat
  if p.atyp = 3 || p.btyp = 3 || a % 2 ≠ 0 || !([1, 2, 4].contains p.mgrp.toNat) || 1024 < p.mchkN.toNat || (p.mchkN ≠ 0 && p.mchkStep = 0)
  then some (0x02, here)
  else if p.atyp = 0 && !fmtValid t.fa then some (0x0F, p.af.setWidth 64)
  else if p.btyp = 0 && !fmtValid t.fb then some (0x0F, p.bf.setWidth 64)
  else if wclass p.atyp t.fa ≠ wclass p.btyp t.fb || (wclass p.atyp t.fa).beats < p.mklen.toNat then some (0x02, here)
  else if !owned s.cur a then some (0x02, BitVec.ofNat 64 a)
  else if !owned s.cur (a + 1) then some (0x02, BitVec.ofNat 64 (a + 1))
  else if !(s.members s.cur).all fun c => owned c p.mslb.toNat then some (0x02, p.mslb.setWidth 64)
  else if s.me.mx.forbids p.bank t.wide then some (0x02, BitVec.ofNat 64 p.bank.toNat)
  else none
/-- R240: the bank states after an accumulating operation on bank `b`. -/
def Matrix.accumulates (m : Matrix) (b wide : Bool) : Matrix :=
  if wide then (m.modBank b fun x => { x with st := .hi }).modBank (!b) fun x => { x with st := .lo }
  else m.modBank b fun x => { x with st := .live }
/-- R250: the re-check count at a tile: whether the tile is checked, and the array after; a check that cannot be made passes on. -/
def Matrix.checkCount (m : Matrix) (b : Bool) : Bool × Matrix :=
  let n := m.ports.mchkN.toNat
  let count := if n = 0 then m.count else m.count + 1
  let hit := m.now || (n ≠ 0 && n ≤ count)
  let m := { m with count := if hit then 0 else count, now := false }
  if !hit && !m.passed then (false, m)
  else if (m.bank (!b)).st == .free then (true, { m with passed := false })
  else (false, { m with passed := true, sticky := { m.sticky with cdef := true } })
/-- MTILE and MTILE.W: the checks, then the queue. -/
def issueTile (w : Bool) (g : BitVec 4) (e : Bool) (f : BitVec 10) (s : State) : Out :=
  matrixOp g e f (fun _ s => s.grouped fun s =>
    let t := s.snapshot w
    match s.tileCheck t with
    | some x => s.trapAt .m x.1 x.2
    | none =>
      if 4 ≤ s.me.mx.queue.length then s.hold 0
      else
        let b := t.ports.bank
        let s := s.modMembers s.cur fun m => m.accumulates b t.wide
        let (due, m) := s.me.mx.checkCount b
        (s.modMx fun _ => m).enqueue (.tile { t with due := due } 0 0 0)) s
/-- MTILE (R237). -/
def execMtile (g : BitVec 4) (e : Bool) (f : BitVec 10) (s : State) : Out := issueTile false g e f s
/-- MTILE.W (R237). -/
def execMtileW (g : BitVec 4) (e : Bool) (f : BitVec 10) (s : State) : Out := issueTile true g e f s
/-- MZERO (R239): the bank, or its wide pair, becomes FREE. -/
def execMzero (g : BitVec 4) (e : Bool) (f : BitVec 10) (s : State) : Out :=
  matrixOp g e f (fun v s => s.grouped fun s =>
    let b := v.val.getLsbD 0
    let both := (s.me.mx.bank b).wide
    if 4 ≤ s.me.mx.queue.length then s.hold 0
    else (s.modMembers s.cur fun m => m.freeBank b both).enqueue (.zero b both)) s
/-- MCFG with another BANK. -/
def MPorts.setBank (p : MPorts) (b : Bool) : MPorts := { p with mcfg := (p.mcfg &&& 0x3FFF) ||| (BitVec.ofNat 15 b.toNat <<< 14) }
/-- MBANK (R239): operations issued after it take the new bank, so the port changes at issue (DEDUCED log 28). -/
def execMbank (g : BitVec 4) (e : Bool) (f : BitVec 10) (s : State) : Out :=
  matrixOp g e f (fun v s => s.grouped fun s =>
    let b := v.val.getLsbD 0
    if 4 ≤ s.me.mx.queue.length then s.hold 0
    else (s.modMx fun m => { m with ports := m.ports.setBank b }).enqueue (.bank b)) s
/-- MCHK.NOW (R252). -/
def execMchkNow (g : BitVec 4) (e : Bool) (f : BitVec 10) (s : State) : Out :=
  matrixOp g e f (fun _ s => (s.modMx fun m => { m with now := true }).issued) s

/-! ## Beats (R241) -/

/-- R236, R241 item 5: a beat is illegal while the queue holds an operation or the group width is not 1. -/
def State.beatLegal (s : State) (act : State → State) : State :=
  if !s.me.mx.queue.isEmpty || s.me.mx.width ≠ 1 || s.me.mx.ports.mgrp = 2 || s.me.mx.ports.mgrp = 4 then s.badTrigger else act s
/-- The end of a beat: accumulating, it sets the bank states, makes the bank non-replayable and enters its flags. -/
def State.beatDone (s : State) (m : Matrix) (b wide acc : Bool) (f : Flags) : State :=
  let m := if acc then (m.accumulates b wide).modBank b fun x => { x with nonrep := true } else m
  let m := if s.pipe.sys.fve && f &&& fNV != 0 then { m with pendNv := true } else m
  ((s.modMx fun _ => m).addFlags s.cur f).issued
/-- A shifting beat that pushes a pair. -/
def State.shiftBeat (s : State) (t : TileSnap) (acc : Bool) (ops : List (ACol × BRow)) : State :=
  let m := s.me.mx
  let b := t.ports.bank
  let any := m.shiftAccumulates acc
  if any && m.forbids b t.wide then s.trapAt .m 0x02 (BitVec.ofNat 64 b.toNat)
  else
    let x := beatBound ops t.bia (t.bib.getD 0 0)
    let (m, f) := m.shift acc ops x b t.wide
    let m := if acc then m.bound b t.wide x (opsBad ops) else m
    s.beatDone m b t.wide any f
/-- MB.PA and MB.P: the checks of Table 10.5, the push index, the beat (DEDUCED log 30). -/
def pushBeat (acc : Bool) (g : BitVec 4) (e : Bool) (f : BitVec 10) (s : State) : Out :=
  matrixOp g e f (fun v s => s.beatLegal fun s =>
    let t := s.snapshot false
    match s.tileCheck t with
    | some x => s.trapAt .m x.1 x.2
    | none =>
      let cls := wclass t.ports.atyp t.fa
      let m := s.me.mx
      if !t.ports.sp then
        let k := (v.val.extractLsb' 0 9).toNat
        if cls.beats ≤ k then s.badTrigger else s.shiftBeat t acc (beatOps m m t k k)
      else match s.metaWord s.cur m.mpc with
        | ((.error x, a), s) => s.trapAt .m x a
        | ((.ok (w, bad), a), s) =>
          s.needClean .m bad a fun s =>
            let s' := s.modMx fun m => { m with mpc := m.mpc + 1 }
            if !w.getLsbD 23 then s'.shiftBeat t false []
            else if metaBad cls w then s.trapAt .m 0x02 a
            else s'.shiftBeat t acc (beatOps m m t (w.extractLsb' 15 8).toNat (w.extractLsb' 15 8).toNat)) s
/-- MB.PA (R241). -/
def execMbPa (g : BitVec 4) (e : Bool) (f : BitVec 10) (s : State) : Out := pushBeat true g e f s
/-- MB.P (R241). -/
def execMbP (g : BitVec 4) (e : Bool) (f : BitVec 10) (s : State) : Out := pushBeat false g e f s
/-- MB.S (R241): shifts and pushes an empty pair. -/
def execMbS (g : BitVec 4) (e : Bool) (f : BitVec 10) (s : State) : Out :=
  matrixOp g e f (fun _ s => s.beatLegal fun s => s.shiftBeat (s.snapshot false) false []) s
/-- MB.A (R241): every element adds its held product (DEDUCED log 30). -/
def execMbA (g : BitVec 4) (e : Bool) (f : BitVec 10) (s : State) : Out :=
  matrixOp g e f (fun _ s => s.beatLegal fun s =>
    let m := s.me.mx
    let t := s.snapshot false
    let b := t.ports.bank
    if m.forbids b t.wide then s.trapAt .m 0x02 (BitVec.ofNat 64 b.toNat)
    else
      let (x, bad) := m.travelling
      let (m', f) := m.accumulate b t.wide m.heldProducts
      s.beatDone (m'.bound b t.wide x bad) b t.wide true f) s

/-! ## Claims (R235) -/

/-- MCLAIM.A and MCLAIM.B: the slots `l` go to the matrix on every member if READY on all (DEDUCED log 32). -/
def State.claim (s : State) (l : List Nat) (pair : Bool) (set : MPorts → MPorts) (d : BitVec 10) : State :=
  if (s.members s.cur).all fun c => l.all fun n => ((s.core c).mx.slot n).st == .ready then
    let s := s.modMembers s.cur fun m => l.foldl (fun m n => m.setSlot n { m.slot n with st := .matrix, apair := pair }) m
    (s.modMx fun m => { m with ports := set m.ports }).accept d true
  else s.accept d false
/-- MCLAIM.A (R235). -/
def execMclaimA (g : BitVec 4) (e : Bool) (f : BitVec 10) (s : State) : Out :=
  matrixOp g e f (fun v s =>
    let n := (v.val.extractLsb' 0 5)
    if n.getLsbD 0 then s.badTrigger
    else s.needD .m fun d s => s.claim [n.toNat, n.toNat + 1] true (fun p => { p with msla := n }) d) s
/-- MCLAIM.B (R235). -/
def execMclaimB (g : BitVec 4) (e : Bool) (f : BitVec 10) (s : State) : Out :=
  matrixOp g e f (fun v s => s.needD .m fun d s =>
    let n := v.val.extractLsb' 0 5
    s.claim [n.toNat] false (fun p => { p with mslb := n }) d) s
/-- Whether a tile's snapshot names a slot. -/
def TileSnap.names (t : TileSnap) (l : List Nat) : Bool :=
  l.contains t.ports.msla.toNat || l.contains (t.ports.msla.toNat + 1) || l.contains t.ports.mslb.toNat
/-- R232, R245 item 4: slots that the matrix owns become EMPTY with bound 0; recorded and queued tiles that name them are marked. -/
def Matrix.release (m : Matrix) (l : List Nat) : Matrix :=
  let l := l.filter fun n => (m.slot n).st == .matrix
  let m := l.foldl (fun m n => m.setSlot n { m.slot n with st := .empty, bound := 0, apair := false, done := false }) m
  let mark (x : Bank) : Bank := { x with nonrep := x.nonrep || x.tiles.any fun q => q.1.names l }
  { m with bank0 := mark m.bank0, bank1 := mark m.bank1,
           queue := m.queue.map fun o => match o with
             | .tile t n p fl => .tile { t with rel := t.rel || t.names l } n p fl
             | o => o }
/-- MREL (R235) (DEDUCED log 32). -/
def execMrel (g : BitVec 4) (e : Bool) (f : BitVec 10) (s : State) : Out :=
  matrixOp g e f (fun v s =>
    let n := (v.val.extractLsb' 0 5).toNat
    if v.val.getLsbD 5 && n % 2 = 1 then s.badTrigger
    else
      let both := v.val.getLsbD 5 || (s.me.mx.slot n).apair
      let l := if both then [n / 2 * 2, n / 2 * 2 + 1] else [n]
      (s.modMembers s.cur fun m => m.release l).issued) s

/-! ## Bound registers (R244) -/

/-- Table 10.12: the value of a selector on one array. -/
def Matrix.boundReg (m : Matrix) (n : Nat) : Option W32 :=
  match n with
  | 0 => some m.bank0.bnd | 1 => some m.bank1.bnd | 2 => some m.bank0.s | 3 => some m.bank1.s
  | 4 => some m.bia | 5 => some m.bib | 6 => some m.ports.mbthr
  | n => if 0x20 ≤ n && n < 0x40 then some (m.slot (n - 0x20)).bound else none
/-- Whether a queued operation changes a selector's register. -/
def SeqOp.changes (o : SeqOp) (n : Nat) : Bool :=
  match o with
  | .tile t _ _ _ => n < 6 && (n = 4 || n = 5 || t.wide || t.due || t.ports.bank = (n % 2 = 1))
  | .zero b both => n < 4 && (both || b = (n % 2 = 1))
  | .bank _ => false
  | .drain d => n < 4 && d.zr && (d.wide || d.bank = (n % 2 = 1))
/-- MBND.RD (R244): while grouped a BND or S is the largest over the members. -/
def execMbndRd (g : BitVec 4) (e : Bool) (f : BitVec 10) (s : State) : Out :=
  matrixOp g e f (fun v s =>
    let n := (v.val.extractLsb' 0 8).toNat
    match s.me.mx.boundReg n with
    | none => s.trapAt .m 0x02 (BitVec.ofNat 64 n)
    | some x =>
      if s.me.mx.queue.any fun o => o.changes n then s.hold 0
      else
        let all := if n < 4 then (s.members s.cur).map fun c => ((s.core c).mx.boundReg n).getD 0 else [x]
        s.short .m (.w64 ((all.foldl maxBound (all.headD x)).setWidth 64)) 0 none) s
/-- MBND.WR (R244). -/
def execMbndWr (g : BitVec 4) (e : Bool) (f : BitVec 10) (s : State) : Out :=
  matrixOp g e f (fun v s =>
    let n := (v.val.extractLsb' 0 8).toNat
    let x := s.pipe.units.m.x
    if (s.me.mx.boundReg n).isNone || (4 ≤ n && n ≤ 6) then s.trapAt .m 0x02 (BitVec.ofNat 64 n)
    else s.needClean .m x.poi (f.setWidth 64) fun s =>
      if !s.me.mx.queue.isEmpty then s.hold 0
      else
        let w := bound32 (x.val.setWidth 32)
        (s.modMx fun m =>
          if n < 2 then m.modBank (n = 1) fun k => { k with bnd := w, nonrep := true }
          else if n < 4 then m.modBank (n = 3) fun k => { k with s := w, nonrep := true }
          else m.setSlot (n - 0x20) { m.slot (n - 0x20) with bound := w }).issued) s

/-! ## Re-run and threshold (R245, R246) -/

/-- R256: the flags of a completed operation enter FPSTAT; NV under FVE is held for the next trigger. -/
def State.seqFlags (s : State) (c : CoreId) (f : Flags) : State :=
  let s := s.addFlags c f
  if (s.core c).pipe.sys.fve && f &&& fNV != 0 then s.modMxOf c fun m => { m with pendNv := true } else s

/-- R245: whether bank `b` can be re-run. -/
def Matrix.replayable (m : Matrix) (b : Bool) : Bool :=
  (m.bank b).st == .live && !(m.bank b).nonrep && (m.bank b).tiles.length ≤ 16
/-- R245: every recorded tile again, wide: the flags, or the cause that stops one. -/
def State.runTiles (s : State) (c : CoreId) : List (TileSnap × W32) → Flags → Except Err Flags × State
  | [], f => (.ok f, s)
  | (t, mpc) :: r, f =>
    let a := t.ports.msla.toNat
    let m := (s.core c).mx
    let t' := { t with bia := maxBound (m.slot a).bound (m.slot (a + 1)).bound,
                       bib := (s.members c).map fun k => ((s.core k).mx.slot t.ports.mslb.toNat).bound }
    match (s.inputBounds c t').runTile c t' true (t'.beats + 1) 0 mpc f with
    | (.ok f, s) => s.runTiles c r f
    | (.error e, s) => (.error e, s)
/-- R245: the re-run of bank `b` of the current core's group. -/
def State.rerun (s : State) (b : Bool) : Except Err Flags × State :=
  let rec' := (s.me.mx.bank b).tiles
  let s := s.modMembers s.cur fun m => (m.zeroBank b true).accumulates b true
  let (r, s) := s.runTiles s.cur rec' 0
  (r, s.modMembers s.cur fun m => (m.modBank b fun x => { x with tiles := rec' }))
/-- The fp32 value of element (i, j) of a bank, rounded from its pair when HI (R204), and its poison. -/
def Matrix.value (m : Matrix) (b wide : Bool) (i : Fin 256) (j : Fin 128) : W32 × Bool :=
  let hi := ((m.bank b).acc[i])[j]
  let lo := ((m.bank (!b)).acc[i])[j]
  let bad := ((m.bank b).poi[i]).getLsbD j.val
  (if wide then (rne (fxAdd false (fx32 hi) (fx32 lo))).1 else hi, bad)
/-- The greater of a magnitude so far and |v|, +∞ for a NaN (DEDUCED log 31). -/
def maxMag (a v : W32) : W32 :=
  match (fx32 v).abs with
  | .nan => inf32
  | .inf _ => inf32
  | x => if fxLt (fx32 a) x then v &&& 0x7FFFFFFF else a
/-- R246: the drain bound of one array: BND_b, or of a HI bank RU(BND_b + tmax·2^−24 + 2^−150). -/
def drainBound (bnd : W32) (wide : Bool) (tmax : W32) : W32 :=
  if wide then ruRes ([boundMul (fx32 tmax) (.fin false 1 (-24)), .fin false 1 (-150)].foldl boundAdd (fx32 bnd)).res else bnd
/-- R246: BND_d exceeds BTHR; a NaN threshold is never exceeded. -/
def exceeds (bnd thr : W32) : Bool := fxLt (fx32 thr) (fx32 bnd)

/-! ## Drains (R247 to R249) -/

/-- The member and column of column `j` of a group's result. -/
def memberCol (j : Nat) : Nat × Fin 128 := (j / 128, ⟨j % 128, Nat.mod_lt _ (by decide)⟩)
/-- A row of an array. -/
def rowIx (i : Nat) : Fin 256 := ⟨i % 256, Nat.mod_lt _ (by decide)⟩
/-- R247: the columns of row `i` that have addresses, with them. -/
def TMap.drainRow (m : TMap) (org : W64) (width i : Nat) : List (Nat × W64) :=
  let w := m.dims[1].win
  let h := m.dims[2].win
  (List.range (min (128 * width) m.dims[0].win)).filterMap fun j => (m.at org #v[j, i % w, i / w % h, i / (w * h)]).map fun a => (j, a)
/-- R247: Vr, the rows a drain writes. -/
def TMap.drainRows (m : TMap) : Nat := m.dims[1].win * m.dims[2].win * m.dims[3].win
/-- The location of an element of `n` bytes as the member that holds column `j` sees it: form, alignment, translation. -/
def State.drainLoc (s : State) (lead : CoreId) (j n : Nat) (a : W64) : Except Err Loc × State :=
  let c := CoreId.mk' lead.die (lead.num + j / 128)
  match s.form c a with
  | .error e => (.error e, s)
  | .ok _ => if a.toNat % n ≠ 0 then (.error (0x07, a), s) else s.locate c a .write
/-- The locations of a row, or the first cause. -/
def State.drainLocs (s : State) (lead : CoreId) (n : Nat) : List (Nat × W64) → Except Err (List (Nat × Loc)) × State
  | [] => (.ok [], s)
  | (j, a) :: r =>
    match s.drainLoc lead j n a with
    | (.error e, s) => (.error e, s)
    | (.ok l, s) =>
      match s.drainLocs lead n r with
      | (.error e, s) => (.error e, s)
      | (.ok ls, s) => (.ok ((j, l) :: ls), s)
/-- The locations of every row. -/
def State.drainAll (s : State) (lead : CoreId) (n : Nat) : List (List (Nat × W64)) → Except Err (List (List (Nat × Loc))) × State
  | [] => (.ok [], s)
  | r :: rs =>
    match s.drainLocs lead n r with
    | (.error e, s) => (.error e, s)
    | (.ok x, s) =>
      match s.drainAll lead n rs with
      | (.error e, s) => (.error e, s)
      | (.ok xs, s) => (.ok (x :: xs), s)
/-- Whether an operation of the queue works on bank `b`. -/
def SeqOp.uses (o : SeqOp) (b : Bool) : Bool :=
  match o with
  | .tile t _ _ _ => t.wide || t.due || t.ports.bank = b
  | .zero x both => both || x = b
  | .bank _ => false
  | .drain d => d.wide || d.bank = b
/-- R248: the drain bounds of the members for the rows to be written. -/
def State.drainBounds (s : State) (b wide : Bool) (rows : List (List (Nat × W64))) : List W32 :=
  (s.members s.cur).zip (List.range 4) |>.map fun q =>
    let m := (s.core q.1).mx
    let tmax := if wide then (rows.zip (List.range rows.length)).foldl (fun a (r : List (Nat × W64) × Nat) =>
        r.1.foldl (fun a x => if (memberCol x.1).1 = q.2 then maxMag a (m.value b wide (rowIx r.2) (memberCol x.1).2).1 else a) a) (0 : W32)
      else 0
    drainBound (m.bank b).bnd wide tmax
/-- The bytes a drain writes for an element (R247). -/
def DrainKind.size : DrainKind → BitVec 2 → Nat
  | .cvt, t => if t = 2 then 1 else 2
  | _, _ => 4
/-- R251, R256: the causes a drain of bank `b` raises first. -/
def State.drainPending (s : State) (b : Bool) : Option (BitVec 8 × W64 × State) :=
  let m := s.me.mx
  match m.pendMis with
  | some (x, a) => if x = b then some (0x0B, a, s.modMx fun m => { m with pendMis := none })
    else if m.pendNv then some (0x11, 3, s.modMx fun m => { m with pendNv := false }) else none
  | none => if m.pendNv then some (0x11, 3, s.modMx fun m => { m with pendNv := false }) else none
/-- Table 10.15: the 0x02 conditions on a map and its rows. -/
def drainMapBad (k : DrainKind) (typ : BitVec 2) (m : TMap) (reg : BitVec 24) (rows : List (List (Nat × W64))) : Bool :=
  let esize : Nat := match k with | .cvt => if typ = 2 then 0 else 1 | _ => 2
  256 < m.drainRows || m.esize != esize
  || (k == .cvt && typ == 2 && fmtValid reg && fmtScale reg != 0)
  || ((k == .add || k == .addc) && rows.any fun r => match r with
    | [] => false
    | (_, a) :: q => q.any fun x => x.2.toNat / 4096 != a.toNat / 4096)
/-- R247: a drain enters the queue and takes the task's next number (R249); its bank is FREE once ZR has run (R240). One that converts under MODE 4 takes its
draws of stream 2 now (R197). -/
def State.queueDrain (s : State) (d : Drain) : State :=
  let s := if d.zr then s.modMembers s.cur fun m => m.freeBank d.bank d.wide else s
  let s := s.modMe fun k => { k with seq := k.seq + 1 }
  let s := if d.kind = .cvt && d.rm = 4 then
      s.modPipe fun p => { p with sys2 := { p.sys2 with rng := p.sys2.rng.set 2 (rngDraws (d.rows.foldl (fun n r => n + r.length) 0) d.rng).2 } }
    else s
  s.enqueue (.drain d)
/-- R246: the threshold at a drain: it runs, is run again first, or traps (DEDUCED log 31). -/
def State.threshold (s : State) (b : Bool) (rows : List (List (Nat × W64))) (act : Bool → List W32 → State → State) : State :=
  let wide (s : State) : Bool := (s.me.mx.bank b).st == .hi
  let bs := s.drainBounds b (wide s) rows
  let thr := s.me.mx.ports.mbthr
  let above (l : List W32) : Bool := l.any fun x => exceeds x thr
  let bex (s : State) : State := s.modMx fun m => { m with sticky := { m.sticky with bex := true } }
  if !above bs then act (wide s) bs s
  else if !s.pipe.sys.bte && wide s then act true bs (bex s)
  else if !s.pipe.sys.bte && s.me.mx.replayable b && (s.me.mx.bank (!b)).st == .free then
    if !s.me.mx.queue.isEmpty then s.hold 0
    else match s.rerun b with
      | (.error e, _) => s.trapAt .m e.1 e.2
      | (.ok f, s) =>
        let s := (s.modMx fun m => { m with sticky := { m.sticky with rrun := true } }).seqFlags s.cur f
        let bs := s.drainBounds b true rows
        act true bs (if above bs then bex s else s)
  else s.trapAt .m 0x0A (((bs.foldl maxBound (bs.headD 0)) ++ (BitVec.ofNat 32 b.toNat)).setWidth 64)
/-- The four drains (R247): the checks of Table 10.15, the waits, the threshold, the queue (DEDUCED log 31). -/
def issueDrain (k : DrainKind) (g : BitVec 4) (e : Bool) (f : BitVec 10) (s : State) : Out :=
  matrixOp g e f (fun v s => s.grouped fun s =>
    let u := s.pipe.units.m
    s.needClean .m (v.poi || u.x.poi || u.y.poi) (f.setWidth 64) fun s =>
      let b := v.val.getLsbD 0
      let typ : BitVec 2 := u.y.val.setWidth 2
      if v.val.extractLsb' 2 62 ≠ 0 || (k == .cvt && typ == 3) then s.badTrigger
      else if (s.me.mx.bank b).st == .lo then s.trapAt .m 0x02 (BitVec.ofNat 64 b.toNat)
      else s.readMap .m s.me.mx.ports.mdtm 0x02 fun m s =>
        let c := s.cur
        let width := s.me.mx.width
        let reg := s.pipe.fmt m.freg
        let rows := if 256 < m.drainRows then [] else (List.range m.drainRows).map fun i => m.drainRow u.x.val width i
        if drainMapBad k typ m reg rows then s.badTrigger
        else if k == .cvt && typ == 2 && !fmtValid reg then s.trapAt .m 0x0F (m.freg.setWidth 64)
        else match s.drainAll c (k.size typ) rows with
          | (.error x, s) => s.trapAt .m x.1 x.2
          | (.ok locs, s) =>
            let tix := u.y.val.extractLsb' 32 32
            let entries := if m.btab = 0 then [] else (List.range width).map fun g => (128 * g, m.btab + (tix.setWidth 64 + BitVec.ofNat 64 g) * 4)
            match s.drainLocs c 4 entries with
            | (.error x, s) => s.trapAt .m x.1 x.2
            | (.ok ents, s) =>
              if 4 ≤ s.me.mx.queue.length || s.me.mx.queue.any fun o => o.uses b then s.hold 0
              else match s.drainPending b with
                | some (x, a, s) => s.trapAt .m x a
                | none => s.threshold b rows fun wide bs s =>
                  s.queueDrain
                    { kind := k, bank := b, wide := wide, zr := v.val.getLsbD 1, typ := typ, clamp := u.y.val.setWidth 32 &&& 0x7FFFFFFF,
                      fmt := reg, rm := s.pipe.rmode.mode, row := 0, rows := locs, entry := ents.map fun x => some x.2, pos := some s.pipe.ib.idx,
                      seq := s.me.seq, rng := s.pipe.sys2.rng[2], bndd := bs,
                      seen := List.replicate width ((0 : W32), false), flags := 0 }) s
/-- MDRN.ST (R247). -/
def execMdrnSt (g : BitVec 4) (e : Bool) (f : BitVec 10) (s : State) : Out := issueDrain .st g e f s
/-- MDRN.CVT (R247). -/
def execMdrnCvt (g : BitVec 4) (e : Bool) (f : BitVec 10) (s : State) : Out := issueDrain .cvt g e f s
/-- MDRN.ADD (R247). -/
def execMdrnAdd (g : BitVec 4) (e : Bool) (f : BitVec 10) (s : State) : Out := issueDrain .add g e f s
/-- MDRN.ADDC (R247). -/
def execMdrnAddc (g : BitVec 4) (e : Bool) (f : BitVec 10) (s : State) : Out := issueDrain .addc g e f s

/-- A class-0 write of the task of core `c` at a location: its class path takes the timestamp (R93), and the refused mark goes (R138). -/
def State.storeClass0 (s : State) (c : CoreId) (l : Loc) (bs : List Byte) (bad : Bool) : State :=
  let (l, s) := (s.unrefuse c).forWrite l
  let k := s.core c
  let (ts, s) := s.storeAt c.die k.task.ctx k.lt[0] l bs bad
  (s.setLt c ((s.core c).lt.set 0 ts)).track c l
/-- MB.D (R241 item 4): one row of a bank, written as MDRN.ST writes it (DEDUCED log 30). -/
def execMbD (g : BitVec 4) (e : Bool) (f : BitVec 10) (s : State) : Out :=
  matrixOp g e f (fun v s => s.beatLegal fun s =>
    let x := s.pipe.units.m.x
    s.needClean .m (v.poi || x.poi) (f.setWidth 64) fun s =>
      let b := v.val.getLsbD 8
      let i := (v.val.extractLsb' 0 8).toNat
      if (s.me.mx.bank b).st == .lo then s.trapAt .m 0x02 (BitVec.ofNat 64 b.toNat)
      else s.readMap .m s.me.mx.ports.mdtm 0x02 fun m s =>
        if drainMapBad .st 0 m 0 [] then s.badTrigger
        else match s.drainLocs s.cur 4 (if i < m.drainRows then m.drainRow x.val 1 i else []) with
          | (.error y, s) => s.trapAt .m y.1 y.2
          | (.ok locs, s) =>
            if !s.writesReady s.cur (locs.map (·.2)) 4 then (s.readyWrites s.cur (locs.map (·.2)) 4).hold 0 else
            let mx := s.me.mx
            (locs.foldl (fun s q =>
              let w := mx.value b ((mx.bank b).st == .hi) (rowIx i) (memberCol q.1).2
              s.storeClass0 s.cur q.2 (bytesOfNat 4 w.1.toNat) w.2) s).issued) s

/-! ## Waiting and status (R254, R255) -/

/-- MWAIT (R254). -/
def execMwait (g : BitVec 4) (e : Bool) (f : BitVec 10) (s : State) : Out :=
  matrixOp g e f (fun _ s =>
    if !s.me.mx.queue.isEmpty then s.hold 0
    else match s.matrixPending with
      | some (x, a, s) => s.trapAt .m x a
      | none => s.issued) s
/-- Bank states as MSTAT codes them. -/
def BankSt.code : BankSt → BitVec 2 | .free => 0 | .live => 1 | .hi => 2 | .lo => 3
/-- Table 10.16. -/
def Matrix.status (m : Matrix) : W64 :=
  (m.sticky.crot ++ (0 : BitVec 1) ++ m.sticky.ccol ++ m.sticky.crow ++ (0 : BitVec 3) ++ BitVec.ofBool m.leader.isSome ++ m.bank1.st.code
    ++ m.bank0.st.code ++ BitVec.ofBool m.sticky.cdef ++ BitVec.ofBool m.sticky.cmis ++ BitVec.ofBool m.sticky.rrun
    ++ BitVec.ofBool m.sticky.bex ++ BitVec.ofNat 3 m.queue.length ++ BitVec.ofBool !m.queue.isEmpty).setWidth 64
/-- R255: the sticky fields cleared. -/
def MSticky.clear (x : MSticky) : MSticky := { x with cdef := false, cmis := false, rrun := false, bex := false }
/-- MSTAT (R255). -/
def execMstat (g : BitVec 4) (e : Bool) (f : BitVec 10) (s : State) : Out :=
  .next (s.issueMove .m g e f true fun v s =>
    let w := s.me.mx.status
    let s := if v.toS.val.getLsbD 0 then s.modMx fun m => { m with sticky := m.sticky.clear } else s
    s.short .m (.w64 w) 0 none)

end Sys2Proof.Machine
end

