-- ==== Sys2Proof/Machine/Sequencer.lean ====
section
/-! DEFINITION. The macro sequencer's steps (R236 to R239, R247, R250, R257), the group's formation (R253), and the completion of an operand-slot
load (R232, R233). -/
namespace Sys2Proof.Machine

/-! ## Which operation runs (R236) -/

/-- R236: whether an operation may run while an earlier one is still queued: a drain beside tiles of the other bank. -/
def SeqOp.beside (o p : SeqOp) : Bool :=
  match o, p with
  | .drain d, .tile t _ _ _ => d.bank != t.ports.bank && !d.wide && !t.wide && !t.due
  | .tile t _ _ _, .drain d => d.bank != t.ports.bank && !d.wide && !t.wide && !t.due
  | _, _ => false
/-- The place in the queue of the first operation of a kind, if it may run. -/
def runnable (q : List SeqOp) (k : SeqOp → Bool) : Option Nat :=
  (List.range q.length).find? fun i => match q[i]? with
    | some o => k o && (q.take i).all fun p => o.beside p
    | none => false
/-- R257, R286, R319, R324: whether the sequencer of a core runs: no trap level, no pending metadata cause, a task, what its END left, or drains that
accesses to be performed before a save wait for (R249, R312). -/
def Core.sequences (k : Core) : Bool :=
  k.pipe.trap.tl == 0 && k.mx.pendMeta.isNone
  && (k.task.st == .running || k.task.st == .waiting || k.task.st == .ended || (k.task.st == .stopping && k.drainsPending && !k.reqs.isEmpty))
/-- Removes operation `i` from the queue. -/
def Matrix.leave (m : Matrix) (i : Nat) : Matrix := { m with queue := m.queue.eraseIdx i }

/-! ## Tiles -/

/-- R250: the next rotation. -/
def nextRot (rot step : BitVec 8) : BitVec 8 := if rot + step = 0 then step else rot + step
/-- R251: what the comparison of a checked tile of bank `b` leaves, with rot already advanced: nothing where the passes agree, else the
record of MSTAT and the pending cause with its TADDR. -/
def Matrix.compared (m : Matrix) (b : Bool) (x : Option (BitVec 8 × BitVec 7)) : Matrix :=
  match x with
  | none => m
  | some (i, j) =>
    { m with sticky := { m.sticky with cmis := true, crot := m.rot, ccol := j, crow := i },
             pendMis := some (b, (m.rot ++ (0 : BitVec 1) ++ j ++ i).setWidth 64) }
/-- R250, R251: a checked tile on bank `b` of core `c` has rotated, leaves the borrowed bank zeroed, and its passes are compared: whether a
fault of the array showed is a free value (DESIGN CHOICE log 29). -/
def State.tileChecked (s : State) (c : CoreId) (b : Bool) (step : BitVec 8) : State :=
  let n := s.free
  let s := (s.drawFree).2.modMembers c fun m => m.modBank (!b) fun x => { Bank.zero with st := x.st }
  s.modMxOf c fun m => ({ m with rot := nextRot m.rot step }).compared b (Config.passDiffers n)
/-- R237, R250: a tile is complete: it joins the replay record of its bank; members other than the leader keep no record (DEDUCED log 32). -/
def State.tileDone (s : State) (c : CoreId) (i : Nat) (t : TileSnap) (mpc0 : W32) (f : Flags) : State :=
  let b := t.ports.bank
  let s := (s.members c).foldl (fun s k => s.modMxOf k fun m => m.modBank b fun x =>
    if k = c then { x with tiles := x.tiles ++ [(t, mpc0)], nonrep := x.nonrep || t.rel } else { x with nonrep := true }) s
  let s := if t.due then s.tileChecked c b t.ports.mchkStep else s
  (s.modMxOf c fun m => m.leave i).seqFlags c f
/-- One beat of the tile at place `i` of core `c`'s queue. A metadata cause waits for the matrix group (R242); a task that has ended has none, and its tile is
dropped (R306). -/
def State.stepTile (s : State) (c : CoreId) (i : Nat) (t : TileSnap) (n : Nat) (mpc0 : W32) (f : Flags) : State :=
  let mpc := (s.core c).mx.mpc
  let mpc0 := if n = 0 then mpc else mpc0
  let s := if n = 0 then s.inputBounds c t else s
  match s.tileBeat c t t.wide n mpc with
  | .ran mpc f' s =>
    let s := s.modMxOf c fun m => { m with mpc := mpc }
    if t.beats ≤ n + 1 then s.tileDone c i t mpc0 (f ||| f')
    else s.modMxOf c fun m => { m with queue := m.queue.set i (.tile t (n + 1) mpc0 (f ||| f')) }
  | .ended mpc s => (s.modMxOf c fun m => { m with mpc := mpc }).tileDone c i t mpc0 f
  | .stopped x a s =>
    if (s.core c).task.st == .ended then s.modMxOf c fun m => m.leave i else s.modMxOf c fun m => { m with pendMeta := some (x, a) }
/-- TILE_EXECUTION (R237): the sequencer runs the next beat of its tile. -/
def execTileExecution (s : State) : Out :=
  let c := s.cur
  if !s.me.sequences || s.phase == .dusk then .next s
  else match runnable s.me.mx.queue fun o => match o with | .tile _ _ _ _ => true | _ => false with
    | none => .next s
    | some i =>
      match s.me.mx.queue[i]? with
      | some (.tile t n mpc0 f) => .next (s.stepTile c i t n mpc0 f)
      | _ => .next s

/-! ## Banks -/

/-- MZERO_EXECUTION (R239). -/
def execMzeroExecution (s : State) : Out :=
  if !s.me.sequences || s.phase == .dusk then .next s
  else match s.me.mx.queue with
    | .zero b both :: _ => .next ((s.modMembers s.cur fun m => m.zeroBank b both).modMx fun m => m.leave 0)
    | _ => .next s
/-- MBANK_EXECUTION (R239): the queued MBANK completes; MCFG.BANK has its value since the issue (DEDUCED log 28). -/
def execMbankExecution (s : State) : Out :=
  if !s.me.sequences || s.phase == .dusk then .next s
  else match s.me.mx.queue with
    | .bank _ :: _ => .next (s.modMx fun m => m.leave 0)
    | _ => .next s

/-! ## Drains -/

/-- SAT(v, −c, c) of an fp32 value; a NaN on either side leaves `v` (R247). -/
def clampAbs (v c : W32) : W32 :=
  match fx32 v, fx32 c with
  | .nan, _ => v
  | _, .nan => v
  | x, y => if fxLt y x then c else if fxLt x y.neg then c ||| 0x80000000 else v
/-- The format MDRN.CVT converts to (R247). -/
def Drain.dest (d : Drain) : Fmt := if d.typ = 0 then bf16 else if d.typ = 1 then fp16 else Fmt.ofReg d.fmt
/-- A drain's next draw where its mode is stochastic (R197). -/
def Drain.draw (d : Drain) : Nat × Drain :=
  if d.rm ≠ 4 then (0, d)
  else
    let (ds, x) := rngDraws 1 d.rng
    (ds.headD 0, { d with rng := x })
/-- What a member's rows have given so far, after an element: its magnitude and whether it saturated. -/
def seenAdd (l : List (W32 × Bool)) (g : Nat) (v : W32) (sat : Bool) : List (W32 × Bool) :=
  l.set g (let x := l.getD g (0, false); (maxMag x.1 v, x.2 || sat))
/-- R247: one element of a drain: the drain's record and the state after its write. -/
def State.drainElem (s : State) (c : CoreId) (d : Drain) (q : Nat × Loc) : Drain × State :=
  let (g, j) := memberCol q.1
  let m := (s.core (CoreId.mk' c.die (c.num + g))).mx
  let (v, bad) := m.value d.bank d.wide (rowIx d.row) j
  match d.kind with
  | .st => ({ d with seen := seenAdd d.seen g v false }, s.storeClass0 c q.2 (bytesOfNat 4 v.toNat) bad)
  | .cvt =>
    let (k, d) := d.draw
    let F := d.dest
    let (code, f, ovf) := (fx32 v).res.code F d.rm.toNat k
    let sat := ovf || (match fx32 v with | .inf _ => F.spec ≠ 0 || F.exp = 0 | _ => false)
    ({ d with seen := seenAdd d.seen g v sat, flags := d.flags ||| f }, s.storeClass0 c q.2 (bytesOfNat (d.kind.size d.typ) code) bad)
  | _ =>
    let (l, s) := s.forWrite q.2
    let (bs, bad') := s.homeBytes l 4
    let (x, f) := fadd32 (BitVec.ofNat 32 (natOfBytes bs)) v
    let w := if d.kind = .addc then clampAbs x d.clamp else x
    ({ d with seen := seenAdd d.seen g x false, flags := d.flags ||| f }, s.storeClass0 c l (bytesOfNat 4 w.toNat) (bad || bad'))
/-- R248: the bound entry of a member with drain bound `b`, given what its rows gave and the entry before. -/
def Drain.boundEntry (d : Drain) (b : W32) (seen : W32 × Bool) (old : W32) : W32 :=
  let sum (l : List Fx) : W32 := ruRes (l.foldl boundAdd (fx32 b)).res
  match d.kind with
  | .st => b
  | .cvt =>
    let F := d.dest
    let near : Int := if d.rm = 0 then 1 else 0
    if seen.2 then inf32
    else if F.exp = 0 then sum [.fin false 1 (-F.bias - near)]
    else sum [boundMul (fx32 seen.1) (.fin false 1 (-(F.man : Int) - near)), .fin false 1 (1 - F.bias - F.man - near)]
  | _ => ruRes ([fx32 old, boundMul (fx32 seen.1) (.fin false 1 (-24)), .fin false 1 (-150)].foldl boundAdd (fx32 b)).res
/-- R248: the bound entries of a drain, one a member (DEDUCED log 31). -/
def State.boundEntries (s : State) (c : CoreId) (d : Drain) : State :=
  (d.entry.zip (List.range 4)).foldl (fun s q =>
    match q.1 with
    | none => s
    | some l =>
      let (l, s) := s.forWrite l
      let (bs, bad) := s.homeBytes l 4
      let w := d.boundEntry (d.bndd.getD q.2 0) (d.seen.getD q.2 (0, false)) (BitVec.ofNat 32 (natOfBytes bs))
      s.storeClass0 c l (bytesOfNat 4 w.toNat) ((d.kind == .add || d.kind == .addc) && bad)) s
/-- The part of a row that is written now, and the rest: all of it, but of a row with more tier-3 lines than a tracker holds what the tracker has room for (R283 rule 4,
DEDUCED log 54). -/
def Core.rowPart (k : Core) (r : List (Nat × Loc)) : List (Nat × Loc) × List (Nat × Loc) :=
  let lines (n : Nat) : Nat := (k.newLines3 ((r.take n).map (·.2))).length
  if lines r.length ≤ 256 then (r, [])
  else
    let n := (List.range r.length).countP fun i => k.tracker.length + lines (i + 1) ≤ 256
    r.splitAt n
/-- The next row of the drain at place `i`, or its end: the bound entries, and the zeroing. Writes whose banks or tracker lines are not ready wait (R112,
R283); what a task that has ended owes may then be due. -/
def State.stepDrain (s : State) (c : CoreId) (i : Nat) (d : Drain) : State :=
  match d.rows with
  | row :: rest =>
    let (r, left) := (s.core c).rowPart row
    if (r.isEmpty && !row.isEmpty) || !s.writesReady c (r.map (·.2)) (d.kind.size d.typ) then s.readyWrites c (row.map (·.2)) (d.kind.size d.typ) else
    let (d, s) := r.foldl (fun (a : Drain × State) q => a.2.drainElem c a.1 q) (d, s)
    s.modMxOf c fun m => { m with queue := m.queue.set i (.drain (if left.isEmpty then { d with rows := rest, row := d.row + 1 } else { d with rows := left :: rest })) }
  | [] =>
    let ls := d.entry.filterMap id
    if !s.writesReady c ls 4 then s.readyWrites c ls 4 else
    let s := s.boundEntries c d
    let s := if d.zr then s.modMembers c fun m => m.zeroBank d.bank d.wide else s
    ((s.modMxOf c fun m => m.leave i).seqFlags c d.flags).endArrivals c
/-- R97, R249: whether a drain of a core may go on: no earlier class-0 access of the task, a QGET among them, is still to be issued or performed. -/
def Core.drainMay (k : Core) (d : Drain) : Bool := !k.reqBefore d.pos d.seq && !k.getBefore d.pos d.seq && !k.pipe.owesBefore 2 d.pos
/-- DRAIN_EXECUTION (R247 to R249): the next row of the drain that may run, as one indivisible step. -/
def execDrainExecution (s : State) : Out :=
  let c := s.cur
  if !s.me.sequences || s.phase == .dusk then .next s
  else match runnable s.me.mx.queue fun o => match o with | .drain _ => true | _ => false with
    | none => .next s
    | some i =>
      match s.me.mx.queue[i]? with
      | some (.drain d) => .next (if s.me.drainMay d then s.stepDrain c i d else s)
      | _ => .next s

/-! ## Groups -/

/-- The ports of queued operations (R236). -/
def queuedPorts : List Nat := [0x110, 0x111, 0x112, 0x113, 0x118, 0x119, 0x11A, 0x11B]
/-- Whether the matrix group of a core stands at a queued operation. -/
def Core.atQueued (k : Core) : Bool :=
  match k.pipe.stream.at (k.pipe.pos 2) with
  | some d => d.moves.any fun m => m.1 == .m && queuedPorts.contains (toOf m.2)
  | none => false
/-- GROUP_FORMATION (R253): the leader at a queued operation after a write of MGRP forms or dissolves its group once its
members' queues are empty. -/
def execGroupFormation (s : State) : Out :=
  if s.me.atQueued && s.me.regroups && (s.formStop s.cur).isNone && s.me.pipe.trap.tl == 0 then .next (s.formGroup s.cur) else .next s

/-! ## Operand-slot loads (R232 to R234) -/

/-- A load into slots begins (Table 10.6). -/
def OSlot.begin (x : OSlot) : OSlot := if x.st = .loading then x else { x with st := .loading, done := false }
/-- The first pending MOPLD of a kind leaves a slot. -/
def OSlot.complete (x : OSlot) (last pair : Bool) : OSlot :=
  ({ x with loads := x.loads.erase (last, pair), done := x.done || last }).settle
/-- MOPLD_COMPLETE (R233): the oldest pending MOPLD of a slot completes. -/
def execMopldComplete (slot : BitVec 5) (s : State) : Out :=
  match (s.me.mx.slot slot.toNat).loads with
  | (last, pair) :: _ =>
    .next (s.modMx fun m => (loadSlots slot.toNat pair).foldl (fun m n => m.setSlot n ((m.slot n).complete last pair)) m)
  | [] => .next s

end Sys2Proof.Machine
end

