-- ==== Sys2Proof/Machine/Triple.lean ====
section
/-! DEFINITION. Triples (R149) and the quantiser (R200 to R203, R226). -/
namespace Sys2Proof.Machine

/-! ## Triples -/

/-- The NaN triple. -/
def nanTriple : Vec := Vec.splat nan32
/-- R149: the weight of a triple with maximum `mi` beside the joint maximum `m`, and its flags. -/
def tripleWeight (mi m : W32) : W32 × Flags :=
  let one : W32 := 0x3F800000
  match fx32 m with
  | .inf _ => (if fx32 mi == .inf false then one else 0, 0)
  | _ =>
    match fx32 mi with
    | .inf _ => (0, 0)
    | x =>
      match fxAdd false x (fx32 m).neg with
      | .ex d => expWeight d.m d.e
      | _ => (0, 0)
/-- R149: `w1·a + w2·b`, rounded once; a term of weight 0 contributes +0. -/
def weighted (w1 a w2 b : W32) : Nat × Flags × Bool :=
  let term (w v : W32) : Fx := if w = 0 then .fin false 0 0 else (fxMul (fx32 w) (fx32 v)).getD .nan
  (fxAdd false (term w1 a) (term w2 b)).code fp32 0 0
/-- R149: SMX of two triples: the result, whether it is the NaN triple, and the flags NX, UF and OF. -/
def smxCombine (a b : Vec) : Vec × Bool × Flags :=
  let hasNan (v : Vec) : Bool := v.toList.any isNan32
  if hasNan a || hasNan b then (nanTriple, true, 0)
  else
    let m1 := Vec.lane a 255
    let m2 := Vec.lane b 255
    let m := if fxTotalLt (fx32 m1) (fx32 m2) then m2 else m1
    if fx32 m == .inf true then ((Vec.zero).set 255 0xFF800000, false, 0)
    else
      let (w1, f1) := tripleWeight m1 m
      let (w2, f2) := tripleWeight m2 m
      let r (j : Nat) : Nat × Flags × Bool := weighted w1 (Vec.lane a j) w2 (Vec.lane b j)
      let v : Vec := Vec.tab fun i => if i.val = 255 then m else w32 (r i.val).1
      let fl := orFlags ((List.range 255).map fun j => (r j).2.1)
      if hasNan v then (nanTriple, true, (f1 ||| f2 ||| fl) &&& (fNX ||| fUF ||| fOF))
      else (v, false, (f1 ||| f2 ||| fl) &&& (fNX ||| fUF ||| fOF))
/-- R224: SMXF: the finalised triple and its flags. -/
def smxFinal (t : Vec) : Vec × Flags :=
  let s := Vec.lane t 254
  let m := Vec.lane t 255
  if t.toList.any isNan32 then (nanTriple, fNAN)
  else if fxEq (fx32 s) (.fin false 0 0) then
    (Vec.tab fun i => if i.val < 254 then 0 else Vec.lane t i.val, if fx32 m == .inf true then 0 else fNV)
  else
    let q (j : Nat) : W32 × Flags := rne (fxDiv (fx32 (Vec.lane t j)) (fx32 s))
    (Vec.tab fun i => if i.val < 254 then (q i.val).1 else Vec.lane t i.val, orFlags ((List.range 254).map fun j => (q j).2 &&& ~~~fDZ))

/-! ## Bytes of a vector -/

/-- Byte `k` of a vector-width value. -/
def vecByte (v : Vec) (k : Nat) : Nat := (Vec.lane v (k / 4)).toNat / 256 ^ (k % 4) % 256
/-- The vector of 1,024 bytes given by number. -/
def vecOfBytes (f : Nat → Nat) : Vec :=
  Vec.tab fun i => BitVec.ofNat 32 (f (4 * i.val) % 256 + 256 * (f (4 * i.val + 1) % 256) + 65536 * (f (4 * i.val + 2) % 256) + 16777216 * (f (4 * i.val + 3) % 256))
/-- A vector from a list of bytes, lowest first. -/
def vecOfByteList (bs : List Byte) : Vec := let a := bs.toArray; vecOfBytes fun k => (a.getD k 0).toNat
/-- The 1,024 bytes of a vector. -/
def vecByteList (v : Vec) : List Byte := (List.range 1024).map fun k => BitVec.ofNat 8 (vecByte v k)

/-! ## The quantiser -/

/-- The exponent floor(log2 |x|) of a finite non-zero fp32 lane. -/
def laneExp (w : W32) : Option Int := match fx32 w with | .fin _ m e => if m = 0 then none else some ((Nat.log2 m : Int) + e) | _ => none
/-- R201: whether each lane starts a block under SCALE = 1 and threshold `t`, from lane `i` on. -/
def blockStarts (t : Nat) : Option Int → List W32 → Bool → List Bool
  | _, [], _ => []
  | ref, w :: r, first =>
    match laneExp w, ref with
    | none, _ => first :: blockStarts t ref r false
    | some e, none => first :: blockStarts t (some e) r false
    | some e, some q => if t < (e - q).natAbs then true :: blockStarts t (some e) r false else first :: blockStarts t ref r false
/-- R201: the lanes that start blocks. -/
def startsOf (reg : BitVec 24) (x : Vec) : List Bool :=
  match fmtScale reg with
  | 1 => blockStarts (fmtJump reg) none x.toList true
  | 2 => (List.range 256).map fun i => i % 32 = 0
  | _ => (List.range 256).map fun i => i = 0
/-- Cuts lanes into blocks at the starts. -/
def cutBlocks : List Bool → List W32 → List (List W32)
  | b :: bs, w :: ws =>
    match cutBlocks bs ws, bs with
    | blk :: rest, false :: _ => (w :: blk) :: rest
    | rest, _ => let _ := b; [w] :: rest
  | _, _ => []
/-- One attempt on a block: each code with its flags and overflow, and the draws left. -/
def quantAttempt (F : Fmt) (mode : Nat) (se : Int) : List W32 → List Nat → List (Nat × Flags × Bool) × List Nat
  | [], ds => ([], ds)
  | w :: ws, ds =>
    let v : Fx := match fx32 w with | .fin n m e => .fin n m (e - se) | x => x
    let r := quantAttempt F mode se ws (ds.drop 1)
    (v.res.code F mode (ds.headD 0) :: r.1, r.2)
/-- R202: attempts on a block from scale `se`, `k` retries left: scale, codes, flags, the stream. In mode 4 each attempt draws
once per element. -/
def quantBlock (F : Fmt) (mode : Nat) (fixed : Bool) (blk : List W32) : Nat → Int → W64 → Int × List Nat × Flags × W64
  | k, se, rng =>
    let (ds, rng) := if mode = 4 then rngDraws blk.length rng else ([], rng)
    let (cs, _) := quantAttempt F mode se blk ds
    let fl := orFlags (cs.map fun c => c.2.1)
    let ovf := cs.any fun c => c.2.2
    if !ovf || fixed || se = 127 then (se, cs.map fun c => c.1, fl ||| flagIf ovf fQOV, rng)
    else match k with
      | 0 => (se, cs.map fun c => c.1, fl ||| fQOV, rng)
      | k + 1 =>
        let (se', codes, fl', rng) := quantBlock F mode fixed blk k (se + 1) rng
        (se', codes, fl ||| fl' ||| fQRT, rng)
/-- R202: the first scale exponent of a block, and QOV where it was clamped at 127. -/
def firstScale (F : Fmt) (fixed : Bool) (blk : List W32) : Int × Flags :=
  if fixed then (0, 0)
  else
    match blk.filterMap laneExp with
    | [] => (0, 0)
    | e :: es =>
      let se := es.foldl max e - F.emax
      if 127 < se then (127, fQOV) else if se < -127 then (-127, 0) else (se, 0)
/-- R202: every block in turn: scales, codes, flags, the stream. -/
def quantAll (F : Fmt) (mode nrt : Nat) (fixed : Bool) : List (List W32) → W64 → List Nat × List Nat × Flags × W64
  | [], rng => ([], [], 0, rng)
  | blk :: rest, rng =>
    let (se, f0) := firstScale F fixed blk
    let (se, codes, fl, rng) := quantBlock F mode fixed blk nrt se rng
    let (ss, cs, fl', rng) := quantAll F mode nrt fixed rest rng
    ((se + 127).toNat :: ss, codes ++ cs, f0 ||| fl ||| fl', rng)
/-- Bits as bytes, bit `i mod 8` of byte `i / 8`. -/
def bitBytes (bs : Array Bool) (k : Nat) : Nat := (List.range 8).foldl (fun n i => n + (bs.getD (8 * k + i) false).toNat * 2 ^ i) 0
/-- R202, R203: QUANT of 256 lanes: the 1 KiB layout, the flags, the stream. -/
def quantise (reg : BitVec 24) (mode : Nat) (x : Vec) (rng : W64) : Vec × Flags × W64 :=
  let F := Fmt.ofReg reg
  let st := startsOf reg x
  let (ss, cs, fl, rng) := quantAll F mode (fmtNrt reg) (fmtScale reg = 0) (cutBlocks st x.toList) rng
  let ca := cs.toArray
  let sa := ss.toArray
  let ba := st.toArray
  (vecOfBytes fun k =>
    if k < 256 then ca.getD k 0
    else if k < 288 then bitBytes ba (k - 256)
    else if k < 544 then sa.getD (k - 288) 0
    else if k < 1020 then 0
    else ss.length / 256 ^ (k - 1020), fl, rng)
/-- R226: the scale code of lane `i` of a quantised register. -/
def scaleOf (reg : BitVec 24) (x : Vec) (i : Nat) : Nat :=
  match fmtScale reg with
  | 0 => 127
  | 2 => vecByte x (288 + i / 32)
  | _ => vecByte x (288 + ((List.range i).countP fun j => (vecByte x (256 + (j + 1) / 8)).testBit ((j + 1) % 8)))
/-- R226: the bytes of a quantised register that the scale of lane `i` is found from: none, or as the format's SCALE has them the bitmap up to the lane and its scale byte. -/
def scaleReads (reg : BitVec 24) (x : Vec) (i : Nat) : List Nat :=
  match fmtScale reg with
  | 0 => []
  | 2 => [288 + i / 32]
  | _ => ((List.range (if i = 0 then 0 else i / 8 + 1)).map (256 + ·)) ++ [288 + ((List.range i).countP fun j => (vecByte x (256 + (j + 1) / 8)).testBit ((j + 1) % 8))]
/-- R226: lane `i` of a dequantised register under a mode with draw `d`. -/
def dequantLane (reg : BitVec 24) (mode d : Nat) (x : Vec) (i : Nat) : W32 × Flags :=
  let F := Fmt.ofReg reg
  let c := scaleOf reg x i
  if c = 255 then (nan32, fNAN)
  else
    let v : Fx := match F.decode (vecByte x i % 2 ^ F.width) with | .fin n m e => .fin n m (e + c - 127) | y => y
    let (r, fl, _) := v.res.code fp32 mode d
    (w32 r, fl)

end Sys2Proof.Machine
end

