-- ==== Sys2Proof/Machine/Copy.lean ====
section
/-! DEFINITION. The copy slots KA and KB: scratchpad rows (R113 to R115), address generators (R119 to R121), sync words (R125 to R127),
channels (R136, R137), ING.POP (R275), operand-slot loads (R233), engine configuration (R128), and the waits that complete later. -/
namespace Sys2Proof.Machine

/-- The unit of a copy slot. -/
def kUnit : KUnit → Unit7 | .ka => .ka | .kb => .kb
/-- The latches and queue of a copy slot. -/
def State.kLatch (s : State) (k : KUnit) : VUnitSt := match k with | .ka => s.pipe.units.ka | .kb => s.pipe.units.kb
/-- A copy-slot operation on the 64-bit value of F. -/
def copyOp (k : KUnit) (g : BitVec 4) (e : Bool) (f : BitVec 10) (act : SVal → State → State) (s : State) : Out :=
  .next (s.issueMove k.slot g e f false fun v s => act v.toS s)
/-- As `copyOp`, for an operation whose F consumes poison (Table 14.5). -/
def copyClean (k : KUnit) (g : BitVec 4) (e : Bool) (f : BitVec 10) (act : W64 → State → State) (s : State) : Out :=
  copyOp k g e f (fun v s => s.needClean k.slot v.poi (f.setWidth 64) fun s => act v.val s) s
/-- Changes a copy slot of the current core. -/
def State.modK (s : State) (k : KUnit) (f : KSlot → KSlot) : State := s.modMe fun c => c.setK k (f (c.kslot k))

/-! ## Rows of own scratchpad (R113 to R115) -/

/-- R113 rows 1 to 3: the offset of `n` bytes of own scratchpad, or the cause. -/
def State.ownAddr (s : State) (a : W64) (align n : Nat) : Except Err Nat :=
  match s.form s.cur a with
  | .error e => .error e
  | .ok (.inl (.sp _ off)) =>
    if a.extractLsb' 62 2 ≠ 2 then .error (0x06, a)
    else if off % align ≠ 0 then .error (0x07, a)
    else if 0x600000 < off + n then .error (0x06, a + BitVec.ofNat 64 (0x600000 - off))
    else .ok off
  | .ok _ => .error (0x06, a)
/-- The offsets of a list of accesses, or the first cause; an access without an address has none. -/
def State.ownAddrs (s : State) (align n : Nat) : List (Option W64) → Except Err (List (Option Nat))
  | [] => .ok []
  | none :: r => (s.ownAddrs align n r).map fun l => none :: l
  | some a :: r =>
    match s.ownAddr a align n with
    | .error e => .error e
    | .ok o => (s.ownAddrs align n r).map fun l => some o :: l
/-- Whether the banks of a list of accesses are ACTIVE; else their exits start. -/
def State.banksFor (s : State) (n : Nat) (l : List (Option Nat)) (act : State → State) : State :=
  if s.me.class0Waits then s.hold 0
  else if l.all fun o => match o with | some o => s.banksReady s.cur o n | none => true then act s
  else (l.foldl (fun s o => match o with | some o => s.wakeBanks s.cur o n | none => s) s).hold 0
/-- R110, R113 row 6: the cycles that a scattered access is held: the largest number of distinct rows touched in one bank, less 1. -/
def rowHold (l : List (Option Nat)) : Nat :=
  let rows := (l.filterMap fun o => o.map (· / 0x800)).eraseDups
  (List.range 48).foldl (fun m b => max m (rows.filter fun r => r / 64 = b).length) 0 - 1
/-- The banks of a scattered access, and its hold (R113 rows 4 to 6). -/
def State.scattered (s : State) (n : Nat) (l : List (Option Nat)) (act : State → State) : State :=
  s.banksFor n l fun s =>
    if s.pipe.stall < rowHold l then (s.modPipe fun p => { p with stall := p.stall + 1 }).hold 0 else act s
/-- A class-0 load of `n` bytes of own scratchpad: bytes and poison. -/
def State.spLoad (s : State) (off n : Nat) : (List Byte × Bool) × State :=
  let ((bs, bad, lt), s') := s.loadAt s.cur.die s.me.lt[0] (.sp s.cur off) n
  ((bs, bad), s'.setLt s.cur (s'.me.lt.set 0 lt))
/-- Loads of `n` bytes each, in order; an element without an address reads as zero. -/
def State.spLoads (s : State) (n : Nat) : List (Option Nat) → List (List Byte × Bool) × State
  | [] => ([], s)
  | none :: r => let (l, s) := s.spLoads n r; ((List.replicate n 0, false) :: l, s)
  | some o :: r =>
    let (x, s) := s.spLoad o n
    let (l, s) := s.spLoads n r
    (x :: l, s)
/-- A class-0 store to own scratchpad; the waits on a word that it writes are for the caller. -/
def State.spStore (s : State) (off : Nat) (bs : List Byte) (bad : Bool) : State :=
  let (ts, s') := s.storeRaw s.cur.die s.me.task.ctx s.me.lt[0] (.sp s.cur off) bs bad
  (s'.setLt s.cur (s'.me.lt.set 0 ts)).unrefuse s.cur
/-- A vector of lanes from loads of at most 4 bytes. -/
def lanesOf (l : List (List Byte × Bool)) : VVal :=
  let a := l.toArray
  ⟨Vec.tab fun i => BitVec.ofNat 32 (natOfBytes (a.getD i.val ([], false)).1), maskOf fun i => (a.getD i.val ([], false)).2⟩
/-- The addresses of 256 lanes. -/
def laneAddrs (f : Fin 256 → W64) : List (Option W64) := (List.finRange 256).map fun i => some (f i)
/-- A short result in a copy slot's queue. -/
def State.copyShort (s : State) (k : KUnit) (v : VVal) : State := s.short (kUnit k) (.vec v) 0 none
/-- SPLD (R114). -/
def execSpld (k : KUnit) (g : BitVec 4) (e : Bool) (f : BitVec 10) (s : State) : Out :=
  copyClean k g e f (fun a s => s.ownRange k.slot a 128 1024 fun off s =>
    let l := (List.range 256).map fun i => some (off + 4 * i)
    s.banksFor 4 l fun s => let (r, s) := s.spLoads 4 l; s.copyShort k (lanesOf r)) s
/-- SPLD.H (R114). -/
def execSpldH (k : KUnit) (g : BitVec 4) (e : Bool) (f : BitVec 10) (s : State) : Out :=
  copyClean k g e f (fun a s => s.ownRange k.slot a 64 512 fun off s =>
    let l := (List.range 256).map fun i => some (off + 2 * i)
    s.banksFor 2 l fun s => let (r, s) := s.spLoads 2 l; s.copyShort k (lanesOf r)) s
/-- SPLD.BC (R114). -/
def execSpldBc (k : KUnit) (g : BitVec 4) (e : Bool) (f : BitVec 10) (s : State) : Out :=
  copyClean k g e f (fun a s => s.ownRange k.slot a 4 4 fun off s =>
    s.banksFor 4 [some off] fun s =>
      let (r, s) := s.spLoad off 4
      s.copyShort k ⟨Vec.splat (BitVec.ofNat 32 (natOfBytes r.1)), maskAll r.2⟩) s
/-- SPLD.G (R114): the X lanes are offsets and consume poison (DEDUCED log 51); the alignment of the base is checked before the lanes' addresses. -/
def execSpldG (k : KUnit) (g : BitVec 4) (e : Bool) (f : BitVec 10) (s : State) : Out :=
  copyClean k g e f (fun a s =>
    let x := (s.kLatch k).x
    s.needClean k.slot (x.poi != 0) (f.setWidth 64) fun s =>
      if a.toNat % 4 ≠ 0 then s.trapAt k.slot 0x07 a
      else match s.ownAddrs 4 4 (laneAddrs fun i => a + (x.val[i]).setWidth 64) with
        | .error c => s.trapAt k.slot c.1 c.2
        | .ok l => s.scattered 4 l fun s => let (r, s) := s.spLoads 4 l; s.copyShort k (lanesOf r)) s
/-- R115: whether the last of some lane stores to the 4 bytes at an offset, if there is one, brings poison. -/
def lastStore (x : VVal) (l : List (Option Nat)) (o : Nat) : Option Bool :=
  ((List.finRange 256).zip l).foldl (fun b q => if q.2 = some o then some (x.poi.getLsbD q.1.val) else b) none
/-- R126: a move has stored `n` bytes at each offset of a list: the waits on the words that it has written take their values. -/
def State.spStored (s : State) (n : Nat) (l : List (Option Nat)) : State :=
  s.bindWaits s.cur fun o => l.any fun x => match x with | some a => o < a + n && a < o + 16 | none => false
/-- Stores of lanes of X with their poison, in lane order, where an offset is given: one write, which clears the poison of a word that it covers whole with
clean lanes (R115). -/
def State.spStores (s : State) (x : VVal) (l : List (Option Nat)) : State :=
  let s := ((List.finRange 256).zip l).foldl (fun s q => match q.2 with
    | some o => s.spStore o (bytesOfNat 4 (x.val[q.1]).toNat) (x.poi.getLsbD q.1.val)
    | none => s) s
  (s.modMe fun k => if k.spPoi.isEmpty then k else
    { k with spPoi := k.spPoi.filter fun w => !(lastStore x l (8 * w) = some false && lastStore x l (8 * w + 4) = some false) }).spStored 4 l
/-- SPST (R115). -/
def execSpst (k : KUnit) (g : BitVec 4) (e : Bool) (f : BitVec 10) (s : State) : Out :=
  copyClean k g e f (fun a s => s.ownRange k.slot a 128 1024 fun off s =>
    let l := (List.range 256).map fun i => some (off + 4 * i)
    s.banksFor 4 l fun s => (s.spStores (s.kLatch k).x l).issued) s
/-- SPST.M (R115): the Y lanes that select consume poison; row 3 of Table 5.2 bounds the lanes that are written (DEDUCED log 61). -/
def execSpstM (k : KUnit) (g : BitVec 4) (e : Bool) (f : BitVec 10) (s : State) : Out :=
  copyClean k g e f (fun a s =>
    let y := (s.kLatch k).y
    s.needClean k.slot (y.poi != 0) (f.setWidth 64) fun s => s.ownRange k.slot a 128 4 fun off s =>
      let l := (List.finRange 256).map fun (i : Fin 256) => if y.val[i] = 0 then none else some (off + 4 * i.val)
      match l.findSome? fun o => o.filter (0x600000 ≤ ·) with
      | some o => s.trapAt k.slot 0x06 (a + BitVec.ofNat 64 (o - off))
      | none => s.banksFor 4 l fun s => (s.spStores (s.kLatch k).x l).issued) s
/-- SPST.S (R115): the Y lanes are offsets and consume poison. -/
def execSpstS (k : KUnit) (g : BitVec 4) (e : Bool) (f : BitVec 10) (s : State) : Out :=
  copyClean k g e f (fun a s =>
    let y := (s.kLatch k).y
    s.needClean k.slot (y.poi != 0) (f.setWidth 64) fun s =>
      match s.ownAddrs 4 4 (laneAddrs fun i => a + (y.val[i]).setWidth 64) with
      | .error c => s.trapAt k.slot c.1 c.2
      | .ok l => s.scattered 4 l fun s => (s.spStores (s.kLatch k).x l).issued) s

/-! ## Address generators (R119 to R121) -/

/-- Changes an address generator. -/
def State.modAg (s : State) (k : KUnit) (n : BitVec 2) (f : AGen → AGen) : State :=
  s.modK k fun x => { x with ag := x.ag.set n.toNat (f (x.ag[n.toNat]'(by omega))) (by omega) }
/-- AG.SETn (R119). An address in peer-scratchpad form, which it does not take, raises 0x06 before the alignment is checked (DESIGN CHOICE log 62). -/
def execAgSet (k : KUnit) (g : BitVec 4) (n : BitVec 2) (e : Bool) (f : BitVec 10) (s : State) : Out :=
  copyClean k g e f (fun a s =>
    if a.extractLsb' 62 2 = 3 then s.trapAt k.slot 0x06 a
    else s.readMap k.slot a 0x07 fun m s => (s.modAg k n fun _ => ⟨some m, 0, 0⟩).issued) s
/-- AG.POSn (R120). -/
def execAgPos (k : KUnit) (g : BitVec 4) (n : BitVec 2) (e : Bool) (f : BitVec 10) (s : State) : Out :=
  copyClean k g e f (fun v s =>
    match (((s.me.kslot k).ag)[n.toNat]'(by omega)).map with
    | none => s.trapAt k.slot 0x02 (s.moveAddr k.slot)
    | some _ => (s.modAg k n fun a => { a with org := v, k := 0 }).issued) s
/-- R121: the elements the next 1 KiB of a walk takes: an address or none for each. -/
def AGen.next (a : AGen) (m : TMap) : List (Option W64) :=
  (List.range (1024 / m.eb)).map fun j => if a.k + j < m.vol then m.addr a.org (a.k + j) else none
/-- A generator of the current core moves on, and what it takes: the checks of R113 on every element's address. -/
def agUse (k : KUnit) (g : BitVec 4) (n : BitVec 2) (e : Bool) (f : BitVec 10)
    (act : TMap → List (Option Nat) → State → State) (s : State) : Out :=
  copyOp k g e f (fun _ s =>
    let ag := ((s.me.kslot k).ag)[n.toNat]'(by omega)
    match ag.map with
    | none => s.trapAt k.slot 0x02 (s.moveAddr k.slot)
    | some m =>
      match s.ownAddrs m.eb m.eb (ag.next m) with
      | .error c => s.trapAt k.slot c.1 c.2
      | .ok l => s.scattered m.eb l fun s =>
        act m l (s.modAg k n fun a => { a with k := min (a.k + 1024 / m.eb) m.vol })) s
/-- SPLD.AGn (R121). -/
def execSpldAg (k : KUnit) (g : BitVec 4) (n : BitVec 2) (e : Bool) (f : BitVec 10) (s : State) : Out :=
  agUse k g n e f (fun m l s =>
    let (r, s) := s.spLoads m.eb l
    let bs := (r.map (·.1)).flatten
    let bad := (r.map fun x => List.replicate m.eb x.2).flatten.toArray
    s.copyShort k ⟨vecOfByteList bs, maskOf fun i => (List.range 4).any fun j => bad.getD (4 * i.val + j) false⟩) s
/-- SPST.AGn (R121): each element is a write of its own, which never covers a poisoned word whole unless it is one (DESIGN CHOICE log 77). -/
def execSpstAg (k : KUnit) (g : BitVec 4) (n : BitVec 2) (e : Bool) (f : BitVec 10) (s : State) : Out :=
  agUse k g n e f (fun m l s =>
    let x := (s.kLatch k).x
    (((l.zip (List.range l.length)).foldl (fun s q => match q.1 with
      | some o => s.spStore o ((List.range m.eb).map fun b => BitVec.ofNat 8 (vecByte x.val (q.2 * m.eb + b))) (x.poi.getLsbD (q.2 * m.eb / 4))
      | none => s) s).spStored m.eb l).issued) s

/-! ## Sync words (R125 to R127) -/

/-- A sync-word operation: its address, R113 rows 1 to 5. -/
def syncOp (k : KUnit) (g : BitVec 4) (e : Bool) (f : BitVec 10) (act : W64 → CoreId → Nat → State → State) (s : State) : Out :=
  copyClean k g e f (fun a s => s.syncTarget k.slot a fun h off s =>
    if s.me.class0Waits then s.hold 0
    else if !s.banksReady h off 16 then (s.wakeBanks h off 16).hold 0
    else act a h off s) s
/-- A class-0 load of the sync word at `off` of core `h` (R89, R93, R127). -/
def State.syncRead (s : State) (h : CoreId) (off : Nat) : SyncWord × State :=
  let ((_, _, lt), t) := s.loadAt s.cur.die s.me.lt[0] (.sp h off) 16
  (s.syncGet h off, t.setLt s.cur (t.me.lt.set 0 lt))
/-- Lane 0 of X, consumed if poisoned (DEDUCED log 52). -/
def State.lane0 (s : State) (k : KUnit) (f : BitVec 10) (act : W32 → State → State) : State :=
  let x := (s.kLatch k).x
  s.needClean k.slot (x.poi.getLsbD 0) (f.setWidth 64) fun s => act (x.val[0]) s
/-- SW.INIT (R125): GEN stays. -/
def execSwInit (k : KUnit) (g : BitVec 4) (e : Bool) (f : BitVec 10) (s : State) : Out :=
  syncOp k g e f (fun _ h off s => s.lane0 k f fun x s =>
    let y := (s.kLatch k).y
    s.needClean k.slot (y.poi.getLsbD 0) (f.setWidth 64) fun s =>
      let t := s.times (.sp h off)
      let ts := max s.me.lt[0] (t.rts + 1)
      let s := s.setTimes (.sp h off) ⟨ts, ts⟩
      let s := s.homeWrite (.sp h off) (bytesOfNat 4 x.toNat ++ bytesOfNat 4 0) false
      let s := s.homeWrite (.sp h (off + 12)) (bytesOfNat 4 (y.val[0] &&& 5).toNat) false
      ((s.setLt s.cur (s.me.lt.set 0 ts)).unrefuse s.cur).issued) s
/-- SW.ADD (R125): a release arrival where the word's REL is 1 (R102). -/
def execSwAdd (k : KUnit) (g : BitVec 4) (e : Bool) (f : BitVec 10) (s : State) : Out :=
  syncOp k g e f (fun a h off s => s.syncUse k.slot a h off fun s => s.lane0 k f fun x s =>
    if (s.syncGet h off).rel then
      if !s.othersReached || s.me.releaseWaits then s.hold 0
      else
        let s := s.mergeClasses s.cur
        let (ts, s) := s.syncArrive h off x.toNat (ltime s.me.lt)
        ((s.setLt s.cur (ltMerge s.me.lt ts)).unrefuse s.cur).issued
    else
      let (ts, s) := s.syncArrive h off x.toNat s.me.lt[0]
      ((s.setLt s.cur (s.me.lt.set 0 (max s.me.lt[0] ts))).unrefuse s.cur).issued) s
/-- A wait of a copy slot issues: it takes the task's next number and its destination empties (R126, R137, R275). -/
def State.addWait (s : State) (k : KUnit) (w : WaitKind) (d : BitVec 10) : State :=
  ((s.modMe fun c => { c with
    pipe := { c.pipe with waits := c.pipe.waits ++ [⟨w, kUnit k, d, some c.pipe.ib.idx, c.seq⟩] }, seq := c.seq + 1 }).regWrite (.empty d)).issued
/-- SW.WAIT (R126): one whose generation has changed at issue has completed there, and takes that generation. -/
def execSwWait (k : KUnit) (g : BitVec 4) (e : Bool) (f : BitVec 10) (s : State) : Out :=
  syncOp k g e f (fun a h off s => s.syncUse k.slot a h off fun s => s.lane0 k f fun x s => s.needD k.slot fun d s =>
    match s.bindWait s.cur a x with
    | (some w, s) => s.addWait k w d
    | (none, s) => s.addWait k (.sw a x) d) s
/-- Lanes 0 on of a result, the rest 0. -/
def firstLanes (l : List W32) : VVal := let a := l.toArray; ⟨Vec.tab fun i => a.getD i.val 0, 0⟩
/-- SW.TEST (R127). -/
def execSwTest (k : KUnit) (g : BitVec 4) (e : Bool) (f : BitVec 10) (s : State) : Out :=
  syncOp k g e f (fun a h off s => s.syncUse k.slot a h off fun s => s.lane0 k f fun x s =>
    let (w, s) := s.syncRead h off
    s.copyShort k (firstLanes [boolWord 32 (w.gen != x.toNat)])) s
/-- SW.RD (R127). -/
def execSwRd (k : KUnit) (g : BitVec 4) (e : Bool) (f : BitVec 10) (s : State) : Out :=
  syncOp k g e f (fun a h off s => s.needClean k.slot (poisonAt (s.core h).spPoi off 16) a fun s =>
    let (w, s) := s.syncRead h off
    s.copyShort k (firstLanes [BitVec.ofNat 32 w.target, BitVec.ofNat 32 w.count, BitVec.ofNat 32 w.gen, w.flags])) s

/-! ## Channels (R135 to R137) -/

/-- Changes channel `ch` of a core. -/
def State.modChan (s : State) (c : CoreId) (ch : BitVec 3) (f : Channel → Channel) : State :=
  s.modCore c fun k => { k with chans := k.chans.set ch.toNat (f (k.chans[ch.toNat]'(by omega))) (by omega) }
/-- Channel `ch` of a core. -/
def State.chan (s : State) (c : CoreId) (ch : BitVec 3) : Channel := (s.core c).chans[ch.toNat]'(by omega)
/-- Messages on their way to a channel. -/
def State.inFlight (s : State) (c : CoreId) (ch : BitVec 3) : Nat := s.link.net.countP fun p => p.dst = c && p.ch == ch
/-- The message of the first sixteen lanes of X. -/
def msgOf (x : VVal) (ts : Nat) : Msg := ⟨Vector.ofFn fun i => Vec.lane x.val i.val, x.poi.setWidth 16, ts⟩
/-- QPUT (R136, Table 5.12). -/
def execQput (k : KUnit) (g : BitVec 4) (e : Bool) (f : BitVec 10) (s : State) : Out :=
  copyClean k g e f (fun a s =>
    let c := CoreId.mk' s.cur.die (a.extractLsb' 0 5).toNat
    let ch := a.extractLsb' 5 3
    if a.extractLsb' 8 56 ≠ 0 || !s.runsCtx c s.me.task.ctx then s.trapAt k.slot 0x06 a
    else s.needD k.slot fun d s =>
      if s.me.class0Waits then s.hold 0
      else
        let m := msgOf (s.kLatch k).x s.me.lt[0]
        let q := s.chan c ch
        match s.ctx s.me.task.ctx with
        | none => s.trapAt k.slot 0x06 a
        | some x =>
          if q.ring.isEmpty && q.msgs.length + s.inFlight c ch < q.cap then
            let p : Packet := { kind := 9, ndata := 1, vc := 0, src := s.cur, dst := c, atDie := s.cur.die, ctx := x.id, kgen := x.kgen, ch := ch, msg := m,
                                card := s.me.task.card.map fun i => (s.me.task.job, i) }
            (({ s with link := { s.link with net := s.link.net ++ [p] } } : State).modCtx x.id fun x => { x with wd := 0 }).accept d true
          else if !x.ashpit then
            (s.modMe fun t => { t with task := { t.task with refused := true } }).accept d false
          else if 64 ≤ x.quota then
            ((s.modChan c ch fun q => { q with ring := q.ring ++ [m] }).modCtx x.id fun x => { x with quota := x.quota - 64, wd := 0 }).accept d true
          else (s.regWrite (.val d (.w64 0))).trapIssued k.slot 0x10 a) s
/-- QGET (R137) (DEDUCED log 51). -/
def execQget (k : KUnit) (g : BitVec 4) (e : Bool) (f : BitVec 10) (s : State) : Out :=
  copyClean k g e f (fun v s =>
    if 8 ≤ v.toNat then s.trapAt k.slot 0x02 v else s.needD k.slot fun d s => s.addWait k (.qget (v.setWidth 3)) d) s

/-! ## ING.POP (R275) -/

/-- The ingest queue of a number. -/
def State.ingest (s : State) (q : Nat) : Option Ingest := s.t.ingest[q % 16]'(Nat.mod_lt _ (by decide))
/-- ING.POP (R275): the checks; the wait then completes it. -/
def execIngPop (k : KUnit) (g : BitVec 4) (e : Bool) (f : BitVec 10) (s : State) : Out :=
  copyClean k g e f (fun v s =>
    let bad := v.extractLsb' 4 12 != 0 || v.extractLsb' 28 36 != 0 || (match s.ingest (v.extractLsb' 0 4).toNat with
      | none => true
      | some q => q.wi ≤ (v.extractLsb' 16 12).toNat)
    if bad then s.trapAt k.slot 0x02 v else s.needD k.slot fun d s => s.addWait k (.ing v none) d) s
/-- The 1588 time in nanoseconds. -/
def State.nowNs (s : State) : Nat := s.t.secs * 1000000000 + s.t.fifths / 5
/-- Tick channel `ch`. -/
def State.tick (s : State) (ch : BitVec 2) : TickCh := s.t.ticks[ch.toNat]'(by omega)
/-- R271: the 1588 time of step `n`. -/
def TickCh.at (t : TickCh) (n : Nat) : Nat := t.phase + n * t.period
/-- R274: whether the deadline of step `n` is reached. -/
def State.deadline (s : State) (ch : BitVec 2) (n : Nat) : Bool := (s.tick ch).at n + (s.tick ch).grace ≤ s.nowNs
/-- STEP, VALID and LATE of a slot (Table 11.8). -/
def slotStep (bs : List Byte) : Nat := fld bs 24 5
/-- VALID. -/
def slotValid (bs : List Byte) : Bool := 128 ≤ fld bs 31 1
/-- LATE. -/
def slotLate (bs : List Byte) : Bool := fld bs 31 1 / 64 % 2 = 1
/-- R273: where slot `i` of a stamp window lies. -/
def Ingest.slotAt (q : Ingest) (i : Nat) : Nat := q.win + 64 * i
/-- A stamp-window slot. -/
def State.slot (s : State) (q : Ingest) (i : Nat) : List Byte := Memory.bytes s.m.mem (q.slotAt i) 64
/-- The poisoned lanes of a slot: all of them where its die is out of service (R161 item 3, DESIGN CHOICE log 74). -/
def State.slotPoi (s : State) (q : Ingest) (i : Nat) : BitVec 256 :=
  (List.range 16).foldl (fun p j => if !s.homeUp (.pa (q.slotAt i)) || poisonAt s.m.poi (q.slotAt i + 4 * j) 4 then p ||| (1 <<< j) else p) 0
/-- The result of ING.POP: the 64 bytes of a slot in lanes 0 to 15. -/
def slotLanes (bs : List Byte) : VVal := ⟨vecOfByteList bs, 0⟩
/-- The null token of step `n`. -/
def nullToken (n : Nat) : VVal := slotLanes (List.replicate 24 0 ++ bytesOfNat 8 (n % 2 ^ 40 + 2 ^ 61) ++ List.replicate 32 0)

/-! ## Waits that complete later (R124, R126, R137, R275) -/

/-- R333: a completed ING.POP is a sink event. -/
def State.ingSink (s : State) (c : CoreId) : State := s.modCtx (s.core c).task.ctx fun x => { x with wd := 0 }
/-- R275: a pending ING.POP completes, or waits, its step fixed once the channel has released a tick. -/
def State.tryIng (s : State) (c : CoreId) (w : Wait) (f : W64) (at0 : Option Nat) : Option Wait × State :=
  match s.ingest (f.extractLsb' 0 4).toNat with
  | none => (some w, s)
  | some q =>
    match (at0.orElse fun _ => (s.tick q.ch).last) with
    | none => (some w, s)
    | some cur =>
      let j := (f.extractLsb' 16 12).toNat
      let n := (BitVec.ofNat 64 cur - BitVec.ofNat 64 j).toNat
      let bs := s.slot q (n % q.wi)
      let hit := slotValid bs && slotStep bs = n && j ≤ cur
      let take (s : State) : Option Wait × State :=
        ((s.ingSink c).readHome c (.pa (q.slotAt (n % q.wi)))).waitTakes c w (.vec { slotLanes bs with poi := s.slotPoi q (n % q.wi) })
      let null (s : State) : State := (s.ingSink c).waitFills c w.dsel (.vec (nullToken n))
      if j = 0 then
        if hit && !slotLate bs then take s
        else if s.deadline q.ch n then
          let s := null s
          (none, s.modPipeOf c fun p => { p with sys2 := { p.sys2 with nullq := p.sys2.nullq ||| (1 <<< (f.extractLsb' 0 4).toNat) } })
        else (some { w with kind := .ing f (some cur) }, s)
      else if hit then take s
      else (none, null s)
/-- A channel after its oldest message is taken: the entry is free; growth returns once it is empty (R138), at once, though messages may be on their way to
it (DESIGN CHOICE log 63). -/
def State.takeMsg (s : State) (c : CoreId) (ch : BitVec 3) : State :=
  let q := s.chan c ch
  let rest := q.msgs.drop 1
  if rest.isEmpty && 16 < q.cap then
    (s.modChan c ch fun q => { q with msgs := rest, cap := 16 }).modDie c.die fun d => { d with pool := d.pool + (q.cap - 16) }
  else s.modChan c ch fun q => { q with msgs := rest }
/-- R97, R137: a QGET takes its message after the earlier class-0 accesses, the QGETs before it among them. -/
def Core.mayGet (k : Core) (w : Wait) : Bool :=
  !(k.pipe.waits.any fun v => v.loads && v.seq < w.seq) && !k.reqBefore w.pos w.seq
    && !(k.drainsPending && k.mx.queue.any fun o => match o with | .drain d => !earlierPlace w.pos w.seq d.pos d.seq | _ => false)
/-- One wait of core `c`. -/
def State.tryWait (s : State) (c : CoreId) (w : Wait) : Option Wait × State :=
  match w.kind with
  | .sw a g => s.trySw c w a g
  | .bound v true => s.waitTakes c w v
  | .bound v false => (none, s.waitFills c w.dsel v)
  | .qget ch =>
    match (s.chan c ch).msgs with
    | [] => (some w, s)
    | m :: _ =>
      if !(s.core c).mayGet w then (some w, s)
      else
        let v : VVal := ⟨Vec.tab fun i => if h : i.val < 16 then m.words[i.val] else 0, m.poi.setWidth 256⟩
        let s := (s.waitFills c w.dsel (.vec v)).takeMsg c ch
        let k := s.core c
        (none, (s.setLt c (k.lt.set 0 (max k.lt[0] m.ts))).noteFill c w.dsel (max k.lt[0] m.ts))
  | .ing f at0 => s.tryIng c w f at0
/-- The pending waits of core `c` that can complete do, in issue order; none once dusk has begun, as it would acquire (R286, R292). -/
def State.retryWaits (s : State) (c : CoreId) : State :=
  if (s.core c).pipe.waits.isEmpty || s.phase == .dusk then s else s.eachWait c fun s w => s.tryWait c w

/-! ## Operand-slot loads (R233) -/

/-- The width class a record format loads (R233). -/
def recSteps (reg : BitVec 24) : Nat := if (Fmt.ofReg reg).width ≤ 4 then 2 else 1
/-- Table 10.7: the fields of a control word within their limits (trap step 1). -/
def ctrlBad (c : W32) : Bool :=
  c.extractLsb' 24 8 != 0 || c.extractLsb' 11 5 != 0 || (!c.getLsbD 6 && c.extractLsb' 16 8 == 0xFF) || (!c.getLsbD 5 && c.getLsbD 0)
/-- R233: whether OFF and NU break a limit; NU is at least 1. -/
def loadRangeBad (c : W32) (reg : BitVec 24) (off nu : Nat) : Bool :=
  let a := !c.getLsbD 5
  let lim := if !c.getLsbD 6 then (if a then 64 else 32) else (if a then 256 else 128) * recSteps reg
  nu = 0 || lim < off + nu
/-- Adds or removes the poison of the halves of a byte that a write does not keep. -/
def slotPoison (l : List Nat) (o keep : Nat) (bad : Bool) : List Nat :=
  ((if keep % 16 = 0 then [2 * o] else []) ++ (if keep / 16 = 0 then [2 * o + 1] else [])).foldl (fun l h => if bad then setAdd l h else l.filter (· ≠ h)) l
/-- Writes one byte of data and scale plane of a slot, keeping the bits of `keep`. -/
def OSlot.put (x : OSlot) (o : Nat) (keep b : Nat) (scl : Byte) (bad : Bool) : OSlot :=
  let old := (Memory.read x.data o).toNat &&& keep
  { x with data := Memory.write x.data o (BitVec.ofNat 8 (old ||| b)), scale := Memory.write x.scale o scl, poi := slotPoison x.poi o keep bad }
/-- Writes a byte at an offset of the slots from `s` on. -/
def Matrix.putByte (m : Matrix) (s o : Nat) (keep b : Nat) (scl : Byte) (bad : Bool) : Matrix :=
  m.setSlot (s + o / 0x8000) ((m.slot (s + o / 0x8000)).put (o % 0x8000) keep b scl bad)
/-- R233: places 1 KiB unit `u` of a load: its bytes with their poison; an element of a record is poisoned by its code and by what its scale is found from (R226). -/
def Matrix.loadUnit (m : Matrix) (c : W32) (reg : BitVec 24) (off u : Nat) (bs : List (Byte × Bool)) : Matrix :=
  let s := (c.extractLsb' 0 5).toNat
  if !c.getLsbD 6 then
    (bs.zip (List.range 1024)).foldl (fun m q => m.putByte s ((off + u) * 1024 + q.2) 0 q.1.1.toNat (c.extractLsb' 16 8) q.1.2) m
  else
    let a := bs.toArray
    let v := vecOfByteList (bs.map (·.1))
    let ctl := (bs.drop 256).any (·.2)
    let w := (Fmt.ofReg reg).width
    (List.range 256).foldl (fun m e =>
      let code := vecByte v e % 2 ^ w
      let (k, r, row) := if !c.getLsbD 5 then (off + u, e, 256) else (2 * (off + u) + e / 128, e % 128, 128)
      let scl := BitVec.ofNat 8 (scaleOf reg v e)
      let bad := (a.getD e (0, false)).2 || (ctl && (scaleReads reg v e).any fun o => (a.getD o (0, false)).2)
      if w ≤ 4 then
        let o := k / 2 * row + r
        if k % 2 = 0 then m.putByte s o 0xF0 code scl bad else m.putByte s o 0x0F (16 * code) scl bad
      else m.putByte s (k * row + r) 0 code scl bad) m
/-- R232: a load's bound enters the bounds of its slots. -/
def Matrix.loadBound (m : Matrix) (l : List Nat) (b : W32) : Matrix :=
  l.foldl (fun m n => m.setSlot n { m.slot n with bound := maxBound (m.slot n).bound (bound32 b) }) m
/-- R232: whether an operation issued before an MREL still reads one of the slots. -/
def State.slotsBusy (s : State) (c : CoreId) (l : List Nat) : Bool :=
  let q := (s.core c).mx.queue ++ (match (s.core c).mx.leader with | some d => (s.core d).mx.queue | none => [])
  q.any fun o => match o with | .tile t _ _ _ => t.names l | _ => false
/-- The bytes of a 1 KiB unit of own scratchpad with their poison. -/
def State.unitBytes (s : State) (off : Nat) : List (Byte × Bool) × State :=
  let (r, s) := s.spLoads 8 ((List.range 128).map fun i => some (off + 8 * i))
  ((r.map fun x => x.1.map fun b => (b, x.2)).flatten, s)
/-- The first pending load of a slot begins or joins (Table 10.6). -/
def Matrix.beginLoad (m : Matrix) (l : List Nat) (f : OSlot → OSlot) : Matrix :=
  l.foldl (fun m n => m.setSlot n (f (m.slot n).begin)) m
/-- MOPLD (R233): the data is read and placed at issue; MOPLD_COMPLETE ends the load. -/
def execMopld (k : KUnit) (g : BitVec 4) (e : Bool) (f : BitVec 10) (s : State) : Out :=
  copyClean k g e f (fun a s =>
    let x := (s.kLatch k).x
    s.needClean k.slot ((x.poi &&& 7) != 0) (f.setWidth 64) fun s =>
      let c : W32 := x.val[0]
      let off := ((x.val[1]).extractLsb' 0 16).toNat
      let nu := ((x.val[1]).extractLsb' 16 16).toNat
      let reg := s.pipe.fmt (c.extractLsb' 7 3)
      if ctrlBad c then s.trapAt k.slot 0x02 (c.setWidth 64)
      else if c.getLsbD 6 && !fmtValid reg then s.trapAt k.slot 0x0F ((c.extractLsb' 7 3).setWidth 64)
      else if loadRangeBad c reg off nu then s.trapAt k.slot 0x02 (c.setWidth 64)
      else s.ownRange k.slot a 128 (1024 * nu) fun o s =>
        let slots := ctrlSlots c
        if (slots.any fun n => (s.me.mx.slot n).st == .matrix) || s.slotsBusy s.cur slots then s.hold 0
        else s.ownReady o (1024 * nu) fun s =>
          let s := (List.range nu).foldl (fun s u =>
            let (bs, s) := s.unitBytes (o + 1024 * u)
            s.modMx fun m => m.loadUnit c reg off u bs) s
          (s.modMx fun m => (m.loadBound slots (x.val[2])).beginLoad slots fun y =>
            { y with loads := y.loads ++ [(c.getLsbD 10, !c.getLsbD 5)] }).issued) s

/-! ## KFLG and KSW (R128) -/

/-- KFLG (R128). -/
def execKflg (k : KUnit) (g : BitVec 4) (e : Bool) (f : BitVec 10) (s : State) : Out :=
  copyClean k g e f (fun v s => (s.modK k fun x => { x with flg := v.setWidth 7 }).issued) s
/-- KSW (R128). -/
def execKsw (k : KUnit) (g : BitVec 4) (e : Bool) (f : BitVec 10) (s : State) : Out :=
  copyClean k g e f (fun v s => (s.modK k fun x => { x with sw := v }).issued) s

end Sys2Proof.Machine
end

