-- ==== Sys2Proof/Machine/Kv.lean ====
section
/-! DEFINITION. Sequence records and pools (R258 to R261, R263), the prefix table (R264 to R269). -/
namespace Sys2Proof.Machine

/-! ## Pools (R260) -/

/-- Whether a block in use overlaps tokens `o` to `o + z - 1`. -/
def Pool.used (p : Pool) (o z : Nat) : Bool := p.blocks.any fun b => b.off < o + z && o < b.off + b.len
/-- The largest block of a pool, in tokens. -/
def Pool.maxBlock (p : Pool) : Nat := 16 * 2 ^ min p.k 12
/-- R260 item 5: whether `z` tokens at `o` are a free block: free, and their buddy pair is not (or is too large). -/
def Pool.isFree (p : Pool) (o z : Nat) : Bool :=
  !p.used o z && (z = p.maxBlock || p.used (o / (2 * z) * (2 * z)) (2 * z))
/-- The lowest free block of exactly `z` tokens. -/
def Pool.freeAt (p : Pool) (z : Nat) : Option Nat :=
  ((List.range (16 * 2 ^ p.k / z)).find? fun i => p.isFree (i * z) z).map (· * z)
/-- R260 item 3: where an allocation of `c` tokens goes: the lowest free block of the smallest sufficient size, `fuel` sizes tried. -/
def Pool.findFree (p : Pool) (c : Nat) : Nat → Option Nat
  | 0 => none
  | fuel + 1 =>
    if p.maxBlock < c then none
    else match p.freeAt c with
      | some o => some o
      | none => p.findFree (2 * c) fuel
/-- The VA of a token offset. -/
def Pool.addr (p : Pool) (off : Nat) : W64 := p.va + BitVec.ofNat 64 (off * p.row)
/-- The token offset of a VA in a pool. -/
def Pool.offset (p : Pool) (a : W64) : Option Nat :=
  let d := a.toNat - p.va.toNat
  if p.va.toNat ≤ a.toNat && d < 16 * 2 ^ p.k * p.row then some (d / p.row) else none
/-- Changes the references of the block that holds a VA; a block without references is freed (R260 items 4 and 5). -/
def Pool.refs (p : Pool) (a : W64) (up : Bool) : Pool :=
  match p.offset a with
  | none => p
  | some o => { p with blocks := (p.blocks.map fun b =>
      if b.off ≤ o && o < b.off + b.len then { b with refs := if up then b.refs + 1 else b.refs - 1 } else b).filter fun b => b.refs ≠ 0 }
/-- Changes how many windows list the block that holds a VA as a sink extent (R260 item 6). -/
def Pool.sink (p : Pool) (a : W64) (up : Bool) : Pool :=
  match p.offset a with
  | none => p
  | some o => { p with blocks := p.blocks.map fun b =>
      if b.off ≤ o && o < b.off + b.len then { b with sinks := if up then b.sinks + 1 else b.sinks - 1 } else b }
/-- Changes the references of a block of a context. -/
def Ctx.blockRef (x : Ctx) (a : W64) (up : Bool) : Ctx := { x with pools := x.pools.map fun p => p.map fun p => p.refs a up }
/-- See `Pool.sink`. -/
def Ctx.blockSink (x : Ctx) (a : W64) (up : Bool) : Ctx := { x with pools := x.pools.map fun p => p.map fun p => p.sink a up }
/-- Whether a VA is the start of a 16-token extent in a pool of a context (R267). -/
def Ctx.extentStart (x : Ctx) (a : W64) : Bool :=
  x.pools.any fun p => match p with
    | some p => (match p.offset a with | some o => o % 16 = 0 && p.addr o = a | none => false)
    | none => false

/-! ## Sequence records (R258, R259) -/

/-- Table 11.1 and the extents. -/
structure SeqRec where
  len : Nat
  rowb : Nat
  cap : Nat
  sink : Nat
  win : Nat
  next : Nat
  pool : Nat
  npin : Nat
  pfail : Nat
  exts : List (W64 × Nat × Nat)
deriving DecidableEq, Repr
/-- A record from its 576 bytes. -/
def SeqRec.ofBytes (b : List Byte) : SeqRec :=
  { len := fld b 0 8, rowb := fld b 8 4, cap := fld b 12 4, sink := fld b 16 4, win := fld b 20 4, next := fld b 24 2, pool := fld b 26 1,
    npin := fld b 27 1, pfail := fld b 28 4,
    exts := (List.range 32).map fun j => (BitVec.ofNat 64 (fld b (64 + 16 * j) 8), fld b (72 + 16 * j) 4, fld b (76 + 16 * j) 4) }
/-- The writes of CAP and NEXT of a record at an address. -/
def SeqRec.capNext (r : SeqRec) (a : W64) : List (W64 × List Byte) := [(a + 12, bytesOfNat 4 r.cap), (a + 24, bytesOfNat 2 r.next)]
/-- The writes of LEN, CAP, NEXT and NPIN. -/
def SeqRec.counters (r : SeqRec) (a : W64) : List (W64 × List Byte) := (a, bytesOfNat 8 r.len) :: r.capNext a ++ [(a + 27, bytesOfNat 1 r.npin)]
/-- An extent's 16 bytes. -/
def extBytes (x : W64 × Nat × Nat) : List Byte := bytesOfNat 8 x.1.toNat ++ bytesOfNat 4 x.2.1 ++ bytesOfNat 4 x.2.2
/-- The write of extent `j`. -/
def extWrite (a : W64) (j : Nat) (x : W64 × Nat × Nat) : W64 × List Byte := (a + BitVec.ofNat 64 (64 + 16 * j), extBytes x)
/-- R259: σ(p). -/
def SeqRec.slotOf (r : SeqRec) (p : Nat) : Nat := if r.win = 0 || p < r.sink then p else r.sink + (p - r.sink) % r.win
/-- R259: the extent and address of slot `σ` among extents. -/
def extentAt : List (W64 × Nat × Nat) → Nat → Nat → Option (Nat × W64)
  | [], _, _ => none
  | (base, len, stride) :: r, j, s => if s < len then some (j, base + BitVec.ofNat 64 (s * stride)) else extentAt r (j + 1) (s - len)
/-- R259: the extent number and address of a position's slot. -/
def SeqRec.place (r : SeqRec) (p : Nat) : Option (Nat × W64) := extentAt (r.exts.take r.next) 0 (r.slotOf p)
/-- R259, R260 item 6: whether an extent of a record after `cap` tokens holds sink slots. Firmware learns it when KV.EXT or PFX.PIN lists the extent, from the
SINK and WIN of that moment (DESIGN CHOICE log 65). -/
def SeqRec.sinkFrom (r : SeqRec) (cap : Nat) : Bool := r.win ≠ 0 && cap < r.sink
/-- A record an operation of a slot reads: own scratchpad or a VA, 64-byte aligned, class 0. Its reserved fields are taken as zero and stay as they are (R5,
DESIGN CHOICE log 64). -/
def State.seqRecord (s : State) (slot : Slot) (a : W64) (act : SeqRec → State → State) : State :=
  match s.form s.cur a with
  | .error e => s.trapAt slot e.1 e.2
  | .ok _ =>
    if a.extractLsb' 62 2 = 3 then s.trapAt slot 0x06 a
    else if a.toNat % 64 ≠ 0 then s.trapAt slot 0x07 a
    else s.readRecord slot a 576 fun bs s => act (SeqRec.ofBytes bs) s
/-- The locations of a list of writes, each within one line, or the first cause. -/
def State.locateAll (s : State) : List (W64 × List Byte) → Except Err (List (Loc × List Byte)) × State
  | [] => (.ok [], s)
  | (a, bs) :: r =>
    match s.locate s.cur a .write with
    | (.error e, s) => (.error e, s)
    | (.ok l, s) =>
      match s.locateAll r with
      | (.error e, s) => (.error e, s)
      | (.ok ls, s) => (.ok ((l, bs) :: ls), s)
/-- Makes located writes as class-0 stores of the task, tracked in tier 3 (R283). -/
def State.storeAll (s : State) (l : List (Loc × List Byte)) : State := l.foldl (fun s q => s.storeClass0 s.cur q.1 q.2 false) s
/-- Writes of a record as class-0 stores of the executing move: none is made where one raises a cause (R261, R269), or while its line finds no room in the
tracker (R283). -/
def State.recordWrites (s : State) (slot : Slot) (ws : List (W64 × List Byte)) (act : State → State) : State :=
  match s.locateAll ws with
  | (.error e, s) => s.trapAt slot e.1 e.2
  | (.ok l, s) =>
    if !s.writesReady s.cur (l.map (·.1)) 16 then (s.readyWrites s.cur (l.map (·.1)) 16).hold 0
    else act (s.storeAll l)
/-- Drops one pin of a prefix entry that still is a context's, with a base (R261). -/
def Die.unpin (d : Die) (i : Fin 64) (ctx : BitVec 16) (base : W64) : Die :=
  let x := d.pfx[i]
  if x.v && x.ctx == ctx && x.base == base && x.pin != 0 then { d with pfx := d.pfx.set i.val { x with pin := x.pin - 1 } } else d
/-- The extent at a base that the current core's record at an address lists, as firmware keeps it (R260). -/
def State.listing (s : State) (a base : W64) (sink : Bool) (pin : Option (DieId × Fin 64)) : Listing :=
  ⟨a, if a.extractLsb' 62 2 = 2 then some s.cur else none, base, sink, pin⟩
/-- What firmware keeps of an extent that leaves a record's list, pinned or not: what it kept for that record, else for another that lists the same base (DESIGN
CHOICE log 65). -/
def State.listed (s : State) (a base : W64) (pinned : Bool) : Option Listing :=
  let own := s.listing a base false none
  (s.ctx s.me.task.ctx).bind fun x =>
    let l := x.listed.filter fun y => y.base == base && y.pin.isSome == pinned
    (l.find? fun y => y.seqRec == own.seqRec && y.core == own.core).orElse fun _ => l.head?
/-- R260 items 4 and 6, R261: an extent leaves a record's list: its block loses a reference, and is a sink extent no more for this list; its entry loses a pin. -/
def State.unlist (s : State) (a : W64) (pinned : Bool) (base : W64) : State :=
  let ctx := s.me.task.ctx
  match s.listed a base pinned with
  | none => s.modCtx ctx fun x => x.blockRef base false
  | some l =>
    let s := match l.pin with | some (d, i) => s.modDie d fun y => y.unpin i ctx base | none => s
    s.modCtx ctx fun x =>
      let x := { x with listed := x.listed.erase l }
      (if l.sink then x.blockSink base false else x).blockRef base false
/-- KV.EXT with r = 0: the release. -/
def State.kvRelease (s : State) (slot : Slot) (a : W64) (r : SeqRec) (fin : W64 → State → State) : State :=
  let r' := { r with len := 0, cap := 0, next := 0, npin := 0 }
  s.recordWrites slot (r'.counters a) fun s =>
    let ext := r.exts.take r.next
    let s := (ext.zip (List.range r.next)).foldl (fun s q => s.unlist a (q.2 < r.npin) q.1.1) s
    fin (BitVec.ofNat 64 r.next) s
/-- The smallest 16·2^i not below `r`, `fuel` doublings tried. -/
def blockFor (r : Nat) : Nat → Nat → Nat
  | 0, c => c
  | fuel + 1, c => if r ≤ c then c else blockFor r fuel (2 * c)
/-- KV.EXT with r > 0: a block of the record's pool becomes extent NEXT. -/
def State.kvExtend (s : State) (slot : Slot) (a : W64) (r : SeqRec) (n : Nat) (fin : W64 → State → State) : State :=
  let c := blockFor n 32 16
  let pool : Option Pool := match s.ctx s.me.task.ctx with
    | some x => if h : r.pool < 4 then x.pools[r.pool] else none
    | none => none
  match pool with
  | none => fin 0 s
  | some p =>
    if 65536 < c || 32 ≤ r.next || r.rowb ≠ p.row then fin 0 s
    else match p.findFree c 16 with
      | none => fin 0 s
      | some o =>
        let base := p.addr o
        let r' := { r with next := r.next + 1, cap := r.cap + c }
        let sink := r.sinkFrom r.cap
        s.recordWrites slot (extWrite a r.next (base, c, r.rowb) :: r'.capNext a) fun s =>
          fin base (s.modCtx s.me.task.ctx fun x => { x with
            pools := x.pools.setIfInBounds r.pool (some { p with blocks := p.blocks ++ [⟨o, c, 1, if sink then 1 else 0⟩] }), listed := s.listing a base sink none :: x.listed })
/-- KV.EXT (R261): its result comes within 4,096 cycles (DESIGN CHOICE log 15). -/
def execKvExt (k : KUnit) (g : BitVec 4) (e : Bool) (f : BitVec 10) (s : State) : Out :=
  copyClean k g e f (fun a s => s.lane0 k f fun n s => s.needD k.slot fun d s => s.seqRecord k.slot a fun r s =>
    let fin (v : W64) (s : State) : State := s.long (kUnit k) (.w64 v) 0 d 4096
    if n = 0 then s.kvRelease k.slot a r fin else s.kvExtend k.slot a r n.toNat fin) s

/-! ## The prefix table (R264 to R269) -/

/-- The golden-ratio multiplier of the hashes. -/
def hashMul : W64 := 0x9E3779B97F4A7C15
/-- R265: the chained hash of sixteen tokens. -/
def pfxHash (x : W64) (tokens : List W32) : W64 :=
  tokens.foldl (fun x t => let y := (x ^^^ t.setWidth 64) * hashMul; y ^^^ (y >>> 29)) x
/-- PFX.HASH (R265). -/
def execPfxHash (k : KUnit) (g : BitVec 4) (e : Bool) (f : BitVec 10) (s : State) : Out :=
  copyOp k g e f (fun v s => s.needD k.slot fun d s =>
    let u := s.kLatch k
    let seeded := (u.y.val[0]).getLsbD 0
    let seed := ((s.ctx s.me.task.ctx).map (·.seed)).getD 0
    let h := pfxHash (if seeded then seed else v.val) ((List.range 16).map fun i => Vec.lane u.x.val i)
    let bad := (!seeded && v.poi) || u.y.poi.getLsbD 0 || (u.x.poi &&& 0xFFFF) != 0
    let val : Val := if selV d || selO d then .vec ⟨(firstLanes [h.setWidth 32, h.extractLsb' 32 32]).val, if bad then 3 else 0⟩ else .sc ⟨h, bad⟩
    s.long (kUnit k) val 0 d 16) s
/-- The entry of a context with a hash. -/
def Die.pfxFind (d : Die) (ctx : BitVec 16) (h : W64) : Option (Fin 64) :=
  (List.finRange 64).find? fun i => (d.pfx[i]).v && (d.pfx[i]).ctx == ctx && (d.pfx[i]).hash == h
/-- R264 item 2: a hit or insertion: the age counter advances and the entry takes its value. -/
def Die.pfxHit (d : Die) (i : Fin 64) : Die := { d with age := d.age + 1, pfx := d.pfx.set i.val { d.pfx[i] with age := d.age + 1 } }
/-- PFX.LOOK (R266). -/
def execPfxLook (k : KUnit) (g : BitVec 4) (e : Bool) (f : BitVec 10) (s : State) : Out :=
  copyClean k g e f (fun h s => s.needD k.slot fun d s =>
    let dd := s.die s.cur.die
    match dd.pfxFind s.me.task.ctx h with
    | some i =>
      (s.modDie s.cur.die fun d => d.pfxHit i).long (kUnit k)
        (.w64 (BitVec.ofNat 64 (0x80000000 + i.val * 65536 + (dd.pfx[i]).gen.toNat))) 0 d 24
    | none => s.long (kUnit k) (.w64 0) 0 d 24) s
/-- The oldest unpinned entry that `own` admits: least AGE, then lowest index. -/
def Die.pfxOldest (d : Die) (own : PfxEnt → Bool) : Option (Fin 64) :=
  (List.finRange 64).foldl (fun b i =>
    let x := d.pfx[i]
    if x.v && x.pin = 0 && own x then (match b with
      | some j => if x.age.toNat < (d.pfx[j]).age.toNat then some i else b
      | none => some i) else b) none
/-- R267 item 2: the victim of an insertion. -/
def Die.pfxVictim (d : Die) (ctx : BitVec 16) (quota : Nat) : Option (Fin 64) :=
  if quota ≤ d.pfx.toList.countP fun x => x.v && x.ctx == ctx then d.pfxOldest fun x => x.ctx == ctx
  else match (List.finRange 64).find? fun i => !(d.pfx[i]).v with
    | some i => some i
    | none => d.pfxOldest fun _ => true
/-- PFX.INS (R267). -/
def execPfxIns (k : KUnit) (g : BitVec 4) (e : Bool) (f : BitVec 10) (s : State) : Out :=
  copyClean k g e f (fun a s => s.ownRange k.slot a 32 32 fun _ s => s.needD k.slot fun dp s => s.readRecord k.slot a 32 fun bs s =>
    let ctx := s.me.task.ctx
    match s.ctx ctx with
    | none => s.trapAt k.slot 0x02 a
    | some x =>
      let h := BitVec.ofNat 64 (fld bs 0 8)
      let base := BitVec.ofNat 64 (fld bs 16 8)
      if !zeros bs 28 4 || !x.extentStart base then s.trapAt k.slot 0x02 a
      else
        let d := s.die s.cur.die
        match d.pfxFind ctx h with
        | some i => (s.modDie s.cur.die fun d => d.pfxHit i).accept dp true
        | none =>
          match d.pfxVictim ctx x.pfxQuota with
          | none => s.accept dp false
          | some i =>
            let old := d.pfx[i]
            let s := if old.v then s.modCtx old.ctx fun x => x.blockRef old.base false else s
            let new : PfxEnt := { hash := h, parent := BitVec.ofNat 64 (fld bs 8 8), base := base, age := 0, ctx := ctx, pin := 0, gen := old.gen + 1, v := true }
            let s := s.modDie s.cur.die fun d => ({ d with pfx := d.pfx.set i.val new } : Die).pfxHit i
            (s.modCtx ctx fun x => x.blockRef base true).accept dp true) s
/-- R269: the entry a PFX.LOOK result names, if it still does. -/
def State.pfxNamed (s : State) (x : W32) : Option (Fin 64) :=
  let i : Fin 64 := ⟨(x.extractLsb' 16 6).toNat, by omega⟩
  let en := (s.die s.cur.die).pfx[i]
  if x.getLsbD 31 && en.v && en.ctx == s.me.task.ctx && en.gen == x.extractLsb' 0 7 then some i else none
/-- PFX.PIN (R269). -/
def execPfxPin (k : KUnit) (g : BitVec 4) (e : Bool) (f : BitVec 10) (s : State) : Out :=
  copyClean k g e f (fun a s => s.lane0 k f fun x s => s.seqRecord k.slot a fun r s =>
    let fail (s : State) : State := s.recordWrites k.slot [(a + 28, bytesOfNat 4 (r.pfail / 2 * 2 + 1))] fun s => s.issued
    match s.pfxNamed x with
    | none => fail s
    | some i =>
      let en := (s.die s.cur.die).pfx[i]
      if en.pin = 255 || r.next ≠ r.npin || 32 ≤ r.next || (r.win ≠ 0 && r.sink < 16 * (r.npin + 1)) then fail s
      else
        let r' := { r with next := r.next + 1, npin := r.npin + 1, cap := r.cap + 16, len := r.len + 16 }
        s.recordWrites k.slot (extWrite a r.next (en.base, 16, r.rowb) :: r'.counters a) fun s =>
          let s := s.modDie s.cur.die fun d => { d with pfx := d.pfx.set i.val { en with pin := en.pin + 1 } }
          let sink := r.sinkFrom r.cap
          (s.modCtx s.me.task.ctx fun x =>
            let x := { x.blockRef en.base true with listed := s.listing a en.base sink (some (s.cur.die, i)) :: x.listed }
            if sink then x.blockSink en.base true else x).issued) s
/-- PFX.UNPIN (R269). -/
def execPfxUnpin (k : KUnit) (g : BitVec 4) (e : Bool) (f : BitVec 10) (s : State) : Out :=
  copyOp k g e f (fun _ s => s.lane0 k f fun x s =>
    match s.pfxNamed x with
    | some i =>
      let en := (s.die s.cur.die).pfx[i]
      (s.modDie s.cur.die fun d => { d with pfx := d.pfx.set i.val { en with pin := if en.pin = 0 then 0 else en.pin - 1 } }).issued
    | none => s.issued) s

end Sys2Proof.Machine
end

