-- ==== Sys2Proof/Machine/Engine.lean ====
section
/-! DEFINITION. Engine commands: their triggers (R128 to R134, R153 to R160, R234, R262), and the steps in which they run. -/
namespace Sys2Proof.Machine

/-! ## Triggers (R128, R129) -/

/-- R129 item 3, the first three checks: KFLG and KSW (R128), then the block, its OPC first. -/
def State.engineHead (s : State) (k : KUnit) (a : W64) (opc : Nat) (act : List Byte → State → State) : State :=
  let q := s.me.kslot k
  if 5 ≤ (q.flg.extractLsb' 2 3).toNat then s.trapAt k.slot 0x02 (s.moveAddr k.slot)
  else
    let go (s : State) : State := s.readRecord k.slot a 64 fun bs s => if fld bs 0 1 ≠ opc then s.trapAt k.slot 0x02 a else act bs s
    if q.sw = 0 then go s else s.syncTarget k.slot q.sw fun _ _ s => go s
/-- An engine trigger: its block address, the predicate, the block. R129's order of checks does not name that of D (R41): it comes after the block address and
before KFLG and KSW (DESIGN CHOICE log 66). -/
def engineTrigger (k : KUnit) (g : BitVec 4) (e : Bool) (f : BitVec 10) (opc : Nat)
    (act : BitVec 10 → W64 → List Byte → State → State) (s : State) : Out :=
  copyClean k g e f (fun a s => s.ownRange k.slot a 64 64 fun _ s => s.needD k.slot fun d s =>
    s.engineHead k a opc fun bs s => act d a bs s) s
/-- A limit of a block at `a`: cause 0x02 with its address (R129). -/
def State.blockOk (s : State) (k : KUnit) (a : W64) (ok : Bool) (act : State → State) : State :=
  if ok then act s else s.trapAt k.slot 0x02 a
/-- R100 item 3: the numbers of the accesses of an alias class that a core's task has issued and that are not performed: requests, and in class 0 queued drains
(R249) and pending QGETs (R137). -/
def Core.classSeqs (k : Core) (cls : BitVec 2) : List Nat :=
  (k.reqs.filter fun r => r.cls == cls || r.op.isAtomic).map (·.seq)
  ++ if cls = 0 then (k.mx.queue.filterMap fun o => match o with | .drain d => some d.seq | _ => none)
      ++ k.pipe.waits.filterMap fun w => match w.kind with | .qget _ => some w.seq | _ => none
    else []
/-- R129 items 4 and 5, R128: the queue is full, or the command is accepted: KFLG and KSW return to 0. Its path starts at LTIME
(R100, R101). -/
def State.acceptEngine (s : State) (k : KUnit) (d : BitVec 10) (a : W64) (kind : EngKind) (n eb total : Nat)
    (after : Nat → State → State) : State :=
  let q := s.me.kslot k
  if 16 ≤ q.queue.length then s.accept d false
  else
    let cls := q.flg.extractLsb' 5 2
    let acq := if q.flg.getLsbD 0 then s.me.classSeqs cls else []
    let e : EngCmd := { id := s.me.engSeq, kind := kind, blk := a, flg := q.flg, sw := q.sw, n := n, eb := eb, total := total,
                        lt := ltime s.me.lt, pos := 0, counted := 0, acq := acq, extents := none, poi := false, started := false,
                        rpos := 0, got := [], parts := [] }
    let s := s.modMe fun m => { (m.setK k { q with flg := 0, sw := 0, queue := q.queue ++ [e] }) with engSeq := m.engSeq + 1 }
    (after e.id s).accept d true
/-- A side of a command, its map read where it names one (R129 item 3). -/
def State.engSide (s : State) (k : KUnit) (isMap : Bool) (a org : W64) (act : Side → Option TMap → State → State) : State :=
  if isMap then s.readMap k.slot a 0x02 fun m s => act (.walk m org) (some m) s else act (.flat a) none s
/-- A 64-bit field of a block. -/
def f64 (bs : List Byte) (off : Nat) : W64 := BitVec.ofNat 64 (fld bs off 8)
/-- Bit `i` of the first word of a block. -/
def hbit (bs : List Byte) (i : Nat) : Bool := (fld bs 0 4).testBit i
/-- A source address of a form other than 0b01, which the block's table excludes (R129 item 3, DEDUCED log 53). -/
def formOk (a : W64) : Bool := a.extractLsb' 62 2 != 1
/-- R118, R132: the elements of a walk that have an address. -/
def TMap.addressed (m : TMap) (org : W64) : Nat :=
  ((List.finRange 4).map fun (k : Fin 4) => (List.range m.dims[k].win).countP fun (i : Nat) => (m.dims[k].pos (orgAt org k.val + (i : Int))).isSome).foldl (· * ·) 1

/-- XCOPY (R132). -/
def execXcopy (k : KUnit) (g : BitVec 4) (e : Bool) (f : BitVec 10) (s : State) : Out :=
  engineTrigger k g e f 0x20 (fun d a b s =>
    let sm := hbit b 16
    let dm := hbit b 17
    let len := fld b 4 4
    let ok := zeros b 1 1 && fld b 2 2 / 4 = 0 && (if sm || dm then len = 0 else 1 ≤ len) && (sm || f64 b 24 == 0) && (dm || f64 b 32 == 0) && zeros b 40 20
    s.blockOk k a ok fun s => s.engSide k sm (f64 b 8) (f64 b 24) fun src ms s => s.engSide k dm (f64 b 16) (f64 b 32) fun dst md s =>
      match ms, md with
      | some m, some m' => s.blockOk k a (m.esize = m'.esize && m.vol = m'.vol) fun s =>
          s.acceptEngine k d a (.xcopy src dst) (m'.eb * m'.addressed (f64 b 32)) m.eb (m.vol * m.eb) fun _ s => s
      | none, some m' => s.acceptEngine k d a (.xcopy src dst) (m'.eb * m'.addressed (f64 b 32)) m'.eb (m'.vol * m'.eb) fun _ s => s
      | some m, none => s.acceptEngine k d a (.xcopy src dst) (m.vol * m.eb) m.eb (m.vol * m.eb) fun _ s => s
      | none, none => s.acceptEngine k d a (.xcopy src dst) len 1 len fun _ s => s) s
/-- XGATH and XSCAT (R133). -/
def listTrigger (k : KUnit) (g : BitVec 4) (e : Bool) (f : BitVec 10) (scat : Bool) (s : State) : Out :=
  engineTrigger k g e f (if scat then 0x22 else 0x21) (fun d a b s =>
    let mapped := hbit b (if scat then 16 else 17)
    let rowb := fld b 4 4
    let ntok := fld b 28 4
    let next := fld b 40 2
    let ok := zeros b 1 1 && fld b 2 2 / 4 = 0 && !hbit b (if scat then 17 else 16) && 1 ≤ rowb && rowb ≤ 1048576 && 1 ≤ ntok
      && (mapped || f64 b 32 == 0) && 1 ≤ next && next ≤ 32 && zeros b 42 18
    let total := ntok * rowb
    s.blockOk k a ok fun s => s.engSide k mapped (f64 b 16) (f64 b 32) fun mem m s =>
      let n := match scat, m with
        | false, some m =>
          -- a destination element without an address is dropped, as is what lies past the walk (R132 item 5, R133)
          if total = m.vol * m.eb then m.eb * m.addressed (f64 b 32)
          else ((List.range ((total + m.eb - 1) / m.eb)).map fun i =>
            if i < m.vol && (m.addr (f64 b 32) i).isSome then min m.eb (total - i * m.eb) else 0).foldl (· + ·) 0
        | _, _ => total
      s.acceptEngine k d a (.xlist scat (f64 b 8) next rowb (fld b 24 4) ntok mem) n 1 total fun _ s => s) s
/-- XGATH (R133). -/
def execXgath (k : KUnit) (g : BitVec 4) (e : Bool) (f : BitVec 10) (s : State) : Out := listTrigger k g e f false s
/-- XSCAT (R133). -/
def execXscat (k : KUnit) (g : BitVec 4) (e : Bool) (f : BitVec 10) (s : State) : Out := listTrigger k g e f true s

/-! ## The span (R151, R152, R154) -/

/-- DX, DY, DZ of SHDDIM. -/
def spanDims (v : BitVec 24) : Nat × Nat × Nat := ((v.extractLsb' 0 8).toNat, (v.extractLsb' 8 8).toNat, (v.extractLsb' 16 8).toNat)
/-- R154: the ranks of a die set, none where it is invalid. -/
def dieSet (v : BitVec 24) (x : W64) : Option (List Nat) :=
  let (dx, dy, dz) := spanDims v
  let n := dx * dy * dz
  let nb (k : Nat) : Nat := (x.toNat / 16 ^ k) % 16
  match (x.extractLsb' 62 2).toNat with
  | 0 => if x.extractLsb' 0 62 = 0 then some (List.range n) else none
  | 1 =>
    if x.extractLsb' 24 38 != 0 || dx < nb 0 + nb 3 + 1 || dy < nb 1 + nb 4 + 1 || dz < nb 2 + nb 5 + 1 then none
    else some ((List.range n).filter fun r =>
      nb 0 ≤ r % dx && r % dx ≤ nb 0 + nb 3 && nb 1 ≤ r / dx % dy && r / dx % dy ≤ nb 1 + nb 4
      && nb 2 ≤ r / (dx * dy) && r / (dx * dy) ≤ nb 2 + nb 5)
  | 2 =>
    let l := (List.range 62).filter fun i => x.getLsbD i
    if l.isEmpty || l.any fun i => n ≤ i then none else some l
  | _ => none
/-- R152: the die of a rank of the span of the task on core `c`. -/
def State.rankDie (s : State) (c : CoreId) (r : Nat) : DieId :=
  match s.job (s.core c).task.job with
  | some j => j.dies.getD r c.die
  | none => c.die

/-! ## Fabric triggers (R153 to R160) -/

/-- R156: an address applied at another core meets R113 rows 1 to 3 as one of the issuer's scratchpad. Where these checks stand among those of R129, no rule
says: XMCAST makes them after its map and its limit on DST + L, XHALO before its map is read (DESIGN CHOICE log 66). -/
def State.applied (s : State) (k : KUnit) (used : Bool) (a : W64) (align n : Nat) (act : State → State) : State :=
  if used then s.ownRange k.slot a align n fun _ s => act s else act s
/-- XMCAST (R157). -/
def execXmcast (k : KUnit) (g : BitVec 4) (e : Bool) (f : BitVec 10) (s : State) : Out :=
  engineTrigger k g e f 0x23 (fun d a b s =>
    let sm := hbit b 16
    let len := fld b 4 4
    let core := fld b 48 1
    let dies := dieSet s.pipe.sys2.shddim (f64 b 24)
    let ok := zeros b 1 1 && fld b 2 2 / 2 = 0 && (if sm then len = 0 else 1 ≤ len && len ≤ 0x600000) && (sm || formOk (f64 b 8)) && dies.isSome
      && (sm || f64 b 32 == 0) && (core < 32 || core = 0xFF) && zeros b 49 11
    s.blockOk k a ok fun s => s.engSide k sm (f64 b 8) (f64 b 32) fun src m s =>
      let l := match m with | some m => m.eb * m.vol | none => len
      let dst := f64 b 16
      let ranks := dies.getD []
      s.blockOk k a (dst.toNat % 0x800000 + l ≤ 0x600000) fun s => s.applied k true dst 1 l fun s => s.applied k (f64 b 40 != 0) (f64 b 40) 16 16 fun s =>
        let kind : EngKind := .xmcast src dst (ranks.map (s.rankDie s.cur)) (if core = 0xFF then s.cur.num else core) (f64 b 40)
        s.acceptEngine k d a kind (l * ranks.length) ((m.map TMap.eb).getD 1) l fun _ s => s) s
/-- R155: the governing command opens its instance, paired with itself. -/
def State.openColl (s : State) (id : Nat) (rtag : BitVec 8) (resh : Bool) (parts : List Nat) : State :=
  let t := s.me.task
  let q : Coll := { ctx := t.ctx, corenum := s.cur.num, rtag := rtag, job := t.job, gov := s.cur, cmd := id, resh := resh, parts := parts,
                    paired := [(t.spanRank, s.cur, id)], contribs := [], partials := [], phase := 0, flags := 0, status := 0, lost := false }
  { s with link := { s.link with colls := s.link.colls ++ [q] } }
/-- The limit of Table 6.9 on SRC and DST: an own-scratchpad address, 128-byte aligned. -/
def ownBlockAddr (a : W64) : Bool := a.extractLsb' 62 2 == 2 && a.extractLsb' 23 39 == 0 && a.toNat % 0x800000 < 0x600000 && a.toNat % 128 = 0
/-- XRED (R158). A contribution or result that passes the end of the scratchpad fails as it is read or written, with STATUS 2 (R130). -/
def execXred (k : KUnit) (g : BitVec 4) (e : Bool) (f : BitVec 10) (s : State) : Out :=
  engineTrigger k g e f 0x24 (fun d a b s =>
    let t := s.me.task
    let len := fld b 4 4
    let op := fld b 2 1 % 16
    let nocont := hbit b 20
    let root := fld b 32 2
    let isRoot : Bool := root = t.spanRank
    let ranks := dieSet s.pipe.sys2.shddim (f64 b 24)
    let ok := zeros b 1 1 && fld b 2 1 / 32 = 0 && len % 4 = 0 && 4 ≤ len && len ≤ 0x100000 && (op != 4 || len % 1024 = 0)
      && root < t.spanSize && zeros b 34 22 && fld b 56 4 / 4 = 0 && (!isRoot || (op < 5 && (ranks.getD []).contains root))
      && (nocont || ownBlockAddr (f64 b 8)) && (!isRoot || ownBlockAddr (f64 b 16))
    s.blockOk k a ok fun s =>
      let rtag := BitVec.ofNat 8 (fld b 3 1)
      s.acceptEngine k d a (.xred rtag (BitVec.ofNat 4 op) nocont len (f64 b 8) (f64 b 16) root (ranks.getD [])) len 4 len fun id s =>
        if isRoot then s.openColl id rtag false (ranks.getD []) else s) s
/-- The address of a position of a map, each component within its padded extent (R118). -/
def TMap.posAddr (m : TMap) (q : Vector Int 4) : W64 :=
  ((List.finRange 4).map fun (k : Fin 4) => if k.val ≤ m.ndim then BitVec.ofInt 64 q[k] * m.dims[k].str else 0).foldl (· + ·) m.base
/-- The integers from `lo` to `hi` − 1. -/
def ints (lo hi : Int) : List Int := (List.range (hi - lo).toNat).map fun (i : Nat) => lo + (i : Int)
/-- The positions of a box, dimension 0 fastest. -/
def positions (r : Vector (Int × Int) 4) : List (Vector Int 4) :=
  (ints r[3].1 r[3].2).flatMap fun t => (ints r[2].1 r[2].2).flatMap fun h => (ints r[1].1 r[1].2).flatMap fun w =>
    (ints r[0].1 r[0].2).map fun c => #v[c, w, h, t]
/-- Table 6.11: the slabs of one face of dimension `d` (1 to 3 for w, h, t), `up` for face +d: none when it is not sent. -/
def State.slab (s : State) (m : TMap) (full per up : Bool) (d : Fin 4) : List Slab :=
  let (dx, dy, dz) := spanDims s.pipe.sys2.shddim
  let n (k : Nat) : Nat := match k with | 1 => dx | 2 => dy | _ => dz
  let r := s.me.task.spanRank
  let sc (k : Nat) : Nat := match k with | 1 => r % dx | 2 => r / dx % dy | _ => r / (dx * dy)
  let x := m.dims[d]
  let peer : Option Nat :=
    if up then (if sc d.val + 1 < n d.val then some (sc d.val + 1) else if per then some 0 else none)
    else (if 0 < sc d.val then some (sc d.val - 1) else if per then some (n d.val - 1) else none)
  match peer with
  | none => []
  | some q =>
    let co (k : Nat) : Nat := if k = d.val then q else sc k
    let rng (k : Fin 4) : Int × Int :=
      let y := m.dims[k]
      if k = d then (if up then ((x.ext : Int) - x.lo, (x.ext : Int)) else (0, (x.hi : Int)))
      else if full && k.val != 0 then (-(y.lo : Int), (y.ext + y.hi : Int)) else (0, (y.ext : Int))
    let shift : Int := if up then -(x.ext : Int) else x.ext
    let src := positions #v[rng 0, rng 1, rng 2, rng 3]
    [⟨s.rankDie s.cur (co 1 + dx * co 2 + dx * dy * co 3), src.map fun p => (m.posAddr p, m.posAddr (p.set d.val (p[d] + shift)))⟩]
/-- R159 check 3: the padded extent of a map at BASE lies within its owner's scratchpad. -/
def TMap.paddedFits (m : TMap) : Bool :=
  let ends := (List.finRange 4).map fun (k : Fin 4) =>
    let d := m.dims[k]
    if k.val ≤ m.ndim then
      let a := -(d.lo : Int) * d.str.toInt
      let b := ((d.ext + d.hi : Int) - 1) * d.str.toInt
      (min a b, max a b)
    else (0, 0)
  let lo := (ends.map (·.1)).foldl (· + ·) (m.base.toNat % 0x800000 : Int)
  let hi := (ends.map (·.2)).foldl (· + ·) (m.base.toNat % 0x800000 : Int)
  m.base.extractLsb' 62 2 == 2 && m.base.extractLsb' 23 39 == 0 && 0 ≤ lo && hi + m.eb ≤ 0x600000
/-- XHALO (R159). -/
def execXhalo (k : KUnit) (g : BitVec 4) (e : Bool) (f : BitVec 10) (s : State) : Out :=
  engineTrigger k g e f 0x25 (fun d a b s =>
    let ok := zeros b 1 1 && fld b 2 2 / 128 = 0 && zeros b 4 4 && zeros b 24 36 && s.pipe.sys2.shdmode == 1
    s.blockOk k a ok fun s => s.applied k (f64 b 16 != 0) (f64 b 16) 16 16 fun s => s.readMap k.slot (f64 b 8) 0x02 fun m s =>
      let axes := [(3 : Fin 4), 2, 1].filter fun x => hbit b (15 + x.val)
      let ok := m.paddedFits && axes.all fun (x : Fin 4) => m.dims[x].lo ≤ m.dims[x].ext && m.dims[x].hi ≤ m.dims[x].ext
      s.blockOk k a ok fun s =>
        let slabs := axes.flatMap fun x =>
          s.slab m (hbit b 19) (hbit b (19 + x.val)) false x ++ s.slab m (hbit b 19) (hbit b (19 + x.val)) true x
        let total := m.eb * (slabs.map fun x => x.elems.length).foldl (· + ·) 0
        s.acceptEngine k d a (.xhalo slabs (f64 b 16) m.eb) total m.eb total fun _ s => s) s
/-- The number of interior positions of a map. -/
def TMap.interior (m : TMap) : Nat := m.dims[0].ext * m.dims[1].ext * m.dims[2].ext * m.dims[3].ext
/-- XRESH (R160). -/
def execXresh (k : KUnit) (g : BitVec 4) (e : Bool) (f : BitVec 10) (s : State) : Out :=
  engineTrigger k g e f 0x26 (fun d a b s =>
    let t := s.me.task
    let lead : Bool := t.spanRank = 0
    let ok := zeros b 1 2 && zeros b 4 4 && (!lead || ((f64 b 24).toNat < 3 && shardBlkOk (f64 b 24).toNat (f64 b 40))) && (!lead || f64 b 32 == s.pipe.sys2.shddim.setWidth 64) && zeros b 48 12
    s.blockOk k a ok fun s => s.readMap k.slot (f64 b 8) 0x02 fun sm s => s.readMap k.slot (f64 b 16) 0x02 fun dm s =>
      s.blockOk k a (sm.esize = dm.esize) fun s =>
        let rtag := BitVec.ofNat 8 (fld b 3 1)
        s.acceptEngine k d a (.xresh rtag sm dm (f64 b 24) (f64 b 40)) (dm.eb * dm.interior) dm.eb 0 fun id s =>
          if lead then s.openColl id rtag true (List.range t.spanSize) else s) s

/-! ## MOPLD.T and KV.APP triggers (R234, R262) -/

/-- MOPLD.T (R234): refused while the matrix owns a slot of it. -/
def execMopldT (k : KUnit) (g : BitVec 4) (e : Bool) (f : BitVec 10) (s : State) : Out :=
  engineTrigger k g e f 0x19 (fun d a b s =>
    let sm := hbit b 16
    let ctrl := BitVec.ofNat 32 (fld b 4 4)
    let off := fld b 16 2
    let nu := fld b 18 2
    s.blockOk k a (zeros b 1 1 && fld b 2 2 / 2 = 0 && !ctrlBad ctrl) fun s =>
      let reg := s.pipe.fmt (ctrl.extractLsb' 7 3)
      if ctrl.getLsbD 6 && !fmtValid reg then s.trapAt k.slot 0x0F ((ctrl.extractLsb' 7 3).setWidth 64)
      else s.blockOk k a ((sm || formOk (f64 b 8)) && !loadRangeBad ctrl reg off nu && (sm || f64 b 24 == 0) && zeros b 32 28) fun s =>
        s.engSide k sm (f64 b 8) (f64 b 24) fun src m s =>
          s.blockOk k a (match m with | some m => m.vol * m.eb = nu * 1024 | none => true) fun s =>
            let slots := ctrlSlots ctrl
            if slots.any fun n => (s.me.mx.slot n).st == .matrix then s.accept d false
            else
              let btab : Option W64 := match m with
                | some m => if m.btab = 0 then none else some (m.btab + BitVec.ofNat 64 (4 * fld b 20 4))
                | none => none
              s.acceptEngine k d a (.mopldT ctrl reg off nu src btab) (nu * 1024) 1 (nu * 1024) fun _ s =>
                s.modMx fun x => x.beginLoad slots fun y => { y with pend := y.pend + 1 }) s
/-- R262: ROWB of the record at SEQ, read at the trigger once its bank is ACTIVE (R112). -/
def State.readRowb (s : State) (k : KUnit) (a : W64) (act : Nat → State → State) : State :=
  match s.form s.cur a with
  | .error e => s.trapAt k.slot e.1 a
  | .ok _ =>
    if a.extractLsb' 62 2 = 3 then s.trapAt k.slot 0x06 a
    else if a.toNat % 64 ≠ 0 then s.trapAt k.slot 0x07 a
    else if s.me.class0Waits then s.hold 0
    else if a.extractLsb' 62 2 = 2 && !s.banksReady s.cur (a.toNat % 0x800000 + 8) 4 then (s.wakeBanks s.cur (a.toNat % 0x800000 + 8) 4).hold 0
    else match s.readVa s.cur s.me.lt[0] (a + 8) 4 2 with
      | (.error e, s) => s.trapAt k.slot e.1 a
      | (.ok (bs, bad, lt), s) => (s.setLt s.cur (s.me.lt.set 0 lt)).needClean k.slot bad a fun s =>
        let n := natOfBytes bs
        if n = 0 || 1048576 < n then s.trapAt k.slot 0x02 a else act n s
/-- KV.APP (R262). -/
def execKvApp (k : KUnit) (g : BitVec 4) (e : Bool) (f : BitVec 10) (s : State) : Out :=
  engineTrigger k g e f 0x41 (fun d a b s =>
    let sm := hbit b 16
    let ntok := fld b 4 4
    let ok := zeros b 1 1 && fld b 2 2 / 2 = 0 && 1 ≤ ntok && ntok ≤ 65536 && (sm || formOk (f64 b 16)) && (sm || f64 b 24 == 0) && zeros b 40 20
    s.blockOk k a ok fun s => s.readRowb k (f64 b 8) fun rowb s => s.engSide k sm (f64 b 16) (f64 b 24) fun src m s =>
      s.blockOk k a (match m with | some m => m.vol * m.eb = ntok * rowb | none => true) fun s =>
        s.acceptEngine k d a (.kvapp ntok (f64 b 8) rowb src none) (ntok * rowb) 1 (ntok * rowb) fun _ s => s) s

end Sys2Proof.Machine
end

