-- ==== Sys2Proof/Machine/EngineRun.lean ====
section
/-! DEFINITION. The steps of engine commands: writes performed (R131 to R133, R157 to R159, R234, R262), completion (R130, R131),
collectives (R150, R155, R158, R160). -/
namespace Sys2Proof.Machine

/-! ## Accesses of an engine -/

/-- R130: the STATUS of a cause (DEDUCED log 53). -/
def engStatus (cause : BitVec 8) : Nat := match cause.toNat with | 5 => 1 | 7 => 3 | _ => 2
/-- What stands in a status's place while an access waits for a bank that is not ACTIVE (R112). -/
def bankWait : Nat := 255
/-- R112, R130, R161: whether an access of `n` bytes of core `c`'s command can be made, or its STATUS; a bank that is not ACTIVE starts its exit. -/
def State.engLoc (s : State) (c : CoreId) (a : W64) (n : Nat) (acc : Access) : Except Nat Unit × State :=
  match s.locate c a acc with
  | (.error e, s) => (.error (engStatus e.1), s)
  | (.ok l, s) =>
    if !s.homeUp l then (.error 6, s)
    else match l with
      | .sp h off => if s.banksReady h off n then (.ok (), s) else (.error bankWait, s.wakeBanks h off n)
      | .pa _ => (.ok (), s)
/-- A read of a command's path, within 64 bytes: bytes, poison, the command with its time. -/
def State.engRead (s : State) (c : CoreId) (e : EngCmd) (a : W64) (n : Nat) : Except Nat (List Byte × Bool × EngCmd) × State :=
  match s.engLoc c a n .read with
  | (.error x, s) => (.error x, s)
  | (.ok _, s) =>
    match s.readVa c e.lt a n (n / 32 + 2) with
    | (.error x, s) => (.error (engStatus x.1), s)
    | (.ok (bs, bad, lt), s) => (.ok (bs, bad, { e with lt := max e.lt lt }), s)
/-- A write of a command's path. -/
def State.engWrite (s : State) (c : CoreId) (e : EngCmd) (a : W64) (bs : List Byte) (bad : Bool) : Except Nat EngCmd × State :=
  match s.engLoc c a bs.length .write with
  | (.error x, s) => (.error x, s)
  | (.ok _, s) =>
    match s.writeVa c e.lt a bs bad (bs.length / 32 + 2) with
    | (.error x, s) => (.error (engStatus x.1), s)
    | (.ok lt, s) => (.ok { e with lt := max e.lt lt }, s)
/-- A write of a command's path of die `d` into its own block, at an offset of it. -/
def State.engBlock (s : State) (c : CoreId) (e : EngCmd) (off : Nat) (bs : List Byte) : EngCmd × State :=
  let (lt, s) := s.storeAt c.die (s.core c).task.ctx e.lt (.sp c (e.blk.toNat % 0x800000 + off)) bs false
  ({ e with lt := lt }, s)
/-- The address of byte `i` of a side, none where its element has none or the walk is past its end (R132). -/
def Side.byte (x : Side) (i : Nat) : Option W64 :=
  match x with
  | .flat a => some (a + BitVec.ofNat 64 i)
  | .walk m org => if i / m.eb < m.vol then (m.addr org (i / m.eb)).map (· + BitVec.ofNat 64 (i % m.eb)) else none
/-- How many bytes from byte `i` on have consecutive addresses, at most a kilobyte. -/
def Side.run (x : Side) (i : Nat) : Nat := match x with | .flat _ => 1024 | .walk m _ => m.eb - i % m.eb
/-- The bytes to the next multiple of 8 of an address. -/
def toWord (a : Option W64) : Nat := match a with | some a => 8 - a.toNat % 8 | none => 1024
/-- R107: whether the byte at an address goes on within an aligned 8 bytes after the byte before it, whose next address is `p`. -/
def inWord (p a : Option W64) : Bool := match p, a with | some p, some a => p = a && a.toNat % 8 ≠ 0 | _, _ => false
/-- Arrivals of a path at time `lt` at a word, one for each chunk of `n` bytes: the last timestamp. -/
def State.countAt (s : State) (h : CoreId) (off n lt : Nat) : Nat × State :=
  (chunks n).foldl (fun (a : Nat × State) w => a.2.syncArrive h off w a.1) (lt, s)
/-- Replaces a command of core `c` by its number; the core's floor follows its time (R109). -/
def State.putCmd (s : State) (c : CoreId) (k : KUnit) (e : EngCmd) : State :=
  s.modCore c fun x => { (x.setK k { x.kslot k with queue := (x.kslot k).queue.map fun y => if y.id = e.id then e else y }) with floor := max x.floor e.lt }
/-- R131 item 1: bytes counted by a command as they are performed, unless KFLG.REL. -/
def EngCmd.count (e : EngCmd) (n : Nat) : EngCmd := if e.flg.getLsbD 1 then e else { e with counted := e.counted + n }

/-! ## Transfers in pieces (R100 item 1, R107) -/

/-- A side of a transfer: the address of byte `i`, and how many bytes from there have consecutive addresses. -/
abbrev Walker := Nat → Option W64 × Nat
/-- A side of a command as a walker. -/
def Side.walker (x : Side) : Walker := fun i => (x.byte i, x.run i)
/-- Consecutive addresses from one. -/
def flatWalker (a : W64) : Walker := fun i => (some (a + BitVec.ofNat 64 i), 1024)
/-- R107: the bytes of the piece that starts at byte `i` of `total`: those that follow one another within an aligned 8 bytes. -/
def pieceLen (g : Walker) (total : Nat) : Nat → Nat → Nat
  | 0, _ => 0
  | fuel + 1, i =>
    let (a, run) := g i
    let n := min (min run (toWord a)) (total - i)
    if i + n < total && inWord (a.map (· + BitVec.ofNat 64 n)) (g (i + n)).1 then n + pieceLen g total fuel (i + n) else n
/-- The pieces from byte `i` on that start before byte `hi`, each with its length. -/
def pieces (g : Walker) (total hi : Nat) : Nat → Nat → List (Nat × Nat)
  | 0, _ => []
  | fuel + 1, i =>
    if hi ≤ i || total ≤ i then []
    else (i, pieceLen g total 8 i) :: pieces g total hi fuel (i + pieceLen g total 8 i)
/-- The pieces that this step performs, from byte `lo` on: those of one kilobyte, `copies` times each, without the ones that wait; `b` is 0 for reads, 1 for writes. -/
def State.window (s : State) (g : Walker) (total copies lo b : Nat) : List (Nat × Nat × Nat) :=
  let k := s.pick.1
  let l := ((pieces g total (lo + 1024 * (k + 1)) (1024 * (k + 1)) lo).filter fun x => lo + 1024 * k ≤ x.1).flatMap fun x => (List.range copies).map fun d => (x.1, x.2, d)
  (l.zip (List.range l.length)).filterMap fun x => if s.pick.2.testBit (2 * x.2 + b) then none else some x.1
/-- The first place from `i` on where no piece that is done starts. -/
def pastDone (done : Nat → Option Nat) : Nat → Nat → Nat
  | 0, i => i
  | fuel + 1, i => match done i with | some n => pastDone done fuel (i + n) | none => i
/-- The outcome of a part of a transfer: the status it ends with, 0 to go on. -/
structure Part where
  status : Nat
  e : EngCmd
  s : State
/-- A part after one more access: an access that waits for a bank leaves nothing but the bank's exit (R112). -/
def Part.then (p : Part) (f : Part → Part) : Part :=
  if p.status ≠ 0 then p
  else
    let q := f p
    if q.status = bankWait then { p with s := q.s } else q
/-- The pieces of the source that this step reads are read. -/
def State.engReads (s : State) (c : CoreId) (src : Walker) (total : Nat) (e : EngCmd) : Part :=
  let read (p : Part) (x : Nat × Nat × Nat) : Part := p.then fun p =>
    if p.e.got.any fun y => y.1 = x.1 then p
    else match (src x.1).1 with
      | none => { p with e := { p.e with got := p.e.got ++ [(x.1, List.replicate x.2.1 (0, false))] } }
      | some a => match p.s.engRead c p.e a x.2.1 with
        | (.error y, t) => ⟨y, p.e, t⟩
        | (.ok (bs, bad, e), t) => ⟨0, { e with got := e.got ++ [(x.1, bs.map fun b => (b, bad))], poi := e.poi || bad }, t⟩
  let p := (s.window src total 1 e.rpos 0).foldl read ⟨0, e, s⟩
  { p with e := { p.e with rpos := pastDone (fun i => (p.e.got.find? fun y => y.1 = i).map fun y => y.2.length) (p.e.got.length + 1) p.e.rpos } }
/-- Bytes that a command has read, none unless all of them are. -/
def EngCmd.bytesAt (e : EngCmd) (i n : Nat) : Option (List (Byte × Bool)) :=
  let l := (List.range n).filterMap fun j => (e.got.find? fun y => y.1 ≤ i + j && i + j < y.1 + y.2.length).bind fun y => y.2[i + j - y.1]?
  if l.length = n then some l else none
/-- The pieces of the destination that this step writes are written, each `copies` times by `put`, once their bytes are there. -/
def engWrites (dst : Walker) (total copies : Nat) (bytes : EngCmd → Nat → Nat → Option (List (Byte × Bool))) (put : Nat → Nat → List (Byte × Bool) → Part → Part) (p : Part) : Part :=
  let write (p : Part) (x : Nat × Nat × Nat) : Part := p.then fun p =>
    if p.e.parts.contains (x.1 * copies + x.2.2) then p
    else match bytes p.e x.1 x.2.1 with
      | none => p
      | some bs =>
        let q := put x.1 x.2.2 bs p
        { q with e := { q.e with parts := (x.1 * copies + x.2.2) :: q.e.parts } }
  let p := (p.s.window dst total copies p.e.pos 1).foldl write p
  let done (i : Nat) : Option Nat := if i < total && (List.range copies).all fun d => p.e.parts.contains (i * copies + d) then some (pieceLen dst total 8 i) else none
  let pos := pastDone done (p.e.parts.length + 1) p.e.pos
  { p with e := { p.e with pos := pos, parts := p.e.parts.filter fun x => pos * copies ≤ x,
                           got := p.e.got.filter fun y => min pos p.e.rpos < y.1 + y.2.length } }
/-- R132: a piece is written at its address; one without an address is dropped. -/
def vaPut (c : CoreId) (dst : Walker) (i : Nat) (bs : List (Byte × Bool)) (p : Part) : Part :=
  match (dst i).1 with
  | none => p
  | some a => match p.s.engWrite c p.e a (bs.map (·.1)) (bs.any (·.2)) with
    | (.error x, s) => ⟨x, p.e, s⟩
    | (.ok e, s) => ⟨0, e.count bs.length, s⟩

/-! ## Start and end (R100, R129 to R131) -/

/-- R100 item 3: whether an access of a number that core `k` issued is still to be performed. -/
def Core.owes (k : Core) (i : Nat) : Bool :=
  (k.reqs.any fun r => r.seq = i) || (k.mx.queue.any fun o => match o with | .drain d => d.seq = i | _ => false)
    || k.pipe.waits.any fun w => w.seq = i && match w.kind with | .qget _ => true | _ => false
/-- R100 item 3, R129 item 6: command `n` of a queue, started: its earlier ones have started and its acquire is over. -/
def State.engStart (s : State) (c : CoreId) (k : KUnit) (n : Nat) : Option EngCmd × State :=
  let m := s.core c
  let q := (m.kslot k).queue
  match q[n]? with
  | none => (none, s)
  | some e =>
    if e.started then (some e, s)
    else if (q.take n).all (fun x => x.started) && !(e.acq.any m.owes) then
      let acq := e.flg.getLsbD 0
      let scope := (e.flg.extractLsb' 2 3).toNat
      let e := { e with started := true, lt := if acq then max e.lt (ltime m.lt) else e.lt }
      let s := if acq && (2 ≤ scope || (scope = 1 && s.product == .hv1x)) then s.acquireAction c else s
      (some e, s.putCmd c k e)
    else (none, s)
/-- A command ends with a status, unless it waits for a bank (R112). -/
def State.engFail (s : State) (c : CoreId) (k : KUnit) (e : EngCmd) (status : Nat) : State :=
  if status = bankWait then s else if s.endReady c e then s.engineEnd c k e status else s.wakeEnd c e
/-- R131: what part of a command has done is recorded: its counted bytes arrive, in chunks of at most 1 KiB, but for the last ones, which arrive as it ends, its STATUS written
(R130); a failure ends it, and so does a completion word found poisoned (Table 14.5). -/
def State.engPart (c : CoreId) (k : KUnit) (old : EngCmd) (p : Part) : State :=
  let e := if p.e.counted = p.e.n then { p.e with counted := p.e.n - min 1024 (p.e.n - old.counted) } else p.e
  let w := e.counted - old.counted
  let spoilt := w ≠ 0 && p.s.wordPoisoned c e
  let e := if spoilt then { e with counted := old.counted } else e
  let s := p.s.putCmd c k e
  let s := if e.sw = 0 || w = 0 || spoilt then s
    else
      let (h, off) := syncAddr c e.sw
      let (ts, s) := s.countAt h off w e.lt
      s.putCmd c k { e with lt := ts }
  if spoilt then s.engFail c k e 4
  else if p.status = 0 then s
  else
    let lt := (((s.core c).kslot k).queue.find? fun x => x.id = e.id).map (·.lt)
    s.engFail c k { e with lt := lt.getD e.lt } p.status
/-- Table 14.5: poisoned control data at an address: the command ends with STATUS 4 and its task consumes. -/
def State.engPoisoned (s : State) (c : CoreId) (k : KUnit) (e : EngCmd) (a : W64) : State :=
  if s.endReady c e then (s.engineEnd c k e 4).modPipeOf c fun p => { p with engPoison := some a } else s.wakeEnd c e
/-- R156: whether core `h` runs a task of core `c`'s context. -/
def State.sameCtx (s : State) (c h : CoreId) : Bool := s.runsCtx h (s.core c).task.ctx
/-- R112: whether a write of `n` bytes at an offset of core `h`, and the receive word there, find their banks ACTIVE. -/
def State.targetReady (s : State) (h : CoreId) (off n : Nat) (rsw : W64) : Bool := s.banksReady h off n && (rsw = 0 || s.banksReady h (rsw.toNat % 0x800000) 16)
/-- R157 item 4, R159 item 5: a piece is written at an offset of core `h`'s scratchpad, on a die in service and for a task of the command's context, and counted on the receive word there: one found
poisoned is consumed (Table 14.5). -/
def State.targetPut (c h : CoreId) (off : Nat) (rsw : W64) (bs : List (Byte × Bool)) (p : Part) : Part :=
  if !p.s.sameCtx c h then { p with status := if (p.s.die h.die).live then 2 else 6 }
  else if !p.s.targetReady h off bs.length rsw then
    let s := p.s.wakeBanks h off bs.length
    ⟨bankWait, p.e, if rsw = 0 then s else s.wakeBanks h (rsw.toNat % 0x800000) 16⟩
  else if rsw ≠ 0 && poisonAt (p.s.core h).spPoi (rsw.toNat % 0x800000) 16 then
    ⟨4, p.e, p.s.modPipeOf c fun p => { p with engPoison := some rsw }⟩
  else
    let (lt, s) := p.s.storeAt c.die (p.s.core c).task.ctx p.e.lt (.sp h off) (bs.map (·.1)) (bs.any (·.2))
    let (lt, s) := if rsw = 0 then (lt, s) else s.countAt h (rsw.toNat % 0x800000) bs.length lt
    ⟨0, ({ p.e with lt := max p.e.lt lt } : EngCmd).count bs.length, s⟩
/-- One step of a transfer: pieces are read, pieces are written. -/
def State.transfer (s : State) (c : CoreId) (k : KUnit) (e : EngCmd) (src dst : Walker) (total copies : Nat) (put : Nat → Nat → List (Byte × Bool) → Part → Part) : State :=
  State.engPart c k e ((s.engReads c src total e).then (engWrites dst total copies EngCmd.bytesAt put))

/-! ## One step of each command -/

/-- R133: reads the extent list; STATUS 3 for a misaligned list, 7 for one too short. -/
def State.stepList (s : State) (c : CoreId) (k : KUnit) (e : EngCmd) (list : W64) (next need : Nat) : State :=
  if list.toNat % 8 ≠ 0 then s.engFail c k e 3
  else match s.engRead c e list (16 * next) with
    | (.error x, s) => s.engFail c k e x
    | (.ok (bs, bad, e), s) =>
      if bad then s.engPoisoned c k e list
      else
        let exts := (List.range next).map fun i => (f64 bs (16 * i), fld bs (16 * i + 8) 4, fld bs (16 * i + 12) 4)
        if (exts.map fun x => x.2.1).foldl (· + ·) 0 < need then s.engFail c k e 7
        else s.putCmd c k { e with extents := some exts }
/-- R133: byte `i` of the tokens of an extent list. -/
def listWalker (exts : List (W64 × Nat × Nat)) (rowb first : Nat) : Walker := fun i =>
  ((extentAt exts 0 (first + i / rowb)).map fun x => x.2 + BitVec.ofNat 64 (i % rowb), rowb - i % rowb)
/-- R157: the next pieces go to every target. -/
def State.stepMcast (s : State) (c : CoreId) (k : KUnit) (e : EngCmd) (src : Side) (dst : W64) (dies : List DieId) (core : Nat) (rsw : W64) : State :=
  s.transfer c k e src.walker (flatWalker dst) e.total dies.length fun i d bs =>
    State.targetPut c (CoreId.mk' (dies.getD d c.die) core) (dst.toNat % 0x800000 + i) rsw bs
/-- The slab and the elements left in it at element `i`. -/
def slabAt : List Slab → Nat → Option (DieId × List (W64 × W64))
  | [], _ => none
  | x :: r, i => if i < x.elems.length then some (x.die, x.elems.drop i) else slabAt r (i - x.elems.length)
/-- Byte `i` of the elements of an array, the first of which starts at byte `base`. -/
def elemWalker (a : Array W64) (base eb : Nat) : Walker := fun i =>
  ((a[(i - base) / eb]?).map fun x => x + BitVec.ofNat 64 ((i - base) % eb), eb - (i - base) % eb)
/-- R159: the next pieces of a slab go to its receiver; the slabs follow one another. -/
def State.stepHalo (s : State) (c : CoreId) (k : KUnit) (e : EngCmd) (slabs : List Slab) (rsw : W64) (eb : Nat) : State :=
  match slabAt slabs (e.pos / eb) with
  | none => s
  | some (d, l) =>
    let base := e.pos / eb * eb
    let dst := elemWalker (l.map (·.2)).toArray base eb
    s.transfer c k e (elemWalker (l.map (·.1)).toArray base eb) dst (base + l.length * eb) 1 fun i _ bs =>
      State.targetPut c (CoreId.mk' d c.num) ((((dst i).1).getD 0).toNat % 0x800000) rsw bs
/-- R233, R234 item 2: whether the records of a load share bytes of the slots in pairs, those of a 4-bit format in an A pair: the later one's scale stands, so that they
are placed in their order. -/
def ctrlFused (ctrl : W32) (reg : BitVec 24) : Bool := ctrl.getLsbD 6 && !ctrl.getLsbD 5 && (Fmt.ofReg reg).width ≤ 4
/-- R234: the next units enter the slots, each once its kilobyte is read, and once no operation issued before an MREL still reads them (R232). -/
def State.stepMopld (s : State) (c : CoreId) (k : KUnit) (e : EngCmd) (ctrl : W32) (reg : BitVec 24) (off : Nat) (src : Side) : State :=
  if s.slotsBusy c (ctrlSlots ctrl) then s
  else
    let bytes (x : EngCmd) (i n : Nat) : Option (List (Byte × Bool)) := if ctrlFused ctrl reg && x.pos < i then none else x.bytesAt i n
    State.engPart c k e ((s.engReads c src.walker e.total e).then (engWrites (fun i => (none, 1024 - i % 1024)) e.total 1 bytes fun i _ bs p =>
      { p with e := p.e.count bs.length, s := p.s.modMxOf c fun m => m.loadUnit ctrl reg off (i / 1024) bs }))
/-- R259, R262: the next pieces of a row; the rows follow one another. The record is read again for each step. -/
def State.stepApp (s : State) (c : CoreId) (k : KUnit) (e : EngCmd) (rec : W64) (rowb p0 : Nat) (src : Side) : State :=
  match s.engRead c e rec 576 with
  | (.error x, s) => s.engFail c k e x
  | (.ok (bs, bad, e1), s) =>
    if bad then s.engPoisoned c k e1 rec
    else
      let r := SeqRec.ofBytes bs
      let row := e.pos / rowb
      let dst := if r.win ≠ 0 && r.cap < r.sink + r.win then none
        else match r.place (p0 + row) with
          | some (j, a) => if j < r.npin then none else some a
          | none => none
      match dst with
      | none => s.engFail c k e1 7
      | some a =>
        let into : Walker := fun i => if i / rowb = row then (some (a + BitVec.ofNat 64 (i % rowb)), rowb - i % rowb) else (none, 1024)
        State.engPart c k e ((s.engReads c src.walker e.total e1).then (engWrites into ((row + 1) * rowb) 1 EngCmd.bytesAt fun i _ bs => vaPut c into i bs))

/-! ## Collectives: instances and contributions (R148 to R150, R155, R158) -/

/-- Instance `n` changed. -/
def State.modColl (s : State) (n : Nat) (f : Coll → Coll) : State :=
  { s with link := { s.link with colls := s.link.colls.modify n f } }
/-- The command of a number on core `c`, with its slot. -/
def State.findCmd (s : State) (c : CoreId) (id : Nat) : Option (KUnit × EngCmd) :=
  match (s.core c).ka.queue.find? fun e => e.id = id with
  | some e => some (.ka, e)
  | none => ((s.core c).kb.queue.find? fun e => e.id = id).map fun e => (.kb, e)
/-- The instance a command is paired with: its place and the rank. -/
def State.collOf (s : State) (c : CoreId) (id : Nat) : Option (Nat × Coll × Nat) :=
  (List.range s.link.colls.length).findSome? fun n => match s.link.colls[n]? with
    | some q => if q.job = (s.core c).task.job then (q.paired.find? fun p => p.2.1 = c && p.2.2 = id).map fun p => (n, q, p.1) else none
    | none => none
/-- The root's operation and length of an XRED instance. -/
def State.rootOf (s : State) (q : Coll) : Option (Nat × Nat) :=
  match s.findCmd q.gov q.cmd with
  | some (_, e) => (match e.kind with | .xred _ op _ len _ _ _ _ => some (op.toNat, len) | _ => none)
  | none => none
/-- Table 6.4: the identity of word `j` of a contribution. -/
def redIdentity (op j : Nat) : W32 :=
  match op with
  | 0 => 0x80000000
  | 1 => 0xFF800000
  | 2 => 0x7F800000
  | 4 => if j % 256 = 255 then 0xFF800000 else 0
  | _ => 0
/-- A part stored by rank. -/
def ranked (l : List (Nat × List (W32 × Bool))) (r : Nat) : Option (List (W32 × Bool)) := (l.find? fun x => x.1 = r).map (·.2)
/-- The words of bytes with their poison. -/
def contribWords (bs : List (Byte × Bool)) (n : Nat) : List (W32 × Bool) :=
  let a := bs.toArray
  (List.range n).map fun j =>
    let l := (List.range 4).map fun i => a.getD (4 * j + i) (0, false)
    (BitVec.ofNat 32 (natOfBytes (l.map (·.1))), l.any (·.2))
/-- R158 item 3: the next pieces of a contribution are read; a member counts them. Once all are, the contribution is there, the identity where nothing is read. -/
def State.stepContribute (s : State) (c : CoreId) (k : KUnit) (e : EngCmd) (n : Nat) (q : Coll) (rank : Nat) (nocont : Bool) (len : Nat) (src : W64) : State :=
  match s.rootOf q with
  | none => s
  | some (op, rlen) =>
    if (ranked q.contribs rank).isSome then s
    else
      let lim := min rlen (if nocont then 0 else if op = 4 then len / 1024 * 1024 else len)
      let isRoot : Bool := q.gov = c && q.cmd = e.id
      let p := s.engReads c (flatWalker src) lim e
      let now (e : EngCmd) : Nat := (e.got.map fun y => y.2.length).foldl (· + ·) 0
      let p := { p with e := if isRoot then p.e else p.e.count (min (now p.e - now e) (len - p.e.counted)) }
      if p.status ≠ 0 || p.e.rpos < lim then State.engPart c k e p
      else
        let ws := contribWords ((p.e.bytesAt 0 lim).getD []) (lim / 4) ++ (List.range ((rlen - lim) / 4)).map fun j => (redIdentity op (lim / 4 + j), false)
        let s := p.s.modColl n fun q => { q with contribs := q.contribs ++ [(rank, ws)] }
        State.engPart c k e ⟨0, { p.e with got := [] }, s⟩
/-- Table 6.4: the combination of two words: word, NAN, OVF. -/
def redWord (op : Nat) (a b : W32) : W32 × Bool × Bool :=
  let nan := isNan32 a || isNan32 b
  match op with
  | 0 => let (w, f) := fadd32 a b; (w, isNan32 w, f &&& fOF != 0)
  | 1 => if nan then (nan32, true, false) else (if fxTotalLt (fx32 a) (fx32 b) then b else a, false, false)
  | 2 => if nan then (nan32, true, false) else (if fxTotalLt (fx32 b) (fx32 a) then b else a, false, false)
  | _ => (a + b, false, false)
/-- A list of words as a vector of one triple. -/
def tripleOf (l : List (W32 × Bool)) : Vec := let a := l.toArray; Vec.tab fun i => (a.getD i.val (0, false)).1
/-- SMX on successive triples, poison by whole triples (R149, R158 item 7) (DEDUCED log 53). -/
def redTriples : Nat → List (W32 × Bool) → List (W32 × Bool) → List (W32 × Bool) × BitVec 2
  | 0, _, _ => ([], 0)
  | fuel + 1, a, b =>
    if a.isEmpty then ([], 0)
    else
      let x := a.take 256
      let y := b.take 256
      let (r, nan, fl) := smxCombine (tripleOf x) (tripleOf y)
      let bad := (x ++ y).any (·.2)
      let (rest, f) := redTriples fuel (a.drop 256) (b.drop 256)
      ((r.toList.map fun w => (w, bad)) ++ rest, f ||| boolWord 2 nan ||| (boolWord 2 (fl &&& fOF != 0) <<< 1))
/-- R148, R149: the combination of two contributions, with the NAN and OVF flags (bits 0 and 1). -/
def redCombine (op : Nat) (a b : List (W32 × Bool)) : List (W32 × Bool) × BitVec 2 :=
  if op = 4 then redTriples a.length a b
  else
    let l := (a.zip b).map fun p => (redWord op p.1.1 p.2.1, p.1.2 || p.2.2)
    (l.map fun p => (p.1.1, p.2), boolWord 2 (l.any fun p => p.1.2.1) ||| (boolWord 2 (l.any fun p => p.1.2.2) <<< 1))
/-- R143, R150: the die a partial of die `d` goes to on its way to root die `r`: X first, then Y, then Z, one hop each within a package. -/
def redNext (d r : Nat) : Option Nat :=
  if d % 2 ≠ r % 2 then some (d / 2 * 2 + r % 2)
  else if d / 2 % 2 ≠ r / 2 % 2 then some (d / 4 * 4 + r / 2 % 2 * 2 + d % 2)
  else if d / 4 ≠ r / 4 then some (r / 4 * 4 + d % 4)
  else none
/-- Whether die `d` lies on the route of die `m` to root `r`, `m` itself included. -/
def onRoute (d r : Nat) : Nat → Nat → Bool
  | 0, m => m = d
  | fuel + 1, m => m = d || (match redNext m r with | some x => onRoute d r fuel x | none => false)
/-- The dies of the tree that send to die `d`, in the order of ports X−, X+, Y−, Y+, Z−, Z+ (one hop apart, they differ in one
dimension). -/
def redKids (members : List Nat) (d r : Nat) : List Nat :=
  [d / 2 * 2 + (1 - d % 2), d / 4 * 4 + (1 - d / 2 % 2) * 2 + d % 2, (1 - d / 4) * 4 + d % 4].filter fun x =>
    redNext x r = some d && members.any fun m => onRoute x r 3 m
/-- REDUCTION_COMBINE (R150): the router of the die of a rank combines its own contribution with the partials that the tree sends it, in
port order, and sends the result on. A sole contribution is not combined and sets no flag, be it a NaN (R148, DESIGN CHOICE log 78). -/
def reduceStep (n rank : Nat) (s : State) : Out :=
  match s.link.colls[n]? with
  | none => .next s
  | some q =>
    match s.rootOf q, s.job q.job with
    | some (op, len), some j =>
      let rootDie := (q.gov.die).val
      let dieR (r : Nat) : Nat := (j.dies.getD r 0).val
      let members := q.parts.map dieR
      let d := dieR rank
      let kids := (redKids members d rootDie).map fun x => (j.dies.map (·.val)).idxOf x
      let own := ranked q.contribs rank
      let parts := kids.map fun r => ranked q.partials r
      let mine := q.parts.contains rank
      if q.resh || j.dies.length ≤ rank || (ranked q.partials rank).isSome || (!mine && kids.isEmpty) || parts.any Option.isNone
          || (mine && (own.map List.length) ≠ some (len / 4)) then .next s
      else
        let inputs := (if mine then own.toList else []) ++ parts.filterMap id
        let (r, f) := (inputs.drop 1).foldl (fun (acc : List (W32 × Bool) × BitVec 2) x =>
          let (r, f) := redCombine op acc.1 x
          (r, acc.2 ||| f)) (inputs.headD [], 0)
        .next (s.modColl n fun q => { q with partials := q.partials ++ [(rank, r)], flags := q.flags ||| f })
    | _, _ => .next s
/-- R158 item 5: the next pieces of the result at the root; its poisoned words enter STATUS (item 7). -/
def State.stepResult (s : State) (c : CoreId) (k : KUnit) (e : EngCmd) (res : List (W32 × Bool)) (dst : W64) : State :=
  let a := res.toArray
  let bytes (_ : EngCmd) (i n : Nat) : Option (List (Byte × Bool)) := some ((List.range n).map fun j =>
    let w := a.getD ((i + j) / 4) (0, false)
    (w.1.extractLsb' (8 * ((i + j) % 4)) 8, w.2))
  State.engPart c k e (engWrites (flatWalker dst) e.total 1 bytes (fun i _ bs p => vaPut c (flatWalker dst) i bs { p with e := { p.e with poi := p.e.poi || bs.any (·.2) } }) ⟨0, e, s⟩)
/-- R158: what a started XRED command does next: contributes, or, at the root, writes the result. -/
def State.stepXred (s : State) (c : CoreId) (k : KUnit) (e : EngCmd) (nocont : Bool) (len : Nat) (src dst : W64) : State :=
  match s.collOf c e.id with
  | none => s
  | some (n, q, rank) =>
    if q.status ≠ 0 then s
    else if q.gov = c && q.cmd = e.id then
      match ranked q.partials rank with
      | some r => if e.pos < e.total then s.stepResult c k e r dst else s
      | none => s.stepContribute c k e n q rank nocont len src
    else s.stepContribute c k e n q rank nocont len src
/-- Whether command `n` of a queue is an XRESH: its instance starts it (R155 item 5); one that no call has reached is not started, and the later commands of its slot wait
behind it (DESIGN CHOICE log 88). -/
def KSlot.isResh (q : KSlot) (n : Nat) : Bool := match q.queue[n]? with | some e => (match e.kind with | .xresh _ _ _ _ _ => true | _ => false) | none => false
/-- ENGINE_WRITE_PERFORMED (R131): command `n` of a copy slot of the current core does its next part, at most a kilobyte, which `State.pick` chooses. Its counted
bytes are to arrive: the word's banks become ACTIVE first (R112). -/
def engineWriteStep (k : KUnit) (n : Nat) (s : State) : Out :=
  let c := s.cur
  if s.phase == .dusk || ((s.core c).kslot k).isResh n then .next s
  else match s.engStart c k n with
    | (none, s) => .next s
    | (some e, s) =>
      if !s.wordReady c e then .next (s.wakeWord c e) else
      match e.kind with
      | .xcopy src dst => .next (s.transfer c k e src.walker dst.walker e.total 1 fun i _ bs => vaPut c dst.walker i bs)
      | .xlist scat list next rowb first ntok mem =>
        match e.extents with
        | none => .next (s.stepList c k e list next (first + ntok))
        | some x =>
          let l := listWalker x rowb first
          let into := if scat then l else mem.walker
          .next (s.transfer c k e (if scat then mem.walker else l) into e.total 1 fun i _ bs => vaPut c into i bs)
      | .xmcast src dst dies core rsw => .next (if e.pos < e.total then s.stepMcast c k e src dst dies core rsw else s)
      | .xred _ _ nocont len src dst _ _ => .next (s.stepXred c k e nocont len src dst)
      | .xhalo slabs rsw eb => .next (s.stepHalo c k e slabs rsw eb)
      | .xresh _ _ _ _ _ => .next s
      | .mopldT ctrl reg off _ src _ => .next (if e.pos < e.total then s.stepMopld c k e ctrl reg off src else s)
      | .kvapp _ rec rowb src p0 =>
        match p0 with
        | some p => .next (if e.pos < e.total then s.stepApp c k e rec rowb p src else s)
        | none => .next s
/-- Whether command `n` of a queue is a KV.APP. -/
def KSlot.isApp (q : KSlot) (n : Nat) : Bool := match q.queue[n]? with | some e => (match e.kind with | .kvapp _ _ _ _ _ => true | _ => false) | none => false
/-- KV_RESERVATION (R262): positions are reserved at the record's home, in one atomic step there. -/
def kvReserveStep (k : KUnit) (n : Nat) (s : State) : Out :=
  let c := s.cur
  if s.phase == .dusk || !((s.core c).kslot k).isApp n then .next s
  else match s.engStart c k n with
    | (none, s) => .next s
    | (some e, s) =>
      match e.kind with
      | .kvapp ntok rec rowb src none =>
        if !s.endReady c e then .next (s.wakeEnd c e) else
        match s.engLoc c rec 64 .write, s.locate c rec .write with
        | (.error x, s), _ => .next (s.engFail c k e x)
        | _, (.error x, s) => .next (s.engFail c k e (engStatus x.1))
        | (.ok _, _), (.ok l, s) =>
          let (l, s) := s.forWrite l
          let (bs, bad) := s.homeBytes l 64
          let r := SeqRec.ofBytes bs
          let e := { e with lt := max e.lt (s.times l).wts }
          if bad then .next (s.engPoisoned c k e rec)
          else if r.win = 0 && r.cap < r.len + ntok then .next (s.engFail c k e 8)
          else
            let (ts, s) := s.storeAt c.die (s.core c).task.ctx e.lt l (bytesOfNat 8 (r.len + ntok)) false
            let (e, s) := s.engBlock c { e with lt := ts } 32 (bytesOfNat 8 r.len)
            .next (s.putCmd c k { e with kind := .kvapp ntok rec rowb src (some r.len) })
      | _ => .next s

/-! ## Completion (R100, R130, R131) -/

/-- R158 item 5: the root writes NAN and OVF and enters NAN in FPSTAT. -/
def State.rootFlags (s : State) (c : CoreId) (e : EngCmd) (f : BitVec 2) : EngCmd × State :=
  let (e, s) := s.engBlock c e 56 (bytesOfNat 4 f.toNat)
  (e, if f.getLsbD 0 then s.addFlags c fNAN else s)
/-- R234 item 3: the load bound of a MOPLD.T is read after its last write and enters its slots' bounds. -/
def State.mopldBound (s : State) (c : CoreId) (e : EngCmd) (ctrl : W32) (btab : Option W64) : Except Nat EngCmd × State :=
  match btab with
  | none => (.ok e, s.modMxOf c fun m => m.loadBound (ctrlSlots ctrl) 0)
  | some a =>
    match s.engRead c e a 4 with
    | (.error x, s) => (.error x, s)
    | (.ok (bs, bad, e), s) => (.ok { e with poi := e.poi || bad }, s.modMxOf c fun m => m.loadBound (ctrlSlots ctrl) (BitVec.ofNat 32 (natOfBytes bs)))
/-- The status a command whose work is over ends with, none while it has work left, with the state after its last acts. The other members of an XRED that
fails end with 0 (R158 item 8); only where a die of the instance is reset do they end with 6 (R161 item 2) (DESIGN CHOICE log 67). In a status's place stands `bankWait` where the
load bound waits for its bank. -/
def State.engDone (s : State) (c : CoreId) (e : EngCmd) : Option (Nat × EngCmd × State) :=
  let full : Bool := e.total ≤ e.pos
  let st (e : EngCmd) : Nat := if e.poi then 4 else 0
  match e.kind with
  | .xcopy _ _ => if full then some (st e, e, s) else none
  | .xlist _ _ _ _ _ _ _ => if full && e.extents.isSome then some (st e, e, s) else none
  | .xmcast _ _ _ _ _ => if full then some (st e, e, s) else none
  | .xhalo _ _ _ => if full then some (st e, e, s) else none
  | .kvapp _ _ _ _ p0 => if full && p0.isSome then some (st e, e, s) else none
  | .mopldT ctrl _ _ _ _ btab =>
    if !full then none
    else match s.mopldBound c e ctrl btab with
      | (.error x, s) => some (x, e, s)
      | (.ok e, s) => some (st e, e, s)
  | .xred _ _ _ _ _ _ _ _ =>
    match s.collOf c e.id with
    | none => none
    | some (_, q, rank) =>
      if q.gov = c && q.cmd = e.id then
        if q.status ≠ 0 then some (q.status, e, s)
        else if full then (let (e, s) := s.rootFlags c e q.flags; some (st e, e, s)) else none
      else if q.status ≠ 0 then some (if q.lost then 6 else 0, e, s)
      else match s.rootOf q with
        | none => some (0, e, s)
        | some (_, rlen) => if ((ranked q.contribs rank).map List.length) = some (rlen / 4) then some (0, e, s) else none
  | .xresh _ _ _ _ _ =>
    match s.collOf c e.id with
    | some (_, q, _) => if q.status ≠ 0 then some (q.status, e, s) else none
    | none => none
/-- R100 item 4: whether the release of a command at scope DUR waits: a tier-3 line is dirty or under way. -/
def State.durWaits (s : State) (e : EngCmd) : Bool :=
  e.flg.getLsbD 1 && (e.flg.extractLsb' 2 3).toNat = 4 && !(s.m.dirty.isEmpty && s.m.granules.isEmpty)
/-- ENGINE_COMPLETION (R130, R131): a command whose work is over ends; with REL at scope DUR its writes are made durable first, but not those of a command that
failed (R285). -/
def engineCompleteStep (k : KUnit) (n : Nat) (s : State) : Out :=
  let c := s.cur
  let at' := if ((s.core c).kslot k).isResh n then (((s.core c).kslot k).queue[n]?, s) else s.engStart c k n
  if s.phase == .dusk then .next s
  else match at' with
    | (none, s) => .next s
    | (some e, s) =>
      match s.engDone c e with
      | none => .next s
      | some (x, e', s') =>
        if x = bankWait then .next s'
        else if (x = 0 || x = 4) && s.durWaits e then .next (s.m.dirty.foldl (fun s l => s.writeBack l) s)
        else if s.endReady c e then .next (s'.engineEnd c k e' x)
        else .next (s.wakeEnd c e)

/-! ## Calls and XRESH (R155, R160) -/

/-- Whether a command of core `c` may answer an instance's call: of its kind (DESIGN CHOICE log 88) and RTAG, not governing, paired with none. -/
def State.answers (s : State) (c : CoreId) (q : Coll) (e : EngCmd) : Bool :=
  (match e.kind with
    | .xred t _ _ _ _ _ _ _ => !q.resh && t == q.rtag
    | .xresh t _ _ _ _ => q.resh && t == q.rtag
    | _ => false)
  && !(s.link.colls.any fun x => x.job = q.job && x.paired.any fun p => p.2.1 = c && p.2.2 = e.id)
/-- The oldest accepted command of core `c` that may answer an instance's call. -/
def State.oldestAnswer (s : State) (c : CoreId) (q : Coll) : Option Nat :=
  (((s.core c).ka.queue ++ (s.core c).kb.queue).filter fun e => s.answers c q e).foldl
    (fun (b : Option Nat) e => match b with | some i => some (min i e.id) | none => some e.id) none
/-- COLLECTIVE_CALL (R155): the call of instance `n` reaches a rank and pairs with its oldest accepted command of that RTAG; without one it is
held. Calls of one root and tag arrive in order (R144), and an XRESH waits for the span's earlier one. -/
def callStep (n rank : Nat) (s : State) : Out :=
  match s.link.colls[n]? with
  | none => .next s
  | some q =>
    match s.job q.job with
    | none => .next s
    | some j =>
      match j.dies[rank]? with
      | none => .next s
      | some d =>
        let c := CoreId.mk' d q.corenum
        let first := !((s.link.colls.take n).any fun x => x.job = q.job && x.resh == q.resh &&
          (q.resh || (x.rtag == q.rtag && x.gov = q.gov && x.parts.contains rank && !(x.paired.any fun p => p.1 = rank))))
        if !q.parts.contains rank || (q.paired.any fun p => p.1 = rank) || (s.core c).task.job ≠ q.job || !first then .next s
        else
          match s.oldestAnswer c q with
          | none => .next s
          | some id => .next (s.modColl n fun q => { q with paired := q.paired ++ [(rank, c, id)] })
/-- R152: the offset of the block of rank `r` in dimensions c, w, h, t. -/
def shardOff (mode : Nat) (dim : BitVec 24) (blk : W64) (r : Nat) : Vector Int 4 :=
  let (dx, dy, _) := spanDims dim
  let b (k : Nat) : Nat := (blk.extractLsb' (16 * k) 16).toNat
  match mode with
  | 1 => #v[0, ((r % dx * b 0 : Nat) : Int), ((r / dx % dy * b 1 : Nat) : Int), ((r / (dx * dy) * b 2 : Nat) : Int)]
  | 2 => #v[((r * b 3 : Nat) : Int), 0, 0, 0]
  | _ => #v[0, 0, 0, 0]
/-- R152: whether the die of rank `r` owns a global position; under mode 0 none does (DEDUCED log 53). -/
def shardOwns (mode : Nat) (dim : BitVec 24) (blk : W64) (r : Nat) (g : Vector Int 4) : Bool :=
  let o := shardOff mode dim blk r
  let b (k : Nat) : Int := ((blk.extractLsb' (16 * k) 16).toNat : Int)
  match mode with
  | 1 => o[1] ≤ g[1] && g[1] < o[1] + b 0 && o[2] ≤ g[2] && g[2] < o[2] + b 1 && o[3] ≤ g[3] && g[3] < o[3] + b 2
  | 2 => o[0] ≤ g[0] && g[0] < o[0] + b 3
  | _ => false
/-- Componentwise sum and difference of positions. -/
def posAdd (a b : Vector Int 4) : Vector Int 4 := Vector.ofFn fun k => a[k] + b[k]
/-- See `posAdd`. -/
def posSub (a b : Vector Int 4) : Vector Int 4 := Vector.ofFn fun k => a[k] - b[k]
/-- The interior of a map: every position from 0 to EXT − 1 (R160). -/
def TMap.inside (m : TMap) (q : Vector Int 4) : Bool := (List.finRange 4).all fun (k : Fin 4) => 0 ≤ q[k] && q[k] < (m.dims[k].ext : Int)
/-- Every interior position. -/
def TMap.interiorList (m : TMap) : List (Vector Int 4) :=
  positions #v[(0, (m.dims[0].ext : Int)), (0, (m.dims[1].ext : Int)), (0, (m.dims[2].ext : Int)), (0, (m.dims[3].ext : Int))]
/-- The core, slot and command of a rank of an instance, once paired and started. -/
def State.collCmd (s : State) (q : Coll) (r : Nat) : Option (CoreId × KUnit × EngCmd) :=
  match q.paired.find? fun p => p.1 = r with
  | some (_, c, id) => (s.findCmd c id).map fun x => (c, x.1, x.2)
  | none => none
/-- The source and destination map of an XRESH command, and NMODE and NBLK. -/
def EngCmd.resh (e : EngCmd) : Option (TMap × TMap × W64 × W64) := match e.kind with | .xresh _ a b m n => some (a, b, m, n) | _ => none
/-- Starts the commands of an instance that can start. -/
def State.startAll (s : State) (q : Coll) : State :=
  q.paired.foldl (fun s p => match s.findCmd p.2.1 p.2.2 with
    | some (k, e) => (s.engStart p.2.1 k (((s.core p.2.1).kslot k).queue.findIdx fun x => x.id = e.id)).2
    | none => s) s
/-- Whether every rank of an instance has a started command. -/
def State.allStarted (s : State) (q : Coll) : Bool :=
  q.parts.all fun r => match s.collCmd q r with | some (_, _, e) => e.started | none => false
/-- The old and new shard maps of an XRESH instance: mode, dims, block of each. -/
def State.reshMaps (s : State) (q : Coll) : Option (Nat × W64 × BitVec 24 × Nat × W64) :=
  match s.collCmd q 0 with
  | some (c, _, e) => (e.resh).map fun x =>
      let r := (s.core c).pipe.sys2
      (r.shdmode.toNat, r.shdblk, r.shddim, x.2.2.1.toNat, x.2.2.2)
  | none => none
/-- Records the first failure of an instance. -/
def State.failColl (s : State) (n x : Nat) : State := s.modColl n fun q => { q with status := if q.status = 0 then x else q.status }
/-- R107: elements of `eb` bytes, each with its source and destination address, grouped into pieces: those that follow one another at the destination within an aligned 8 bytes. -/
def wordPieces (eb : Nat) : List (W64 × W64) → List (List (W64 × W64))
  | [] => []
  | x :: r =>
    match wordPieces eb r with
    | (y :: p) :: l => if inWord (some (x.2 + BitVec.ofNat 64 eb)) (some y.2) then (x :: y :: p) :: l else [x] :: (y :: p) :: l
    | l => [x] :: l
/-- Reads of a command's path at several addresses, `n` bytes each, one after another. -/
def State.engGather (s : State) (c : CoreId) (n : Nat) (e : EngCmd) : List W64 → Except Nat (List Byte × Bool × EngCmd) × State
  | [] => (.ok ([], false, e), s)
  | a :: r =>
    match s.engRead c e a n with
    | (.error x, s) => (.error x, s)
    | (.ok (bs, bad, e), s) =>
      match s.engGather c n e r with
      | (.error x, s) => (.error x, s)
      | (.ok (l, b, e), s) => (.ok (bs ++ l, bad || b, e), s)
/-- R160: a piece of elements goes from a rank to its owner under the new map; the owner's command counts the write, so that its path takes the write's time (R131). What is
poisoned gives the sending command STATUS 4, and no other (DESIGN CHOICE log 88). -/
def State.reshPiece (s : State) (n : Nat) (q : Coll) (src dst eb : Nat) (p : List (W64 × W64)) : State :=
  match s.collCmd q src, s.collCmd q dst with
  | some (c, k, e), some (h, kh, eh) =>
    match s.engGather c eb e (p.map (·.1)) with
    | (.error x, s) => s.failColl n x
    | (.ok (bs, bad, e), s) =>
      let s := s.putCmd c k { e with poi := e.poi || bad }
      match s.engWrite h e (p.headD (0, 0)).2 bs bad with
      | (.error x, s) => s.failColl n x
      | (.ok w, s) =>
        let eh := if h = c then { eh with poi := eh.poi || bad } else eh
        s.putCmd h kh { eh with lt := max eh.lt w.lt }
  | _, _ => s
/-- R160 items 1 and 2: where the elements of a rank that another owns under the new map go: from their place in SMAP to that in DMAP. -/
def reshMoves (sm dm : TMap) (src dst : Nat) (old new : Nat × W64) (dim : BitVec 24) : List (W64 × W64) :=
  sm.interiorList.filterMap fun pos =>
    let g := posAdd pos (shardOff old.1 dim old.2 src)
    let p := posSub g (shardOff new.1 dim new.2 dst)
    if shardOwns new.1 dim new.2 dst g && dm.inside p then some (sm.posAddr pos, dm.posAddr p) else none
/-- A rank sends to another what that one owns. -/
def State.reshSend (s : State) (n : Nat) (q : Coll) (src dst : Nat) (old new : Nat × W64) (dim : BitVec 24) : State :=
  match (s.collCmd q src).bind (·.2.2.resh), (s.collCmd q dst).bind (·.2.2.resh) with
  | some (sm, _, _, _), some (_, dm, _, _) =>
    (wordPieces sm.eb (reshMoves sm dm src dst old new dim)).foldl (fun s p => s.reshPiece n q src dst sm.eb p) s
  | _, _ => s
/-- R112: what an instance has done stands, unless an access of it waits for a bank: then nothing does but the bank's exit, and it is done again. -/
def State.orBanks (s t : State) (n : Nat) : State × Bool :=
  if ((t.link.colls[n]?).map (·.status)) = some bankWait then
    ({ s with cores := Vector.ofFn fun i : Fin 256 => { s.cores[i] with banks := t.cores[i].banks } }, false)
  else (t, true)
/-- XRESH_PHASE (R160 item 4): phase `p` of 2·n − 1 once every die's command has started, none while the span's earlier XRESH goes on (R155 item 5): in the first n, rank r
sends to rank r + p modulo n; the others move nothing (DESIGN CHOICE log 33). -/
def reshPhaseStep (n : Nat) (s : State) : Out :=
  match s.link.colls[n]? with
  | none => .next s
  | some q =>
    let mine : Bool := q.resh && s.phase != .dusk && !(s.link.colls.take n).any fun x => x.resh && x.job = q.job
    let s := if mine then s.startAll q else s
    let size := q.parts.length
    if !mine || q.status ≠ 0 || 2 * size - 1 ≤ q.phase || !s.allStarted q then .next s
    else match s.reshMaps q with
      | none => .next s
      | some (om, ob, dim, nm, nb) =>
        let send (s : State) (r : Nat) : State := s.reshSend n q r ((r + q.phase) % size) (om, ob) (nm, nb) dim
        let (s, all) := s.orBanks (if q.phase < size then q.parts.foldl send s else s) n
        .next (if all then s.modColl n fun q => { q with phase := q.phase + 1 } else s)
/-- R160 item 3: whether an element of some rank reaches a global position. -/
def State.reached (s : State) (q : Coll) (om : Nat) (ob : W64) (dim : BitVec 24) (g : Vector Int 4) : Bool :=
  q.parts.any fun r => match s.collCmd q r with
    | some (_, _, e) => (match e.resh with | some (sm, _, _, _) => sm.inside (posSub g (shardOff om dim ob r)) | none => false)
    | none => false
/-- R160 item 3: a rank writes zero to the interior positions of its DMAP that no element reached. -/
def State.zeroUnreached (s : State) (n : Nat) (q : Coll) (om : Nat) (ob : W64) (dim : BitVec 24) (nm : Nat) (nb : W64) (r : Nat) : State :=
  match s.collCmd q r with
  | some (c, k, e) =>
    match e.resh with
    | some (_, dm, _, _) =>
      let l := dm.interiorList.filterMap fun p =>
        let g := posAdd p (shardOff nm dim nb r)
        if shardOwns nm dim nb r g && s.reached q om ob dim g then none else some (dm.posAddr p, dm.posAddr p)
      let (e, s) := (wordPieces dm.eb l).foldl (fun (a : EngCmd × State) p =>
        match a.2.engWrite c a.1 (p.headD (0, 0)).1 (List.replicate (dm.eb * p.length) 0) false with
        | (.error x, s) => (a.1, s.failColl n x)
        | (.ok e, s) => (e, s)) (e, s)
      s.putCmd c k e
    | none => s
  | none => s
/-- R151, R160 item 5: the shard registers of every task of a job. -/
def State.setShard (s : State) (job : Nat) (mode blk : W64) : State :=
  let f (k : Core) : Core :=
    if k.task.job = job && k.task.st != .none then
      { k with pipe := { k.pipe with sys2 := { k.pipe.sys2 with shdmode := mode.setWidth 2, shdblk := blk } } }
    else k
  let cores := s.cores.map f
  let saved := s.fw.saved.map fun v => { v with core := f v.core }
  let s : State := { s with cores := cores, fw := { s.fw with saved := saved } }
  s.modJob job fun j => { j with lr := { j.lr with shdmode := mode, shdblk := blk } }
/-- XRESH_SWITCH (R160): after the last phase unreached positions become zero; then, once every write is durable where a command asks it (R100 item 4), the shard registers
switch on every die together, and every command ends, counted once with N. -/
def reshSwitchStep (n : Nat) (s : State) : Out :=
  match s.link.colls[n]? with
  | none => .next s
  | some q =>
    let last := 2 * q.parts.length - 1
    if !q.resh || s.phase == .dusk || q.status ≠ 0 || q.phase < last then .next s
    else match s.reshMaps q with
      | none => .next s
      | some (om, ob, dim, nm, nb) =>
        if q.phase = last then
          let (s, all) := s.orBanks (q.parts.foldl (fun s r => s.zeroUnreached n q om ob dim nm nb r) s) n
          .next (if all then s.modColl n fun q => { q with phase := q.phase + 1 } else s)
        else
          let cmds := q.parts.filterMap fun r => s.collCmd q r
          if cmds.any (fun x => s.durWaits x.2.2) then .next (s.m.dirty.foldl (fun s l => s.writeBack l) s)
          else if cmds.any (fun x => !s.endReady x.1 x.2.2) then .next (cmds.foldl (fun s x => s.wakeEnd x.1 x.2.2) s)
          else
            let s := s.setShard q.job (BitVec.ofNat 64 nm) nb
            .next (q.parts.foldl (fun s r => match s.collCmd q r with
              | some (c, k, e) => s.engineEnd c k e (if e.poi then 4 else 0)
              | none => s) s)

end Sys2Proof.Machine
end

