-- ==== Sys2Proof/Machine/Events.lean ====
section
/-! DEFINITION. Machine steps of a core and of memory: dispatch, landings, completions, trap entry, walks and translation faults, accesses
at their homes, write-back and durability, migration, HBM errors, banked mode, sync arrivals, firmware services. A step whose
conditions do not hold leaves the state unchanged (DESIGN CHOICE log 3). -/
namespace Sys2Proof.Machine

/-! ## Pipeline -/

/-- R31, R295: whether core `c` may dispatch one more bundle: at most sixteen past the slowest group and two past an unissued bundle that
steers or writes a system register (R176). -/
def Pipe.mayDispatch (p : Pipe) : Bool :=
  let st := p.stream
  let n := st.base + st.win.length
  let low := st.gpos.foldl min st.gpos[0]
  n < low + 17 && (List.range (n - p.pos 0)).all fun k => match st.at (p.pos 0 + k) with
    | some d => !(d.steering || d.hasC [0x149]) || n ≤ p.pos 0 + k + 2
    | none => true
/-- BUNDLE_DECODE (R27 to R31, R48): the next bundle of the current core is dispatched, or a trap marker in its place. -/
def execBundleDecode (s : State) : Out :=
  if s.me.canIssue && s.phase == .running && s.pipe.mayDispatch then .next (s.dispatchOne s.cur) else .next s
/-- RESULT_LANDING (R168, R212, R328): the oldest due short result of a unit of the current core lands; one that would bring poison to p or m is consumed
instead, and one that is invalid under FVE raises cause 0x11 with the unit. -/
def execResultLanding (u : Unit7) (s : State) : Out :=
  match s.pipe.shorts.find? fun x => x.unit = u && x.left = 0 with
  | none => .next s
  | some x =>
    if x.consumes then
      .next ((Landing.poison u (x.dsel.getD 0)).take (s.modPipe fun p => { p with shorts := p.shorts.erase x }))
    else
      let t := s.modPipe fun p => p.landUnit u
      .next ((if s.pipe.sys.fve && x.flags &&& fNV != 0 then Landing.invalid u else .done).take t)
/-- LONG_COMPLETION (R165, R210): the `n`-th long operation of the current core, its time over, completes; those of one unit in issue order. -/
def execLongCompletion (n : Nat) (s : State) : Out :=
  match s.pipe.longs[n]? with
  | some l =>
    if l.left ≠ 0 || (s.pipe.longs.take n).any (fun x => x.unit = l.unit && x.left = 0) || !s.mayComplete s.cur l then .next s
    else .next ((s.modPipe fun p => { p with longs := p.longs.eraseIdx n }).completeLong s.cur l)
  | none => .next s
/-- TRAP_ENTRY (R48, R319, R321): every group of the current core stands at a trap marker: its trap is taken, once what its entry waits for can be performed. -/
def execTrapEntry (s : State) : Out :=
  let i := s.pipe.pos 0
  if !s.me.canIssue || s.phase != .running || !(s.pipe.stream.gpos.all fun p => p = i) then .next s
  else match s.pipe.stream.at i with
    | some d =>
      (match d.marker with
        | some (cause, slot, a) =>
          if s.entryStuck then .next (s.performAll s.cur)
          else .next ((s.modPipe fun p => { p with ib := ⟨i, none, d.pc, d.q, 0xF, false⟩, wq := none, undo := none }).takeTrap slot 4 cause a false)
        | none => .next s)
    | none => .next s
/-- R329, Table 14.5: an asynchronous consumption of the current core at its first unissued bundle. -/
def State.consumeAsync (s : State) (addr : W64) : State :=
  let low := s.pipe.stream.gpos.foldl min s.pipe.stream.gpos[0]
  let s := (s.modPipe fun p => { p with engPoison := none }).dispatchTo s.cur low 20
  let (pc, q) := match s.pipe.stream.at low with | some d => (d.pc, d.q) | none => (s.pipe.stream.fpc, false)
  let s := s.modPipe fun p => { p with ib := ⟨low, none, pc, q, 0xF, false⟩, wq := none, undo := none }
  let t := s.pipe.trap
  if t.regions.length ≤ t.entryDepth then s.takeTrap 7 4 0x08 addr false
  else match t.regions with
    | r :: rest => s.unwind addr r rest
    | [] => s.takeTrap 7 4 0x08 addr false
/-- CONTAINMENT_UNWIND (R328, R329): an engine command of the current core's task has read poisoned control data: the consumption
unwinds to the innermost region, or traps, once the accesses it waits for can be performed (R112, R249, R319 step 2, R329 step 3). -/
def execContainmentUnwind (s : State) : Out :=
  match s.pipe.engPoison with
  | some a =>
    let t := s.pipe.trap
    if !s.me.canIssue || s.phase != .running then .next s
    else
      let u := s.modMe Core.recordWaits
      if t.regions.length ≤ t.entryDepth then .next (if u.entryStuck then u.performAll u.cur else u.consumeAsync a)
      else .next (if u.unwindStuck then u.wakeUnwinds.performAll u.cur else u.consumeAsync a)
  | none => .next s

/-! ## Translation (R72, R73, R81) -/

/-- PAGE_WALK (R72): a miss of the current core is walked and fills its caches. -/
def execPageWalk (va : W64) (s : State) : Out := .next (if va.extractLsb' 56 8 = 0 then (s.leafFor s.cur va.toNat).2 else s)
/-- Whether an access that finds a leaf, or none, meets a translation fault that firmware is offered (R73). -/
def leafFaults (r : Option (W64 × Nat)) (acc : Access) : Bool :=
  match r with
  | none => true
  | some (e, _) => match acc with | .read => false | .write => !ebit e 1 | .fetch => !ebit e 2
/-- TRANSLATION_FAULT (R73): firmware is offered the fault of an access: it installs a registered backing, or the access raises its
cause. -/
def execTranslationFault (va : W64) (acc : Access) (s : State) : Out :=
  let (r, t) := s.leafFor s.cur va.toNat
  .next (if va.extractLsb' 56 8 = 0 && leafFaults r acc then (t.resolveFault s.me.task.ctx va.toNat acc r.isSome).getD t else s)
/-- COLLAPSE_FAULT (R81): the first write of the current core's context to a replicated page with W = 1, if it may collapse (R260 item 6). -/
def execCollapseFault (va : W64) (s : State) : Out :=
  match s.ctx s.me.task.ctx with
  | some x =>
    match s.walk x.root va.toNat with
    | .leaf _ size e => .next (if ebit e 1 && ebit e 3 && va.extractLsb' 56 8 = 0 && s.mayCollapse x.id va.toNat size then s.collapse x.id va.toNat else s)
    | _ => .next s
  | none => .next s

/-! ## Accesses at their homes (R91, R93, R106, R146, R147) -/

/-- HOME_ACCESS (R93): the `n`-th outstanding request of the current core is performed, if its class order lets it. -/
def execHomeAccess (n : Nat) (s : State) : Out :=
  if s.phase == .dusk then .next s
  else match s.me.reqs[n]? with
    | some r => .next (s.performReq s.cur r.seq).endOwed
    | none => .next s
/-- Whether an operation may be merged (R146 item 1). -/
def AOp.merges : AOp → Bool | .xchg => false | .cas => false | _ => true
/-- R146: whether two atomics may be merged: operation, width, address, context, cores. -/
def State.mergeable (s : State) (c d : CoreId) (r q : Req) : Bool :=
  (match r.op, q.op with | .atomic a _, .atomic b _ => a == b && a.merges | _, _ => false)
  && r.size == q.size && r.loc == q.loc && (s.core c).task.ctx == (s.core d).task.ctx && c != d
/-- The request of a place in a core's list. -/
def State.reqAt (s : State) (p : CoreId × Nat) : Option (CoreId × Req) := ((s.core p.1).reqs[p.2]?).map fun r => (p.1, r)
/-- Inserts a part by requester index: within a package, by core number (R147). -/
def insertPart (x : CoreId × Req) : List (CoreId × Req) → List (CoreId × Req)
  | [] => [x]
  | y :: r => if x.1.val < y.1.val then x :: y :: r else y :: insertPart x r
/-- R106, R147: performs the parts of one atomic in ascending requester index. -/
def State.performMerged (s : State) (l : List (CoreId × Req)) : State :=
  ((l.foldr insertPart []).foldl (fun s x => s.performReq x.1 x.2.seq) s).endOwed
/-- ATOMIC_AT_HOME (R106): an atomic, merged of the parts given by core and place, is performed at its home. -/
def execAtomicAtHome (parts : List (CoreId × Nat)) (s : State) : Out :=
  let l := parts.filterMap s.reqAt
  let ok := l.length = parts.length && (l.all fun x => x.2.op.isAtomic)
    && (l.zip (List.range l.length)).all fun x => (l.drop (x.2 + 1)).all fun y => s.mergeable x.1.1 y.1 x.1.2 y.2
  if ok && s.phase != .dusk then .next (s.performMerged l) else .next s
/-- FLUE_WAIT_EXPIRY (R146): the router forwards a mergeable atomic of the current core with the partners found. -/
def execFlueWaitExpiry (n : Nat) (s : State) : Out :=
  match s.me.reqs[n]? with
  | none => .next s
  | some r =>
    match r.op with
    | .atomic a _ =>
      if !a.merges || s.phase == .dusk then .next s
      else
        let partner (d : CoreId) : Option (CoreId × Req) := ((s.core d).reqs.find? fun q => s.mergeable s.cur d r q).map fun q => (d, q)
        .next (s.performMerged ((s.cur, r) :: allCores.filterMap partner))
    | _ => .next s
/-- LOGICAL_TIME_ADVANCE (R91): the logical time of a class path of the current core advances. -/
def execLogicalTimeAdvance (k : BitVec 2) (s : State) : Out :=
  .next (s.setLt s.cur (s.me.lt.set k.toNat ((s.me.lt[k.toNat]'(by omega)) + 1) (by omega)))

/-! ## Write-back (R279 to R283, R286) -/

/-- LINE_WRITEBACK (R279, R282): a dirty line goes to its device, one of tier 3 as two granule writes; in dusk only those are written, and counted (R286,
R287). -/
def execLineWriteback (line : Nat) (s : State) : Out :=
  if !s.m.dirty.contains line then .next (if s.phase == .dusk then s else s.writeBack line)
  else
    let bad := poisonAt s.m.poi line 128
    let s := s.writeBack line
    .next (if s.phase == .dusk then
      { s with fw := { s.fw with duskLines := s.fw.duskLines + 1, duskPLines := s.fw.duskPLines + (if bad then 1 else 0) } } else s)
/-- PERSIST_TRACKER_WRITEBACK (R283): while a tracker holds more than 128 lines its oldest dirty one is written back. -/
def execPersistTrackerWriteback (s : State) : Out :=
  if s.me.tracker.length ≤ 128 || s.phase == .dusk then .next s
  else match s.me.tracker.find? fun l => s.m.dirty.contains l with
    | some l => .next (s.writeBack l)
    | none => .next s.trackersClean
/-- DURABLE_COMPLETION (R281, R283): the device completes the `n`-th granule write, no earlier one of that granule under way. -/
def execDurableCompletion (n : Nat) (s : State) : Out :=
  match s.m.granules[n]? with
  | some g =>
    if (s.m.granules.take n).any fun h => h.addr = g.addr then .next s
    else .next (({ s with m := { s.m with granules := s.m.granules.eraseIdx n } } : State).granuleDone g).trackersClean
  | none => .next s

/-! ## Migration (R77 to R79, R289) -/

/-- Changes migration `n`. -/
def State.modMig (s : State) (n : Nat) (f : Migration → Migration) : State :=
  { s with m := { s.m with migs := s.m.migs.modify n f } }
/-- MIGRATION_COPY_PASS (R78 phase 2): the first pass copies every line, later ones the marked lines. -/
def execMigrationCopyPass (n : Nat) (s : State) : Out :=
  match s.m.migs[n]? with
  | none => .next s
  | some g =>
    let go (l : List Nat) : Out :=
      let s := l.foldl (fun s i => s.moveLine (g.old + 128 * i) (g.new + 128 * i)) s
      .next (s.modMig n fun g => { g with phase := 2, dirty := [], pass := g.pass + 1 })
    if s.phase == .dusk then .next s
    else if g.phase = 1 then go (List.range (pageBytes g.size.toNat / 128))
    else if g.phase = 2 && g.pass < 4 && 64 < g.dirty.length then go g.dirty
    else .next s
/-- MIGRATION_SWITCH (R78 phase 3, R79, R289): after the passes writes are held; then the remaining lines are copied, persisted where DUR = 1, the
new leaf written, the entries appended, and the held writes performed in their arrival order. -/
def execMigrationSwitch (n : Nat) (s : State) : Out :=
  match s.m.migs[n]? with
  | none => .next s
  | some g =>
    if s.phase == .dusk then .next s
    else if g.phase = 2 && (g.dirty.length ≤ 64 || 4 ≤ g.pass) then .next ((s.journal g 1).modMig n fun g => { g with phase := 3 })
    else if g.phase = 3 then
      .next (s.finishSwitch g).releaseHeld.endOwed
    else .next s
/-- MIGRATION_REDIRECT_END (R78 phase 4): every core has applied the entry and no access at the old frame is outstanding: the filter entry and the old frame are released; a queued migration
starts, and a retirement that waited for it goes on (R87). -/
def execMigrationRedirectEnd (n : Nat) (s : State) : Out :=
  match s.m.migs[n]? with
  | none => .next s
  | some g =>
    if g.phase = 4 && s.released g.old (pageBytes g.size.toNat) g.seq then
      .next ({ s with m := { s.m with migs := s.m.migs.eraseIdx n } } : State).startQueued.retireDone
    else .next s

/-! ## HBM errors and retirement (R86, R87, R334) -/

/-- The row of a PA, of 1 KiB (DESIGN CHOICE log 34), counted in the die's slot. -/
def State.rowOf (s : State) (pa : Nat) : Nat := (if tierOf pa = 1 then s.interleaved pa else pa) % 0x2000000000 / 1024
/-- R334: a corrected error is counted towards a context. -/
def State.countSoft (s : State) (ctx : BitVec 16) : State :=
  s.modCtx ctx fun x => { x with soft := if x.soft = BitVec.allOnes 32 then x.soft else x.soft + 1 }
/-- The newer of two copies of a flash record that verifies (R88, R291). -/
def FlashCopy.newer {α : Type} (a b : FlashCopy α) : Option (FlashCopy α) :=
  if a.ok && (!b.ok || b.seq ≤ a.seq) then some a else if b.ok then some b else none
/-- What it holds. -/
def FlashCopy.best {α : Type} (a b : FlashCopy α) : Option α := (a.newer b).map (·.val)
/-- R88 item 1, R291 item 3: a new value, signed with its sequence number, is written over the older copy, or over one that does not verify. -/
def FlashCopy.put {α : Type} (a b : FlashCopy α) (v : α) (sign : Nat → List Byte) : FlashCopy α × FlashCopy α :=
  let seq := max a.seq b.seq + 1
  let new : FlashCopy α := ⟨seq, true, v, sign seq⟩
  if a.ok && (!b.ok || b.seq ≤ a.seq) then (a, new) else (new, b)
/-- The retirement table in force, empty where no copy verifies. -/
def Flash.rows (f : Flash) : List (Nat × Nat) := (f.rows0.best f.rows1).getD []
/-- A retirement table as the items of its record. -/
def rowItems (l : List (Nat × Nat)) : List Nat := l.flatMap fun r => [r.1, r.2]
/-- A new retirement table. -/
def Flash.putRows (f : Flash) (l : List (Nat × Nat)) : Flash :=
  let (a, b) := f.rows0.put f.rows1 l fun n => signRecord 0 n (rowItems l)
  { f with rows0 := a, rows1 := b }
/-- The bring-up number kept, 0 where no copy verifies (R291). -/
def Flash.boot (f : Flash) : W32 := (f.boot0.best f.boot1).getD 0
/-- The damper steps kept, 0 where no copy verifies (R336). -/
def Flash.damper (f : Flash) : Vector Nat 64 := (f.damper0.best f.damper1).getD (Vector.replicate 64 0)
/-- New damper steps. -/
def Flash.putDamper (f : Flash) (v : Vector Nat 64) : Flash :=
  let (a, b) := f.damper0.put f.damper1 v fun n => signRecord 2 n v.toList
  { f with damper0 := a, damper1 := b }
/-- A new bring-up number. -/
def Flash.putBoot (f : Flash) (v : W32) : Flash :=
  let (a, b) := f.boot0.put f.boot1 v fun n => signRecord 1 n [v.toNat]
  { f with boot0 := a, boot1 := b }
/-- The frame of 64 KiB that holds a row of a die: in tier 0, or in tier 1 behind it (R62, R63). -/
def State.rowFrame (s : State) (d : DieId) (row : Nat) : Nat :=
  let off := row * 1024
  let own := (96 - s.fw.cfg.ilvsz.toNat) * 0x40000000
  if off < own then d.val * 0x2000000000 + off / 0x10000 * 0x10000
  else (0x10000000000 + ((off - own) / 4096 * s.pkgDies + d.val) * 4096) / 0x10000 * 0x10000
/-- A free range of physical addresses for a page of `n` bytes, in the memory of die `d` first (R87 item 1, DESIGN CHOICE log 34). -/
def State.freeRange (s : State) (d : DieId) (n : Nat) : Option Nat :=
  let ok (a : Nat) : Bool := s.backed a && s.backed (a + n - 1) && s.assignable a n && !s.inUse a n
  let slot (d : DieId) : Option Nat := ((List.range ((96 - s.fw.cfg.ilvsz.toNat) * 0x40000000 / n)).map fun i => d.val * 0x2000000000 + i * n).find? ok
  (((d :: (List.finRange 8).filter fun e => e ≠ d).findSome? slot).orElse fun _ =>
    ((List.range (s.pkgDies * s.fw.cfg.ilvsz.toNat * 0x40000000 / n)).map fun i => 0x10000000000 + i * n).find? ok)
/-- R87: what becomes of a page that holds a retired frame. One that migrates, or waits to, is left to that migration; another goes to a free frame of the service pool
where it is MAPREQ's, else to free memory (DESIGN CHOICE log 34); a page of a sink extent stays (R260 item 6). -/
def State.evict (s : State) (x : Ctx) (bad : Nat) (p : LeafAt) : State :=
  let (a, va, size, e) := p
  let frame := s.normPa (leafFrame e)
  let d := s.homeDie frame
  if x.meetsSink va (va + pageBytes size) then s
  else if ebit e 3 then
    let keep := if meets bad 0x10000 frame (pageBytes size) then
        match (List.finRange 8).find? fun k => s.dieLive k && k ≠ d with
        | some k => k.val * 0x2000000000 + frame % 0x2000000000
        | none => frame
      else frame
    s.unreplicate x.id va a size e keep
  else if size = 2 then (s.writeLeaf a size 0).appendLog va size 3 x.id
  else if ebit e 4 || s.m.migQueue.any (fun g => g.ctx == x.id && g.va.toNat = va) then s
  else
    let new := if size = 0 && x.mapped.any (fun q => q.2 = frame) then (match s.freeFrames x d with | f :: _ => some f | [] => s.freeRange d 0x10000)
      else s.freeRange d (pageBytes size)
    match new with
    | some f => s.startMigration { ctx := x.id, va := BitVec.ofNat 64 va, size := BitVec.ofNat 2 size, old := frame, new := f, phase := 1, dirty := [], slot := 0, pass := 0, seq := 0 }
    | none => s
/-- R87: whether a page holds a frame; of a page with RP = 1 every die's copy counts. -/
def State.holdsFrame (s : State) (f : Nat) (p : LeafAt) : Bool :=
  let (a, n) := (s.normPa (leafFrame p.2.2.2), pageBytes p.2.2.1)
  if ebit p.2.2.2 3 then tierOf f = 0 && meets (f % 0x2000000000) 0x10000 (a % 0x2000000000) n else meets f 0x10000 a n
/-- R87: migrations into a frame that is being retired: one that switches completes, and its page leaves the frame like any other; the others start again to
another range, and end where there is none (DESIGN CHOICE log 34). -/
def State.redoInto (s : State) (f : Nat) : State :=
  let mine (g : Migration) : Bool := meets f 0x10000 g.new (pageBytes g.size.toNat)
  let s := (s.m.migs.filter fun g => mine g && g.phase = 3).foldl (fun s g => s.finishSwitch g) s
  let (open_, kept) := s.m.migs.partition fun g => mine g && g.phase < 3
  let (queued, queue) := s.m.migQueue.partition mine
  let s := open_.foldl (fun s g => s.setMg g false) s
  (open_ ++ queued).foldl (fun s g => match s.freeRange (s.homeDie g.old) (pageBytes g.size.toNat) with
    | some a => s.startMigration { g with new := a }
    | none => s) { s with m := { s.m with migs := kept, migQueue := queue } }
/-- R87: a frame is retired: its pages leave it, then the kind-3 entries are applied. -/
def State.retireFrame (s : State) (d : DieId) (f : Nat) : State :=
  let s := (s.modDie d fun x => { x with badFrames := setAdd x.badFrames f }).redoInto f
  let s := s.fw.ctxs.foldl (fun s x => ((s.leaves x 0 (2 ^ 56)).filter fun p => s.holdsFrame f p).foldl (fun s p => s.evict x f p) s) s
  ({ s with fw := { s.fw with retiring := setAdd s.fw.retiring f } } : State).retireDone
/-- R86, R87: a row is retired onto a spare row of its bank, its lines kept, a spare row that errs onto another one; without a spare its frame is
retired, which happens once. -/
def State.retireRow (s : State) (d : DieId) (row : Nat) : State :=
  let frame := s.rowFrame d row
  let bad := (s.die d).badFrames.contains frame
  let bank := Config.bankOf d.val row
  let n := (s.die d).retired.countP fun r => Config.bankOf d.val r = bank
  let spare := n < Config.spareRows d.val bank
  if bad && !spare && (s.die d).retired.contains row then s
  else
    let s := (s.modDie d fun x => { x with retired := x.retired ++ [row], rowErrs := x.rowErrs.filter fun q => q.1 ≠ row }).rasEvent 7 d.val row
    let s : State := { s with fw := { s.fw with flash := s.fw.flash.putRows (s.fw.flash.rows ++ [(d.val, row)]) } }
    if spare || bad then s else s.retireFrame d frame
/-- R86: an error of a row at the device's uptime; the third correctable one in 24 hours, or an uncorrectable one, retires it. -/
def State.readError (s : State) (pa : Nat) (bad : Bool) : State :=
  if !s.backed pa || 1 < tierOf (s.normPa pa) then s
  else
    let pa := s.normPa pa
    let d := s.homeDie pa
    let row := s.rowOf pa
    if bad then
      let s : State := { s with m := { s.m with poi := poisonWrite s.m.poi (pa / 128 * 128) 128 true } }
      (s.rasEvent 6 d.val pa).retireRow d row
    else
      let now := s.t.dcyc
      let day := 86400 * 1250000000
      let s := ((s.rasEvent 5 d.val pa).countSoft s.me.task.ctx).modDie d fun x => { x with rowErrs := (x.rowErrs.filter fun q => now < q.2 + day) ++ [(row, now)] }
      if 3 ≤ (s.die d).rowErrs.countP (fun q => q.1 = row) then s.retireRow d row else s
/-- HBM_READ_ERROR (R86). -/
def execHbmReadError (pa : Nat) (uncorrectable : Bool) (s : State) : Out := .next (s.readError pa uncorrectable)
/-- PATROL_SCRUB (R334): the scrub of a die's HBM meets errors at addresses of it. -/
def execPatrolScrub (d : DieId) (errs : List (Nat × Bool)) (s : State) : Out :=
  .next (errs.foldl (fun s e => if s.homeDie (s.normPa e.1) = d then s.readError e.1 e.2 else s) s)

/-! ## Banked mode (R112) -/

/-- Banks whose conversion uses a re-encoder. -/
def Core.converting (k : Core) : Nat := k.banks.toList.countP fun b => match b with | .entering _ => true | .exiting _ => true | _ => false
/-- Whether a bank has had no access for BKIDLE cycles, or firmware has idled its core (R112, Table 5.1). -/
def State.bankIdle (s : State) (b : Nat) : Bool :=
  s.fw.cfg.bkidle ≠ 0 && (s.me.task.st == .none || (s.fw.cfg.bkidle.toNat ≤ (s.pipe.cyc - s.me.bankUse.getD b 0).toNat))
/-- BANK_IDLE_EXPIRY (R112): an idle bank of the current core starts entering banked mode, if a re-encoder is free. -/
def execBankIdleExpiry (b : Nat) (s : State) : Out :=
  if !s.bankIdle b || 4 ≤ s.me.converting then .next s
  else if s.me.banks[b]? = some .active then .next (s.modMe fun k => { k with banks := k.banks.setIfInBounds b (.entering 0) }) else .next s
/-- BANK_ENTRY_COMPLETE (R112). -/
def execBankEntryComplete (b : Nat) (s : State) : Out :=
  match s.me.banks[b]? with
  | some (.entering _) => .next (s.modMe fun k => { k with banks := k.banks.setIfInBounds b .retain })
  | _ => .next s
/-- BANK_EXIT_COMPLETE (R112): the bank is ACTIVE and the accesses held may go, with the arrivals of ended tasks that waited for it. -/
def execBankExitComplete (b : Nat) (s : State) : Out :=
  match s.me.banks[b]? with
  | some (.exiting _) => .next (s.modMe fun k => { k with banks := k.banks.setIfInBounds b .active }).endOwed
  | _ => .next s

/-! ## Errors of storage structures (R111, R112, R284, R334) -/

/-- R334: an event of a structure of a die is recorded; a corrected one is counted towards the context that met it. -/
def State.structError (s : State) (d : DieId) (structure_ : Nat) (ctx : BitVec 16) (bad : Bool) : State :=
  (if bad then s else s.countSoft ctx).rasEvent (13 + 2 * structure_ + bad.toNat) d.val structure_
/-- Marks the 32-bit word of an operand slot that holds a byte poisoned. -/
def Matrix.spoil (m : Matrix) (slot off : Nat) : Matrix :=
  m.setSlot slot { m.slot slot with poi := (List.range 8).foldl (fun l i => setAdd l (off / 4 * 8 + i)) (m.slot slot).poi }
/-- A line that a die's cache holds, homed there or a copy, is poisoned in it. -/
def State.spoilLine (s : State) (d : DieId) (line : Nat) : State :=
  let s := if s.homeDie line = d && (s.die d).lines.contains line then { s with m := { s.m with poi := poisonWrite s.m.poi line 128 true } } else s
  s.modDie d fun x => { x with copies := x.copies.map fun y => if y.line = line then { y with poi := wordsOf line 128 } else y }
/-- A value poisoned in every part. -/
def Val.spoil : Val → Val
  | .sc v => .sc { v with poi := true }
  | .vec v => .vec { v with poi := BitVec.allOnes 256 }
  | .msk m => .msk m
/-- A result queue with entry `n` changed. -/
def spoilAt {α : Type} (q : Vector α 4) (n : Nat) (f : α → α) : Vector α 4 := Vector.ofFn fun i => if i.val = n then f q[i] else q[i]
/-- A unit with a poisoned latch or queue entry, numbered as in `Upset.latch`. -/
def Units.spoil (x : Units) (u : Unit7) (k : Nat) : Units :=
  let s (y : SUnit) : SUnit := match k with
    | 0 => { y with x := { y.x with poi := true } }
    | 1 => { y with y := { y.y with poi := true } }
    | _ => { y with q := spoilAt y.q (k - 2) fun v => { v with poi := true } }
  let v (y : VUnitSt) : VUnitSt := match k with
    | 0 => { y with x := { y.x with poi := BitVec.allOnes 256 } }
    | 1 => { y with y := { y.y with poi := BitVec.allOnes 256 } }
    | _ => { y with q := spoilAt y.q (k - 2) fun v => { v with poi := BitVec.allOnes 256 } }
  if k = 6 then { x with bad := x.bad ||| ((1 : BitVec 16) <<< u.slot.index) }
  else if k = 7 then { x with bad := x.bad ||| ((1 : BitVec 16) <<< (8 + u.slot.index)) }
  else match u with
  | .c => { x with c := s x.c } | .s => { x with s := s x.s } | .m => { x with m := s x.m }
  | .va => { x with va := v x.va } | .vb => { x with vb := v x.vb } | .ka => { x with ka := v x.ka } | .kb => { x with kb := v x.kb }
/-- A register whose value is poisoned; an empty one holds none. -/
def RegFile.spoil (r : RegFile) (f : BitVec 10) : RegFile :=
  if !r.full f then r else if selS f then r.put f (.sc { (r.get f).toS with poi := true }) else if selV f || selO f then r.put f (.vec { (r.get f).toV with poi := BitVec.allOnes 256 }) else r
/-- A late-write buffer with a poisoned short result, or a poisoned latch or queue entry of a unit. -/
def LateBuf.spoil (b : LateBuf) (k : Sum Nat (Unit7 × Nat)) : LateBuf :=
  match k with
  | .inl n => { b with shorts := b.shorts.modify n fun x => { x with val := x.val.spoil } }
  | .inr (u, n) => { b with units := b.units.spoil u n }
/-- Table 5.1: how many rows of a bank, its first, are held under DEC-TED. -/
def BankMode.decTed : BankMode → Nat
  | .active => 0
  | .entering r => r
  | .retain => 64
  | .exiting r => r
/-- The die whose structures an error concerns. -/
def Upset.die : Upset → DieId
  | .word c _ _ | .reg c _ _ | .operand c _ _ _ | .acc c _ _ _ _ | .latch c _ _ | .late c _ _ | .code c _ | .transl c _ | .control c _ => c.die
  | .line d _ _ | .tags d _ _ => d
/-- An error of a storage structure (Table 14.10) of a die of the package (R1): what is corrected keeps its value, what is not becomes poisoned; a task's control
state that is lost kills its context with reason 8. A word of a row under DEC-TED corrects two wrong bits, another one (R111, R112). -/
def State.upset (u : Upset) (s : State) : State :=
  let ctx (c : CoreId) : BitVec 16 := (s.core c).task.ctx
  if s.pkgDies ≤ u.die.val then s else
  match u with
  | .word c off bits =>
    let least := if off % 0x20000 / 2048 < ((s.core c).banks.getD (off / 0x20000) .active).decTed then 2 else 1
    if bits = 0 then s
    else if bits ≤ least then s.structError c.die 0 (ctx c) false
    else (s.structError c.die 0 (ctx c) true).modCore c fun k => { k with spPoi := setAdd k.spPoi (off / 8) }
  | .line d a bad =>
    let s := s.structError d 1 s.me.task.ctx bad
    if bad then s.spoilLine d (a / 128 * 128) else s
  | .tags d ls bad =>
    let s := s.structError d 2 s.me.task.ctx bad
    if bad then (ls.filter fun x => sliceOf x = sliceOf (ls.headD 0)).foldl (fun s a => s.spoilLine d (a / 128 * 128)) s else s
  | .reg c f bad =>
    let s := s.structError c.die 3 (ctx c) bad
    if bad then s.modPipeOf c fun p => { p with regs := p.regs.spoil f } else s
  | .operand c slot off bad =>
    let s := s.structError c.die 4 (ctx c) bad
    if bad then s.modCore c fun k => { k with mx := k.mx.spoil slot off } else s
  | .acc c b i j bad =>
    let s := s.structError c.die 5 (ctx c) bad
    let f (x : Bank) : Bank := { x with poi := x.poi.set i.val (x.poi[i] ||| (1 <<< j.val)) i.isLt }
    if bad then s.modCore c fun k => { k with mx := if b then { k.mx with bank1 := f k.mx.bank1 } else { k.mx with bank0 := f k.mx.bank0 } } else s
  | .latch c u k => (s.structError c.die 6 (ctx c) true).modPipeOf c fun p => { p with units := p.units.spoil u k }
  | .late c second k =>
    let f (t : TrapState) : TrapState := if second then { t with buf2 := t.buf2.map fun b => b.spoil k } else { t with buf1 := t.buf1.map fun b => b.spoil k }
    (s.structError c.die 9 (ctx c) true).modPipeOf c fun p => { p with trap := f p.trap }
  | .code c meta_ => s.structError c.die (if meta_ then 11 else 10) (ctx c) false
  | .transl c va =>
    let drop (l : List Tlb) : List Tlb := l.filter fun t => (tlbFind [t] t.ctx va.toNat).isNone
    ((s.structError c.die 7 (ctx c) false).modCore c fun k => { k with tlb := drop k.tlb }).modDie c.die fun d => { d with tlb := drop d.tlb }
  | .control c bad =>
    let s := s.structError c.die 8 (ctx c) bad
    if bad && (s.core c).task.st != .none then s.killContext (ctx c) 8 0 c (s.core c).pipe.ib.pc 0 0 else s

/-! ## Sync arrivals (R123) -/

/-- SYNC_ARRIVAL (R123): an arrival of weight `w` at the word at an offset of core `c`, whose bank is ACTIVE or begins its exit (R112); waits that it completes
go on. -/
def execSyncArrival (c : CoreId) (off : Nat) (w : W32) (s : State) : Out :=
  .next (if off % 16 ≠ 0 || 0x600000 < off + 16 || s.phase == .dusk || !s.hasCore c then s
    else if s.banksReady c off 16 then (s.syncArrive c off w.toNat 0).2 else s.wakeBanks c off 16)

/-! ## Firmware services (R326) -/

/-- Performs the pending service of the current core if it has a number; RASCOUNT's step answers numbers of no service too (status 4). From the dusk cycle on nothing is
written (R286). -/
def State.serve (s : State) (n : Nat) : State :=
  match s.pipe.svc with
  | some v =>
    let k := v.num.toNat
    if s.phase != .dusk && (k = n || (n = 5 && (k = 0 || 5 < k))) then s.completeSvc s.cur else s
  | none => s
/-- MAPREQ (R326). -/
def execMapreq (s : State) : Out := .next (s.serve 1)
/-- UNMAPREQ (R326). -/
def execUnmapreq (s : State) : Out := .next (s.serve 2)
/-- PROTREQ (R326). -/
def execProtreq (s : State) : Out := .next (s.serve 3)
/-- NOTIFY (R326). -/
def execNotify (s : State) : Out := .next (s.serve 4)
/-- RASCOUNT, and a number that names no service (R326). -/
def execRascount (s : State) : Out := .next (s.serve 5)

end Sys2Proof.Machine
end

