-- ==== Sys2Proof/Machine/Crew.lean ====
section
/-! DEFINITION. Tasks on cores: the start of a task (R163, R174, R298, R303), the image of a saved one (R109, R312), and the machine steps of
engine commands, which go on while their task is saved (R134). -/
namespace Sys2Proof.Machine

/-! ## Crews -/

/-- A core address in peer form: core number and offset (Table 3.2). -/
def peerAddr (core off : Nat) : W64 := BitVec.ofNat 64 (3 * 2 ^ 62 + core * 2 ^ 24 + off)
/-- R294, Table 7.5: the registers a task has from its launch and placement. -/
def Job.pipe (j : Job) (entry : W32) (args : List W64) : Pipe :=
  let p := Pipe.start entry
  let regs := (args.zip (List.range 8)).foldl (fun (r : RegFile) q => r.put (BitVec.ofNat 10 (q.2 + 1)) (.w64 q.1)) p.regs
  { p with
    regs := regs
    sys := { p.sys with cls := j.lr.cls, thbase := j.lr.thbase, rseed := j.lr2.rseed, pwb := j.lr2.pwb, pws := j.lr2.pws,
                        wdti := j.lr2.wdti, codebase := j.lr.codebase, mdbase := j.lr.mdbase }
    sys2 := { p.sys2 with shdmode := j.lr.shdmode.setWidth 2, shddim := BitVec.ofNat 24 (j.lr.dx + 256 * j.lr.dy + 65536 * j.lr.dz),
                          shdblk := j.lr.shdblk, tickch := j.lr2.tickch, cbar := peerAddr j.first j.lr2.cboff,
                          sbar := peerAddr j.first j.lr2.sboff, spuse := BitVec.ofNat 32 j.lr2.spuse, rng := rngSeeds j.lr2.rseed } }
/-- R163, R303: a core starts a task: fresh registers, latches, copy slots and matrix array; its engine commands, channels and deque stay, its banks leave
banked mode (R112), and its paths start at its LTIME floor (DEDUCED log 37), and not below a time `lt` whose accesses it observes (R310, R316). -/
def Core.start (k : Core) (p : Pipe) (t : TaskInfo) (lt : Nat) : Core :=
  { k with pipe := { p with cyc := k.pipe.cyc }, banks := k.banks.map BankMode.wake, ka := { KSlot.start with queue := k.ka.queue },
           kb := { KSlot.start with queue := k.kb.queue }, mx := Matrix.start, task := t, lt := Vector.replicate 4 (max k.floor lt), floor := max k.floor lt }
/-- What a core keeps when its task goes: scratchpad, banks, applied mark, LTIME floor, counters; its registers are discarded (R306 item 2), and its cached
translations dropped, so that none outlives the frames of R84 (DEDUCED log 35). Its engine queues go with the saved task: they take no room of a later task's and
hold none of its commands back (R129, DESIGN CHOICE log 76). -/
def Core.vacate (k : Core) : Core :=
  { Core.reset with pipe := k.pipe.halt, seq := k.seq, floor := k.floor, engSeq := k.engSeq, sp := k.sp,
                    spPoi := k.spPoi, banks := k.banks, bankUse := k.bankUse, mark := k.mark, lt := Vector.replicate 4 k.floor }
/-- A core record on the hardware of another: that core's banks, translations, mark, floor and cycle counter. -/
def Core.onto (k h : Core) : Core :=
  { k with banks := h.banks, bankUse := h.bankUse, tlb := h.tlb, mark := h.mark, floor := max k.floor h.floor, pipe := { k.pipe with cyc := h.pipe.cyc } }
/-- The channel pool entries that the channels of a core hold (R138). -/
def Core.grown (k : Core) : Nat := k.chans.foldl (fun n q => n + (q.cap - 16)) 0
/-- The quota that the ashpit rings of a core hold (R139). -/
def Core.spilled (k : Core) : Nat := k.chans.foldl (fun n q => n + 64 * q.ring.length) 0
/-- Core `c` is given up: its channels' entries return to the die's pool, their quota to the context. -/
def State.freeCore (s : State) (c : CoreId) : State :=
  let k := s.core c
  let s := s.modDie c.die fun d => { d with pool := d.pool + k.grown }
  let s := s.modCtx k.task.ctx fun x => { x with quota := x.quota + k.spilled }
  s.setCore c k.vacate

/-! ## Saved tasks (R109, R311, R312) -/

/-- Moves a core of a crew that moves: crew cores on die `d` from first core `a` to `b`. -/
def movedCore (j : Job) (dies : List DieId) (b : Nat) (c : CoreId) : CoreId :=
  match j.dies.idxOf? c.die with
  | some r => if j.first ≤ c.num && c.num < j.first + j.lr.crew then CoreId.mk' (dies.getD r c.die) (b + (c.num - j.first)) else c
  | none => c
/-- A peer-form address of a crew core after the crew moved. -/
def movedAddr (j : Job) (b : Nat) (a : W64) : W64 :=
  let n := (a.extractLsb' 24 5).toNat
  if a.extractLsb' 62 2 = 3 && j.first ≤ n && n < j.first + j.lr.crew then peerAddr (b + (n - j.first)) (a.toNat % 0x800000) else a
/-- The locations that a drain writes follow the crew (R257). -/
def Drain.moved (d : Drain) (f : CoreId → CoreId) : Drain :=
  let g (l : Loc) : Loc := match l with | .sp c off => .sp (f c) off | .pa a => .pa a
  { d with rows := d.rows.map fun r => r.map fun q => (q.1, g q.2), entry := d.entry.map fun x => x.map g }
/-- So does a queued operation. -/
def SeqOp.moved (o : SeqOp) (f : CoreId → CoreId) : SeqOp := match o with | .drain d => .drain (d.moved f) | o => o
/-- A copy slot whose accepted commands count on the crew's words where they now lie (R134). -/
def KSlot.moved (k : KSlot) (f : W64 → W64) : KSlot := { k with queue := k.queue.map fun e => { e with sw := f e.sw } }
/-- The record of a saved task as it stands on core `h` after a load (R109 item 3, R312): SPUSE bytes of scratchpad are its own; barrier words, join
words, the group leader and what queued operations and commands write follow the crew; on another core its paths are raised to the floor. -/
def SavedTask.load (v : SavedTask) (j : Job) (dies : List DieId) (b : Nat) (c : CoreId) (h : Core) : Core :=
  let k := v.core.onto h
  let n := j.lr2.spuse
  let lt := if c = v.place then k.lt else k.lt.map (max h.floor)
  Core.reissue { k with
    sp := k.sp.filter (fun x => x.1 < n) ++ h.sp.filter (fun x => n ≤ x.1)
    spPoi := k.spPoi.filter (fun w => 8 * w < n) ++ h.spPoi.filter (fun w => n ≤ 8 * w)
    lt := lt, floor := max k.floor (ltime lt), seq := max k.seq h.seq, engSeq := max k.engSeq h.engSeq
    banks := k.banks.map BankMode.wake
    deque := k.deque.map fun r => { r with joinw := movedAddr j b r.joinw }
    mx := { k.mx with leader := k.mx.leader.map (movedCore j dies b), queue := k.mx.queue.map fun o => o.moved (movedCore j dies b) }
    ka := k.ka.moved (movedAddr j b), kb := k.kb.moved (movedAddr j b)
    pipe := { k.pipe with sys2 := { k.pipe.sys2 with cbar := peerAddr b j.lr2.cboff, sbar := peerAddr b j.lr2.sboff },
                          waits := [], holds := Vector.replicate 4 none }
    task := { k.task with joinw := movedAddr j b k.task.joinw, first := b } } k.pipe.waits
/-- Collective instances of a job follow its crews. -/
def State.moveColls (s : State) (j : Job) (dies : List DieId) (b : Nat) : State :=
  let f (q : Coll) : Coll :=
    if q.job = j.num then
      { q with gov := movedCore j dies b q.gov, corenum := (movedCore j dies b (CoreId.mk' ((j.dies).headD 0) q.corenum)).num,
               paired := q.paired.map fun p => (p.1, movedCore j dies b p.2.1, p.2.2) }
    else q
  { s with link := { s.link with colls := s.link.colls.map f } }
/-- Runs `f` with the saved tasks of a job standing where they stood, and takes them back. What `f` applies of a log is applied for the saved task's context alone: the
core's mark and translations stay for its resident task (R83); the commands use no translation that an entry of the log names, since a core without a task does not hold
back the frames that the log has released (R84). -/
def State.withSaved (s : State) (job : Nat) (f : State → Out) : Out :=
  let l := s.fw.saved.filter fun v => v.job = job
  let t := l.foldl (fun s v =>
    let d := s.die v.place.die
    let k := v.core.onto (s.core v.place)
    (s.setCore v.place { k with tlb := tlbPurge d.log k.tlb }).modDie v.place.die fun d => { d with tlb := tlbPurge d.log d.tlb }) s
  match f t with
  | .next u =>
    let back := u.fw.saved.map fun v => if v.job = job then { v with core := u.core v.place } else v
    let u := { u with fw := { u.fw with saved := back } }
    .next (l.foldl (fun u v =>
      let k := (s.core v.place).onto (u.core v.place)
      u.setCore v.place { k with mark := (s.core v.place).mark, tlb := (s.core v.place).tlb }) u)
  | o => o
/-- The `n`-th engine command that waits with a saved task of core `c`: its job and its place in that task's queue (DEDUCED log 53). -/
def State.savedCmd (s : State) (c : CoreId) (k : KUnit) (n : Nat) : Option (Nat × Nat) :=
  ((s.fw.saved.filter fun v => v.place = c).flatMap fun v => (List.range (v.core.kslot k).queue.length).map fun i => (v.job, i))[n]?
/-- A step of command `n` of a copy slot of the current core: the resident task's queue first, then those of saved tasks (R134 item 1). -/
def State.onCommand (s : State) (k : KUnit) (n : Nat) (f : Nat → State → Out) : Out :=
  let m := (s.me.kslot k).queue.length
  if n < m then f n s
  else match s.savedCmd s.cur k (n - m) with
    | some (job, i) => s.withSaved job (f i)
    | none => .next s
/-- A step of collective instance `n`, whose tasks may be saved. -/
def State.onColl (s : State) (n : Nat) (f : State → Out) : Out :=
  match s.link.colls[n]? with
  | none => .next s
  | some q => if s.fw.saved.any fun v => v.job = q.job then s.withSaved q.job f else f s
/-- ENGINE_WRITE_PERFORMED (R131): see `engineWriteStep`. -/
def execEngineWritePerformed (k : KUnit) (n : Nat) (s : State) : Out := s.onCommand k n fun i s => engineWriteStep k i s
/-- KV_RESERVATION (R262): see `kvReserveStep`. -/
def execKvReservation (k : KUnit) (n : Nat) (s : State) : Out := s.onCommand k n fun i s => kvReserveStep k i s
/-- ENGINE_COMPLETION (R130, R131): see `engineCompleteStep`. -/
def execEngineCompletion (k : KUnit) (n : Nat) (s : State) : Out := s.onCommand k n fun i s => engineCompleteStep k i s
/-- REDUCTION_COMBINE (R150): see `reduceStep`. -/
def execReductionCombine (n rank : Nat) (s : State) : Out := s.onColl n fun s => reduceStep n rank s
/-- COLLECTIVE_CALL (R155): see `callStep`. -/
def execCollectiveCall (n rank : Nat) (s : State) : Out := s.onColl n fun s => callStep n rank s
/-- XRESH_PHASE (R160): see `reshPhaseStep`. -/
def execXreshPhase (n : Nat) (s : State) : Out := s.onColl n fun s => reshPhaseStep n s
/-- XRESH_SWITCH (R160): see `reshSwitchStep`. -/
def execXreshSwitch (n : Nat) (s : State) : Out := s.onColl n fun s => reshSwitchStep n s

end Sys2Proof.Machine
end

