-- ==== Sys2Proof/Machine/Fabric.lean ====
section
/-! DEFINITION. Machine steps of the fabric and its channels (R135 to R145), of kills and the sink watchdog (R331 to R333), and of a die that
leaves and rejoins (R161, R162). -/
namespace Sys2Proof.Machine

/-! ## Routes (R142, R143, R161) -/

/-- Bit `k` of a die index: its coordinate in dimension `k` (R12). -/
def torusBit (d : DieId) (k : Nat) : Bool := d.val.testBit k
/-- The die one hop away in dimension `k` (Table 1.1). -/
def hopDie (d : DieId) (k : Nat) : DieId := dieOf (d.val ^^^ 2 ^ k)
/-- The port of a die (X−, X+, Y−, Y+, Z−, Z+ are 0 to 5) on the interposer link or, with `wrap`, on the package wrap (R13, R14). -/
def hopPort (d : DieId) (k : Nat) (wrap : Bool) : Nat := 2 * k + (if torusBit d k == wrap then 1 else 0)
/-- Whether the link of a die in dimension `k` is up: the interposer link, or the wrap while it is closed. -/
def State.linkUp (s : State) (d : DieId) (k : Nat) (wrap : Bool) : Bool :=
  !(s.die d).links.contains (hopPort d k wrap) && !(s.die (hopDie d k)).links.contains (hopPort (hopDie d k) k wrap) && (!wrap || s.fw.cfg.wrap.getLsbD k)
/-- The dimensions in which two dies differ, in an order. -/
def hops (d e : DieId) (o : List Nat) : List Nat := o.filter fun k => torusBit d k != torusBit e k
/-- Whether a route from a die avoids the dies out of service and the lost links. -/
def State.pathOk (s : State) (dst : DieId) : DieId → List Nat → Bool
  | _, [] => true
  | d, k :: r =>
    (hopDie d k = dst || !s.link.detours.contains (hopDie d k)) && (s.linkUp d k false || s.linkUp d k true) && s.pathOk dst (hopDie d k) r
/-- The orders of Table 6.13. -/
def routeOrders : List (List Nat) := [[0, 1, 2], [0, 2, 1], [1, 0, 2], [1, 2, 0], [2, 0, 1], [2, 1, 0]]
/-- R143, R161: the dimensions a packet still travels, X first where nothing stands in the way, else the first order that avoids it. -/
def State.route (s : State) (d dst : DieId) : Option (List Nat) := (routeOrders.map (hops d dst)).find? fun o => s.pathOk dst d o
/-- R141: whether a header holds a reserved KIND, NDATA or VC. -/
def Packet.reserved (p : Packet) : Bool := 10 ≤ p.kind.toNat || 17 ≤ p.ndata.toNat || 6 ≤ p.vc.toNat
/-- R141: whether a packet is of an older kill generation. -/
def State.oldGen (s : State) (p : Packet) : Bool := match s.ctx p.ctx with | some x => x.kgen != p.kgen | none => true
/-- Packet `n` leaves the net. -/
def State.dropPacket (s : State) (n : Nat) : State := { s with link := { s.link with net := s.link.net.eraseIdx n } }
/-- R142: the virtual channel of a request packet on its next hop: the pair of detours off the X, Y, Z order, the upper one across the
dateline, which the package wrap is on a ring of extent 2. -/
def hopVc (detour wrap : Bool) : BitVec 3 := (if detour then 4 else 0) + (if wrap then 1 else 0)
/-- PACKET_HOP (R141, R143): packet `n` is checked at its router and goes one hop; a reserved header is dropped with a RAS event, an old kill
generation without one. -/
def execPacketHop (n : Nat) (s : State) : Out :=
  match s.link.net[n]? with
  | none => .next s
  | some p =>
    if p.reserved then .next ((s.dropPacket n).rasEvent 3 p.atDie.val p.kind.toNat)
    else if s.oldGen p then .next (s.dropPacket n)
    else if s.phase == .dusk || p.atDie = p.dst.die then .next s
    else match s.route p.atDie p.dst.die with
      | some (k :: r) =>
        let wrap := !s.linkUp p.atDie k false
        let detour := wrap || (k :: r) != hops p.atDie p.dst.die [0, 1, 2]
        .next { s with link := { s.link with net := s.link.net.set n { p with atDie := hopDie p.atDie k, vc := hopVc detour wrap } } }
      | _ => .next s
/-- Whether a port of a die carries traffic: an HV1X holds its six in reset (R1, R17). -/
def State.hasPort (s : State) (d : DieId) (port : Nat) : Bool := s.product == .hv8x && s.dieLive d && port < 6
/-- FLIT_CRC_FAILURE (R140, R334): the flit is sent again; the error is counted for the die, and towards the context of the oldest packet at it. -/
def execFlitCrcFailure (d : DieId) (port : Nat) (s : State) : Out :=
  .next (if !s.hasPort d port then s
    else (match s.link.net.find? fun (p : Packet) => p.atDie = d with | some p => s.countSoft p.ctx | none => s).rasEvent 2 d.val port)
/-- LINK_DOWN (R140): firmware takes the link of a port down, records it, and packets go around it. -/
def execLinkDown (d : DieId) (port : Nat) (s : State) : Out :=
  if !s.hasPort d port || (s.die d).links.contains port then .next s
  else .next ((s.modDie d fun x => { x with links := x.links ++ [port] }).rasEvent 8 d.val port)

/-! ## Channels (R135, R138, R139) -/

/-- CHANNEL_DELIVERY (R135, R144): packet `n`, at its destination die and the first of its pair of cores, enters its channel. -/
def execChannelDelivery (n : Nat) (s : State) : Out :=
  match s.link.net[n]? with
  | none => .next s
  | some p =>
    if p.reserved || s.oldGen p || p.atDie ≠ p.dst.die || s.phase == .dusk || (s.link.net.take n).any fun q => q.src = p.src && q.dst = p.dst then .next s
    else .next (((s.dropPacket n).modChan p.dst p.ch fun q => { q with msgs := q.msgs ++ [p.msg] }).retryWaits p.dst)
/-- ASHPIT_REFILL (R139): the oldest spilled message of a channel of the current core enters it; its quota returns. -/
def execAshpitRefill (ch : BitVec 3) (s : State) : Out :=
  let q := s.chan s.cur ch
  match q.ring with
  | [] => .next s
  | m :: r =>
    if q.cap ≤ q.msgs.length || s.inFlight s.cur ch ≠ 0 || s.phase == .dusk then .next s
    else
      let s := s.modChan s.cur ch fun q => { q with msgs := q.msgs ++ [m], ring := r }
      .next ((s.modCtx s.me.task.ctx fun x => { x with quota := x.quota + 64 }).retryWaits s.cur)

/-! ## The reporting core of a hang (R138, R332, R333) -/

/-- The cores whose tasks of a context are resident and have not ended: these are the tasks that GROW_CHECK asks, saved ones not (R138, DESIGN CHOICE log 38). -/
def State.ctxTasks (s : State) (id : BitVec 16) : List CoreId :=
  allCores.filter fun c => let t := (s.core c).task; t.ctx == id && (t.st == .running || t.st == .waiting || t.st == .stopping || t.st == .loading)
/-- The first group, in the order of the groups, that is held in a wait of Table 14.9. -/
def Pipe.heldGroup (p : Pipe) : Option Nat := (List.range 4).find? fun g => match p.holds.getD g none with | some w => w ≠ 0 | none => false
/-- The empty registers that the next bundle of a group waits for (R166). -/
def Pipe.awaited (p : Pipe) (g : Nat) : List (BitVec 10) :=
  match p.stream.at (p.pos g) with
  | some d => (p.bundleReads [g] d).filter fun f => isSVO f && !p.regs.full f
  | none => []
/-- The wait of Table 14.9 in which a group is held: a read of a register that a pending wait fills stands in that wait. -/
def Pipe.waitCode (p : Pipe) (g : Nat) : Nat :=
  match p.holds.getD g none with
  | some 1 =>
    (match p.waits.find? fun w => (p.awaited g).contains w.dsel with
      | some w => (match w.kind with | .sw _ _ => 2 | .qget _ => 3 | _ => 1)
      | none => 1)
  | some w => w
  | none => 0
/-- The wait of Table 14.9 a task is held in, none if it is not: a refused QPUT, that of its first held group, an unmatched collective (DESIGN CHOICE log 38). -/
def State.heldIn (s : State) (c : CoreId) : Option Nat :=
  let k := s.core c
  let coll := (k.ka.queue ++ k.kb.queue).any fun e => match e.kind with
    | .xred _ _ _ _ _ _ _ _ => (s.collOf c e.id).isNone
    | .xresh _ _ _ _ _ => (s.collOf c e.id).isNone
    | _ => false
  if k.task.refused then some 3
  else match k.pipe.heldGroup with
    | some g => some (k.pipe.waitCode g)
    | none => if coll then some 4 else none
/-- Lower rank of two tasks: span rank, then crew rank. -/
def State.lower (s : State) (a b : CoreId) : CoreId :=
  let r (c : CoreId) : Nat := 32 * (s.core c).task.spanRank + (s.core c).task.crewRank
  if r b < r a then b else a
/-- The lowest-ranked of some tasks. -/
def State.lowest (s : State) : List CoreId → Option CoreId
  | [] => none
  | c :: r => some (r.foldl s.lower c)
/-- The bundle at which a task stands. -/
def State.standsAt (s : State) (c : CoreId) : W32 :=
  let st := (s.core c).pipe.stream
  let low := st.gpos.foldl min st.gpos[0]
  match st.at low with | some d => d.pc | none => st.fpc
/-- The bundle at which the wait stands that `State.heldIn` names (Table 14.8): of the copy group for a refused QPUT, of the first held group, else where the task
stands. -/
def State.heldAt (s : State) (c : CoreId) : W32 :=
  let p := (s.core c).pipe
  let at' (g : Nat) : W32 := match p.stream.at (p.pos g) with | some d => d.pc | none => p.stream.fpc
  if (s.core c).task.refused then at' 3 else match p.heldGroup with | some g => at' g | none => s.standsAt c
/-- A kill with a hang report: the lowest-ranked held task reports its wait; with none held the lowest-ranked task reports 6. -/
def State.hangKill (s : State) (id : BitVec 16) (reason : Nat) : State :=
  let l := s.ctxTasks id
  match s.lowest (l.filter fun c => (s.heldIn c).isSome), s.lowest l with
  | some c, _ => s.killContext id reason 0 c (s.heldAt c) 0 (BitVec.ofNat 64 ((s.heldIn c).getD 6))
  | none, some c => s.killContext id reason 0 c (s.standsAt c) 0 6
  | none, none => s.killContext id reason 0 0 0 0 6
/-- A kill that no task caused (reasons 7 and 8): the lowest-ranked resident task reports (DESIGN CHOICE log 38). -/
def State.plainKill (s : State) (id : BitVec 16) (reason : Nat) : State :=
  match s.lowest (s.ctxTasks id) with
  | some c => s.killContext id reason 0 c (s.standsAt c) 0 0
  | none => s.killContext id reason 0 0 0 0 0

/-! ## GROW (R138) -/

/-- R138: whether the task of a core is blocked. -/
def Core.blocked (k : Core) : Bool :=
  k.task.refused || k.pipe.holds.all fun h => match h with | some w => w = 1 || w = 2 || w = 5 | none => false
/-- The full channels of a context: core, channel, capacity, in the order of die, core, channel. -/
def State.fullChans (s : State) (id : BitVec 16) : List (CoreId × BitVec 3 × Nat) :=
  (allCores.filter fun c => s.runsCtx c id).flatMap fun c => (List.range 8).filterMap fun i =>
    let q := s.chan c (BitVec.ofNat 3 i)
    if q.cap ≤ q.msgs.length + s.inFlight c (BitVec.ofNat 3 i) then some (c, BitVec.ofNat 3 i, q.cap) else none
/-- The first of least capacity. -/
def leastChan : List (CoreId × BitVec 3 × Nat) → Option (CoreId × BitVec 3 × Nat)
  | [] => none
  | x :: r => some (r.foldl (fun b y => if y.2.2 < b.2.2 then y else b) x)
/-- R138 item 1 for one context on die `d`. -/
def State.growOne (s : State) (d : DieId) (x : Ctx) : State :=
  let l := s.ctxTasks x.id
  if x.ashpit || x.killed.isSome || l.isEmpty || !l.all (fun c => (s.core c).blocked) then s
  else match leastChan (s.fullChans x.id) with
    | none => s
    | some (c, ch, _) =>
      if c.die ≠ d then s
      else if (s.die d).pool < 16 then s.hangKill x.id 5
      else
        let s := (s.modDie d fun y => { y with pool := y.pool - 16 }).modChan c ch fun q => { q with cap := q.cap + 16 }
        l.foldl (fun s c => s.unrefuse c) s
/-- GROW_CHECK (R138): the check a die makes every 1,024 cycles. -/
def execGrowCheck (d : DieId) (s : State) : Out :=
  if s.phase == .dusk || !s.dieLive d then .next s else .next (s.fw.ctxs.foldl (fun s x => s.growOne d x) s)

/-! ## Writing for firmware (R331, R339, R340) -/

/-- Writes host memory (R338). -/
def State.hostWrite (s : State) (a : Nat) (bs : List Byte) : State := { s with m := { s.m with host := Memory.writeBytes s.m.host a bs } }
/-- The parts of a range that lie in one 128-byte line each: offset in the range, address, length. -/
def lineParts (a n : Nat) : List (Nat × Nat × Nat) :=
  ((List.range ((a + n + 127) / 128 - a / 128)).map fun i =>
    let lo := max a ((a / 128 + i) * 128)
    (lo - a, lo, min (a + n) ((a / 128 + i + 1) * 128) - lo)).filter fun q => q.2.2 ≠ 0
/-- Writes bytes at a PA by firmware stores of logical time 0, line by line (R105); after the dusk cycle the homes refuse them (R286). -/
def State.fwWrite (s : State) (a : Nat) (bs : List Byte) : State :=
  if s.phase == .dusk then s else
  (lineParts a bs.length).foldl (fun s q =>
    let (l, s) := s.forWrite (.pa (s.normPa q.2.1))
    (s.storeAt 0 0 0 l ((bs.drop q.1).take q.2.2) false).2) s
/-- Writes bytes at a command address (R339): host memory with bit 63, else device memory. -/
def State.cmdWrite (s : State) (a : W64) (bs : List Byte) : State :=
  if a.getLsbD 63 then s.hostWrite (a.toNat % 2 ^ 52) bs else s.fwWrite (a.toNat % 2 ^ 52) bs
/-- The PA firmware uses for a VA of a context: its page table, or a backing it registers (R73). -/
def State.fwAddr (s : State) (x : Ctx) (va : Nat) : Option Nat :=
  match s.walk x.root va with
  | .leaf _ size e => some (s.normPa (leafFrame e + va % pageBytes size))
  | _ => (x.lazies.find? fun l => l.va.toNat ≤ va && va < l.va.toNat + l.bytes).map fun l => s.normPa (l.pa + (va - l.va.toNat))
/-- The largest logical time of the paths of a job's tasks and of their engine commands (R315). -/
def State.jobLt (s : State) (j : Job) : Nat := j.cores.foldl (fun n c => max n (max (ltime (s.core c).lt) (s.core c).engLt)) 0
/-- R316: the later jobs of a job's stream start after a time. -/
def State.streamAt (s : State) (j : Job) (lt : Nat) : State :=
  if j.lr.stream = 0 then s
  else
    let f (k : Job) : Job := if k.ctx == j.ctx && k.lr.stream = j.lr.stream then { k with lt := max k.lt lt } else k
    { s with fw := { s.fw with jobs := s.fw.jobs.map f, streamLt := (j.lr.stream, lt) :: s.fw.streamLt.filter fun x => x.1 ≠ j.lr.stream } }
/-- R315, R316: an 8-byte completion word, written after every access of the paths of the job's tasks and their engine commands; the stream's next job starts
after it. -/
def State.writeDone (s : State) (j : Job) (v : W64) : State :=
  let lt := s.jobLt j
  match (s.ctx j.ctx).bind fun x => if j.lr2.done = 0 then none else s.fwAddr x j.lr2.done.toNat with
  | none => s.streamAt j lt
  | some pa =>
    let (l, s) := s.forWrite (.pa pa)
    let (ts, s) := s.storeAt 0 j.ctx lt l (bytesOfNat 8 v.toNat) false
    s.streamAt j ts
/-- R340 item 3: a command completes: RESULT, a release of scope SYS, then STATUS; it leaves the list. A RESULT that no rule states is a free
value (DESIGN CHOICE log 11). -/
def State.endCmd (s : State) (x : Cmd) (status : Nat) (result : Option W64) : State :=
  let (w, s) := match result with | some w => (w, s) | none => s.drawFree
  let s := (s.hostWrite (x.entry + 48) (bytesOfNat 8 w.toNat)).hostWrite (x.entry + 60) (bytesOfNat 4 status)
  { s with link := { s.link with cmds := s.link.cmds.filter fun y => y.ticket ≠ x.ticket } }
/-- Table 15.5: the operation codes. -/
def knownOpc (o : Byte) : Bool := 1 ≤ o.toNat && o.toNat ≤ 0x1A
/-- R340 item 2, Table 15.4: commands of an unknown operation code, which name no context, end with status 1 once nothing stands before them;
at most `fuel` of them. -/
def State.sweepUnknown (s : State) : Nat → State
  | 0 => s
  | fuel + 1 =>
    match s.link.cmds with
    | x :: _ => if knownOpc x.opc then s else (s.endCmd x 1 none).sweepUnknown fuel
    | [] => s
/-- A command completes, and unknown ones that waited for it. -/
def State.finishCmd (s : State) (x : Cmd) (status : Nat) (result : Option W64) : State :=
  let s := s.endCmd x status result
  s.sweepUnknown s.link.cmds.length
/-- Completes the begun commands of an operation code that `f` selects. -/
def State.finishBegun (s : State) (opc : Nat) (f : Cmd → Bool) : State :=
  (s.link.cmds.filter fun x => x.begun && x.opc.toNat = opc && f x).foldl (fun s x => s.finishCmd x 0 none) s

/-! ## Kills (R331, R333, R316) -/

/-- KILL_DRAIN_ACK (R331 step 4): die `d` holds no packet of the old generation. -/
def execKillDrainAck (ctx : BitVec 16) (d : DieId) (s : State) : Out :=
  if s.link.net.any fun p => p.ctx == ctx && p.atDie = d then .next s
  else .next (s.modDie d fun x => { x with owed := x.owed.filter fun i => i != ctx })
/-- The prefix entries of a context on a die become invalid (R264 item 3). -/
def Die.dropPfx (d : Die) (ctx : BitVec 16) : Die := { d with pfx := d.pfx.map fun e => if e.ctx == ctx then { e with v := false } else e }
/-- R331 step 6: the pages of a context's tree are no longer counted as pages with HT = 1 or NA = 1. -/
def State.dropTree (s : State) (id : BitVec 16) : State :=
  if s.m.hot.isEmpty && s.m.noAlloc.isEmpty then s
  else match s.ctx id with
    | some x => (s.leaves x 0 (2 ^ 56)).foldl (fun s q => { s with m := { s.m with
        hot := s.pagesAfter 6 s.m.hot q.2.2.2 0 (pageBytes q.2.2.1), noAlloc := s.pagesAfter 10 s.m.noAlloc q.2.2.2 0 (pageBytes q.2.2.1) } }) s
    | none => s
/-- The channel entries of tasks that go return to the pools of their dies (R138), which hold no more than a reset die's. -/
def State.refund (s : State) (l : List SavedTask) : State :=
  l.foldl (fun s v => s.modDie v.place.die fun d => { d with pool := min Die.reset.pool (d.pool + v.core.grown) }) s
/-- R331 step 6: what firmware holds for a context is released, the channel entries of its saved tasks too. -/
def State.releaseCtx (s : State) (id : BitVec 16) : State :=
  let s := s.refund (s.fw.saved.filter fun v => v.core.task.ctx == id)
  let s := (allCores.filter fun c => (s.core c).task.ctx == id && (s.core c).task.st == .killed).foldl (fun s c => s.freeCore c) s
  let s := s.modDies fun d => d.dropPfx id
  let s := s.appendLog 0 3 0 id
  let s := s.dropTree id
  let mine (n : Nat) : Bool := s.fw.streams.any fun x => x.1 = n && x.2 == id
  ({ s with
    m := { s.m with migs := s.m.migs.filter (fun g => g.ctx != id), migQueue := s.m.migQueue.filter (fun g => g.ctx != id) }
    fw := { s.fw with ctxs := s.fw.ctxs.filter (fun x => x.id != id), streams := s.fw.streams.filter (fun x => x.2 != id),
                      streamLt := s.fw.streamLt.filter (fun x => !mine x.1), replicas := s.fw.replicas.filter (fun q => q.ctx != id),
                      jobs := s.fw.jobs.filter (fun j => j.ctx != id), saved := s.fw.saved.filter (fun v => v.core.task.ctx != id) } } : State).startAllQueued.retireDone
/-- R339: the TAG of the command that kills a context, 0 for another kill. -/
def State.killTag (s : State) (id : BitVec 16) : W32 :=
  match s.link.cmds.find? fun x => x.begun && x.opc = 5 && x.ctx == id with | some x => x.tag | none => 0
/-- KILL_RELEASE (R331 steps 5 and 6, R332, R316): every live die has acknowledged: the report, its event with the TAG of a CONTEXT.KILL (R339, R342), the completion
words of streams, the release. The words are written in the order in which the jobs were queued. After the dusk cycle nothing is written (R286). -/
def execKillRelease (ctx : BitVec 16) (s : State) : Out :=
  match (if s.phase == .dusk then none else s.ctx ctx) with
  | none => .next s
  | some x =>
    match x.killed with
    | none => .next s
    | some rep =>
      if s.dies.any fun d => d.live && d.owed.contains ctx then .next s
      else
        let s := (s.cmdWrite x.report rep).postEvent 2 ctx (s.killTag ctx) 0 x.report
        let s := (s.fw.jobs.filter fun j => j.ctx == ctx && j.lr.stream ≠ 0).foldl (fun s j => s.writeDone j (BitVec.allOnes 64)) s
        .next ((s.releaseCtx ctx).finishBegun 5 fun c => c.ctx == ctx)
/-- The watchdog interval of a context: the smallest non-zero WDTI among its resident tasks, 0 for none (R333). -/
def State.wdInterval (s : State) (id : BitVec 16) : Nat :=
  (s.ctxTasks id).foldl (fun n c =>
    let w := (s.core c).pipe.sys.wdti.toNat
    if w = 0 then n else if n = 0 then w else min n w) 0
/-- SINK_WATCHDOG_EXPIRY (R333): the count has reached the interval: the context is killed with reason 3. -/
def execSinkWatchdogExpiry (ctx : BitVec 16) (s : State) : Out :=
  match s.ctx ctx with
  | none => .next s
  | some x =>
    let n := s.wdInterval ctx
    if n = 0 || x.wd < n || x.killed.isSome || s.phase == .dusk then .next s else .next (s.hangKill ctx 3)

/-! ## A die leaves and rejoins (R161, R162) -/

/-- The contexts with a task on a die. -/
def State.ctxsOn (s : State) (d : DieId) : List (BitVec 16) :=
  (s.fw.ctxs.filter fun x => allCores.any fun c => c.die = d && (s.core c).task.ctx == x.id && (s.core c).task.st != .none).map (·.id)
/-- DIE.RESET and DIE.ISOLATE begin (R161): the contexts with tasks on the die are killed, and routes avoid it. -/
def State.beginReset (s : State) (d : DieId) (isolate : Bool) : State :=
  let s := (s.ctxsOn d).foldl (fun s id => s.plainKill id 8) s
  let s := s.modDie d fun x => { x with isolated := x.isolated || isolate }
  { s with link := { s.link with detours := if s.link.detours.contains d then s.link.detours else s.link.detours ++ [d] } }
/-- R162: the lines of tiers 0 to 2 that a lost die's cache held dirty are lost: what they covered is poisoned (DEDUCED log 39). -/
def State.poisonLost (s : State) (d : DieId) : State :=
  let (lost, kept) := s.m.vdirty.partition fun l => s.homeDie l = d
  { s with m := { s.m with vdirty := kept, poi := lost.foldl (fun p l => poisonWrite p l 128 true) s.m.poi } }
/-- R161 item 4, R281: the dirty tier-3 lines of a lost die are lost: their home copy is again what the device holds. -/
def State.loseDirty (s : State) (d : DieId) : State :=
  let (lost, kept) := s.m.dirty.partition fun l => s.homeDie l = d
  lost.foldl (fun s l => { s with m := { s.m with
    mem := Memory.writeBytes s.m.mem l (Memory.bytes s.m.pmem l 128), poi := poisonWrite s.m.poi l 128 (poisonAt s.m.ppoi l 128) } })
    { s with m := { s.m with dirty := kept } }
/-- Whether a collective instance has a participant on a die, or a partial's way to the root (R161 item 2). -/
def State.collOn (s : State) (d : DieId) (q : Coll) : Bool :=
  match s.job q.job with
  | some j => q.parts.any fun r => let m := (j.dies.getD r 0).val; m = d.val || (!q.resh && onRoute d.val q.gov.die.val 3 m)
  | none => false
/-- The commands with which an instance's participants take part, paired by a call or not yet: rank, core and number. -/
def State.takers (s : State) (q : Coll) : List (Nat × CoreId × Nat) :=
  q.paired ++ q.parts.filterMap fun r =>
    if q.paired.any fun p => p.1 = r then none
    else ((s.job q.job).bind fun j => j.dies[r]?).bind fun d =>
      let c := CoreId.mk' d q.corenum
      (s.oldestAnswer c q).map fun i => (r, c, i)
/-- R161 item 2: an instance is lost: every command that takes part in it ends with STATUS 6, and so do those that its other participants bring later. -/
def State.failAll (q : Coll) (s : State) : State :=
  let l := s.takers q
  let colls := s.link.colls.map fun x => if x = q then { x with paired := l, lost := true, status := 6 } else x
  l.foldl (fun s p => match s.findCmd p.2.1 p.2.2 with | some (k, e) => s.engineEnd p.2.1 k e 6 | none => s) { s with link := { s.link with colls := colls } }
/-- R161 item 2: the collective instances of saved spans that a lost die takes part in end with STATUS 6; those of resident ones went with their contexts. -/
def State.resetColls (s : State) (d : DieId) : State :=
  (s.link.colls.filter fun q => s.collOn d q).foldl (fun s q =>
    match if s.fw.saved.any (fun v => v.job = q.job) then s.withSaved q.job fun s => .next (s.failAll q) else .next (s.failAll q) with
    | .next s => s
    | _ => s) s
/-- Every byte that a command's source or destination takes in. -/
def Side.bytes (x : Side) (n : Nat) : List W64 := (List.range n).filterMap x.byte
/-- The dies that a command names, and the addresses of its sources and destinations (R131 to R134, R157 to R160); XRED and XRESH move data between the participants'
own memories. -/
def EngCmd.ends (e : EngCmd) : List DieId × List W64 :=
  match e.kind with
  | .xcopy a b => ([], a.bytes e.total ++ b.bytes e.total)
  | .xlist _ l next rowb first _ mem =>
    ([], (Side.flat l).bytes (16 * next) ++ mem.bytes e.total ++ (match e.extents with
      | some x => (List.range e.total).filterMap fun i => (listWalker x rowb first i).1
      | none => []))
  | .xmcast src _ ds _ _ => (ds, src.bytes e.total)
  | .xred _ _ _ len src dst _ _ => ([], (Side.flat src).bytes len ++ (Side.flat dst).bytes len)
  | .xhalo l _ _ => (l.map (·.die), l.flatMap fun x => x.elems.map (·.1))
  | .xresh _ a b _ _ => ([], (a.interiorList.map a.posAddr) ++ b.interiorList.map b.posAddr)
  | .mopldT _ _ _ _ src b => ([], src.bytes e.total ++ b.toList)
  | .kvapp _ rec _ src _ => ([], rec :: src.bytes e.total)
/-- R262: the addresses of the rows that a KV.APP appends, as its record has them. -/
def State.rowsAt (s : State) (c : CoreId) (e : EngCmd) : List W64 :=
  match e.kind with
  | .kvapp ntok rec rowb _ p0 =>
    match (s.engRead c e rec 576).1 with
    | .ok (bs, _, _) =>
      let r := SeqRec.ofBytes bs
      (List.range ntok).flatMap fun i => match r.place (p0.getD r.len + i) with | some (_, a) => (Side.flat a).bytes rowb | none => []
    | .error _ => []
  | _ => []
/-- R161 item 1: whether a command of core `c` has a source or destination on a die. -/
def State.endsOn (s : State) (c : CoreId) (e : EngCmd) (d : DieId) : Bool :=
  e.ends.1.contains d || (e.ends.2 ++ s.rowsAt c e).any fun a => match (s.locate c a .read).1 with | .ok l => s.locDie l = d | .error _ => false
/-- R161 item 1: the commands of some cores with a source or destination on a die end with STATUS 6. -/
def State.failEnds (s : State) (d : DieId) (cs : List CoreId) : State :=
  (cs.flatMap fun c => [KUnit.ka, KUnit.kb].flatMap fun k => (((s.core c).kslot k).queue.filter fun e => s.endsOn c e d).map fun e => (c, k, e)).foldl
    (fun s x => if s.cmdQueued x.1 x.2.2.id then s.engineEnd x.1 x.2.1 x.2.2 6 else s) s
/-- R161 item 1 for every command: those of resident tasks on other dies, and those of saved tasks (R134). -/
def State.resetEnds (s : State) (d : DieId) : State :=
  let s := s.failEnds d (allCores.filter fun c => c.die ≠ d && (s.core c).task.st != .none)
  ((s.fw.saved.map (·.job)).eraseDups).foldl (fun s j =>
    match s.withSaved j fun s => .next (s.failEnds d ((s.fw.saved.filter fun v => v.job = j).map (·.place))) with | .next s => s | _ => s) s
/-- A die's state is lost (R161 step 5): its cores, caches, prefix table and pool, but for the channel entries of saved tasks; what HBM and flash hold stays. -/
def State.resetDie (s : State) (d : DieId) : State :=
  let s := (((s.resetColls d).resetEnds d).poisonLost d).loseDirty d
  let kept := (s.fw.saved.filter fun v => v.place.die = d).foldl (fun n v => n + v.core.grown) 0
  let s := ((s.die d).pfx.toList.filter fun e => e.v).foldl (fun s e => s.modCtx e.ctx fun x => x.blockRef e.base false) s
  let s := (allCores.filter fun c => c.die = d).foldl (fun s c =>
    s.modCore c fun k => { Core.reset with floor := k.floor, lt := Vector.replicate 4 k.floor, mark := (s.die d).seq }) s
  s.modDie d fun x => { x with live := false, wasReset := true, tlb := [], copies := [], lines := [], pfx := Die.reset.pfx, age := 0, pool := Die.reset.pool - kept, owed := [] }
/-- DIE_ROUTES_DRAINED (R161 steps 3 to 5): no packet is left at the die and the kills are released: the die resets; DIE.ISOLATE
completes. -/
def execDieRoutesDrained (d : DieId) (s : State) : Out :=
  if !s.link.detours.contains d || !(s.die d).live || !(s.ctxsOn d).isEmpty || s.link.net.any (fun p => p.atDie = d) || s.phase == .dusk then .next s
  else
    let s := s.resetDie d
    .next (s.finishBegun 0x15 fun c => c.args[0].toNat = d.val)
/-- The largest logical time of any path (R162). -/
def State.maxLt (s : State) : Nat :=
  let of (k : Core) : Nat := (k.ka.queue ++ k.kb.queue).foldl (fun n e => max n e.lt) (max (max k.floor k.engLt) (ltime k.lt))
  s.fw.saved.foldl (fun n v => max n (of v.core)) (s.cores.foldl (fun n k => max n (of k)) 0)
/-- R80: a die that rejoins is given its copy of every replicated page, from a live die. -/
def State.fillReplicas (s : State) (d : DieId) : State :=
  s.fw.replicas.foldl (fun s q =>
    match (s.homeDie q.frame :: List.finRange 8).find? fun e => s.dieLive e && e ≠ d with
    | none => s
    | some e => (List.range (pageBytes q.size / 128)).foldl (fun s i =>
        let o := q.frame % 0x2000000000 + 128 * i
        s.copyLine (e.val * 0x2000000000 + o) (d.val * 0x2000000000 + o)) s) s
/-- DIE_REJOIN (R162): a reset die that is not isolated rejoins: its locations' times are above every lease, and it has its copies of replicated pages (R80); the original
routes return; DIE.RESET completes. -/
def execDieRejoin (d : DieId) (s : State) : Out :=
  if (s.die d).live || (s.die d).isolated || !s.link.detours.contains d || s.pkgDies ≤ d.val || s.phase == .dusk then .next s
  else
    let t := s.maxLt + 1 + s.fw.cfg.leaselen.toNat
    let s := (s.fillReplicas d).modDie d fun x => { x with live := true, timeBase := t }
    let s := { s with link := { s.link with detours := s.link.detours.filter (· ≠ d) } }
    .next (s.finishBegun 0x14 fun c => c.args[0].toNat = d.val)

end Sys2Proof.Machine
end

