-- ==== Sys2Proof/Machine/Sched.lean ====
section
/-! DEFINITION. Machine steps of the scheduler: placement, load, pre-emption and save (R298, R299, R309 to R313), card sets (R276 to R278),
forked records (R303), and the end of a job (R315, R316). Which request firmware serves next, where the rules leave it open, is the
agenda's choice (DESIGN CHOICE log 1, 40). -/
namespace Sys2Proof.Machine

/-! ## Placement (R298, R299, R309, R313) -/

/-- A sync word as firmware initialises it (R299): ARM and REL set. -/
def barrierWord (target : Nat) : SyncWord := ⟨target, 0, 0, 5⟩
/-- Applies a function to every core of a list with its place in it. -/
def State.eachCore (s : State) (l : List CoreId) (f : Nat → CoreId → State → State) : State :=
  (l.zip (List.range l.length)).foldl (fun s q => f q.2 q.1 s) s
/-- R299: the barrier words of a new span. -/
def State.initBarriers (s : State) (j : Job) : State :=
  j.dies.foldl (fun s d =>
    let c := CoreId.mk' d j.first
    (s.syncPut c j.lr2.cboff (barrierWord j.lr.crew)).syncPut c j.lr2.sboff (barrierWord (j.lr.crew * j.dies.length))) s
/-- R276: the number of cards of a job's card set, as core `c` reads it; 0 for a set it cannot read (DESIGN CHOICE log 41). -/
def State.cardCount (s : State) (c : CoreId) (j : Job) : Nat :=
  match s.readVa c 0 j.lr2.cards 64 8 with
  | (.ok (bs, _, _), _) => if zeros bs 44 4 && zeros bs 56 8 && fld bs 8 4 ≤ 2 ^ 24 then fld bs 8 4 else 0
  | (.error _, _) => 0
/-- A fresh span is placed (R163, R174, R298): its tasks load, to observe what precedes the job's time (R310, R316); the cores of a card job are idle and wait for cards (R277). -/
def State.placeFresh (s : State) (j : Job) : State :=
  let cards := j.lr2.cards ≠ 0
  let s := s.eachCore j.cores fun i c s =>
    let t : TaskInfo := { TaskInfo.none with
      st := if cards then .ended else .loading, ctx := j.ctx, job := j.num, crewRank := i % j.lr.crew, crewSize := j.lr.crew,
      spanRank := i / j.lr.crew, spanSize := j.dies.length, taskId := BitVec.ofNat 32 (65536 * (i / j.lr.crew) + i % j.lr.crew), first := j.first }
    (s.modCore c fun k => k.start (j.pipe j.lr.entry []) t j.lt).applyLog c true
  let s := s.initBarriers j
  if cards then s.modJob j.num fun k => { k with cards := List.replicate (s.cardCount (CoreId.mk' (j.dies.headD 0) j.first) j) .waiting } else s
/-- A saved span is loaded again (R109, R311): each task's image goes to its core of the new crews, its channels' entries to the pool of that die (R138). -/
def State.placeSaved (s : State) (j : Job) (old : Job) : State :=
  let s := (s.fw.saved.filter fun v => v.job = j.num).foldl (fun s v =>
    let c := movedCore old j.dies j.first v.place
    let k := v.load old j.dies j.first c (s.core c)
    let k := { k with task := { k.task with st := if k.task.st == .ended then .ended else .loading } }
    let s := if c.die = v.place.die then s
      else (s.modDie v.place.die fun d => { d with pool := d.pool + v.core.grown }).modDie c.die fun d => { d with pool := d.pool - v.core.grown }
    (s.setCore c k).applyLog c true) s
  let s := s.moveColls old j.dies j.first
  { s with fw := { s.fw with saved := s.fw.saved.filter fun v => v.job ≠ j.num } }
/-- SPAN_PLACEMENT (R298, R299, R311, R313): a waiting job's box and clusters are free on every die, and its turn has come: its crews are placed
together, on no core reserved for another request. -/
def execSpanPlacement (job ox oy oz cluster : Nat) (s : State) : Out :=
  match s.job job with
  | none => .next s
  | some j =>
    match s.boxFor j ox oy oz with
    | none => .next s
    | some ds =>
      if s.phase != .running || !s.waits j || !s.unreserved j (ds, cluster) || !(ds.all fun d => s.clustersFree j d cluster) then .next s
      else
        let round : Int := ((if j.lr2.quant = 0 then s.fw.cfg.quant.toNat else j.lr2.quant) * j.lr2.weight : Nat)
        let new : Job := { j with st := .placed, dies := ds, first := 4 * cluster, placedAt := s.fw.nextPlace,
                                  deficit := if j.lr.cls = 0 && j.deficit ≤ 0 then j.deficit + round else j.deficit }
        let s := s.modJob job fun _ => new
        let s := { s with fw := { s.fw with nextPlace := s.fw.nextPlace + 1 } }
        .next (if j.resumed then s.placeSaved new j else s.placeFresh new)
/-- STATE_LOAD_COMPLETE (R311): the load of the crew of a rank, at its cluster, is complete: its tasks run. -/
def execStateLoadComplete (job rank cluster : Nat) (s : State) : Out :=
  match s.job job with
  | none => .next s
  | some j =>
    if j.st != .placed || j.first ≠ 4 * cluster || s.phase != .running then .next s
    else .next (s.eachCore (j.cores.drop (rank * j.lr.crew) |>.take j.lr.crew) fun _ c s =>
      if (s.core c).task.st == .loading then s.modCore c fun k => { k with task := { k.task with st := .running } } else s)

/-! ## Pre-emption (R308, R312, R313, R323) -/

/-- Whether the accesses of a core's task are all performed, and its long operations, operand loads and service complete (R109, R312 item 2). -/
def State.quiet (s : State) (c : CoreId) : Bool :=
  let k := s.core c
  k.reqs.isEmpty && k.pipe.longs.isEmpty && k.pipe.svc.isNone && !(s.m.held.any fun h => h.core = c) && k.mx.slots.all (fun x => x.loads.isEmpty)
  && !(s.link.net.any fun p => p.src = c || p.dst = c)
/-- The image of the task of a core (R312 item 3). -/
def State.image (s : State) (j : Job) (c : CoreId) : SavedTask :=
  let k := s.core c
  ⟨j.num, c, { k with task := { k.task with st := if k.task.st == .ended then .ended else .running } }⟩
/-- The images of some cores of a job join the saved tasks, and the cores are free of their tasks. -/
def State.putAway (s : State) (j : Job) (l : List CoreId) : State :=
  let saved := l.map fun c => s.image j c
  let s := s.eachCore l fun _ c s => s.setCore c (s.core c).vacate
  { s with fw := { s.fw with saved := s.fw.saved ++ saved } }
/-- The cores of a job whose tasks are in a state. -/
def State.coresIn (s : State) (j : Job) (p : TaskSt → Bool) : List CoreId := j.cores.filter fun c => p (s.core c).task.st
/-- A span whose crews all load gives its load up (R311, R312): the saved state, or the queued job, remains. -/
def State.abandonLoad (s : State) (j : Job) : State :=
  let again := j.resumed || !(s.coresIn j (· == .ended)).isEmpty
  let s := if again then s.putAway j j.cores else s.eachCore j.cores fun _ c s => s.setCore c (s.core c).vacate
  s.modJob j.num fun k => { k with st := .queued, resumed := again, dies := if again then k.dies else [], cards := if again then k.cards else [] }
/-- A span stops at its next bundle boundaries (R311, R312 item 1), its pending waits recorded (R126, R137); of a crew that still loads the load is given up at once. -/
def State.stopJob (s : State) (j : Job) : State :=
  let s := s.putAway j (s.coresIn j (· == .loading))
  let s := s.eachCore (s.coresIn j fun x => x == .running || x == .waiting) fun _ c s =>
    s.modCore c fun k => { k.recordWaits with task := { k.task with st := .stopping } }
  s.modJob j.num fun j => { j with st := .stopping }
/-- R312: a placed span is pre-empted; a load is given up once no message is on its way to its cores. -/
def State.preempt (s : State) (j : Job) : State :=
  let l := s.coresIn j (· == .loading)
  if s.link.net.any fun p => l.contains p.src || l.contains p.dst then s
  else if !l.isEmpty && (s.coresIn j fun x => x != .loading && x != .ended).isEmpty then s.abandonLoad j else s.stopJob j
/-- PREEMPTION (R312, R313): the span on the current core is stopped for a waiting request; a stopped one whose requests are performed and whose tier-3 lines
are durable (R283 rule 5) applies the log and begins its save. -/
def execPreemption (s : State) : Out :=
  match s.job s.me.task.job with
  | none => .next s
  | some j =>
    if s.phase != .running || !j.cores.contains s.cur || s.me.task.st == .killed then .next s
    else if j.st == .placed then .next (if s.mayPreempt j then s.preempt j else s)
    else if j.st == .stopping then
      if !j.cores.all fun c => s.quiet c then .next s
      else if !j.cores.all fun c => (s.core c).tracker.isEmpty then
        .next (j.cores.foldl (fun s c => (s.core c).tracker.foldl (fun s l => s.writeBack l) s) s).trackersClean
      else
        let s := s.eachCore (s.coresIn j (· != .none)) fun _ c s =>
          let s := s.applyLog c true
          if (s.core c).task.st == .ended then s else s.modCore c fun k => { k with task := { k.task with st := .saving } }
        .next (s.modJob j.num fun j => { j with st := .saving })
    else .next s
/-- STATE_SAVE_COMPLETE (R311, R312): the save of the job on the current core is complete: it is SAVED, its cores are free, and its request to be placed again
arrives now (DESIGN CHOICE log 40), that of a tick job with its tick. -/
def execStateSaveComplete (s : State) : Out :=
  match s.job s.me.task.job with
  | none => .next s
  | some j =>
    if j.st != .saving || !j.cores.contains s.cur || s.me.task.st == .killed then .next s
    else
      let s := s.putAway j (s.coresIn j (· != .none))
      let s := s.modJob j.num fun k => { k with st := .saved, resumed := true, arrived := s.fw.nextArrival }
      .next { s with fw := { s.fw with nextArrival := s.fw.nextArrival + 1 } }
/-- QUANTUM_EXPIRY (R313 item 4): a bulk job's deficit is spent: it is pre-empted if another bulk job waits for its cores, else a new round begins. -/
def execQuantumExpiry (job : Nat) (s : State) : Out :=
  match s.job job with
  | none => .next s
  | some j =>
    if j.st != .placed || j.lr.cls ≠ 0 || 0 < j.deficit || s.phase != .running then .next s
    else if s.bulkWaitsFor job then .next (s.preempt j)
    else
      let round : Int := ((if j.lr2.quant = 0 then s.fw.cfg.quant.toNat else j.lr2.quant) * j.lr2.weight : Nat)
      .next (s.modJob job fun j => { j with deficit := j.deficit + round })

/-! ## Records (R301 to R303) -/

/-- Whether a record of core `d`'s deque may be taken: the accesses before its FORK are performed (R302). -/
def State.takeable (s : State) (d : CoreId) (r : TaskRec) : Bool :=
  (s.core d).reqs.all (fun q => r.after ≤ q.seq) && (s.core d).mx.queue.all fun o => match o with | .drain x => r.after ≤ x.seq | _ => true
/-- The cores in whose deques core `c` looks, its own first, then by rising CREWRANK (R303). -/
def State.takeOrder (s : State) (c : CoreId) : List CoreId :=
  let t := (s.core c).task
  (List.range t.crewSize).map fun i => CoreId.mk' c.die (t.first + (t.crewRank + i) % t.crewSize)
/-- The record core `c` takes: where it lies and its place there; its own newest first, a peer's oldest first. -/
def State.nextRecord (s : State) (c : CoreId) : Option (CoreId × Nat) :=
  (s.takeOrder c).findSome? fun d =>
    let l := (s.core d).deque
    let ok (i : Nat) : Bool := match l[i]? with | some r => s.takeable d r | none => false
    let ix := List.range l.length
    ((if d = c then ix else ix.reverse).find? ok).map fun i => (d, i)
/-- Whether a core of a placed job is idle and may take work: its task has ended and made its arrivals (R303, R306, R278 item 4). -/
def State.idle (s : State) (c : CoreId) (j : Job) : Bool :=
  let k := s.core c
  j.st == .placed && k.task.st == .ended && k.task.card.isNone && k.task.joinw = 0 && k.task.rejoin = 0 && k.mx.queue.isEmpty && s.phase == .running
/-- RECORD_TAKE (R303): the current core, idle, takes a record and starts its task, which acquires at PKG. -/
def execRecordTake (s : State) : Out :=
  let c := s.cur
  match s.job s.me.task.job, s.nextRecord c with
  | some j, some (d, i) =>
    if !s.idle c j then .next s
    else match (s.core d).deque[i]? with
      | none => .next s
      | some r =>
        let t := s.me.task
        let n := j.forks[c.die.val]
        let lt := ltime (s.core d).lt
        let s := s.modCore d fun k => { k with deque := k.deque.eraseIdx i }
        let s := s.modJob j.num fun j => { j with forks := j.forks.set c.die.val (n + 1) }
        let t' : TaskInfo := { t with st := .running, joinw := r.joinw, card := none, refused := false,
                                      taskId := BitVec.ofNat 32 (2 ^ 31 + 65536 * t.spanRank + n % 65536) }
        let s := s.modCore c fun k => k.start (j.pipe r.entry r.args.toList) t' j.lt
        .next ((s.setLt c (ltMerge s.me.lt lt)).acquirePkg c)
  | _, _ => .next s

/-! ## Cards (R276 to R278) -/

/-- The card firmware dispatches next to core `c`: a replay from another core first, else the first in array order (R277, R278 item 3). -/
def Job.nextCard (j : Job) (c : CoreId) : Option (Nat × Bool) :=
  match j.cards.findIdx? fun x => match x with | .replay r => r ≠ c | _ => false with
  | some i => some (i, true)
  | none => (j.cards.findIdx? fun x => x == .waiting).map fun i => (i, false)
/-- CARD_DISPATCH (R276, R277): the next card goes to a free core of the job's first crew (DESIGN CHOICE log 41); an invalid one is counted with ERR and not
run. -/
def execCardDispatch (job : Nat) (c : CoreId) (s : State) : Out :=
  match s.job job with
  | none => .next s
  | some j =>
    if j.lr2.cards = 0 || !(j.cores.take j.lr.crew).contains c || !s.idle c j then .next s
    else match j.nextCard c, s.readVa c 0 j.lr2.cards 64 8 with
      | some (i, again), (.ok (set, _, _), s) =>
        let a := BitVec.ofNat 64 (fld set 0 8 + 32 * i)
        let skip (s : State) : Out :=
          .next ((s.countCard c j true).modJob job fun j => { j with cards := j.cards.set i .done })
        match s.readVa c 0 a 32 8 with
        | (.ok (b, _, _), s) =>
          let bkt := fld b 24 1 % 8
          if 5 ≤ bkt || fld b 24 4 / 8 ≠ 0 then skip s
          else
            let t := (s.core c).task
            let t' : TaskInfo := { t with st := .running, joinw := 0, card := some i, cardLeft := fld set (16 + 4 * bkt) 4 + fld set 12 4, cardOn := false,
                                          refused := false, engFrom := (s.core c).engSeq, reqFrom := (s.core c).seq, taskId := BitVec.ofNat 32 (65536 * t.spanRank + t.crewRank) }
            let p := j.pipe (BitVec.ofNat 32 (fld set 40 4)) []
            let p := { p with sys := { p.sys with pwb := p.sys.pwb.set 0 a, pws := p.sys.pws.set 0 32 } }
            let s := s.modCore c fun k => k.start p t' j.lt
            .next (s.modJob job fun j => { j with cards := j.cards.set i (.running c again) })
        | (.error _, s) => skip s
      | _, _ => .next s
/-- R278 item 2: a collective instance without what the commands of core `c` from a number on have brought to it. -/
def Coll.without (q : Coll) (c : CoreId) (from_ : Nat) : Coll :=
  let gone (p : Nat × CoreId × Nat) : Bool := p.2.1 = c && from_ ≤ p.2.2
  let ranks := (q.paired.filter gone).map (·.1)
  { q with paired := q.paired.filter fun p => !gone p, contribs := q.contribs.filter fun x => !ranks.contains x.1 }
/-- A core reset by a card watchdog (R278 items 1 and 2): the card's task, its unperformed accesses and engine commands (those of earlier tasks go on), what they brought to collectives, and
its messages are dropped. It rejoins 16,384 cycles of the die clock later (DESIGN CHOICE log 73). -/
def State.resetCore (s : State) (c : CoreId) : State :=
  let from_ := (s.core c).task.engFrom
  let card := (s.core c).task.card.map fun i => ((s.core c).task.job, i)
  let old (q : KSlot) : KSlot := { KSlot.start with queue := q.queue.filter fun e => e.id < from_ }
  let s := s.modCore c fun k => { k with
    pipe := { Pipe.start 0 with cyc := k.pipe.cyc }, ka := old k.ka, kb := old k.kb, mx := Matrix.start, reqs := k.reqs.filter fun r => r.seq < k.task.reqFrom,
    task := { k.task with st := .ended, card := none, joinw := 0, refused := false, rejoin := s.t.dcyc + 16384 } }
  let held := s.m.held.filter fun h => !(h.core = c && (s.core c).task.reqFrom ≤ h.req.seq)
  let job := (s.core c).task.job
  let net := s.link.net.filter fun p => !(p.src = c && p.card.isSome && p.card = card)
  let colls := (s.link.colls.filter fun q => !(q.job = job && q.gov = c && from_ ≤ q.cmd)).map fun q => if q.job = job then q.without c from_ else q
  { s with m := { s.m with held := held }, link := { s.link with net := net, colls := colls } }
/-- CARD_DEADLINE_EXPIRY (R278): the watchdog of the current core's card has run out: the core is reset and the card is to be replayed; on a second
core the context is killed with reason 4. -/
def execCardDeadlineExpiry (s : State) : Out :=
  let t := s.me.task
  match t.card, s.job t.job with
  | some i, some j =>
    if t.cardLeft ≠ 0 || !t.cardOn || !s.me.canIssue || s.phase != .running then .next s
    else match j.cards[i]? with
      | some (.running _ true) =>
        .next (s.killContext t.ctx 4 0 s.cur (s.heldAt s.cur) 0 (BitVec.ofNat 64 ((s.heldIn s.cur).getD 6)))
      | _ => .next ((s.resetCore s.cur).modJob j.num fun j => { j with cards := j.cards.set i (.replay s.cur) })
  | _, _ => .next s
/-- CORE_REJOIN (R278 item 4): 16,384 cycles of the die clock (DESIGN CHOICE log 73) after its reset the current core rejoins its crew. -/
def execCoreRejoin (s : State) : Out :=
  if s.me.task.rejoin = 0 || s.t.dcyc < s.me.task.rejoin then .next s
  else .next (s.modMe fun k => { k with task := { k.task with rejoin := 0 } })

/-! ## The end of a job (R306, R315) -/

/-- R306 item 6, R315: whether a placed job is finished and every write of its tasks is performed. -/
def State.jobDone (s : State) (j : Job) : Bool :=
  j.st == .placed && j.cards.all (fun x => x == .done)
  && j.cores.all fun c =>
    let k := s.core c
    k.task.st == .ended && k.task.card.isNone && k.task.joinw = 0 && k.deque.isEmpty && k.ka.queue.isEmpty && k.kb.queue.isEmpty && !k.drainsPending && s.quiet c
/-- JOB_COMPLETION (R315, R316): DONEVAL is written to DONE, the cores are free, and the stream's next job may start. -/
def execJobCompletion (job : Nat) (s : State) : Out :=
  match s.job job with
  | none => .next s
  | some j =>
    if !s.jobDone j || s.phase != .running then .next s
    else
      let s := s.writeDone j j.lr2.doneval
      let s := s.eachCore j.cores fun _ c s => s.freeCore c
      .next { s with fw := { s.fw with jobs := s.fw.jobs.filter fun k => k.num ≠ job }, link := { s.link with colls := s.link.colls.filter fun q => q.job ≠ job } }

end Sys2Proof.Machine
end

