-- ==== Sys2Proof/Machine/Clock.lean ====
section
/-! DEFINITION. The 1588 clock, tick channels, ingest queues and the time port (R270 to R275, R346). -/
namespace Sys2Proof.Machine

/-! ## The passing of time (R91, R270, R333, R346) -/

/-- R346 item 2: how many fifths of a nanosecond `n` cycles may slew: 50 ppm is one fifth in 5,000 cycles. -/
def TimeState.slewRoom (t : TimeState) (n : Nat) : Nat := min ((t.slewCyc + n) / 5000) t.slew.natAbs
/-- R270: `n` cycles of the die clock of 1.25 GHz pass: four fifths of a nanosecond each; `adj` fifths are slewed. -/
def TimeState.pass (t : TimeState) (n adj : Nat) : TimeState :=
  let step : Int := if t.slew < 0 then -(adj : Int) else adj
  let f := ((t.fifths : Int) + 4 * n + step).toNat
  { t with secs := (t.secs + f / 5000000000) % 2 ^ 48, fifths := f % 5000000000, slew := t.slew - step,
           slewCyc := (t.slewCyc + n) % 5000, sinceEdge := t.sinceEdge + n, dcyc := t.dcyc + n }
/-- A cluster's arithmetic clock in MHz (R21, R336, R349): the power limit's steps and the damper's do not add up, the larger counts (DESIGN CHOICE log 73). -/
def State.clusterMHz (s : State) (cluster : Fin 64) : Nat := 1250 - 25 * max s.fw.damper[cluster] s.fw.throttle
/-- R21, R91: `n` die cycles of a clock of `mhz` where `acc` has passed of the LEASEMAX cycles after which paths advance, in units of 1/1250 of a cycle: how many
such periods end, and what has passed then. -/
def State.leaseStep (s : State) (acc n mhz : Nat) : Nat × Nat :=
  let d := 1250 * s.fw.cfg.leasemax.toNat
  ((acc + n * mhz) / d, (acc + n * mhz) % d)
/-- The largest logical time of a core's engine commands. -/
def Core.cmdTime (x : Core) : Nat := (x.ka.queue ++ x.kb.queue).foldl (fun n e => max n e.lt) 0
/-- The commands of a core's engines advance by `k` (R91), and its floor covers them (R109). -/
def Core.drift (x : Core) (k : Nat) : Core :=
  let f (q : KSlot) : KSlot := { q with queue := q.queue.map fun e => { e with lt := e.lt + k } }
  let y := { x with ka := f x.ka, kb := f x.kb }
  { y with floor := max y.floor y.cmdTime }
/-- R91, R94: the logical times that `n` cycles bring: of class paths by their cluster's clock, of engine paths, those of saved tasks too, by the die clock. -/
def State.driftPaths (s : State) (n : Nat) : State :=
  let (k, acc) := s.leaseStep s.t.leaseEng n 1250
  let all := Vector.ofFn fun i : Fin 64 => s.leaseStep s.t.lease[i] n (s.clusterMHz i)
  let ks := all.map (·.1)
  let s := { s with t := { s.t with lease := all.map (·.2), leaseEng := acc } }
  if k = 0 && ks.all (· = 0) then s
  else
    let saved := s.fw.saved.map fun v => { v with core := v.core.drift k }
    let f (c : CoreId) : Core :=
      let x := (s.core c).drift k
      let x := { x with floor := (saved.filter fun v => v.place = c).foldl (fun n v => max n v.core.cmdTime) x.floor }
      let j := ks[c.val / 4]'(by have := c.isLt; omega)
      if x.task.st == .none || x.task.st == .killed then x
      else { x with lt := x.lt.map (· + j), floor := max x.floor (ltime x.lt + j) }
    { s with cores := Vector.ofFn f, fw := { s.fw with saved := saved } }
/-- `n` cycles pass: the clock, the drift of logical time, and the watchdog count of every context with a resident task (R333). What is slewed of what 50 ppm
allow is a free value (DESIGN CHOICE log 11). -/
def State.passTime (s : State) (n : Nat) : State :=
  let s := s.driftPaths n
  let room := s.t.slewRoom n
  let (adj, s) : Nat × State := if room = 0 then (0, s) else let (w, s) := s.drawFree; (w.toNat % (room + 1), s)
  let s := { s with t := s.t.pass n adj }
  let f (x : Ctx) : Ctx := if x.killed.isNone && !(s.ctxTasks x.id).isEmpty then { x with wd := x.wd + n } else x
  { s with fw := { s.fw with ctxs := s.fw.ctxs.map f } }

/-! ## Ticks (R270, R271, R275) -/

/-- The pending waits of every core are tried. -/
def State.retryAll (s : State) : State := allCores.foldl (fun s c => s.retryWaits c) s
/-- The step a channel releases next (R270 item 5). -/
def TickCh.next (t : TickCh) : Nat := match t.last with | some n => n + 1 | none => 0
/-- R308, R313: the saved tick jobs that a tick wakes become requests now. -/
def State.tickArrivals (s old : State) : State :=
  (s.fw.jobs.filter fun j => s.tickDue j && !old.tickDue j).foldl (fun s j =>
    let s := s.modJob j.num fun k => { k with arrived := s.fw.nextArrival }
    { s with fw := { s.fw with nextArrival := s.fw.nextArrival + 1 } }) s
/-- TICK_RELEASE (R271): the clock has reached the tick of a channel's next step: it is released. -/
def execTickRelease (ch : BitVec 2) (s : State) : Out :=
  let t := s.tick ch
  if !t.en || s.nowNs < t.at t.next then .next s
  else
    let u := { s with t := { s.t with ticks := s.t.ticks.set ch.toNat { t with last := some t.next } (by omega) } }
    .next (u.tickArrivals s).retryAll
/-- STEP_DEADLINE (R275): a deadline passes: the j = 0 ING.POPs of a queue that wait for it complete. -/
def execStepDeadline (_q : BitVec 4) (s : State) : Out := .next s.retryAll

/-! ## Ingest (R273, R274) -/

/-- R271: the step of a stamp, negative for none. -/
def TickCh.stepOf (t : TickCh) (ns : Nat) : Int := ((ns : Int) - t.phase) / (t.period : Int)
/-- R273, R274: slot `i` of a stamp window is written, in tier 0 of its die. -/
def State.putSlot (s : State) (q : Ingest) (i : Nat) (bs : List Byte) : State := (s.storeAt (s.homeDie q.win) 0 0 (.pa (q.slotAt i)) bs false).2
/-- The slot a descriptor becomes: STEP, VALID and LATE (Table 11.8); reserved bits read as zero, and the descriptor goes on (R5, DESIGN CHOICE log 64). -/
def slotBytes (d : List Byte) (n : Nat) (late : Bool) : List Byte :=
  d.take 6 ++ [0, 0] ++ (d.drop 8).take 16 ++ bytesOfNat 8 (n % 2 ^ 40 + 2 ^ 63 + (if late then 2 ^ 62 else 0)) ++ (d.drop 32).take 32
/-- Adds 1 to a 32-bit ring counter, saturating (Table 11.7), and 1 to CONS; none adds to CONS alone. -/
def State.consume1 (s : State) (ring : Nat) (ctr : Option Nat) : State :=
  let cons := Memory.readN s.m.mem (ring + 8) 8
  let s := (s.storeAt 0 0 0 (.pa (ring + 8)) (bytesOfNat 8 (cons + 1)) false).2
  match ctr with
  | none => s
  | some o =>
    let v := Memory.readN s.m.mem (ring + o) 4
    (s.storeAt 0 0 0 (.pa (ring + o)) (bytesOfNat 4 (min (v + 1) 0xFFFFFFFF)) false).2
/-- R274: LATEQ of a queue is set in each task whose channel is the queue's. -/
def State.setLate (s : State) (q : Nat) (ch : BitVec 2) : State :=
  let f (k : Core) : Core :=
    if k.task.st != .none && k.task.st != .ended && k.task.st != .killed && k.pipe.sys2.tickch = ch.setWidth 3 + 1 then
      { k with pipe := { k.pipe with sys2 := { k.pipe.sys2 with lateq := k.pipe.sys2.lateq ||| (1 <<< q) } } }
    else k
  let cores := s.cores.map f
  let saved := s.fw.saved.map fun v => { v with core := f v.core }
  { s with cores := cores, fw := { s.fw with saved := saved } }
/-- INGEST_DESCRIPTOR (R274, Table 11.9): the engine takes the descriptor at the head of queue `q`, if there is one. -/
def execIngestDescriptor (q : BitVec 4) (s : State) : Out :=
  match s.ingest q.toNat with
  | none => .next s
  | some g =>
    let prod := Memory.readN s.m.mem g.ring 8
    let cons := Memory.readN s.m.mem (g.ring + 8) 8
    if prod = cons || s.phase != .running then .next s
    else
      let d := Memory.bytes s.m.mem (g.ring + 64 + 64 * (cons % 2 ^ g.k)) 64
      let t := s.tick g.ch
      let n := t.stepOf (fld d 0 6 * 1000000000 + fld d 8 4)
      let c : Int := match t.last with | some c => (c : Int) | none => -1
      if n < 0 || 1000000000 ≤ fld d 8 4 then .next (s.consume1 g.ring (some 20))
      else if c < n then .next s
      else if (g.wi : Int) ≤ c - n then .next (s.consume1 g.ring (some 20))
      else
        let i := n.toNat % g.wi
        let old := s.slot g i
        if slotValid old && slotStep old = n.toNat then .next (s.consume1 g.ring (some 24))
        else
          let late := s.deadline g.ch n.toNat
          let s := (s.putSlot g i (slotBytes d n.toNat late)).consume1 g.ring (if late then some 16 else none)
          .next (if late then s.setLate q.toNat g.ch else s).retryAll

/-! ## The time port (R346) -/

/-- PPS_EDGE (R346): with the time port as source an edge preceded by a valid frame steps the clock by an offset above 1 µs and slews it by a smaller one; a frame
names its next edge alone. -/
def execPpsEdge (s : State) : Out :=
  if !s.t.timePort then .next { s with t := { s.t with frame := none } }
  else match s.t.frame with
    | some sec =>
      let off : Int := (sec * 5000000000 : Nat) - ((s.t.secs * 5000000000 + s.t.fifths : Nat) : Int)
      let t := { s.t with frame := none, locked := true, holdover := false, sinceEdge := 0 }
      .next { s with t := if 5000 < off.natAbs then { t with secs := sec, fifths := 0, slew := 0 } else { t with slew := off } }
    | none => .next (if s.t.locked then { s with t := { s.t with sinceEdge := 0, holdover := false } } else s)
/-- CRC-16 (CCITT) of bytes: polynomial 0x1021 from all ones, high bit first (PRESUMED log 42). -/
def crc16 (l : List Byte) : BitVec 16 :=
  l.foldl (fun (c : BitVec 16) b => (List.range 8).foldl (fun c _ => if c.getLsbD 15 then (c <<< 1) ^^^ 0x1021 else c <<< 1) (c ^^^ (b ++ (0 : BitVec 8)))) 0xFFFF
/-- TOD_FRAME (R346): a 12-byte frame is received; a valid one names the seconds of the next edge. -/
def execTodFrame (frame : BitVec 96) (s : State) : Out :=
  let b := bytesOfNat 12 frame.toNat
  let ok := fld b 0 1 = 0xA5 && fld b 1 1 = 0x5A && fld b 8 1 % 2 = 1 && fld b 9 1 = 0 && fld b 10 2 = (crc16 (b.take 10)).toNat
  .next { s with t := { s.t with frame := if ok then some (fld b 2 6) else none } }
/-- TIME_HOLDOVER (R346 items 3 and 4): no edge has come for 2 s: the clock runs on at its frequency, with a RAS event. -/
def execTimeHoldover (s : State) : Out :=
  if !s.t.timePort || s.t.holdover || s.t.sinceEdge < 2500000000 then .next s
  else .next (({ s with t := { s.t with holdover := true, slew := 0 } } : State).rasEvent 9 0 0)

end Sys2Proof.Machine
end

