-- ==== Sys2Proof/Machine/Power.lean ====
section
/-! DEFINITION. Lockstep and the damper (R335, R336), power and rails (R348, R349), dusk, bring-up and dawn (R286 to R291, R343). -/
namespace Sys2Proof.Machine

/-! ## Control cores and clusters (R335, R336, R349) -/

/-- Sets a lockstep pair of a die. -/
def State.setPair (s : State) (d : DieId) (p : Fin 2) (v : PairSt) : State := s.modDie d fun x => { x with pairs := x.pairs.set p.val v p.isLt }
/-- LOCKSTEP_MISMATCH (R335): in protected mode the pair halts; the other pair restarts its operations, each with the result of one
execution. -/
def execLockstepMismatch (d : DieId) (pair : Fin 2) (s : State) : Out :=
  if s.pkgDies ≤ d.val || s.fw.unprotected || (s.die d).pairs[pair] != .inService then .next s else .next (s.setPair d pair .halted)
/-- LOCKSTEP_SELFTEST_DONE (R335): the halted pair rejoins or stays out, a RAS event; a die with both pairs out is isolated. -/
def execLockstepSelftestDone (d : DieId) (pair : Fin 2) (pass : Bool) (s : State) : Out :=
  if s.pkgDies ≤ d.val || (s.die d).pairs[pair] != .halted then .next s
  else
    let s := (s.setPair d pair (if pass then .inService else .out)).rasEvent 10 d.val pair.val
    .next (if (s.die d).pairs.all fun p => p == .out then s.beginReset d true else s)
/-- The damper's steps for a drift in parts per million (R336 item 2). -/
def damperSteps (ppm : Nat) : Nat := (ppm - 20000 + 4999) / 5000
/-- DAMPER_MEASURE (R336): the steps of a cluster of the package never decrease and are written to one of the two copies in flash; above ten it is taken out of service. -/
def execDamperMeasure (cluster : Fin 64) (driftPpm : Nat) (s : State) : Out :=
  let k := max s.fw.damper[cluster] (damperSteps driftPpm)
  let v := s.fw.damper.set cluster.val k cluster.isLt
  let out := if 10 < k then setAdd s.fw.clusterOut cluster.val else s.fw.clusterOut
  .next (if 8 * s.pkgDies ≤ cluster.val then s else { s with fw := { s.fw with damper := v, clusterOut := out, flash := s.fw.flash.putDamper v } })
/-- POWER_LIMIT_THROTTLE (R349): every cluster's clock goes down by 25 MHz; cycle counts do not change. -/
def execPowerLimitThrottle (s : State) : Out := .next { s with fw := { s.fw with throttle := min (s.fw.throttle + 1) 50 } }
/-- POWER_LIMIT_RESTORE (R349): the clock goes up again by 25 MHz. -/
def execPowerLimitRestore (s : State) : Out := .next { s with fw := { s.fw with throttle := s.fw.throttle - 1 } }

/-! ## Dusk (R286, R287, R288) -/

/-- R286: dusk begins, or a second trigger adds its cause to one whose record is not written: issue stops, later writes are refused. -/
def State.startDusk (s : State) (cause : BitVec 2) : State :=
  match s.phase with
  | .bringUp => s
  | .dusk => if s.fw.duskDone || s.fw.duskCause = cause then s else { s with fw := { s.fw with duskCause := 2 } }
  | _ =>
    let s := s.modDies fun d => { d with duskOk := false }
    { s with phase := .dusk, fw := { s.fw with duskDone := s.m.tier3 = 0, duskCause := cause, duskTime := (s.t.secs, s.phcns),
                                               duskLines := 0, duskPLines := 0 } }
/-- GPF (R286): the host starts GPF on a CXL port; an HV1X has one port (R17). -/
def execGpf (port : Fin 2) (s : State) : Out :=
  if s.product == .hv1x && port ≠ 0 then .next s else .next ((s.startDusk 0).finishBegun 0x19 fun _ => s.m.tier3 = 0)
/-- PWRFAIL (R286): the board asserts PWRFAIL. -/
def execPwrfail (s : State) : Out := .next (s.startDusk 1)
/-- RAIL_OUT_OF_RANGE (R348): a rail out of range asserts PWRFAIL. -/
def execRailOutOfRange (s : State) : Out := .next (s.startDusk 1)
/-- Whether a die has completed dusk steps 2 and 3: nothing homed on it is dirty or under way. -/
def State.dieClean (s : State) (d : DieId) : Bool :=
  !(s.m.dirty.any fun l => s.homeDie l = d) && !(s.m.granules.any fun g => s.homeDie g.addr = d)
/-- R287: a die's DIEOK: it is in service with every link, has not been reset or isolated since bring-up, and has completed steps 2 and 3. -/
def State.dieOk (s : State) (d : DieId) : Bool := s.dieLive d && !(s.die d).isolated && !(s.die d).wasReset && (s.die d).links.isEmpty && s.dieClean d
/-- One step of CRC-32 (IEEE 802.3, reflected). -/
def crc32Byte (c : W32) (b : Byte) : W32 :=
  (List.range 8).foldl (fun (c : W32) _ => if c.getLsbD 0 then (c >>> 1) ^^^ 0xEDB88320 else c >>> 1) (c ^^^ b.setWidth 32)
/-- CRC-32 of bytes (Table 12.2, PRESUMED log 42). -/
def crc32 (l : List Byte) : W32 := ~~~(l.foldl crc32Byte 0xFFFFFFFF)
/-- The dies of the package. -/
def State.pkgDieList (s : State) : List DieId := (List.finRange 8).filter fun d => d.val < s.pkgDies
/-- Table 12.2: the dusk record; `late` names a die cut off by the 2 ms. -/
def State.duskRecord (s : State) (late : Option DieId) : List Byte :=
  let ok (d : DieId) : Bool := s.dieOk d && late ≠ some d
  let dieok := s.pkgDieList.foldl (fun n d => if ok d then n + 2 ^ d.val else n) 0
  let complete := s.pkgDieList.all ok
  let ns := (s.t.secs * 1000000000 + s.phcns) - (s.fw.duskTime.1 * 1000000000 + s.fw.duskTime.2)
  let b := bytesOfNat 4 s.fw.boot.toNat ++ bytesOfNat 1 (complete.toNat + 2 * s.fw.duskCause.toNat) ++ bytesOfNat 1 dieok ++ bytesOfNat 2 0
    ++ bytesOfNat 6 s.fw.duskTime.1 ++ bytesOfNat 2 0 ++ bytesOfNat 4 s.fw.duskTime.2 ++ bytesOfNat 4 ns ++ bytesOfNat 8 s.fw.duskLines
    ++ bytesOfNat 4 s.fw.duskPLines ++ List.replicate 24 0
  b ++ bytesOfNat 4 (crc32 b).toNat
/-- R286 steps 4 and 5: the record is written as one granule and dusk is complete; SHUTDOWN completes. -/
def State.finishDusk (s : State) (late : Option DieId) : State :=
  let s := s.duskGranule s.duskBase (s.duskRecord late)
  let s := s.modDies fun d => { d with duskOk := true }
  ({ s with fw := { s.fw with duskDone := true } } : State).finishBegun 0x19 fun _ => true
/-- DUSK_RECORD (R286, R287): every live die has written its dirty lines back: the record is written. -/
def execDuskRecord (s : State) : Out :=
  if s.phase != .dusk || s.fw.duskDone || !(s.pkgDieList.all fun d => !(s.die d).live || s.dieClean d) then .next s
  else .next (s.finishDusk none)
/-- DUSK_OVERRUN (R287): the 2 ms run out before die `d` has completed steps 2 and 3. -/
def execDuskOverrun (d : DieId) (s : State) : Out :=
  if s.phase != .dusk || s.fw.duskDone || !s.dieLive d || s.dieClean d then .next s else .next (s.finishDusk (some d))

/-! ## Bring-up and dawn (R281, R288 to R291, R343) -/

/-- R281 item 1: whether a device may belong to tier 3. -/
def admits3 (x : Device) : Bool := x.keeps && x.whole
/-- The bytes that the devices which R281 admits offer. -/
def offered3 (b : BringUpInputs) : Nat := (b.devices.filter admits3).foldl (fun n x => n + x.bytes) 0
/-- R288: the backed bytes of tier 3: none where those devices offer 1 MiB or less. -/
def backed3 (b : BringUpInputs) : Nat := if offered3 b ≤ 0x100000 then 0 else min (offered3 b) 0x40000000000
/-- R281 item 2, R288: the devices excluded from tier 3: those not admitted, and all where the window is left empty. -/
def excluded3 (b : BringUpInputs) : Nat := if backed3 b = 0 then b.devices.length else b.devices.countP fun x => !admits3 x
/-- A copy as bring-up finds it: undamaged, by the input, and with a signature that the record key verifies; another one counts as absent (R344). -/
def FlashCopy.check {α : Type} (x : FlashCopy α) (kind : Nat) (items : α → List Nat) (undamaged : Bool) : FlashCopy α :=
  { x with ok := x.ok && undamaged && recordVerifies kind x.seq (items x.val) x.sig }
/-- The flash records as bring-up finds them (R88, R291, R336, R344). -/
def Flash.verified (f : Flash) (b : BringUpInputs) : Flash :=
  let boot (v : W32) : List Nat := [v.toNat]
  { rows0 := f.rows0.check 0 rowItems b.retire0Ok, rows1 := f.rows1.check 0 rowItems b.retire1Ok,
    boot0 := f.boot0.check 1 boot b.boot0Ok, boot1 := f.boot1.check 1 boot b.boot1Ok,
    damper0 := f.damper0.check 2 Vector.toList b.damper0Ok, damper1 := f.damper1.check 2 Vector.toList b.damper1Ok }
/-- R86, R87: the frames that the retired rows of a die leave out of use: those of rows beyond the spare rows of their banks. -/
def State.framesOf (s : State) (d : DieId) : List Nat :=
  let l := (s.die d).retired
  (List.range l.length).foldl (fun acc i =>
    let row := l.getD i 0
    let bank := Config.bankOf d.val row
    if (l.take i).countP (fun r => Config.bankOf d.val r = bank) < Config.spareRows d.val bank then acc else setAdd acc (s.rowFrame d row)) []
/-- The frames out of use under the configuration in force, which says where tier 1 begins (R62). -/
def State.reframe (s : State) : State := { s with dies := Vector.ofFn fun d => { s.dies[d] with badFrames := s.framesOf d } }
/-- R88 item 2: a row of the loaded table is in its die's remap table. -/
def State.loadRow (s : State) (q : Nat × Nat) : State := s.modDie (dieOf q.1) fun x => { x with retired := x.retired ++ [q.2] }
/-- R289, R290 item 3: the frame that holds a page by a journal granule, with its frames and state; none for an unused one. -/
def journalEntry (g : List Byte) (complete : Bool) : Nat × Nat × Byte × Nat :=
  let st := fld g 16 8
  if st = 1 then (fld g 0 8, fld g 8 8, 1, if complete then fld g 8 8 else fld g 0 8)
  else if st = 2 then (fld g 0 8, fld g 8 8, 2, fld g 8 8)
  else (0, 0, 0, 0)
/-- R290, R291: dawn: the record is read, the journal read and cleared, poisoned granules are reported, the bring-up number advanced;
`rowsOk`: a copy of the retirement table verified (R88). -/
def State.dawn (s : State) (b : BringUpInputs) (rowsOk : Bool) : State :=
  let flash := s.fw.flash
  let bootOk := (flash.boot0.best flash.boot1).isSome
  let c := flash.boot
  let rec64 := Memory.bytes s.m.pmem s.duskBase 64
  let current := bootOk && fld rec64 60 4 = (crc32 (rec64.take 60)).toNat && fld rec64 0 4 = c.toNat
  let complete := current && fld rec64 4 1 % 2 = 1
  let bits : Nat := (!rowsOk).toNat + 2 * (!(flash.damper0.ok && flash.damper1.ok)).toNat + 4 * (!bootOk).toNat
  let s := { s with fw := { s.fw with boot := c + 1, flash := flash.putBoot (c + 1) } }
  if s.m.tier3 = 0 then
    { s with fw := { s.fw with dawn := ⟨3, BitVec.ofNat 8 bits, BitVec.ofNat 16 (excluded3 b), [], []⟩ } }
  else
    let slots := (List.range 16).map fun i => s.duskBase + 64 * (i + 1)
    let journal := slots.map fun a => journalEntry (Memory.bytes s.m.pmem a 64) complete
    let s := slots.foldl (fun s a => s.duskGranule a (List.replicate 64 0)) s
    let bad := (s.m.ppoi.map fun w => w / 8).eraseDups
    let s := bad.foldl (fun s g => s.rasEvent 12 0 (64 * g)) s
    let code : Byte := if complete then 0 else if current then 1 else 2
    { s with fw := { s.fw with dawn := ⟨code, BitVec.ofNat 8 bits, BitVec.ofNat 16 (excluded3 b), rec64, journal⟩ } }
/-- Power-on (R343, Table 15.9): what is not in flash, on the tier-3 devices or in the host is lost; a parameter block that does not verify (R344), by its signature
or as the input has it damaged, ends in recovery state. -/
def State.bringUp (b : BringUpInputs) (s : State) : State :=
  let flash := s.fw.flash.verified b
  let fresh : State := { State.reset with
    m := { MemState.reset with mem := s.m.pmem, poi := s.m.ppoi, pmem := s.m.pmem, ppoi := s.m.ppoi, host := s.m.host, tier2 := min b.tier2 0x100000000000, tier3 := backed3 b },
    product := s.product, agenda := s.agenda, free := s.free, cur := s.cur,
    fw := { Firmware.reset with cfg := ConfigRec.on s.product, flash := flash, unprotected := b.unprotected } }
  if !(b.paramOk && paramVerifies) then
    { fresh with phase := .recovery, m := { fresh.m with tier2 := 0, tier3 := 0 }, fw := { fresh.fw with dawn := ⟨2, 0, 0, [], []⟩ } }
  else
    let loaded := flash.rows0.best flash.rows1
    let rows := (loaded.getD b.badRows).filter fun q => q.1 < s.pkgDies
    let damper := flash.damper
    let out := (List.range 64).filter fun i => 10 < damper.getD i 0
    let s := { fresh with fw := { fresh.fw with damper := damper, clusterOut := out, flash := if loaded.isSome then flash else flash.putRows rows } }
    let s := (rows.foldl (fun s q => s.loadRow q) s).reframe
    let s := if loaded.isSome then s else s.rasEvent 11 0 0
    { s.dawn b loaded.isSome with phase := .running }
/-- BRING_UP (R343): see `State.bringUp`. -/
def execBringUp (b : BringUpInputs) (s : State) : Out := .next (s.bringUp b)

end Sys2Proof.Machine
end

