-- ==== Sys2Proof/Machine/Commands.lean ====
section
/-! DEFINITION. The host: HDM accesses (R105), command queues (R338 to R340), the command set (R341, R342) and SPDM (R345). -/
namespace Sys2Proof.Machine

/-! ## HDM (R105, R337) -/

/-- Reads bytes at a PA as its home gives them, line by line. -/
def State.fwRead (s : State) (a n : Nat) : List Byte :=
  (lineParts a n).flatMap fun q =>
    let l := (s.filter (.pa (s.normPa q.2.1)) false).getD (.pa (s.normPa q.2.1))
    (s.homeBytes l q.2.2).1
/-- R337, R105: whether a range lies in device memory exposed as HDM: tiers 0 and 1. -/
def State.hdm (s : State) (a n : Nat) : Bool :=
  tierOf (s.normPa a) ≤ 1 && s.backedRange a n
/-- HOST_HDM_STORE (R105): a host store is performed at the home with logical time 0; no die keeps a copy of the line (DEDUCED log 43). An address with
bit 63 names host memory, as in R339: the host's stores to its own memory (DESIGN CHOICE log 20). -/
def execHostHdmStore (pa : Nat) (data : List Byte) (s : State) : Out :=
  if 2 ^ 63 ≤ pa && pa + data.length ≤ 2 ^ 63 + 2 ^ 52 then .next (s.hostWrite (pa - 2 ^ 63) data)
  else if data.isEmpty || !s.hdm pa data.length || s.phase == .dusk then .next s
  else .next (((lineParts pa data.length).foldl (fun s q => s.dropCopies (s.normPa q.2.1 / 128 * 128) 128) s).fwWrite pa data)
/-- HOST_HDM_LOAD (R105): a host load returns the value at the home, as the link's last response. -/
def execHostHdmLoad (pa n : Nat) (s : State) : Out :=
  if n = 0 || !s.hdm pa n then .next s else .next { s with link := { s.link with response := s.fwRead pa n } }

/-! ## Queues (R338 to R340) -/

/-- A command entry as read (Table 15.3) at an address of host memory. -/
def Cmd.ofBytes (ticket entry : Nat) (b : List Byte) : Cmd :=
  { ticket := ticket, entry := entry, opc := BitVec.ofNat 8 (fld b 0 1), ctx := BitVec.ofNat 16 (fld b 2 2),
    tag := BitVec.ofNat 32 (fld b 4 4), args := Vector.ofFn fun i => BitVec.ofNat 64 (fld b (8 + 8 * i.val) 8),
    rsv := fld b 1 1 ≠ 0 || fld b 56 4 ≠ 0, begun := false }
/-- Changes the registers of a queue. -/
def State.modQueue (s : State) (q : BitVec 2) (f : CmdQueue → CmdQueue) : State :=
  { s with link := { s.link with queues := s.link.queues.set q.toNat (f (s.link.queues[q.toNat]'(by omega))) (by omega) } }
/-- Queue `q`. -/
def State.queue (s : State) (q : BitVec 2) : CmdQueue := s.link.queues[q.toNat]'(by omega)
/-- Whether a queue is enabled and holds an entry not yet accepted: its tail line lies in host memory. -/
def State.queueHas (s : State) (q : BitVec 2) : Bool :=
  let k := s.queue q
  k.en && Memory.readN s.m.host (k.qtail.toNat % 2 ^ 52) 8 ≠ k.qcons.toNat
/-- R340 item 1: the next entry of queue `q` is read once and accepted. -/
def State.accept1 (s : State) (q : BitVec 2) : State :=
  let k := s.queue q
  let a := k.qbase.toNat % 2 ^ 52 + 64 * (k.qcons.toNat % 2 ^ k.qlog.toNat)
  let x := Cmd.ofBytes s.link.ticket a (Memory.bytes s.m.host a 64)
  let s := s.modQueue q fun k => { k with qcons := k.qcons + 1 }
  { s with link := { s.link with cmds := s.link.cmds ++ [x], ticket := s.link.ticket + 1 } }
/-- R340 item 1: entries are taken from each enabled queue in turn, in ascending number from queue `t` on, at most `fuel` of them (DESIGN CHOICE log 56). -/
def State.acceptAll (s : State) (t : BitVec 2) : Nat → State
  | 0 => s
  | fuel + 1 =>
    match [t, t + 1, t + 2, t + 3].find? fun q => s.queueHas q with
    | some q => (s.accept1 q).acceptAll (q + 1) fuel
    | none => s
/-- The firmware reads the queues, queue 0 first; four rings hold at most 16,384 entries. -/
def State.poll (s : State) : State :=
  if s.phase == .bringUp then s
  else
    let s := s.acceptAll 0 16384
    s.sweepUnknown s.link.cmds.length
/-- QUEUE_TAIL_WRITE (R338, R340): the host writes a queue's tail line; the control core wakes and reads entries. -/
def execQueueTailWrite (q : BitVec 2) (tail : W64) (s : State) : Out :=
  .next (s.hostWrite ((s.queue q).qtail.toNat % 2 ^ 52) (bytesOfNat 8 tail.toNat)).poll
/-- QUEUE_ENABLE (R338, R343 step 6): EN is written; a QLOG outside 4 to 12 leaves it 0. -/
def execQueueEnable (q : BitVec 2) (en : Bool) (s : State) : Out :=
  let k := s.queue q
  let ok := 4 ≤ k.qlog.toNat && k.qlog.toNat ≤ 12 && s.phase != .bringUp
  .next (s.modQueue q fun k => { k with en := en && ok }).poll
/-- QUEUE_REGISTER_WRITE (Table 15.2): discarded while EN = 1. -/
def execQueueRegisterWrite (q : BitVec 2) (off : BitVec 6) (x : W64) (s : State) : Out :=
  if (s.queue q).en then .next s
  else .next (s.modQueue q fun k =>
    match off.toNat with
    | 0 => { k with qbase := x &&& ~~~0xFFF }
    | 8 => { k with qtail := x &&& ~~~0x3F }
    | 16 => { k with qlog := x.extractLsb' 1 4 }
    | _ => k)

/-! ## Running a command (R340, R341) -/

/-- R341: whether commands of an operation code name CTX. -/
def namesCtx (opc : Nat) : Bool := 4 ≤ opc && opc ≤ 0x13 && opc ≠ 4 && opc ≠ 0x0F && opc ≠ 0x10 && opc ≠ 0x11
/-- R340 item 2: whether a command waits for an earlier one. -/
def Cmd.waitsFor (x y : Cmd) : Bool := !namesCtx x.opc.toNat || !namesCtx y.opc.toNat || x.ctx == y.ctx
/-- R340 item 2: whether command `n` of the list may run. -/
def cmdReady (l : List Cmd) (n : Nat) : Bool :=
  match l[n]? with | some x => (l.take n).all fun y => !x.waitsFor y | none => false
/-- R286, R343: whether the device accepts an operation code in a phase. -/
def phaseAllows (p : Phase) (opc : Nat) : Bool :=
  match p with
  | .running => true
  | .recovery => opc = 1 || opc = 2 || opc = 0x19 || opc = 0x1A
  | .dusk => opc = 0x19 || opc = 0x1A
  | .bringUp => false
/-- What the body of a command answers. -/
inductive CmdAns
  /-- it ends with a status and changes nothing -/
  | fail (status : Nat)
  /-- it is done; a RESULT of none is one that no rule states -/
  | done (result : Option W64) (s : State)
  /-- it cannot begin yet: nothing changes -/
  | later
  /-- it has begun and ends later -/
  | wait (s : State)
/-- Argument `i` as a number. -/
def Cmd.arg (x : Cmd) (i : Nat) : Nat := match x.args[i]? with | some w => w.toNat | none => 0
/-- A command is marked begun. -/
def State.markBegun (s : State) (x : Cmd) : State :=
  { s with link := { s.link with cmds := s.link.cmds.map fun y => if y.ticket = x.ticket then { y with begun := true } else y } }
/-- Runs command `n` if it is of operation code `opc` and it may run: the checks of every command, `args` the listed arguments, then its
body (DEDUCED log 47). In dusk a command that has begun stays as it is: it has changed state, so no status but 0 could end it. -/
def State.runCmd (s : State) (n opc : Nat) (args : Cmd → List Nat) (body : Cmd → State → CmdAns) : Out :=
  match s.link.cmds[n]? with
  | none => .next s
  | some x =>
    if x.opc.toNat ≠ opc || !cmdReady s.link.cmds n || s.phase == .bringUp then .next s
    else if !phaseAllows s.phase opc then .next (if x.begun then s else s.finishCmd x 8 none)
    else if !x.begun && (x.rsv || (!namesCtx opc && x.ctx ≠ 0) || [0, 1, 2, 3, 4].any fun i => !(args x).contains i && x.arg i ≠ 0) then
      .next (s.finishCmd x 2 none)
    else match body x s with
      | .fail c => .next (s.finishCmd x c none)
      | .later => .next s
      | .done r t => .next (t.finishCmd x 0 r)
      | .wait t => .next (t.markBegun x)
/-- Status 2 where a condition fails. -/
def need (ok : Bool) (status : Nat) (k : CmdAns) : CmdAns := if ok then k else .fail status
/-- The context a command names, or status 3. -/
def withCtx (s : State) (x : Cmd) (k : Ctx → CmdAns) : CmdAns := match s.ctx x.ctx with | some c => k c | none => .fail 3
/-- Whether a range of device memory is backed and outside the dusk area (Table 15.4, status 9). -/
def State.rangeOk (s : State) (a n : Nat) : Bool :=
  s.backedRange a n && a + n ≤ 2 ^ 52 && !s.inDuskArea a && !s.inDuskArea (a + n - 1)
/-- R339: the status that a range of a command address gives, 0 for none. -/
def State.addrStatus (s : State) (a : W64) (n : Nat) : Nat :=
  if n = 0 then 0
  else if a.getLsbD 63 then (if a.toNat % 2 ^ 63 + n ≤ 2 ^ 52 then 0 else 2)
  else if s.rangeOk a.toNat n then 0 else 9
/-- Reads bytes at a command address (R339). -/
def State.cmdRead (s : State) (a : W64) (n : Nat) : List Byte :=
  if a.getLsbD 63 then Memory.bytes s.m.host (a.toNat % 2 ^ 52) n else s.fwRead a.toNat n
/-- R341: writes a record into the buffer of ARG0 and ARG1; RESULT is the full size where it is cut, else `r`. -/
def State.toBuffer (s : State) (x : Cmd) (bs : List Byte) (r : Option W64) : CmdAns :=
  let n := min bs.length (x.arg 1)
  match s.addrStatus x.args[0] n with
  | 0 => .done (if x.arg 1 < bs.length then some (BitVec.ofNat 64 bs.length) else r) (s.cmdWrite x.args[0] (bs.take n))
  | c => .fail c

/-! ## Identification and configuration -/

/-- Bytes 0 to 23 of IDENT (Table 15.6); bytes 22 and 23 are given by no rule. -/
def State.identHead (s : State) (w : W64) : List Byte :=
  let code : Nat := match s.product with | .hv8x => 8 | .hv1x => 1
  let live := s.pkgDieList.foldl (fun n d => if s.dieLive d then n + 2 ^ d.val else n) 0
  bytesOfNat 8 (code + 65536 * Config.stepping.toNat) ++ bytesOfNat 8 Config.serial.toNat ++ bytesOfNat 4 Config.romVersion.toNat
  ++ bytesOfNat 1 live ++ bytesOfNat 1 s.fw.unprotected.toNat ++ bytesOfNat 2 w.toNat
/-- IDENT (R341, Table 15.6), with the least LATMAX of each tier (R314). -/
def execIdent (n : Nat) (s : State) : Out :=
  s.runCmd n 0x01 (fun _ => [0, 1]) fun x s =>
    let (w, s) := s.drawFree
    s.toBuffer x (s.identHead w ++ bytesOfNat 8 s.m.tier2 ++ bytesOfNat 8 s.m.tier3
      ++ (List.range 4).flatMap fun t => bytesOfNat 4 (Config.leastLatmax t).toNat) none
/-- Table 15.7: the bytes of a configuration record. -/
def ConfigRec.bytes (c : ConfigRec) : List Byte :=
  bytesOfNat 4 (c.ilvsz.toNat + 256 * c.durdirty.toNat + 65536 * c.pcoord.toNat) ++ bytesOfNat 4 (c.part.toNat + 2 ^ 24 * c.wrap.toNat)
  ++ bytesOfNat 4 c.leasemax.toNat ++ bytesOfNat 2 c.leaselen.toNat ++ bytesOfNat 2 c.fluew.toNat ++ bytesOfNat 4 c.bkidle.toNat
  ++ bytesOfNat 4 c.latmax.toNat ++ bytesOfNat 4 c.quant.toNat ++ bytesOfNat 4 c.evqlog.toNat ++ bytesOfNat 8 c.evqbase.toNat ++ bytesOfNat 24 0
/-- The measurements an index selects (R345): 255 selects all, 0 none. -/
def measured (index : Nat) : List Nat := if index = 255 then [1, 2, 3, 4, 5] else if 1 ≤ index && index ≤ 5 then [index] else []
/-- The bytes of the flash record in force, of a kind: those of its newer copy that verifies, else of the value used without one, under number 0 (R88, R336). -/
def FlashCopy.bytes {α : Type} (a b : FlashCopy α) (kind : Nat) (items : α → List Nat) (none_ : α) : List Byte :=
  match a.newer b with
  | some x => Config.recordBytes kind x.seq (items x.val)
  | none => Config.recordBytes kind 0 (items none_)
/-- The retirement table as it stands in flash (R88). -/
def Flash.rowBytes (f : Flash) : List Byte := f.rows0.bytes f.rows1 0 rowItems []
/-- Measurement `i` (R345). -/
def State.measure (s : State) (i : Nat) : List Byte :=
  match i with
  | 1 => sha256 Config.romImage
  | 2 => sha256 Config.paramBlock
  | 3 => sha256 s.fw.flash.rowBytes
  | 4 => sha256 (s.fw.flash.damper0.bytes s.fw.flash.damper1 2 Vector.toList (Vector.replicate 64 0))
  | _ => s.fw.cfg.bytes
/-- A response that the identity key signs over a nonce (R344, R345): the message, the nonce, the signature of both (DESIGN CHOICE log 14). -/
def signedResponse (body : List Byte) (nonce : Nat) : List Byte := body ++ bytesOfNat 32 nonce ++ pssSign Config.identityKey (body ++ bytesOfNat 32 nonce)
/-- A signed measurement response of an index (R345). -/
def State.measurement (s : State) (index nonce : Nat) : List Byte := signedResponse ((measured index).flatMap s.measure) nonce
/-- ATTEST (R341, R345): the response that GET_MEASUREMENTS gives for every measurement and this nonce. -/
def execAttest (n : Nat) (s : State) : Out :=
  s.runCmd n 0x02 (fun _ => [0, 1, 2]) fun x s => s.toBuffer x (s.measurement 255 (x.arg 2)) none
/-- Table 15.7: a configuration record. -/
def ConfigRec.ofBytes (b : List Byte) : ConfigRec :=
  let w0 := fld b 0 4
  let w1 := fld b 4 4
  { ilvsz := BitVec.ofNat 7 w0, durdirty := BitVec.ofNat 5 (w0 / 2 ^ 8), pcoord := BitVec.ofNat 12 (w0 / 2 ^ 16), part := BitVec.ofNat 24 w1,
    wrap := BitVec.ofNat 3 (w1 / 2 ^ 24), leasemax := BitVec.ofNat 32 (fld b 8 4), leaselen := BitVec.ofNat 16 (fld b 12 2),
    fluew := BitVec.ofNat 16 (fld b 14 2), bkidle := BitVec.ofNat 32 (fld b 16 4), latmax := BitVec.ofNat 32 (fld b 20 4),
    quant := BitVec.ofNat 32 (fld b 24 4), evqlog := BitVec.ofNat 32 (fld b 28 4), evqbase := BitVec.ofNat 64 (fld b 32 8) }
/-- R15, R16: a partition extent: 2 to 16 and even; 1 on an HV1X. -/
def State.extentOk (s : State) (n : Nat) : Bool := match s.product with | .hv8x => n % 2 = 0 | .hv1x => n = 1
/-- R314: whether a partition under a configuration has memory of tier `t`. -/
def State.hasTier (s : State) (c : ConfigRec) (t : Nat) : Bool :=
  match t with | 0 => c.ilvsz.toNat < 96 | 1 => c.ilvsz ≠ 0 | 2 => s.m.tier2 ≠ 0 | _ => s.m.tier3 ≠ 0
/-- Whether a configuration record is within its limits (R15, R16, R17, R62, R94, R112, R146, R280, R314, R342) (DESIGN CHOICE log 57);
a package alone, with every wrap closed, may have any coordinate (R15, DESIGN CHOICE log 79). -/
def State.configValid (s : State) (b : List Byte) : Bool :=
  let c := ConfigRec.ofBytes b
  let w0 := fld b 0 4
  w0 / 2 ^ 28 = 0 && w0 / 2 ^ 13 % 8 = 0 && w0 / 2 ^ 7 % 2 = 0 && fld b 4 4 / 2 ^ 27 = 0 && zeros b 40 24
  && c.ilvsz.toNat ≤ 96 && 1 ≤ c.durdirty.toNat && c.durdirty.toNat ≤ 16
  && 256 ≤ c.leasemax.toNat && c.leasemax.toNat ≤ 65536 && 1 ≤ c.leaselen.toNat && c.leaselen.toNat ≤ 1024 && c.fluew.toNat ≤ 64
  && (c.bkidle = 0 || (4096 ≤ c.bkidle.toNat && c.bkidle.toNat ≤ 1048576))
  && 4096 ≤ c.latmax.toNat && c.latmax.toNat ≤ 1048576 && (List.range 4).all (fun t => !s.hasTier c t || (Config.leastLatmax t).toNat ≤ c.latmax.toNat)
  && (c.evqlog = 0 || (4 ≤ c.evqlog.toNat && c.evqlog.toNat ≤ 16))
  && (List.range 3).all fun k => nib c.pcoord.toNat k < 8 && s.extentOk (nib (c.part.toNat / 4096) k + 1)
      && nib c.part.toNat k + nib (c.part.toNat / 4096) k < 16
      && (s.product == .hv8x || (nib c.part.toNat k = 0 && nib c.pcoord.toNat k = 0))
/-- CONFIG (R342, R14): every field is replaced; status 4 while any context exists. -/
def execConfigure (n : Nat) (s : State) : Out :=
  s.runCmd n 0x03 (fun _ => [0]) fun x s =>
    match s.addrStatus x.args[0] 64 with
    | 0 =>
      let b := s.cmdRead x.args[0] 64
      need (s.configValid b) 2 (need s.fw.ctxs.isEmpty 4 (.done none ({ s with fw := { s.fw with cfg := ConfigRec.ofBytes b } } : State).reframe))
    | c => .fail c

/-! ## Contexts and streams -/

/-- An identifier from 1 to 65,535 that `used` does not hold: which, no rule says (DESIGN CHOICE log 11); none when all are in use. -/
def State.freeId (s : State) (used : Nat → Bool) : Option Nat × State :=
  let (w, s) := s.drawFree
  let k := w.toNat % 65535
  (((List.range 65535).find? fun i => !used ((k + i) % 65535 + 1)).map (fun i => (k + i) % 65535 + 1), s)
/-- A context as CONTEXT.CREATE makes it (DESIGN CHOICE log 57). -/
def Ctx.create (id : Nat) (x : Cmd) : Ctx :=
  { id := BitVec.ofNat 16 id, root := x.arg 0, ashpit := x.args[1].getLsbD 0, quota := x.arg 1 / 2 ^ 32 * 1024, report := x.args[2],
    poolBase := x.arg 3, poolSize := x.arg 4, mapped := [], limbo := [], kgen := 0, killed := none, wd := 0, pools := Vector.replicate 4 none, listed := [],
    seed := 0, pfxQuota := 0, soft := 0, lazies := [] }
/-- CONTEXT.CREATE (R341, R67, R333 item 1). -/
def execContextCreate (n : Nat) (s : State) : Out :=
  s.runCmd n 0x04 (fun _ => [0, 1, 2, 3, 4]) fun x s =>
    let (pool, size) := (x.arg 3, x.arg 4)
    let poolOk := pool % 0x10000 = 0 && size % 0x10000 = 0 && tierOf pool ≤ 1
      && (size = 0 || s.backedRange pool size)
    need (x.arg 0 % 0x2000 = 0 && x.arg 1 / 2 % 2 ^ 31 = 0 && x.arg 2 % 128 = 0 && poolOk) 2
      (need (s.rangeOk (x.arg 0) 0x2000 && tierOf (s.normPa (x.arg 0)) ≤ 1) 9
        (match s.addrStatus x.args[2] 128, s.freeId fun i => s.fw.ctxs.any fun c => c.id.toNat = i with
          | 0, (some id, s) => .done (some (BitVec.ofNat 64 id)) { s with fw := { s.fw with ctxs := s.fw.ctxs ++ [Ctx.create id x] } }
          | 0, (none, _) => .fail 5
          | c, _ => .fail c))
/-- CONTEXT.KILL (R331, reason 7): it completes at the release of step 6. -/
def execContextKill (n : Nat) (s : State) : Out :=
  s.runCmd n 0x05 (fun _ => []) fun x s => withCtx s x fun c => .wait (s.plainKill c.id 7)
/-- STREAM.CREATE (R341). -/
def execStreamCreate (n : Nat) (s : State) : Out :=
  s.runCmd n 0x0D (fun _ => []) fun x s => withCtx s x fun c =>
    match s.freeId fun i => s.fw.streams.any fun q => q.1 = i with
    | (some id, s) => .done (some (BitVec.ofNat 64 id)) { s with fw := { s.fw with streams := s.fw.streams ++ [(id, c.id)] } }
    | (none, _) => .fail 5
/-- STREAM.DESTROY (R341). -/
def execStreamDestroy (n : Nat) (s : State) : Out :=
  s.runCmd n 0x0E (fun _ => [0]) fun x s => withCtx s x fun c =>
    let k := x.arg 0
    need (s.fw.streams.any fun q => q.1 = k && q.2 == c.id) 3
      (need (!(s.fw.jobs.any fun j => j.ctx == c.id && j.lr.stream = k)) 4
        (let streams := s.fw.streams.filter fun q => q.1 ≠ k || q.2 != c.id
        let times := s.fw.streamLt.filter fun q => q.1 ≠ k
        .done none { s with fw := { s.fw with streams := streams, streamLt := times } }))
/-- LAUNCH (R309, R310, R341): the job is queued; RESULT is its number. -/
def execLaunchCommand (n : Nat) (s : State) : Out :=
  s.runCmd n 0x0C (fun _ => [0]) fun x s => withCtx s x fun c =>
    if x.arg 0 % 64 ≠ 0 then .fail 2
    else match s.addrStatus x.args[0] 256 with
      | 0 =>
        let b := s.cmdRead x.args[0] 256
        let l := Launch.ofBytes b
        need (launchValid b) 2
          (need (l.stream = 0 || s.fw.streams.any fun q => q.1 = l.stream && q.2 == c.id) 3
            (need (s.boxFits l) 6
              (need (s.launchQueue c.id < 64) 5
                (let (k, s) := s.queueJob c.id b 0; .done (some (BitVec.ofNat 64 k)) s))))
      | e => .fail e

/-! ## Pages -/

/-- R341: whether a range covers whole pages only, of the leaves and of the backings it meets. -/
def State.wholePages (s : State) (x : Ctx) (lo hi : Nat) : Bool :=
  ((s.leaves x lo hi).all fun q => lo ≤ q.2.1 && q.2.1 + pageBytes q.2.2.1 ≤ hi)
  && x.lazies.all fun l =>
    let p := pageBytes (l.attrs.extractLsb' 17 2).toNat
    (l.inside lo hi).all fun k => (lo ≤ l.va.toNat || lo % p = 0) && (l.va.toNat + l.bytes ≤ hi || hi % p = 0) && k.bytes ≠ 0
/-- Pages of a range are no longer MAPREQ's: their frames return to the pool (R326, R84). -/
def State.forget (s : State) (id : BitVec 16) (lo hi : Nat) : State :=
  let seq := (s.die 0).seq
  s.modCtx id fun x =>
    let gone := x.mapped.filter fun q => lo ≤ q.1.toNat && q.1.toNat < hi
    { x with mapped := x.mapped.filter (fun q => q.1.toNat < lo || hi ≤ q.1.toNat), limbo := x.limbo ++ gone.map fun q => (q.2, seq) }
/-- The page attributes of MAP's ARG3 as a leaf has them. -/
def mapLeaf (pa : Nat) (attrs : W64) : W64 := BitVec.ofNat 64 pa ||| (attrs &&& 0x7FF)
/-- MAP (R341, R68, R70, R73): a leaf it meets gives way, and a migration that its page still waits for is dropped (R77). -/
def execMapPages (n : Nat) (s : State) : Out :=
  s.runCmd n 0x06 (fun _ => [0, 1, 2, 3]) fun x s =>
    let (va, pa, bytes, at') := (x.arg 0, x.arg 1, x.arg 2, x.args[3])
    let size := (at'.extractLsb' 17 2).toNat
    let p := pageBytes size
    let isLazy := at'.getLsbD 16
    let argsOk := size ≤ 2 && at'.extractLsb' 11 5 = 0 && at'.extractLsb' 19 45 = 0 && at'.getLsbD 0 && at'.getLsbD 7 && !at'.getLsbD 4 && !at'.getLsbD 3
      && va % p = 0 && bytes % p = 0 && bytes ≠ 0 && va + bytes ≤ 2 ^ 56 && pa % p = 0 && pa + bytes ≤ 2 ^ 52
    let k := bytes / p
    let pages := List.range k
    let there := s.rangeOk pa bytes
    need argsOk 2 (need (!there || pages.all fun i => !s.leafBad (mapLeaf (pa + i * p) at') size) 2 (withCtx s x fun c =>
      need there 9
        (let old := s.leaves c va (va + bytes)
        need (old.all (fun q => q.2.2.1 = size && !ebit q.2.2.2 4 && !ebit q.2.2.2 3) && !c.meetsSink va (va + bytes)) 4
          (if s.pendingRelease pa bytes then .later else
          let cut := c.lazies.flatMap fun l => l.cut va (va + bytes)
          let s := s.settleMigs c.id va (va + bytes)
          if isLazy then
            let s := (old.foldl (fun s q => s.clearLeaf c.id q) s).forget c.id va (va + bytes)
            .done none (s.modCtx c.id fun c => { c with lazies := ⟨BitVec.ofNat 64 va, pa, bytes, at'⟩ :: cut })
          else
            let s := pages.foldl (fun s i => s.installLeaf c.root (va + i * p) size (mapLeaf (pa + i * p) at')) s
            let s := old.foldl (fun s q => s.releaseLeaf c.id q) s
            .done none ((s.forget c.id va (va + bytes)).modCtx c.id fun c => { c with lazies := cut })))))
/-- A range as UNMAP and PROTECT take it: begun and ended on boundaries of the pages it meets (R341). -/
def State.rangeCmd (s : State) (x : Cmd) (k : Ctx → Nat → Nat → CmdAns) : CmdAns :=
  let (lo, hi) := (x.arg 0, x.arg 0 + x.arg 1)
  need (lo < hi && hi ≤ 2 ^ 56) 2 (withCtx s x fun c => need (s.wholePages c lo hi) 2 (k c lo hi))
/-- UNMAP (R341, R79 item 5, R82, R260 item 6). -/
def execUnmap (n : Nat) (s : State) : Out :=
  s.runCmd n 0x07 (fun _ => [0, 1]) fun x s => s.rangeCmd x fun c lo hi =>
    need (!c.meetsSink lo hi) 4
      (let s := s.settleMigs c.id lo hi
      let s := (s.leaves c lo hi).foldl (fun s q => s.clearLeaf c.id q) s
      .done none ((s.forget c.id lo hi).modCtx c.id fun c => { c with lazies := c.lazies.flatMap fun l => l.cut lo hi }))
/-- New permissions of a leaf or of a backing's attributes: W and X. -/
def setPerm (e w : W64) : W64 := (e &&& ~~~(6 : W64)) ||| ((w &&& 3) <<< 1)
/-- A backing under new permissions. -/
def Lazy.setPerm (l : Lazy) (w : W64) : Lazy := { l with attrs := Sys2Proof.Machine.setPerm l.attrs w }
/-- PROTECT (R341). -/
def execProtect (n : Nat) (s : State) : Out :=
  s.runCmd n 0x08 (fun _ => [0, 1, 2]) fun x s =>
    need (x.arg 2 < 4) 2 (s.rangeCmd x fun c lo hi =>
      let s := s.settleMigs c.id lo hi
      let s := (s.leaves c lo hi).foldl (fun s q => (s.writeLeaf q.1 q.2.2.1 (setPerm q.2.2.2 x.args[2])).appendLog q.2.1 q.2.2.1 0 c.id) s
      let part (l : Lazy) : List Lazy := l.cut lo hi ++ (l.inside lo hi).map fun k => k.setPerm x.args[2]
      .done none (s.modCtx c.id fun c => { c with lazies := c.lazies.flatMap part }))
/-- The leaf of a VA in a context's tree. -/
def State.leafAt (s : State) (c : Ctx) (va : Nat) : Option LeafAt :=
  if 2 ^ 56 ≤ va then none
  else match s.walk c.root va with
    | .leaf a size e => some (a, va / pageBytes size * pageBytes size, size, e)
    | _ => none
/-- Whether a page of a context waits to migrate, or has a migration of a phase below `n`. -/
def State.migrating (s : State) (id : BitVec 16) (va n : Nat) : Bool :=
  (s.m.migs.any fun g => g.ctx == id && g.va.toNat = va && g.phase < n) || s.m.migQueue.any fun g => g.ctx == id && g.va.toNat = va
/-- MIGRATE (R77, R78, R260 item 6): a page that migrates already, its redirect phase included, is refused; the command completes at the end of phase 3; with status 4 if it was abandoned (R79 item 5). -/
def execMigrate (n : Nat) (s : State) : Out :=
  s.runCmd n 0x09 (fun _ => [0, 1]) fun x s => withCtx s x fun c =>
    match s.leafAt c (x.arg 0) with
    | none => .fail (if x.begun then 4 else 2)
    | some (_, va, size, e) =>
      let dst := x.arg 1
      let p := pageBytes size
      if x.begun then
        if s.migrating c.id va 4 then .wait s else if s.normPa (leafFrame e) = s.normPa dst then .done none s
        else .fail 4
      else
        need (dst % p = 0) 2 (need (s.rangeOk dst p) 9
          (need (size ≠ 2 && !ebit e 3 && !ebit e 4 && !s.migrating c.id va 5 && ebit e 5 == (tierOf dst = 3) && !c.meetsSink va (va + p)) 4
            (let g : Migration := { ctx := c.id, va := BitVec.ofNat 64 va, size := BitVec.ofNat 2 size, old := leafFrame e, new := dst,
                                    phase := 1, dirty := [], slot := 0, pass := 0, seq := 0 }
            if s.pendingRelease dst p then .later else .wait (s.startMigration g))))
/-- REPLICATE (R80): a copy at the frame's offset on every live die, then RP; status 5 where another page's memory lies there (DESIGN CHOICE log 44). -/
def execReplicate (n : Nat) (s : State) : Out :=
  s.runCmd n 0x0A (fun _ => [0]) fun x s => withCtx s x fun c =>
    match s.leafAt c (x.arg 0) with
    | none => .fail 2
    | some (a, va, size, e) =>
      let pa := s.normPa (leafFrame e)
      let p := pageBytes size
      need (size ≠ 2 && tierOf (leafFrame e) = 0) 2
        (need (!ebit e 4 && !s.migrating c.id va 5) 4
          (let dst := s.pkgDieList.filter fun d => s.dieLive d && d ≠ s.homeDie pa
          let at' (d : DieId) : Nat := d.val * 0x2000000000 + pa % 0x2000000000
          need (ebit e 3 || dst.all fun d => s.assignable (at' d) p && !s.inUse (at' d) p) 5
          (let s := dst.foldl (fun s d => (List.range (p / 128)).foldl (fun s i =>
            s.copyLine (pa + 128 * i) (at' d + 128 * i)) s) s
          let s := { s with fw := { s.fw with replicas := ⟨c.id, va, size, pa⟩ :: s.fw.replicas.filter fun q => !(q.ctx == c.id && q.va = va) } }
          .done none (s.writeLeaf a size (e ||| 8)))))
/-- HEAT.READ (R76, R341): uint16 counters by die, then by region; all are cleared, also those that a buffer too small for the result does not take (DESIGN CHOICE log 45). -/
def execHeatRead (n : Nat) (s : State) : Out :=
  s.runCmd n 0x0B (fun _ => [0, 1, 2]) fun x s => withCtx s x fun c =>
    match s.leafAt c (x.arg 2) with
    | none => .fail 2
    | some (_, va, size, e) =>
      let r := pageBytes size / 0x10000
      need (ebit e 6) 2
        (let region (d : DieId) : Nat := s.leafPa d e size va / 0x10000
        let count (d : DieId) (j : Nat) : Nat := match (s.die d).heat.find? fun q => q.1 = region d + j with | some q => q.2.toNat | none => 0
        let bs := s.pkgDieList.flatMap fun d => (List.range r).flatMap fun j => bytesOfNat 2 (count d j)
        let clear (s : State) (d : DieId) : State := s.modDie d fun y => { y with heat := y.heat.filter fun q => q.1 < region d || region d + r ≤ q.1 }
        (s.pkgDieList.foldl clear s).toBuffer x bs none)

/-! ## Time, ticks, ingest (R270 to R273, R346) -/

/-- The clock set to a number of nanoseconds. -/
def TimeState.setNs (t : TimeState) (ns : Nat) : TimeState := { t with secs := ns / 1000000000, fifths := 5 * (ns % 1000000000), slew := 0 }
/-- SETTIME's mode of a command, 3 for none. -/
def Cmd.timeMode (x : Cmd) : Nat := if x.arg 0 < 3 then x.arg 0 else 3
/-- Runs SETTIME where the command is of a mode that `mine` selects. -/
def State.settime (s : State) (n : Nat) (mine : Nat → Bool) (body : Cmd → State → CmdAns) : Out :=
  match s.link.cmds[n]? with
  | some x => if mine x.timeMode then s.runCmd n 0x0F (fun x => if x.timeMode = 0 then [0, 1, 2] else [0, 1]) body else .next s
  | none => .next s
/-- SETTIME mode 0 (R270): the clock steps to a time; a mode that does not exist ends with status 2. -/
def execSettimeStep (n : Nat) (s : State) : Out :=
  s.settime n (fun m => m = 0 || m = 3) fun x s =>
    need (x.timeMode = 0 && x.arg 1 < 2 ^ 48 && x.arg 2 < 1000000000) 2
      (need (!s.t.timePort) 4 (.done none { s with t := s.t.setNs (x.arg 1 * 1000000000 + x.arg 2) }))
/-- SETTIME mode 1 (R270): signed nanoseconds are added. -/
def execSettimeAdd (n : Nat) (s : State) : Out :=
  s.settime n (fun m => m = 1) fun x s =>
    let v : Int := (s.nowNs : Int) + x.args[1].toInt
    need (0 ≤ v && v < 2 ^ 48 * 1000000000) 2 (need (!s.t.timePort) 4
      (let t := s.t.setNs v.toNat
      .done none { s with t := { t with fifths := t.fifths + s.t.fifths % 5 } }))
/-- SETTIME mode 2 (R346): the source is the host or the time port; a frame received before counts for the next edge. -/
def execSettimeSource (n : Nat) (s : State) : Out :=
  s.settime n (fun m => m = 2) fun x s =>
    need (x.arg 1 < 2) 2 (.done none { s with t := { s.t with
      timePort := x.arg 1 = 1, locked := false, holdover := false, sinceEdge := 0, slew := 0, slewCyc := 0 } })
/-- TICK.CFG (R271, Table 11.4): a change of PERIOD or PHASE restarts the step numbers. -/
def execTickCfg (n : Nat) (s : State) : Out :=
  s.runCmd n 0x10 (fun _ => [0, 1, 2, 3, 4]) fun x s =>
    let (period, phase, grace) := (x.arg 1, x.arg 2 * 1000000000 + x.arg 3, x.arg 4 % 2 ^ 32)
    let ch := BitVec.ofNat 2 (x.arg 0)
    need (1000 ≤ period && period ≤ 1000000000 && x.arg 2 < 2 ^ 48 && x.arg 3 < 1000000000 && grace < period && x.arg 4 < 2 ^ 33) 2
      (need (x.arg 0 < 4) 3
        (let t := s.tick ch
        let t' : TickCh := { period := period, phase := phase, grace := grace, en := x.args[4].getLsbD 32, conf := true,
                             last := if t.period = period && t.phase = phase then t.last else none }
        .done none ({ s with t := { s.t with ticks := s.t.ticks.set ch.toNat t' (by omega) } } : State).retryAll))
/-- Where a stamp window goes (R273): in tier 0 of a die, in the highest free 256 KiB, away from the rings (DESIGN CHOICE log 74). -/
def State.freeWindow (s : State) (d : DieId) : Option Nat :=
  let n := 0x40000
  let own := (96 - s.fw.cfg.ilvsz.toNat) * 0x40000000
  let ok (a : Nat) : Bool := s.assignable a n && !s.inUse a n
    && !s.t.ingest.any fun q => match q with | some q => meets a n q.ring (64 + 64 * 2 ^ q.k) | none => false
  if s.dieLive d then ((List.range (own / n)).map fun i => d.val * 0x2000000000 + own - n * (i + 1)).find? ok else none
/-- INGEST.CFG (R273, R341): the ring's header takes its reset values, and the window's slots hold no token. -/
def execIngestCfg (n : Nat) (s : State) : Out :=
  s.runCmd n 0x11 (fun _ => [0, 1, 2]) fun x s =>
    let a := x.arg 2
    let (k, wi, die) := (a % 32, a / 2 ^ 8 % 2 ^ 13, a / 2 ^ 24 % 16)
    let ch := BitVec.ofNat 2 (a / 2 ^ 5)
    let q := x.arg 0
    let busy := match s.ingest q with | some g => Memory.readN s.m.mem g.ring 8 ≠ Memory.readN s.m.mem (g.ring + 8) 8 | none => false
    need (a < 2 ^ 28 && a / 2 ^ 7 % 2 = 0 && a / 2 ^ 21 % 8 = 0 && 4 ≤ k && k ≤ 16 && 1 ≤ wi && wi ≤ 4096 && x.arg 1 < 2 ^ 52) 2
      (need (q < 16 && (s.tick ch).conf) 3
        (need (die < 8 && s.inPart (dieOf die)) 6
          (need (s.hdm (x.arg 1) (64 + 64 * 2 ^ k)) 9
            (need (!busy) 4
              (let ring := s.normPa (x.arg 1)
              let window (w : Nat) : CmdAns :=
                let s := (s.zeroRange w (64 * wi)).fwWrite ring (List.replicate 64 0)
                .done none { s with t := { s.t with ingest := s.t.ingest.setIfInBounds q (some ⟨ring, k, ch, wi, w⟩) } }
              let s := { s with t := { s.t with ingest := s.t.ingest.setIfInBounds q (some ⟨ring, k, ch, wi, 2 ^ 52⟩) } }
              match s.freeWindow (dieOf die) with
              | some w => window w
              | none => .fail 5)))))

/-! ## Pools and prefixes (R260, R264) -/

/-- KVPOOL.CFG (R260). -/
def execKvpoolCfg (n : Nat) (s : State) : Out :=
  s.runCmd n 0x12 (fun _ => [0, 1, 2, 3]) fun x s =>
    let (i, va, k, row) := (x.arg 0, x.arg 1, x.arg 2, x.arg 3)
    need (i < 4 && k ≤ 20 && 1 ≤ row && row ≤ 1048576 && va + 16 * 2 ^ k * row ≤ 2 ^ 56) 2 (withCtx s x fun c =>
      need (match c.pools[i % 4]'(Nat.mod_lt _ (by decide)) with | some p => p.blocks.isEmpty | none => true) 4
        (.done none (s.modCtx c.id fun c => { c with pools := c.pools.setIfInBounds i (some ⟨BitVec.ofNat 64 va, k, row, []⟩) })))
/-- PFX.CFG (R264). -/
def execPfxCfg (n : Nat) (s : State) : Out :=
  s.runCmd n 0x13 (fun _ => [0, 1]) fun x s =>
    need (x.arg 1 ≤ 64) 2 (withCtx s x fun c => .done none (s.modCtx c.id fun c => { c with seed := x.args[0], pfxQuota := x.arg 1 }))

/-! ## Dies, reports, durability, shutdown -/

/-- DIE.RESET or DIE.ISOLATE (R161, R17): status 6 for a die of the package outside the partition or for none, 4 for a die already out. -/
def State.dieCmd (s : State) (x : Cmd) (isolate : Bool) : CmdAns :=
  let d := dieOf (x.arg 0)
  if x.begun then .wait s
  else need (x.arg 0 < 8 && s.inPart d) 6 (need ((s.die d).live && !(s.die d).isolated) 4 (.wait (s.beginReset d isolate)))
/-- DIE.RESET (R161, R162): it completes when the die rejoins. -/
def execDieReset (n : Nat) (s : State) : Out := s.runCmd n 0x14 (fun _ => [0]) fun x s => s.dieCmd x false
/-- DIE.ISOLATE (R161): it completes when the die has reset. -/
def execDieIsolate (n : Nat) (s : State) : Out := s.runCmd n 0x15 (fun _ => [0]) fun x s => s.dieCmd x true
/-- RAS.QUERY (R341): 32-byte event records, oldest first, whose layout no rule gives (DESIGN CHOICE log 45); those written whole are cleared. RESULT is
the count. -/
def execRasQuery (n : Nat) (s : State) : Out :=
  s.runCmd n 0x16 (fun _ => [0, 1]) fun x s =>
    let k := s.fw.ras.length
    let (bs, s) := s.freeBytes (32 * k)
    ({ s with fw := { s.fw with ras := s.fw.ras.drop (x.arg 1 / 32) } } : State).toBuffer x bs (some (BitVec.ofNat 64 k))
/-- RETIRE.QUERY (R341, R88): the retirement table, whose layout no rule gives (DESIGN CHOICE log 45). -/
def execRetireQuery (n : Nat) (s : State) : Out := s.runCmd n 0x17 (fun _ => [0, 1]) fun x s => s.toBuffer x s.fw.flash.rowBytes none
/-- DURABLE.FLUSH (R341, R288 item 4): every dirty line is written back; it completes when all of it is durable. -/
def execDurableFlush (n : Nat) (s : State) : Out :=
  s.runCmd n 0x18 (fun _ => []) fun x s =>
    if s.m.tier3 = 0 then .done none s
    else if !x.begun then .wait (s.m.dirty.foldl (fun s l => s.writeBack l) s)
    else if s.m.granules.isEmpty then .done none s else .wait s
/-- SHUTDOWN (R341, R286): every context is killed (reason 7); once they are released dusk runs, and the command completes with it. -/
def execShutdown (n : Nat) (s : State) : Out :=
  s.runCmd n 0x19 (fun _ => []) fun _ s =>
    if s.phase == .dusk then (if s.fw.duskDone then .done none s else .wait s)
    else if s.fw.ctxs.isEmpty then
      let s := s.startDusk 0
      if s.fw.duskDone then .done none s else .wait s
    else .wait (s.fw.ctxs.foldl (fun s c => s.plainKill c.id 7) s)
/-- Table 15.8: the report; bytes 4 to 7 are given by no rule (DEDUCED log 55). -/
def Dawn.bytes (d : Dawn) (w : W64) : List Byte :=
  let rec64 := if d.dusk.isEmpty then List.replicate 64 0 else d.dusk
  let j := d.journal.flatMap fun q => bytesOfNat 8 q.1 ++ bytesOfNat 8 q.2.1 ++ bytesOfNat 8 q.2.2.1.toNat ++ bytesOfNat 8 q.2.2.2
  [d.code, d.bits] ++ bytesOfNat 2 d.excluded.toNat ++ bytesOfNat 4 w.toNat ++ rec64 ++ (j ++ List.replicate 512 0).take 512
/-- DAWN.REPORT (R341, Table 15.8). -/
def execDawnReport (n : Nat) (s : State) : Out :=
  s.runCmd n 0x1A (fun _ => [0, 1]) fun x s => let (w, s) := s.drawFree; s.toBuffer x (s.fw.dawn.bytes w) none

/-! ## The management port (R347) -/

/-- The state code of the management port. -/
def Phase.code : Phase → Nat | .bringUp => 0 | .recovery => 1 | .running => 2 | .dusk => 3
/-- R347: what a read of the management port returns at an offset, in every phase and with no effect on any state; no step of the table makes the read. Power and
temperature are as sampled then (DESIGN CHOICE log 14); bytes 22 and 23 of IDENT are given by no rule (DEDUCED log 55). -/
def State.managementReg (s : State) (off : Nat) : W32 :=
  if off < 0x18 && off % 4 = 0 then BitVec.ofNat 32 (fld (s.identHead s.drawFree.1) off 4)
  else match off with
    | 0x20 => Config.sensor (2 * s.t.dcyc)
    | 0x24 => Config.sensor (2 * s.t.dcyc + 1)
    | 0x28 => BitVec.ofNat 32 ((List.finRange 64).foldl (fun n i => if i.val < 8 * s.pkgDies then min n (s.clusterMHz i) else n) 1250)
    | 0x2C => BitVec.ofNat 32 s.fw.ras.length
    | 0x30 => BitVec.ofNat 32 s.phase.code
    | _ => 0

/-! ## SPDM (R345) -/

/-- Answers an SPDM request in negotiation state `at least` by bytes, or with an error (PRESUMED log 46). -/
def State.spdmReply (s : State) (needs next : Nat) (reply : State → List Byte × State) : Out :=
  if s.link.spdm < needs then .next { s with link := { s.link with response := [0x13, 0x7F, 0x04, 0x00] } }
  else
    let (b, s) := reply s
    .next { s with link := { s.link with spdm := next, response := b } }
/-- As `State.spdmReply`, by bytes that are outside the spec (DESIGN CHOICE log 14). -/
def State.spdmAnswer (s : State) (needs next kind : Nat) : Out := s.spdmReply needs next fun s => s.freeBytes (Config.recordLen 2 kind)
/-- GET_VERSION (R345): the negotiation starts. -/
def execGetVersion (s : State) : Out := s.spdmAnswer 0 1 0
/-- GET_CAPABILITIES (R345). -/
def execGetCapabilities (s : State) : Out := s.spdmAnswer 1 2 1
/-- NEGOTIATE_ALGORITHMS (R345). -/
def execNegotiateAlgorithms (s : State) : Out := s.spdmAnswer 2 3 2
/-- GET_DIGESTS (R345). -/
def execGetDigests (s : State) : Out := s.spdmAnswer 3 3 3
/-- GET_CERTIFICATE (R345). -/
def execGetCertificate (s : State) : Out := s.spdmAnswer 3 3 4
/-- CHALLENGE (R345): a response signed with the identity key over the nonce. -/
def execChallenge (nonce : BitVec 256) (s : State) : Out :=
  s.spdmReply 3 3 fun s => let (b, s) := s.freeBytes (Config.recordLen 2 5); (signedResponse b nonce.toNat, s)
/-- GET_MEASUREMENTS (R345): the signed measurements of an index, over the nonce. -/
def execGetMeasurements (index : Nat) (nonce : BitVec 256) (s : State) : Out := s.spdmReply 3 3 fun s => (s.measurement index nonce.toNat, s)
/-- A session message (R345): ERROR UnsupportedRequest. -/
def execSpdmSessionMessage (s : State) : Out := .next { s with link := { s.link with response := [0x13, 0x7F, 0x07, 0x00] } }

end Sys2Proof.Machine
end

