-- ==== Sys2Proof/Machine/Scalar.lean ====
section
/-! DEFINITION. The scalar unit (R177 to R182). In every meaning `g`, `e`, `f` are guard, empty-read mode and FROM; x, y and f
the S unit's latches and the value FROM delivers. -/
namespace Sys2Proof.Machine

/-! ## Short operations (R177) -/

/-- A short operation of the S slot: its value from the state, X, Y and F; it lands at 2 bundles, with no flag. -/
def scalarOp (g : BitVec 4) (e : Bool) (f : BitVec 10) (op : State → SVal → SVal → SVal → SVal) (s : State) : Out :=
  .next (s.issueMove .s g e f false fun v s => s.short .s (.sc (op s s.pipe.units.s.x s.pipe.units.s.y v.toS)) 0 none)
/-- A binary operation on X and F. -/
def onXF (h : W64 → W64 → W64) : State → SVal → SVal → SVal → SVal := fun _ x _ f => ⟨h x.val f.val, x.poi || f.poi⟩
/-- A unary operation on F. -/
def onF (h : W64 → W64) : State → SVal → SVal → SVal → SVal := fun _ _ _ f => ⟨h f.val, f.poi⟩
/-- Leading zeros, 0 to 64. -/
def clz64 (v : W64) : W64 := if v = 0 then 64 else BitVec.ofNat 64 (63 - Nat.log2 v.toNat)
/-- Trailing zeros below bit `n`. -/
def ctzFrom (v : W64) : Nat → Nat → Nat
  | 0, k => k
  | n + 1, k => if v.getLsbD k then k else ctzFrom v n (k + 1)
/-- Trailing zeros, 0 to 64. -/
def ctz64 (v : W64) : W64 := BitVec.ofNat 64 (ctzFrom v 64 0)
/-- Bits set. -/
def popc (w : Nat) (v : BitVec w) : Nat := (List.range w).countP fun i => v.getLsbD i
/-- The low 32 bits of a result, sign-extended (R177 .W forms). -/
def sx32 (v : W64) : W64 := (v.setWidth 32).signExtend 64
/-- SEL: X if the predicate named by Y[2:0] is 1, else F; Y[2:0] = 0 selects F. -/
def selOp (s : State) (x y f : SVal) : SVal :=
  let n := selIx 3 (y.val.setWidth 10)
  let r := if n.val != 0 && s.pipe.regs.p[n] then x else f
  ⟨r.val, r.poi || y.poi⟩
/-- LEA: X + (F << Y[1:0]). -/
def leaOp (_ : State) (x y f : SVal) : SVal := ⟨x.val + (f.val <<< (y.val.toNat % 4)), x.poi || y.poi || f.poi⟩
/-- ADD (R177): X + F. -/
def execAdd (g : BitVec 4) (e : Bool) (f : BitVec 10) (s : State) : Out := scalarOp g e f (onXF fun x f => x + f) s
/-- SUB (R177): X − F. -/
def execSub (g : BitVec 4) (e : Bool) (f : BitVec 10) (s : State) : Out := scalarOp g e f (onXF fun x f => x - f) s
/-- MUL (R177): the low half of X · F. -/
def execMul (g : BitVec 4) (e : Bool) (f : BitVec 10) (s : State) : Out := scalarOp g e f (onXF fun x f => x * f) s
/-- MULH (R177): bits [127:64] of the signed product. -/
def execMulh (g : BitVec 4) (e : Bool) (f : BitVec 10) (s : State) : Out := scalarOp g e f (onXF fun x f => BitVec.ofInt 64 (x.toInt * f.toInt / 2 ^ 64)) s
/-- MULHU (R177): bits [127:64] of the unsigned product. -/
def execMulhu (g : BitVec 4) (e : Bool) (f : BitVec 10) (s : State) : Out := scalarOp g e f (onXF fun x f => BitVec.ofNat 64 (x.toNat * f.toNat / 2 ^ 64)) s
/-- AND (R177): X and F. -/
def execAnd (g : BitVec 4) (e : Bool) (f : BitVec 10) (s : State) : Out := scalarOp g e f (onXF fun x f => x &&& f) s
/-- OR (R177): X or F. -/
def execOr (g : BitVec 4) (e : Bool) (f : BitVec 10) (s : State) : Out := scalarOp g e f (onXF fun x f => x ||| f) s
/-- XOR (R177): X xor F. -/
def execXor (g : BitVec 4) (e : Bool) (f : BitVec 10) (s : State) : Out := scalarOp g e f (onXF fun x f => x ^^^ f) s
/-- ANDN (R177): X and not F. -/
def execAndn (g : BitVec 4) (e : Bool) (f : BitVec 10) (s : State) : Out := scalarOp g e f (onXF fun x f => x &&& ~~~f) s
/-- SHL (R177): X << F[5:0]. -/
def execShl (g : BitVec 4) (e : Bool) (f : BitVec 10) (s : State) : Out := scalarOp g e f (onXF fun x f => x <<< (f.toNat % 64)) s
/-- SHR (R177): X >> F[5:0], zeros. -/
def execShr (g : BitVec 4) (e : Bool) (f : BitVec 10) (s : State) : Out := scalarOp g e f (onXF fun x f => x >>> (f.toNat % 64)) s
/-- SAR (R177): X >> F[5:0], copies of X[63]. -/
def execSar (g : BitVec 4) (e : Bool) (f : BitVec 10) (s : State) : Out := scalarOp g e f (onXF fun x f => x.sshiftRight (f.toNat % 64)) s
/-- ROTL (R177): X rotated left by F[5:0]. -/
def execRotl (g : BitVec 4) (e : Bool) (f : BitVec 10) (s : State) : Out := scalarOp g e f (onXF fun x f => x.rotateLeft (f.toNat % 64)) s
/-- MIN (R177): the lesser, signed. -/
def execMinS (g : BitVec 4) (e : Bool) (f : BitVec 10) (s : State) : Out := scalarOp g e f (onXF fun x f => if f.toInt < x.toInt then f else x) s
/-- MAX (R177): the greater, signed. -/
def execMaxS (g : BitVec 4) (e : Bool) (f : BitVec 10) (s : State) : Out := scalarOp g e f (onXF fun x f => if x.toInt < f.toInt then f else x) s
/-- MINU (R177): the lesser, unsigned. -/
def execMinu (g : BitVec 4) (e : Bool) (f : BitVec 10) (s : State) : Out := scalarOp g e f (onXF fun x f => if f.toNat < x.toNat then f else x) s
/-- MAXU (R177): the greater, unsigned. -/
def execMaxu (g : BitVec 4) (e : Bool) (f : BitVec 10) (s : State) : Out := scalarOp g e f (onXF fun x f => if x.toNat < f.toNat then f else x) s
/-- CLZ (R177): leading zeros of F. -/
def execClz (g : BitVec 4) (e : Bool) (f : BitVec 10) (s : State) : Out := scalarOp g e f (onF clz64) s
/-- CTZ (R177): trailing zeros of F. -/
def execCtz (g : BitVec 4) (e : Bool) (f : BitVec 10) (s : State) : Out := scalarOp g e f (onF ctz64) s
/-- POPC (R177): bits set in F. -/
def execPopc (g : BitVec 4) (e : Bool) (f : BitVec 10) (s : State) : Out := scalarOp g e f (onF fun f => BitVec.ofNat 64 (Sys2Proof.Machine.popc 64 f)) s
/-- SEXT.B (R177): F[7:0] sign-extended. -/
def execSextB (g : BitVec 4) (e : Bool) (f : BitVec 10) (s : State) : Out := scalarOp g e f (onF fun f => (f.setWidth 8).signExtend 64) s
/-- SEXT.H (R177): F[15:0] sign-extended. -/
def execSextH (g : BitVec 4) (e : Bool) (f : BitVec 10) (s : State) : Out := scalarOp g e f (onF fun f => (f.setWidth 16).signExtend 64) s
/-- SEXT.W (R177): F[31:0] sign-extended. -/
def execSextW (g : BitVec 4) (e : Bool) (f : BitVec 10) (s : State) : Out := scalarOp g e f (onF fun f => (f.setWidth 32).signExtend 64) s
/-- ZEXT.B (R177): F[7:0]. -/
def execZextB (g : BitVec 4) (e : Bool) (f : BitVec 10) (s : State) : Out := scalarOp g e f (onF fun f => (f.setWidth 8).setWidth 64) s
/-- ZEXT.H (R177): F[15:0]. -/
def execZextH (g : BitVec 4) (e : Bool) (f : BitVec 10) (s : State) : Out := scalarOp g e f (onF fun f => (f.setWidth 16).setWidth 64) s
/-- ZEXT.W (R177): F[31:0]. -/
def execZextW (g : BitVec 4) (e : Bool) (f : BitVec 10) (s : State) : Out := scalarOp g e f (onF fun f => (f.setWidth 32).setWidth 64) s
/-- SEL (R177): X if the predicate of Y is 1, else F. -/
def execSel (g : BitVec 4) (e : Bool) (f : BitVec 10) (s : State) : Out := scalarOp g e f (selOp) s
/-- ADD.W (R177): the low 32 bits of X + F, sign-extended. -/
def execAddW (g : BitVec 4) (e : Bool) (f : BitVec 10) (s : State) : Out := scalarOp g e f (onXF fun x f => sx32 (x + f)) s
/-- SUB.W (R177): the low 32 bits of X − F, sign-extended. -/
def execSubW (g : BitVec 4) (e : Bool) (f : BitVec 10) (s : State) : Out := scalarOp g e f (onXF fun x f => sx32 (x - f)) s
/-- MUL.W (R177): the low 32 bits of X · F, sign-extended. -/
def execMulW (g : BitVec 4) (e : Bool) (f : BitVec 10) (s : State) : Out := scalarOp g e f (onXF fun x f => sx32 (x * f)) s
/-- LEA (R177): X + (F << Y[1:0]). -/
def execLea (g : BitVec 4) (e : Bool) (f : BitVec 10) (s : State) : Out := scalarOp g e f (leaOp) s

/-! ## Compares (R178) -/

/-- CMP: the truth of a condition on X and F, landing in s.q0 and the register D named at the trigger. -/
def scalarCmp (g : BitVec 4) (e : Bool) (f : BitVec 10) (cond : W64 → W64 → Bool) (s : State) : Out :=
  .next (s.issueMove .s g e f false fun v s => s.needD .s fun d s =>
    let x := s.pipe.units.s.x
    s.short .s (.sc ⟨boolWord 64 (cond x.val v.toS.val), x.poi || v.toS.poi⟩) 0 (some d))
/-- CMP.EQ (R178): X = F. -/
def execCmpEq (g : BitVec 4) (e : Bool) (f : BitVec 10) (s : State) : Out := scalarCmp g e f (fun x f => x == f) s
/-- CMP.NE (R178): X ≠ F. -/
def execCmpNe (g : BitVec 4) (e : Bool) (f : BitVec 10) (s : State) : Out := scalarCmp g e f (fun x f => x != f) s
/-- CMP.LT (R178): X < F, signed. -/
def execCmpLt (g : BitVec 4) (e : Bool) (f : BitVec 10) (s : State) : Out := scalarCmp g e f (fun x f => decide (x.toInt < f.toInt)) s
/-- CMP.LE (R178): X ≤ F, signed. -/
def execCmpLe (g : BitVec 4) (e : Bool) (f : BitVec 10) (s : State) : Out := scalarCmp g e f (fun x f => decide (x.toInt ≤ f.toInt)) s
/-- CMP.LTU (R178): X < F, unsigned. -/
def execCmpLtu (g : BitVec 4) (e : Bool) (f : BitVec 10) (s : State) : Out := scalarCmp g e f (fun x f => decide (x.toNat < f.toNat)) s
/-- CMP.LEU (R178): X ≤ F, unsigned. -/
def execCmpLeu (g : BitVec 4) (e : Bool) (f : BitVec 10) (s : State) : Out := scalarCmp g e f (fun x f => decide (x.toNat ≤ f.toNat)) s

/-! ## Division (R179) -/

/-- R179: quotient and remainder of `n` bits; `sg` for the signed forms. -/
def divide (n : Nat) (sg : Bool) (x f : BitVec n) : BitVec n × BitVec n :=
  if f = 0 then (BitVec.allOnes n, x)
  else if sg then
    (BitVec.ofInt n (x.toInt.tdiv f.toInt), BitVec.ofInt n (x.toInt.tmod f.toInt))
  else (BitVec.ofNat n (x.toNat / f.toNat), BitVec.ofNat n (x.toNat % f.toNat))
/-- R179: the value a division writes: `rm` for the remainder forms, `w` for the .W forms. -/
def divResult (sg rm w : Bool) (x f : W64) : W64 :=
  if w then
    let (q, r) := divide 32 sg (x.setWidth 32) (f.setWidth 32)
    (if rm then r else q).signExtend 64
  else
    let (q, r) := divide 64 sg x f
    if rm then r else q
/-- R179: whether the divider is busy: a division is pending. -/
def Pipe.dividing (p : Pipe) : Bool := p.longs.any fun l => l.unit == .s && l.fin == .value
/-- R179: a division, which lands as late as the rule allows (DESIGN CHOICE log 15). With DZE = 1 and F = 0 it raises cause 0x04, its bundle issued, D untouched. -/
def scalarDiv (sg rm w : Bool) (g : BitVec 4) (e : Bool) (f : BitVec 10) (s : State) : Out :=
  .next (s.issueMove .s g e f false fun v s => s.needD .s fun d s =>
    if s.pipe.dividing then s.hold 0
    else
      let x := s.pipe.units.s.x
      let z : Bool := if w then v.toS.val.setWidth 32 == (0 : W32) else v.toS.val == 0
      if s.pipe.sys.dze && z then s.trapIssued .s 0x04 (d.setWidth 64)
      else s.long .s (.sc ⟨divResult sg rm w x.val v.toS.val, x.poi || v.toS.poi⟩) 0 d (if w then 24 else 40))
/-- DIV (R179). -/
def execDiv (g : BitVec 4) (e : Bool) (f : BitVec 10) (s : State) : Out := scalarDiv true false false g e f s
/-- DIVU (R179). -/
def execDivu (g : BitVec 4) (e : Bool) (f : BitVec 10) (s : State) : Out := scalarDiv false false false g e f s
/-- REM (R179). -/
def execRem (g : BitVec 4) (e : Bool) (f : BitVec 10) (s : State) : Out := scalarDiv true true false g e f s
/-- REMU (R179). -/
def execRemu (g : BitVec 4) (e : Bool) (f : BitVec 10) (s : State) : Out := scalarDiv false true false g e f s
/-- DIV.W (R179). -/
def execDivW (g : BitVec 4) (e : Bool) (f : BitVec 10) (s : State) : Out := scalarDiv true false true g e f s
/-- DIVU.W (R179). -/
def execDivuW (g : BitVec 4) (e : Bool) (f : BitVec 10) (s : State) : Out := scalarDiv false false true g e f s
/-- REM.W (R179). -/
def execRemW (g : BitVec 4) (e : Bool) (f : BitVec 10) (s : State) : Out := scalarDiv true true true g e f s
/-- REMU.W (R179). -/
def execRemuW (g : BitVec 4) (e : Bool) (f : BitVec 10) (s : State) : Out := scalarDiv false true true g e f s

/-! ## Loads and stores (R180) -/

/-- R180: a load of `n` bytes at X + F in class `cl`. D is checked first (R41), then a poisoned address is consumed (Table 14.5), then
R180's checks follow (DESIGN CHOICE log 75). -/
def scalarLoad (n : Nat) (sg : Bool) (g : BitVec 4) (cl : BitVec 2) (e : Bool) (f : BitVec 10) (s : State) : Out :=
  .next (s.issueMove .s g e f false fun v s => s.needD .s fun d s =>
    let x := s.pipe.units.s.x
    s.needClean .s (x.poi || v.toS.poi) (f.setWidth 64) fun s =>
      s.locating .s (x.val + v.toS.val) n .read fun l s =>
        s.request cl (.load sg) l n SVal.zero SVal.zero d true)
/-- R180: a store of the low `n` bytes of Y at X + F in class `cl`. -/
def scalarStore (n : Nat) (g : BitVec 4) (cl : BitVec 2) (e : Bool) (f : BitVec 10) (s : State) : Out :=
  .next (s.issueMove .s g e f false fun v s =>
    let x := s.pipe.units.s.x
    s.needClean .s (x.poi || v.toS.poi) (f.setWidth 64) fun s =>
      s.locating .s (x.val + v.toS.val) n .write fun l s =>
        s.request cl .store l n s.pipe.units.s.y SVal.zero 0 false)
/-- LD.B (R180, Table 7.9). -/
def execLdB (g : BitVec 4) (cl : BitVec 2) (e : Bool) (f : BitVec 10) (s : State) : Out := scalarLoad 1 true g cl e f s
/-- LD.H (R180, Table 7.9). -/
def execLdH (g : BitVec 4) (cl : BitVec 2) (e : Bool) (f : BitVec 10) (s : State) : Out := scalarLoad 2 true g cl e f s
/-- LD.W (R180, Table 7.9). -/
def execLdW (g : BitVec 4) (cl : BitVec 2) (e : Bool) (f : BitVec 10) (s : State) : Out := scalarLoad 4 true g cl e f s
/-- LD.D (R180, Table 7.9). -/
def execLdD (g : BitVec 4) (cl : BitVec 2) (e : Bool) (f : BitVec 10) (s : State) : Out := scalarLoad 8 false g cl e f s
/-- LDU.B (R180, Table 7.9). -/
def execLduB (g : BitVec 4) (cl : BitVec 2) (e : Bool) (f : BitVec 10) (s : State) : Out := scalarLoad 1 false g cl e f s
/-- LDU.H (R180, Table 7.9). -/
def execLduH (g : BitVec 4) (cl : BitVec 2) (e : Bool) (f : BitVec 10) (s : State) : Out := scalarLoad 2 false g cl e f s
/-- LDU.W (R180, Table 7.9). -/
def execLduW (g : BitVec 4) (cl : BitVec 2) (e : Bool) (f : BitVec 10) (s : State) : Out := scalarLoad 4 false g cl e f s
/-- ST.B (R180, Table 7.9). -/
def execStB (g : BitVec 4) (cl : BitVec 2) (e : Bool) (f : BitVec 10) (s : State) : Out := scalarStore 1 g cl e f s
/-- ST.H (R180, Table 7.9). -/
def execStH (g : BitVec 4) (cl : BitVec 2) (e : Bool) (f : BitVec 10) (s : State) : Out := scalarStore 2 g cl e f s
/-- ST.W (R180, Table 7.9). -/
def execStW (g : BitVec 4) (cl : BitVec 2) (e : Bool) (f : BitVec 10) (s : State) : Out := scalarStore 4 g cl e f s
/-- ST.D (R180, Table 7.9). -/
def execStD (g : BitVec 4) (cl : BitVec 2) (e : Bool) (f : BitVec 10) (s : State) : Out := scalarStore 8 g cl e f s

/-! ## Parameter windows (R181) -/

/-- R181: a read of `size` bytes at offset F of window `n`. D and a poisoned offset come before causes 0x09 and 0x07 (DESIGN CHOICE log 75). -/
def windowLoad (size : Nat) (g : BitVec 4) (n : BitVec 3) (e : Bool) (f : BitVec 10) (s : State) : Out :=
  .next (s.issueMove .s g e f false fun v s => s.needD .s fun d s =>
    s.needClean .s v.poiS (f.setWidth 64) fun s =>
      let o := v.toS.val
      let len := (s.pipe.sys.pws[n.toNat]'(by omega)).toNat
      let a := (s.pipe.sys.pwb[n.toNat]'(by omega)) + o
      if len = 0 then s.trapAt .s 0x09 (n.setWidth 64)
      else if o.toNat % size ≠ 0 then s.trapAt .s 0x07 o
      else if len < o.toNat + size then
        ((s.modPipe fun p => { p with longs := p.longs ++ [⟨.s, .w64 0, 0, d, 1, .window n⟩] }).regWrite (.empty d)).issued
      else if a.toNat % size ≠ 0 then s.trapAt .s 0x07 a
      else s.locating .s a size .read fun l s =>
        s.request 0 (.load false) l size SVal.zero SVal.zero d true)
/-- PWLD.W (R181). -/
def execPwldW (g : BitVec 4) (n : BitVec 3) (e : Bool) (f : BitVec 10) (s : State) : Out := windowLoad 4 g n e f s
/-- PWLD.D (R181). -/
def execPwldD (g : BitVec 4) (n : BitVec 3) (e : Bool) (f : BitVec 10) (s : State) : Out := windowLoad 8 g n e f s

/-! ## Atomics (R182) -/

/-- R182: an atomic of 4 or 8 bytes at F with operand Y (and X for ACAS); `ret` for the returning form. D and a poisoned address come
before the form of the address (DESIGN CHOICE log 75). -/
def scalarAtomic (op : AOp) (ret : Bool) (g : BitVec 4) (w : BitVec 1) (e : Bool) (f : BitVec 10) (s : State) : Out :=
  let n := if w = 1 then 8 else 4
  let go (d : BitVec 10) (v : Val) (s : State) : State :=
    s.needClean .s v.poiS (f.setWidth 64) fun s =>
      s.locating .s v.toS.val n .write fun l s =>
        s.request 0 (.atomic op ret) l n s.pipe.units.s.y s.pipe.units.s.x d ret
  .next (s.issueMove .s g e f false fun v s => if ret then s.needD .s fun d s => go d v s else go 0 v s)
/-- AADD (R182, Table 7.10). -/
def execAadd (g : BitVec 4) (w : BitVec 1) (e : Bool) (f : BitVec 10) (s : State) : Out := scalarAtomic .add true g w e f s
/-- AMIN (R182, Table 7.10). -/
def execAmin (g : BitVec 4) (w : BitVec 1) (e : Bool) (f : BitVec 10) (s : State) : Out := scalarAtomic .min true g w e f s
/-- AMAX (R182, Table 7.10). -/
def execAmax (g : BitVec 4) (w : BitVec 1) (e : Bool) (f : BitVec 10) (s : State) : Out := scalarAtomic .max true g w e f s
/-- AMINU (R182, Table 7.10). -/
def execAminu (g : BitVec 4) (w : BitVec 1) (e : Bool) (f : BitVec 10) (s : State) : Out := scalarAtomic .minu true g w e f s
/-- AMAXU (R182, Table 7.10). -/
def execAmaxu (g : BitVec 4) (w : BitVec 1) (e : Bool) (f : BitVec 10) (s : State) : Out := scalarAtomic .maxu true g w e f s
/-- AAND (R182, Table 7.10). -/
def execAand (g : BitVec 4) (w : BitVec 1) (e : Bool) (f : BitVec 10) (s : State) : Out := scalarAtomic .and true g w e f s
/-- AOR (R182, Table 7.10). -/
def execAor (g : BitVec 4) (w : BitVec 1) (e : Bool) (f : BitVec 10) (s : State) : Out := scalarAtomic .or true g w e f s
/-- AXOR (R182, Table 7.10). -/
def execAxor (g : BitVec 4) (w : BitVec 1) (e : Bool) (f : BitVec 10) (s : State) : Out := scalarAtomic .xor true g w e f s
/-- AXCHG (R182, Table 7.10). -/
def execAxchg (g : BitVec 4) (w : BitVec 1) (e : Bool) (f : BitVec 10) (s : State) : Out := scalarAtomic .xchg true g w e f s
/-- ACAS (R182, Table 7.10). -/
def execAcas (g : BitVec 4) (w : BitVec 1) (e : Bool) (f : BitVec 10) (s : State) : Out := scalarAtomic .cas true g w e f s
/-- AADD.N (R182, Table 7.10). -/
def execAaddN (g : BitVec 4) (w : BitVec 1) (e : Bool) (f : BitVec 10) (s : State) : Out := scalarAtomic .add false g w e f s
/-- AMIN.N (R182, Table 7.10). -/
def execAminN (g : BitVec 4) (w : BitVec 1) (e : Bool) (f : BitVec 10) (s : State) : Out := scalarAtomic .min false g w e f s
/-- AMAX.N (R182, Table 7.10). -/
def execAmaxN (g : BitVec 4) (w : BitVec 1) (e : Bool) (f : BitVec 10) (s : State) : Out := scalarAtomic .max false g w e f s
/-- AMINU.N (R182, Table 7.10). -/
def execAminuN (g : BitVec 4) (w : BitVec 1) (e : Bool) (f : BitVec 10) (s : State) : Out := scalarAtomic .minu false g w e f s
/-- AMAXU.N (R182, Table 7.10). -/
def execAmaxuN (g : BitVec 4) (w : BitVec 1) (e : Bool) (f : BitVec 10) (s : State) : Out := scalarAtomic .maxu false g w e f s
/-- AAND.N (R182, Table 7.10). -/
def execAandN (g : BitVec 4) (w : BitVec 1) (e : Bool) (f : BitVec 10) (s : State) : Out := scalarAtomic .and false g w e f s
/-- AOR.N (R182, Table 7.10). -/
def execAorN (g : BitVec 4) (w : BitVec 1) (e : Bool) (f : BitVec 10) (s : State) : Out := scalarAtomic .or false g w e f s
/-- AXOR.N (R182, Table 7.10). -/
def execAxorN (g : BitVec 4) (w : BitVec 1) (e : Bool) (f : BitVec 10) (s : State) : Out := scalarAtomic .xor false g w e f s

end Sys2Proof.Machine
end

