-- ==== Sys2Proof/Machine/Vector.lean ====
section
/-! DEFINITION. The vector units (R207 to R226). In every meaning `u` is the unit, `g`, `e`, `f` guard, empty-read mode and
FROM; x, y and f are the lanes of X, Y and the value FROM delivers. -/
namespace Sys2Proof.Machine

/-! ## Operands, masks and draws (R197, R207, R208) -/

/-- What a vector operation reads at its issue: X, Y, F, the active lanes, RMODE, its stochastic draws. -/
structure VIn where
  x : VVal
  y : VVal
  f : VVal
  act : Mask
  rm : RMode
  draws : Array Nat
  /-- a parity error has poisoned the MSEL latch -/
  bad : Bool
/-- Lane `i` of X. -/
def VIn.xl (v : VIn) (i : Fin 256) : W32 := v.x.val[i]
/-- Lane `i` of Y. -/
def VIn.yl (v : VIn) (i : Fin 256) : W32 := v.y.val[i]
/-- Lane `i` of F. -/
def VIn.fl (v : VIn) (i : Fin 256) : W32 := v.f.val[i]
/-- Poison of lane `i` of X, Y, F. -/
def VIn.px (v : VIn) (i : Nat) : Bool := v.x.poi.getLsbD i
/-- See `VIn.px`. -/
def VIn.py (v : VIn) (i : Nat) : Bool := v.y.poi.getLsbD i
/-- See `VIn.px`. -/
def VIn.pf (v : VIn) (i : Nat) : Bool := v.f.poi.getLsbD i
/-- RMODE.MODE as a number. -/
def VIn.mode (v : VIn) : Nat := v.rm.mode.toNat
/-- Draw number `k` of the operation. -/
def VIn.draw (v : VIn) (k : Nat) : Nat := v.draws.getD k 0
/-- Packed element `j` of a vector (R184). -/
def elem (v : Vec) (j : Nat) : Nat := (Vec.lane v (j / 2)).toNat / 65536 ^ (j % 2) % 65536
/-- The state of a vector unit. -/
def Units.vec (u : Units) : VUnit → VUnitSt | .va => u.va | .vb => u.vb
/-- The stream a unit draws from (R197). -/
def vStream : VUnit → Fin 5 | .va => 0 | .vb => 1
/-- Takes `n` draws of stream `k` when RMODE in force is stochastic (R197). -/
def State.draw (s : State) (k : Fin 5) (n : Nat) : Array Nat × State :=
  if s.pipe.rmode.mode = 4 && n ≠ 0 then
    let (ds, r) := rngDraws n s.pipe.sys2.rng[k]
    (ds.toArray, s.modPipe fun p => { p with sys2 := { p.sys2 with rng := p.sys2.rng.set k r } })
  else (#[], s)
/-- R208: the mask a unit's MSEL names; m0 is all ones. -/
def Pipe.maskFor (p : Pipe) (u : VUnit) : Mask := if (p.units.vec u).msel = 0 then BitVec.allOnes 256 else p.regs.m[(p.units.vec u).msel.toNat]'(by omega)
/-- R334: whether a parity error has poisoned a unit's MSEL latch: the result of an operation under its mask is poisoned in every lane (DESIGN CHOICE log 48). -/
def Pipe.maskBad (p : Pipe) (u : VUnit) : Bool := p.units.bad.getLsbD (8 + u.slot.index)
/-- R207, R208: the operands of an operation of unit `u`, with `n` draws. -/
def State.vin (s : State) (u : VUnit) (v : Val) (n : Nat) : VIn × State :=
  let (ds, s) := s.draw (vStream u) n
  let k := s.pipe.units.vec u
  (⟨k.x, k.y, v.toV, s.pipe.maskFor u, s.pipe.rmode, ds, s.pipe.maskBad u⟩, s)
/-- Every lane. -/
def lanes : List (Fin 256) := List.finRange 256

/-- What an active lane becomes: its pattern, its flags, whether it is poisoned. -/
abbrev LaneOp := VIn → Fin 256 → W32 × Flags × Bool
/-- Table 9.1: the result of a masked operation; an inactive lane takes `idle`. -/
def masked (op : LaneOp) (idle : VIn → Fin 256 → W32 × Bool) (v : VIn) : VVal × Flags :=
  (⟨Vec.tab fun i => if v.act.getLsbD i.val then (op v i).1 else (idle v i).1,
    maskOf fun i => v.bad || if v.act.getLsbD i.val then (op v i).2.2 else (idle v i).2⟩,
   orFlags (lanes.map fun i => if v.act.getLsbD i.val then (op v i).2.1 else 0))
/-- An inactive lane keeps X.lane[i] with its poison. -/
def keepX (v : VIn) (i : Fin 256) : W32 × Bool := (v.xl i, v.px i.val)
/-- A short operation whose inactive lanes keep X; `n` draws (R209). -/
def vecShort (u : VUnit) (g : BitVec 4) (e : Bool) (f : BitVec 10) (n : Nat) (op : LaneOp) (s : State) : Out :=
  .next (s.issueMove u.slot g e f false fun v s =>
    let (i, s) := s.vin u v n
    let (r, fl) := masked op keepX i
    s.short u.slot.unit (.vec r) fl none)
/-- A short operation that ignores the mask. -/
def vecWhole (u : VUnit) (g : BitVec 4) (e : Bool) (f : BitVec 10) (n : Nat) (op : VIn → VVal × Flags) (s : State) : Out :=
  .next (s.issueMove u.slot g e f false fun v s =>
    let (i, s) := s.vin u v n
    s.short u.slot.unit (.vec (op i).1) (op i).2 none)
/-- R210: a long operation of `cycles` cycles; a ninth in flight holds the group. -/
def vecLong (u : VUnit) (g : BitVec 4) (e : Bool) (f : BitVec 10) (n cycles : Nat) (op : VIn → VVal × Flags) (s : State) : Out :=
  .next (s.issueMove u.slot g e f false fun v s => s.needD u.slot fun d s =>
    if 8 ≤ s.pipe.longs.countP (fun l => l.unit == u.slot.unit) then s.hold 0
    else
      let (i, s) := s.vin u v n
      s.long u.slot.unit (.vec (op i).1) (op i).2 d cycles)
/-- MSEL (R40, R208): the latch takes bits [2:0]. -/
def execMsel (u : VUnit) (g : BitVec 4) (e : Bool) (f : BitVec 10) (s : State) : Out :=
  .next (s.issueMove u.slot g e f false fun v s => s.needClean u.slot v.poiS (f.setWidth 64) fun s =>
    (s.modPipe fun p => { p with units := (p.units.mend (8 + u.slot.index)).setV u.slot { p.units.vec u with msel := v.toS.val.setWidth 3 } }).issued)

/-! ## Floating arithmetic (R214) -/

/-- An operation on the exact values of a, b, f: towards −∞ or not, then the result; `none` when it copies instead. -/
inductive FpOp | add | sub | mul | fma | fms | nma | min | max | abs | neg | cpys
deriving DecidableEq, Repr
/-- Whether the operation rounds, and so draws in MODE 4. -/
def FpOp.rounds : FpOp → Bool | .min | .max | .abs | .neg | .cpys => false | _ => true
/-- Whether the operation reads X, and Y. -/
def FpOp.readsX : FpOp → Bool | .abs | .neg => false | _ => true
/-- See `FpOp.readsX`. -/
def FpOp.readsY : FpOp → Bool | .fma | .fms | .nma => true | _ => false
/-- A value copied without rounding: NaN stays NaN. -/
def signed (x : Fx) (neg : Bool) : Res := match x with | .nan => .nan | .inf _ => .inf neg | .fin _ m e => .ex ⟨neg, m, e, false⟩
/-- Table 9.3: the exact result with a = X, b = Y, f = F; `down` when RMODE rounds towards −∞ (R185). -/
def FpOp.exact (op : FpOp) (down : Bool) (a b f : Fx) : Res :=
  match op with
  | .add => fxAdd down a f
  | .sub => fxAdd down a f.neg
  | .mul => fxMulRes a f
  | .fma => fxFma down f a b
  | .fms => fxFma down f a b.neg
  | .nma => fxFma down f.neg a b
  | .min => if a = .nan || f = .nan then .nan else (if fxTotalLt f a then f else a).res
  | .max => if a = .nan || f = .nan then .nan else (if fxTotalLt a f then f else a).res
  | .abs => signed f false
  | .neg => signed f !f.isNeg
  | .cpys => if a = .nan then .nan else signed f a.isNeg
/-- The result code and flags of an operation in a format with draw `d`. -/
def FpOp.code (op : FpOp) (F : Fmt) (mode d : Nat) (a b f : Nat) : Nat × Flags :=
  let (c, fl, _) := (op.exact (mode = 3) (F.decode a) (F.decode b) (F.decode f)).code F mode d
  (c, fl)
/-- A lane of a floating operation of type `t` (0 .F, 1 .H, 2 .B). -/
def FpOp.lane (op : FpOp) (t : BitVec 2) : LaneOp := fun v i =>
  let bad := (op.readsX && v.px i.val) || (op.readsY && v.py i.val) || v.pf i.val
  if t = 0 then
    let (c, fl) := op.code fp32 v.mode (v.draw i.val) (v.xl i).toNat (v.yl i).toNat (v.fl i).toNat
    (w32 c, fl, bad)
  else
    let F := if t = 1 then fp16 else bf16
    let el (j : Nat) : Nat × Flags := op.code F v.mode (v.draw j) (elem v.x.val j) (elem v.y.val j) (elem v.f.val j)
    (w32 ((el (2 * i.val)).1 + 65536 * (el (2 * i.val + 1)).1), (el (2 * i.val)).2 ||| (el (2 * i.val + 1)).2, bad)
/-- R214: a floating operation of a type; type 3 is no port (R213) and raises cause 0x02. -/
def vecFp (op : FpOp) (u : VUnit) (g : BitVec 4) (t : BitVec 2) (e : Bool) (f : BitVec 10) (s : State) : Out :=
  if t = 3 then .next (s.trapAt u.slot 0x02 (s.moveAddr u.slot))
  else vecShort u g e f (if op.rounds then (if t = 0 then 256 else 512) else 0) (op.lane t) s
/-- FADD (R214, Table 9.3). -/
def execFadd (u : VUnit) (g : BitVec 4) (t : BitVec 2) (e : Bool) (f : BitVec 10) (s : State) : Out := vecFp .add u g t e f s
/-- FSUB (R214, Table 9.3). -/
def execFsub (u : VUnit) (g : BitVec 4) (t : BitVec 2) (e : Bool) (f : BitVec 10) (s : State) : Out := vecFp .sub u g t e f s
/-- FMUL (R214, Table 9.3). -/
def execFmul (u : VUnit) (g : BitVec 4) (t : BitVec 2) (e : Bool) (f : BitVec 10) (s : State) : Out := vecFp .mul u g t e f s
/-- FFMA (R214, Table 9.3). -/
def execFfma (u : VUnit) (g : BitVec 4) (t : BitVec 2) (e : Bool) (f : BitVec 10) (s : State) : Out := vecFp .fma u g t e f s
/-- FFMS (R214, Table 9.3). -/
def execFfms (u : VUnit) (g : BitVec 4) (t : BitVec 2) (e : Bool) (f : BitVec 10) (s : State) : Out := vecFp .fms u g t e f s
/-- FNMA (R214, Table 9.3). -/
def execFnma (u : VUnit) (g : BitVec 4) (t : BitVec 2) (e : Bool) (f : BitVec 10) (s : State) : Out := vecFp .nma u g t e f s
/-- FMIN (R214, Table 9.3). -/
def execFmin (u : VUnit) (g : BitVec 4) (t : BitVec 2) (e : Bool) (f : BitVec 10) (s : State) : Out := vecFp .min u g t e f s
/-- FMAX (R214, Table 9.3). -/
def execFmax (u : VUnit) (g : BitVec 4) (t : BitVec 2) (e : Bool) (f : BitVec 10) (s : State) : Out := vecFp .max u g t e f s
/-- FABS (R214, Table 9.3). -/
def execFabs (u : VUnit) (g : BitVec 4) (t : BitVec 2) (e : Bool) (f : BitVec 10) (s : State) : Out := vecFp .abs u g t e f s
/-- FNEG (R214, Table 9.3). -/
def execFneg (u : VUnit) (g : BitVec 4) (t : BitVec 2) (e : Bool) (f : BitVec 10) (s : State) : Out := vecFp .neg u g t e f s
/-- FCPYS (R214, Table 9.3). -/
def execFcpys (u : VUnit) (g : BitVec 4) (t : BitVec 2) (e : Bool) (f : BitVec 10) (s : State) : Out := vecFp .cpys u g t e f s

/-! ## Compares and select (R215, R216) -/

/-- R215: a compare: lanes of 0 or 1 in q0 and through D; inactive lanes 0. -/
def vecCmp (u : VUnit) (g : BitVec 4) (e : Bool) (f : BitVec 10) (cond : W32 → W32 → Bool) (s : State) : Out :=
  .next (s.issueMove u.slot g e f false fun v s => s.needD u.slot fun d s =>
    let (i, s) := s.vin u v 0
    let (r, _) := masked (fun v i => (boolWord 32 (cond (v.xl i) (v.fl i)), 0, v.px i.val || v.pf i.val)) (fun _ _ => (0, false)) i
    s.short u.slot.unit (.vec r) 0 (some d))
/-- FCMP.EQ (R215). -/
def execFcmpEq (u : VUnit) (g : BitVec 4) (e : Bool) (f : BitVec 10) (s : State) : Out := vecCmp u g e f (fun x f => fxEq (fx32 x) (fx32 f)) s
/-- FCMP.NE (R215). -/
def execFcmpNe (u : VUnit) (g : BitVec 4) (e : Bool) (f : BitVec 10) (s : State) : Out := vecCmp u g e f (fun x f => !fxEq (fx32 x) (fx32 f)) s
/-- FCMP.LT (R215). -/
def execFcmpLt (u : VUnit) (g : BitVec 4) (e : Bool) (f : BitVec 10) (s : State) : Out := vecCmp u g e f (fun x f => fxLt (fx32 x) (fx32 f)) s
/-- FCMP.LE (R215). -/
def execFcmpLe (u : VUnit) (g : BitVec 4) (e : Bool) (f : BitVec 10) (s : State) : Out := vecCmp u g e f (fun x f => fxLt (fx32 x) (fx32 f) || fxEq (fx32 x) (fx32 f)) s
/-- FCMP.UN (R215). -/
def execFcmpUn (u : VUnit) (g : BitVec 4) (e : Bool) (f : BitVec 10) (s : State) : Out := vecCmp u g e f (fun x f => isNan32 x || isNan32 f) s
/-- ICMP.EQ (R215). -/
def execIcmpEq (u : VUnit) (g : BitVec 4) (e : Bool) (f : BitVec 10) (s : State) : Out := vecCmp u g e f (fun x f => x == f) s
/-- ICMP.NE (R215). -/
def execIcmpNe (u : VUnit) (g : BitVec 4) (e : Bool) (f : BitVec 10) (s : State) : Out := vecCmp u g e f (fun x f => x != f) s
/-- ICMP.LT (R215). -/
def execIcmpLt (u : VUnit) (g : BitVec 4) (e : Bool) (f : BitVec 10) (s : State) : Out := vecCmp u g e f (fun x f => x.slt f) s
/-- ICMP.LE (R215). -/
def execIcmpLe (u : VUnit) (g : BitVec 4) (e : Bool) (f : BitVec 10) (s : State) : Out := vecCmp u g e f (fun x f => x.sle f) s
/-- ICMP.LTU (R215). -/
def execIcmpLtu (u : VUnit) (g : BitVec 4) (e : Bool) (f : BitVec 10) (s : State) : Out := vecCmp u g e f (fun x f => x.ult f) s
/-- ICMP.LEU (R215). -/
def execIcmpLeu (u : VUnit) (g : BitVec 4) (e : Bool) (f : BitVec 10) (s : State) : Out := vecCmp u g e f (fun x f => x.ule f) s
/-- VSEL (R216) (DEDUCED log 52). -/
def execVsel (u : VUnit) (g : BitVec 4) (e : Bool) (f : BitVec 10) (s : State) : Out :=
  vecShort u g e f 0 (fun v i => if v.yl i != 0 then (v.fl i, 0, v.pf i.val || v.py i.val) else (v.xl i, 0, v.px i.val || v.py i.val)) s

/-! ## Integer operations (R217) -/

/-- A lane-wise integer operation on a = X and f = F. -/
def vecInt (h : W32 → W32 → W32) (u : VUnit) (g : BitVec 4) (e : Bool) (f : BitVec 10) (s : State) : Out :=
  vecShort u g e f 0 (fun v i => (h (v.xl i) (v.fl i), 0, v.px i.val || v.pf i.val)) s
/-- SAT to 32 bits (R6). -/
def sat32 (v : Int) : W32 := BitVec.ofInt 32 (if v < -(2 ^ 31) then -(2 ^ 31) else if 2 ^ 31 - 1 < v then 2 ^ 31 - 1 else v)
/-- IADD (R217, Table 9.4). -/
def execIadd (u : VUnit) (g : BitVec 4) (e : Bool) (f : BitVec 10) (s : State) : Out := vecInt (fun a f => a + f) u g e f s
/-- ISUB (R217, Table 9.4). -/
def execIsub (u : VUnit) (g : BitVec 4) (e : Bool) (f : BitVec 10) (s : State) : Out := vecInt (fun a f => a - f) u g e f s
/-- IMUL (R217, Table 9.4). -/
def execImul (u : VUnit) (g : BitVec 4) (e : Bool) (f : BitVec 10) (s : State) : Out := vecInt (fun a f => a * f) u g e f s
/-- IMULH (R217, Table 9.4). -/
def execImulh (u : VUnit) (g : BitVec 4) (e : Bool) (f : BitVec 10) (s : State) : Out := vecInt (fun a f => BitVec.ofInt 32 (a.toInt * f.toInt / 2 ^ 32)) u g e f s
/-- IMULHU (R217, Table 9.4). -/
def execImulhu (u : VUnit) (g : BitVec 4) (e : Bool) (f : BitVec 10) (s : State) : Out := vecInt (fun a f => BitVec.ofNat 32 (a.toNat * f.toNat / 2 ^ 32)) u g e f s
/-- IAND (R217, Table 9.4). -/
def execIand (u : VUnit) (g : BitVec 4) (e : Bool) (f : BitVec 10) (s : State) : Out := vecInt (fun a f => a &&& f) u g e f s
/-- IOR (R217, Table 9.4). -/
def execIor (u : VUnit) (g : BitVec 4) (e : Bool) (f : BitVec 10) (s : State) : Out := vecInt (fun a f => a ||| f) u g e f s
/-- IXOR (R217, Table 9.4). -/
def execIxor (u : VUnit) (g : BitVec 4) (e : Bool) (f : BitVec 10) (s : State) : Out := vecInt (fun a f => a ^^^ f) u g e f s
/-- IANDN (R217, Table 9.4). -/
def execIandn (u : VUnit) (g : BitVec 4) (e : Bool) (f : BitVec 10) (s : State) : Out := vecInt (fun a f => a &&& ~~~f) u g e f s
/-- ISHL (R217, Table 9.4). -/
def execIshl (u : VUnit) (g : BitVec 4) (e : Bool) (f : BitVec 10) (s : State) : Out := vecInt (fun a f => a <<< (f.toNat % 32)) u g e f s
/-- ISHR (R217, Table 9.4). -/
def execIshr (u : VUnit) (g : BitVec 4) (e : Bool) (f : BitVec 10) (s : State) : Out := vecInt (fun a f => a >>> (f.toNat % 32)) u g e f s
/-- ISAR (R217, Table 9.4). -/
def execIsar (u : VUnit) (g : BitVec 4) (e : Bool) (f : BitVec 10) (s : State) : Out := vecInt (fun a f => a.sshiftRight (f.toNat % 32)) u g e f s
/-- IMIN (R217, Table 9.4). -/
def execImin (u : VUnit) (g : BitVec 4) (e : Bool) (f : BitVec 10) (s : State) : Out := vecInt (fun a f => if f.slt a then f else a) u g e f s
/-- IMAX (R217, Table 9.4). -/
def execImax (u : VUnit) (g : BitVec 4) (e : Bool) (f : BitVec 10) (s : State) : Out := vecInt (fun a f => if a.slt f then f else a) u g e f s
/-- IMINU (R217, Table 9.4). -/
def execIminu (u : VUnit) (g : BitVec 4) (e : Bool) (f : BitVec 10) (s : State) : Out := vecInt (fun a f => if f.ult a then f else a) u g e f s
/-- IMAXU (R217, Table 9.4). -/
def execImaxu (u : VUnit) (g : BitVec 4) (e : Bool) (f : BitVec 10) (s : State) : Out := vecInt (fun a f => if a.ult f then f else a) u g e f s
/-- IADD.SAT (R217, Table 9.4). -/
def execIaddSat (u : VUnit) (g : BitVec 4) (e : Bool) (f : BitVec 10) (s : State) : Out := vecInt (fun a f => sat32 (a.toInt + f.toInt)) u g e f s
/-- ISUB.SAT (R217, Table 9.4). -/
def execIsubSat (u : VUnit) (g : BitVec 4) (e : Bool) (f : BitVec 10) (s : State) : Out := vecInt (fun a f => sat32 (a.toInt - f.toInt)) u g e f s
/-- IABS (R217, Table 9.4): −2^31 gives −2^31. -/
def execIabs (u : VUnit) (g : BitVec 4) (e : Bool) (f : BitVec 10) (s : State) : Out :=
  vecShort u g e f 0 (fun v i => (if (v.fl i).msb then -(v.fl i) else v.fl i, 0, v.pf i.val)) s

/-! ## Conversions (R218) -/

/-- A packed element of F from element `k` on, as fp32. -/
def widen (F : Fmt) (k : Nat) : LaneOp := fun v i =>
  let (c, fl, _) := (F.decode (elem v.f.val (k + i.val))).res.code fp32 0 0
  (w32 c, fl, v.pf ((k + i.val) / 2))
/-- CVT.F.H (R218, Table 9.5). -/
def execCvtFH (u : VUnit) (g : BitVec 4) (e : Bool) (f : BitVec 10) (s : State) : Out := vecShort u g e f 0 (widen fp16 0) s
/-- CVT.F.HH (R218). -/
def execCvtFHh (u : VUnit) (g : BitVec 4) (e : Bool) (f : BitVec 10) (s : State) : Out := vecShort u g e f 0 (widen fp16 256) s
/-- CVT.F.B (R218). -/
def execCvtFB (u : VUnit) (g : BitVec 4) (e : Bool) (f : BitVec 10) (s : State) : Out := vecShort u g e f 0 (widen bf16 0) s
/-- CVT.F.BH (R218). -/
def execCvtFBh (u : VUnit) (g : BitVec 4) (e : Bool) (f : BitVec 10) (s : State) : Out := vecShort u g e f 0 (widen bf16 256) s
/-- 512 elements from the lanes of X, then of F, each rounded with its own draw; the mask is ignored. -/
def narrow (F : Fmt) (v : VIn) : VVal × Flags :=
  let src (j : Nat) : W32 := if j < 256 then Vec.lane v.x.val j else Vec.lane v.f.val (j - 256)
  let bad (j : Nat) : Bool := if j < 256 then v.px j else v.pf (j - 256)
  let el (j : Nat) : Nat × Flags := let (c, fl, _) := (fx32 (src j)).res.code F v.mode (v.draw j); (c, fl)
  (⟨Vec.tab fun i => w32 ((el (2 * i.val)).1 + 65536 * (el (2 * i.val + 1)).1), maskOf fun i => bad (2 * i.val) || bad (2 * i.val + 1)⟩,
   orFlags ((List.range 512).map fun j => (el j).2))
/-- CVT.H.F (R218). -/
def execCvtHF (u : VUnit) (g : BitVec 4) (e : Bool) (f : BitVec 10) (s : State) : Out := vecWhole u g e f 512 (narrow fp16) s
/-- CVT.B.F (R218). -/
def execCvtBF (u : VUnit) (g : BitVec 4) (e : Bool) (f : BitVec 10) (s : State) : Out := vecWhole u g e f 512 (narrow bf16) s
/-- CVT.I.F (R199, R218). -/
def execCvtIF (u : VUnit) (g : BitVec 4) (e : Bool) (f : BitVec 10) (s : State) : Out :=
  vecShort u g e f 256 (fun v i =>
    let (c, fl) := toIntN 32 v.rm.isat v.mode (v.draw i.val) (fx32 (v.fl i))
    (w32 c, fl, v.pf i.val)) s
/-- CVT.F.I (R218). -/
def execCvtFI (u : VUnit) (g : BitVec 4) (e : Bool) (f : BitVec 10) (s : State) : Out :=
  vecShort u g e f 256 (fun v i =>
    let (c, fl, _) := fp32.round v.mode (v.draw i.val) (intEx (v.fl i).toInt)
    (w32 c, fl, v.pf i.val)) s
/-- CVT.I8.I (R199, R218): byte i from lane i, bytes 256 to 1,023 zero; the mask is ignored. -/
def execCvtI8I (u : VUnit) (g : BitVec 4) (e : Bool) (f : BitVec 10) (s : State) : Out :=
  vecWhole u g e f 0 (fun v =>
    let el (k : Nat) : Nat × Flags := narrowInt 8 v.rm.isat (Vec.lane v.f.val k).toInt
    (⟨vecOfBytes fun k => if k < 256 then (el k).1 else 0, maskOf fun i => i.val < 64 && (List.range 4).any fun k => v.pf (4 * i.val + k)⟩,
     orFlags ((List.range 256).map fun k => (el k).2))) s
/-- CVT.I.I8 (R218). -/
def execCvtII8 (u : VUnit) (g : BitVec 4) (e : Bool) (f : BitVec 10) (s : State) : Out :=
  vecShort u g e f 0 (fun v i => ((BitVec.ofNat 8 (vecByte v.f.val i.val)).signExtend 32, 0, v.pf (i.val / 4))) s

/-! ## Permutes (R219) -/

/-- A permute: active lane `i` from the count k = Y.lane[0][7:0]: `true` for a lane of F, `false` for a lane of X. Poison moves with
the lane, and a poisoned count poisons it (DEDUCED log 52). -/
def vecPerm (src : Nat → Nat → Bool × Nat) (u : VUnit) (g : BitVec 4) (e : Bool) (f : BitVec 10) (s : State) : Out :=
  vecShort u g e f 0 (fun v i =>
    let (fromF, j) := src ((v.yl 0).toNat % 256) i.val
    if fromF then (Vec.lane v.f.val j, 0, v.pf j || v.py 0) else (Vec.lane v.x.val j, 0, v.px j || v.py 0)) s
/-- VBCAST (Table 9.6). -/
def execVbcast (u : VUnit) (g : BitVec 4) (e : Bool) (f : BitVec 10) (s : State) : Out := vecPerm (fun k _ => (true, k)) u g e f s
/-- VPERM (Table 9.6): each lane its own index. -/
def execVperm (u : VUnit) (g : BitVec 4) (e : Bool) (f : BitVec 10) (s : State) : Out :=
  vecShort u g e f 0 (fun v i =>
    let j := (v.yl i).toNat % 256
    (Vec.lane v.f.val j, 0, v.pf j || v.py i.val)) s
/-- VROT (Table 9.6). -/
def execVrot (u : VUnit) (g : BitVec 4) (e : Bool) (f : BitVec 10) (s : State) : Out := vecPerm (fun k i => (true, (i + k) % 256)) u g e f s
/-- VSLUP (Table 9.6). -/
def execVslup (u : VUnit) (g : BitVec 4) (e : Bool) (f : BitVec 10) (s : State) : Out := vecPerm (fun k i => if k ≤ i then (true, i - k) else (false, i)) u g e f s
/-- VSLDN (Table 9.6). -/
def execVsldn (u : VUnit) (g : BitVec 4) (e : Bool) (f : BitVec 10) (s : State) : Out := vecPerm (fun k i => if i + k ≤ 255 then (true, i + k) else (false, i)) u g e f s
/-- VEXTL (Table 9.6). -/
def execVextl (u : VUnit) (g : BitVec 4) (e : Bool) (f : BitVec 10) (s : State) : Out := vecPerm (fun k i => if i + k ≤ 255 then (false, i + k) else (true, i + k - 256)) u g e f s

/-! ## Mask operations (R220) -/

/-- A lane-wise truth operation. -/
def vecMask (h : Bool → Bool → Bool) (u : VUnit) (g : BitVec 4) (e : Bool) (f : BitVec 10) (s : State) : Out :=
  vecShort u g e f 0 (fun v i => (boolWord 32 (h (v.xl i != 0) (v.fl i != 0)), 0, v.px i.val || v.pf i.val)) s
/-- MAND (Table 9.7). -/
def execMand (u : VUnit) (g : BitVec 4) (e : Bool) (f : BitVec 10) (s : State) : Out := vecMask (fun x f => x && f) u g e f s
/-- MOR (Table 9.7). -/
def execMor (u : VUnit) (g : BitVec 4) (e : Bool) (f : BitVec 10) (s : State) : Out := vecMask (fun x f => x || f) u g e f s
/-- MXOR (Table 9.7). -/
def execMxor (u : VUnit) (g : BitVec 4) (e : Bool) (f : BitVec 10) (s : State) : Out := vecMask (fun x f => x != f) u g e f s
/-- MNOT (Table 9.7). -/
def execMnot (u : VUnit) (g : BitVec 4) (e : Bool) (f : BitVec 10) (s : State) : Out :=
  vecShort u g e f 0 (fun v i => (boolWord 32 (v.fl i == 0), 0, v.pf i.val)) s
/-- A count over the active lanes, in every lane; poisoned when an active lane of F is. -/
def vecCount (h : List (Fin 256) → Nat) (u : VUnit) (g : BitVec 4) (e : Bool) (f : BitVec 10) (s : State) : Out :=
  vecWhole u g e f 0 (fun v =>
    let r := h (lanes.filter fun i => v.act.getLsbD i.val && v.fl i != 0)
    (⟨Vec.splat (BitVec.ofNat 32 r), maskAll (v.bad || v.act &&& v.f.poi != 0)⟩, 0)) s
/-- MPOP (Table 9.7). -/
def execMpop (u : VUnit) (g : BitVec 4) (e : Bool) (f : BitVec 10) (s : State) : Out := vecCount (fun l => l.length) u g e f s
/-- MFIRST (Table 9.7). -/
def execMfirst (u : VUnit) (g : BitVec 4) (e : Bool) (f : BitVec 10) (s : State) : Out := vecCount (fun l => match l with | i :: _ => i.val | [] => 256) u g e f s

/-! ## Special functions (R221) -/

/-- A long lane-wise operation of `n` draws whose inactive lanes keep X. -/
def vecFn (n cycles : Nat) (readsX : Bool) (h : VIn → Fin 256 → W32 × Flags) (u : VUnit) (g : BitVec 4) (e : Bool) (f : BitVec 10) (s : State) : Out :=
  vecLong u g e f n cycles (masked (fun v i => ((h v i).1, (h v i).2, (readsX && v.px i.val) || v.pf i.val)) keepX) s
/-- ROUND of an exact result under RMODE. -/
def roundLane (v : VIn) (i : Fin 256) (r : Res) : W32 × Flags := let (c, fl, _) := r.code fp32 v.mode (v.draw i.val); (w32 c, fl)
/-- One of the two enclosing fp32 values, the choice a fixed function of the input (DESIGN CHOICE log 12); an overflow follows Table 8.6 under
MODE 0. -/
def enclosing (op : Nat) (f : W32) (r : Res) : W32 × Flags :=
  let (c, fl, ov) := r.code fp32 (if Config.enclosesAbove op f then 2 else 3) 0
  if ov then
    let (c, fl, _) := r.code fp32 0 0
    (w32 c, fl)
  else (w32 c, fl)
/-- 1/√f (Table 9.8). -/
def rsqrtRes (x : Fx) : Res :=
  match x with
  | .nan => .nan
  | .inf true => .nv
  | .inf false => .ex ⟨false, 0, 0, false⟩
  | .fin n m e => if m = 0 then .dz n else if n then .nv else .ex (rsqrtMag m e)
/-- √f (Table 9.8). -/
def sqrtRes (x : Fx) : Res :=
  match x with
  | .nan => .nan
  | .inf true => .nv
  | .inf false => .inf false
  | .fin n m e => if m = 0 then .ex ⟨n, 0, 0, false⟩ else if n then .nv else .ex (sqrtMag m e)
/-- 2^f (Table 9.8). -/
def exp2Res (x : Fx) : Res :=
  match x with
  | .nan => .nan
  | .inf true => .ex ⟨false, 0, 0, false⟩
  | .inf false => .inf false
  | .fin n m e =>
    if m = 0 then .ex ⟨false, 1, 0, false⟩
    else if 10 ≤ (Nat.log2 m : Int) + e then .ex ⟨false, 1, if n then -2000 else 2000, true⟩
    else .ex (exp2Mag n m e)
/-- log2 f (Table 9.8). -/
def log2Res (x : Fx) : Res :=
  match x with
  | .nan => .nan
  | .inf true => .nv
  | .inf false => .inf false
  | .fin n m e => if m = 0 then .dz true else if n then .nv else .ex (log2Mag m e)
/-- FRCP (R221). -/
def execFrcp (u : VUnit) (g : BitVec 4) (e : Bool) (f : BitVec 10) (s : State) : Out := vecFn 256 8 false (fun v i => roundLane v i (fxDiv (.fin false 1 0) (fx32 (v.fl i)))) u g e f s
/-- FRSQ (R221). -/
def execFrsq (u : VUnit) (g : BitVec 4) (e : Bool) (f : BitVec 10) (s : State) : Out := vecFn 0 8 false (fun v i => enclosing 0 (v.fl i) (rsqrtRes (fx32 (v.fl i)))) u g e f s
/-- FSQRT (R221). -/
def execFsqrt (u : VUnit) (g : BitVec 4) (e : Bool) (f : BitVec 10) (s : State) : Out := vecFn 256 12 false (fun v i => roundLane v i (sqrtRes (fx32 (v.fl i)))) u g e f s
/-- FEXP2 (R221). -/
def execFexp2 (u : VUnit) (g : BitVec 4) (e : Bool) (f : BitVec 10) (s : State) : Out := vecFn 0 8 false (fun v i => enclosing 1 (v.fl i) (exp2Res (fx32 (v.fl i)))) u g e f s
/-- FLOG2 (R221). -/
def execFlog2 (u : VUnit) (g : BitVec 4) (e : Bool) (f : BitVec 10) (s : State) : Out := vecFn 0 8 false (fun v i => enclosing 2 (v.fl i) (log2Res (fx32 (v.fl i)))) u g e f s
/-- FDIV (R221): f / x. -/
def execFdiv (u : VUnit) (g : BitVec 4) (e : Bool) (f : BitVec 10) (s : State) : Out := vecFn 256 12 true (fun v i => roundLane v i (fxDiv (fx32 (v.fl i)) (fx32 (v.xl i)))) u g e f s

/-! ## Reductions (R205, R222) -/

/-- One level of the tree of R205. -/
def pairs {α : Type} (h : α → α → α) : List α → List α
  | a :: b :: r => h a b :: pairs h r
  | l => l
/-- The tree of R205 over a list of 2^n terms. -/
def tree {α : Type} (h : α → α → α) : Nat → List α → List α
  | 0, l => l
  | n + 1, l => tree h n (pairs h l)
/-- R222: a reduction: the tree over F's active lanes, the identity elsewhere, broadcast. -/
def vecReduce (ident : W32) (comb : W32 → W32 → W32 × Flags) (nan : Bool) (u : VUnit) (g : BitVec 4) (e : Bool) (f : BitVec 10) (s : State) : Out :=
  vecLong u g e f 0 10 (fun v =>
    let terms := lanes.map fun i => (if v.act.getLsbD i.val then v.fl i else ident, (0 : Flags))
    let (r, fl) := ((tree (fun a b => let (c, fl) := comb a.1 b.1; (c, a.2 ||| b.2 ||| fl)) 8 terms).headD (ident, 0))
    let bad := nan && lanes.any fun i => v.act.getLsbD i.val && isNan32 (v.fl i)
    (⟨Vec.splat (if bad then nan32 else r), maskAll (v.bad || v.act &&& v.f.poi != 0)⟩, fl ||| flagIf bad fNAN)) s
/-- FMAX or FMIN of two lanes (R214). -/
def extreme (op : FpOp) (a b : W32) : W32 × Flags := let (c, fl) := op.code fp32 0 0 a.toNat 0 b.toNat; (w32 c, fl)
/-- RSUM.F (Table 9.9). -/
def execRsumF (u : VUnit) (g : BitVec 4) (e : Bool) (f : BitVec 10) (s : State) : Out := vecReduce 0x80000000 fadd32 true u g e f s
/-- RMAX.F (Table 9.9). -/
def execRmaxF (u : VUnit) (g : BitVec 4) (e : Bool) (f : BitVec 10) (s : State) : Out := vecReduce 0xFF800000 (extreme .max) true u g e f s
/-- RMIN.F (Table 9.9). -/
def execRminF (u : VUnit) (g : BitVec 4) (e : Bool) (f : BitVec 10) (s : State) : Out := vecReduce 0x7F800000 (extreme .min) true u g e f s
/-- RSUM.I (Table 9.9). -/
def execRsumI (u : VUnit) (g : BitVec 4) (e : Bool) (f : BitVec 10) (s : State) : Out := vecReduce 0 (fun a b => (a + b, 0)) false u g e f s
/-- RMAX.I (Table 9.9). -/
def execRmaxI (u : VUnit) (g : BitVec 4) (e : Bool) (f : BitVec 10) (s : State) : Out := vecReduce 0x80000000 (fun a b => (if a.slt b then b else a, 0)) false u g e f s
/-- RMIN.I (Table 9.9). -/
def execRminI (u : VUnit) (g : BitVec 4) (e : Bool) (f : BitVec 10) (s : State) : Out := vecReduce 0x7FFFFFFF (fun a b => (if b.slt a then b else a, 0)) false u g e f s

/-! ## Triples, quantise and dequantise (R223 to R226) -/

/-- SMX (R223). -/
def execSmx (u : VUnit) (g : BitVec 4) (e : Bool) (f : BitVec 10) (s : State) : Out :=
  vecLong u g e f 0 12 (fun v =>
    let (r, nan, fl) := smxCombine v.x.val v.f.val
    (⟨r, maskAll (v.x.poi != 0 || v.f.poi != 0)⟩, fl ||| flagIf nan fNAN)) s
/-- SMXF (R224). -/
def execSmxf (u : VUnit) (g : BitVec 4) (e : Bool) (f : BitVec 10) (s : State) : Out :=
  vecLong u g e f 0 12 (fun v => (⟨(smxFinal v.f.val).1, maskAll (v.f.poi != 0)⟩, (smxFinal v.f.val).2)) s
/-- R192: a format register read by an operation of slot `sl`: an invalid one raises cause 0x0F with its index. -/
def State.needFmt (s : State) (sl : Slot) (n : BitVec 3) (act : BitVec 24 → State → State) : State :=
  let r := s.pipe.fmt n
  if fmtValid r then act r s else s.trapAt sl 0x0F (n.setWidth 64)
/-- QNT.fn (R202, R203, R225): D, then the format, then the room for one more operation are looked at in this order (DESIGN CHOICE log 75). -/
def execQnt (u : VUnit) (g : BitVec 4) (n : BitVec 3) (e : Bool) (f : BitVec 10) (s : State) : Out :=
  .next (s.issueMove u.slot g e f false fun v s => s.needD u.slot fun d s => s.needFmt u.slot n fun r s =>
    if 8 ≤ s.pipe.longs.countP (fun l => l.unit == u.slot.unit) then s.hold 0
    else
      let x := v.toV
      let (q, fl, rng) := quantise r s.pipe.rmode.mode.toNat x.val s.pipe.sys2.rng[vStream u]
      let s := if s.pipe.rmode.mode = 4 then s.modPipe fun p => { p with sys2 := { p.sys2 with rng := p.sys2.rng.set (vStream u) rng } } else s
      s.long u.slot.unit (.vec ⟨q, maskAll (x.poi != 0)⟩) fl d 12)
/-- The lanes of a quantised register that DQNT reads under a format: the codes, and as its SCALE has them the bitmap and the scale bytes in use (R211 item 4,
R226). -/
def dqntReads (reg : BitVec 24) (x : Vec) : List Nat :=
  let blocks := (List.range 255).countP fun j => (vecByte x (256 + (j + 1) / 8)).testBit ((j + 1) % 8)
  List.range 64 ++ match fmtScale reg with
    | 0 => []
    | 2 => [72, 73]
    | _ => (List.range 8).map (64 + ·) ++ (List.range (blocks / 4 + 1)).map (72 + ·)
/-- DQNT.fn (R226), its checks in the order of QNT.fn (DESIGN CHOICE log 75). -/
def execDqnt (u : VUnit) (g : BitVec 4) (n : BitVec 3) (e : Bool) (f : BitVec 10) (s : State) : Out :=
  .next (s.issueMove u.slot g e f false fun v s => s.needD u.slot fun d s => s.needFmt u.slot n fun r s =>
    if 8 ≤ s.pipe.longs.countP (fun l => l.unit == u.slot.unit) then s.hold 0
    else
      let (i, s) := s.vin u v 256
      let ln (k : Fin 256) : W32 × Flags := dequantLane r i.mode (i.draw k.val) i.f.val k.val
      s.long u.slot.unit (.vec ⟨Vec.tab fun k => (ln k).1, maskAll ((dqntReads r i.f.val).any fun l => i.f.poi.getLsbD l)⟩) (orFlags (lanes.map fun k => (ln k).2)) d 8)

end Sys2Proof.Machine
end

