-- ==== Sys2Proof/Machine/Dispatch.lean ====
section
/-! DEFINITION. What each step of the machine does: one arm for each constructor of Instr. -/
namespace Sys2Proof.Machine

/-- The meaning of an instruction: on the current core for a move, on the machine for a step without an encoding. -/
def exec (i : Instr) (s : State) : Host.Outcome State Fault Refusal :=
  match i with
  | .bundleDecode => Sys2Proof.Machine.execBundleDecode s
  | .move slot g d e f => Sys2Proof.Machine.execMove slot g d e f s
  | .resultLanding u => Sys2Proof.Machine.execResultLanding u s
  | .longCompletion n => Sys2Proof.Machine.execLongCompletion n s
  | .trapEntry => Sys2Proof.Machine.execTrapEntry s
  | .containmentUnwind => Sys2Proof.Machine.execContainmentUnwind s
  | .pageWalk va => Sys2Proof.Machine.execPageWalk va s
  | .translationFault va acc => Sys2Proof.Machine.execTranslationFault va acc s
  | .collapseFault va => Sys2Proof.Machine.execCollapseFault va s
  | .homeAccess n => Sys2Proof.Machine.execHomeAccess n s
  | .atomicAtHome parts => Sys2Proof.Machine.execAtomicAtHome parts s
  | .flueWaitExpiry n => Sys2Proof.Machine.execFlueWaitExpiry n s
  | .logicalTimeAdvance k => Sys2Proof.Machine.execLogicalTimeAdvance k s
  | .packetHop n => Sys2Proof.Machine.execPacketHop n s
  | .flitCrcFailure d port => Sys2Proof.Machine.execFlitCrcFailure d port s
  | .linkDown d port => Sys2Proof.Machine.execLinkDown d port s
  | .lineWriteback line => Sys2Proof.Machine.execLineWriteback line s
  | .persistTrackerWriteback => Sys2Proof.Machine.execPersistTrackerWriteback s
  | .durableCompletion n => Sys2Proof.Machine.execDurableCompletion n s
  | .migrationCopyPass n => Sys2Proof.Machine.execMigrationCopyPass n s
  | .migrationSwitch n => Sys2Proof.Machine.execMigrationSwitch n s
  | .migrationRedirectEnd n => Sys2Proof.Machine.execMigrationRedirectEnd n s
  | .hbmReadError pa uncorrectable => Sys2Proof.Machine.execHbmReadError pa uncorrectable s
  | .patrolScrub d errs => Sys2Proof.Machine.execPatrolScrub d errs s
  | .bankIdleExpiry b => Sys2Proof.Machine.execBankIdleExpiry b s
  | .bankEntryComplete b => Sys2Proof.Machine.execBankEntryComplete b s
  | .bankExitComplete b => Sys2Proof.Machine.execBankExitComplete b s
  | .syncArrival c off w => Sys2Proof.Machine.execSyncArrival c off w s
  | .engineWritePerformed k n => Sys2Proof.Machine.execEngineWritePerformed k n s
  | .engineCompletion k n => Sys2Proof.Machine.execEngineCompletion k n s
  | .collectiveCall n rank => Sys2Proof.Machine.execCollectiveCall n rank s
  | .reductionCombine n rank => Sys2Proof.Machine.execReductionCombine n rank s
  | .xreshPhase n => Sys2Proof.Machine.execXreshPhase n s
  | .xreshSwitch n => Sys2Proof.Machine.execXreshSwitch n s
  | .mopldComplete slot => Sys2Proof.Machine.execMopldComplete slot s
  | .channelDelivery n => Sys2Proof.Machine.execChannelDelivery n s
  | .ashpitRefill ch => Sys2Proof.Machine.execAshpitRefill ch s
  | .growCheck d => Sys2Proof.Machine.execGrowCheck d s
  | .kvReservation k n => Sys2Proof.Machine.execKvReservation k n s
  | .tileExecution => Sys2Proof.Machine.execTileExecution s
  | .mzeroExecution => Sys2Proof.Machine.execMzeroExecution s
  | .mbankExecution => Sys2Proof.Machine.execMbankExecution s
  | .drainExecution => Sys2Proof.Machine.execDrainExecution s
  | .groupFormation => Sys2Proof.Machine.execGroupFormation s
  | .tickRelease ch => Sys2Proof.Machine.execTickRelease ch s
  | .stepDeadline q => Sys2Proof.Machine.execStepDeadline q s
  | .ingestDescriptor q => Sys2Proof.Machine.execIngestDescriptor q s
  | .ppsEdge => Sys2Proof.Machine.execPpsEdge s
  | .todFrame frame => Sys2Proof.Machine.execTodFrame frame s
  | .timeHoldover => Sys2Proof.Machine.execTimeHoldover s
  | .cardDispatch job c => Sys2Proof.Machine.execCardDispatch job c s
  | .cardDeadlineExpiry => Sys2Proof.Machine.execCardDeadlineExpiry s
  | .coreRejoin => Sys2Proof.Machine.execCoreRejoin s
  | .spanPlacement job ox oy oz cluster => Sys2Proof.Machine.execSpanPlacement job ox oy oz cluster s
  | .preemption => Sys2Proof.Machine.execPreemption s
  | .stateSaveComplete => Sys2Proof.Machine.execStateSaveComplete s
  | .stateLoadComplete job rank cluster => Sys2Proof.Machine.execStateLoadComplete job rank cluster s
  | .quantumExpiry job => Sys2Proof.Machine.execQuantumExpiry job s
  | .recordTake => Sys2Proof.Machine.execRecordTake s
  | .jobCompletion job => Sys2Proof.Machine.execJobCompletion job s
  | .sinkWatchdogExpiry ctx => Sys2Proof.Machine.execSinkWatchdogExpiry ctx s
  | .killDrainAck ctx d => Sys2Proof.Machine.execKillDrainAck ctx d s
  | .killRelease ctx => Sys2Proof.Machine.execKillRelease ctx s
  | .lockstepMismatch d pair => Sys2Proof.Machine.execLockstepMismatch d pair s
  | .lockstepSelftestDone d pair pass => Sys2Proof.Machine.execLockstepSelftestDone d pair pass s
  | .damperMeasure cluster driftPpm => Sys2Proof.Machine.execDamperMeasure cluster driftPpm s
  | .powerLimitThrottle => Sys2Proof.Machine.execPowerLimitThrottle s
  | .powerLimitRestore => Sys2Proof.Machine.execPowerLimitRestore s
  | .railOutOfRange => Sys2Proof.Machine.execRailOutOfRange s
  | .gpf port => Sys2Proof.Machine.execGpf port s
  | .pwrfail => Sys2Proof.Machine.execPwrfail s
  | .duskRecord => Sys2Proof.Machine.execDuskRecord s
  | .bringUp b => Sys2Proof.Machine.execBringUp b s
  | .dieRoutesDrained d => Sys2Proof.Machine.execDieRoutesDrained d s
  | .dieRejoin d => Sys2Proof.Machine.execDieRejoin d s
  | .hostHdmStore pa data => Sys2Proof.Machine.execHostHdmStore pa data s
  | .hostHdmLoad pa n => Sys2Proof.Machine.execHostHdmLoad pa n s
  | .queueTailWrite q tail => Sys2Proof.Machine.execQueueTailWrite q tail s
  | .queueEnable q en => Sys2Proof.Machine.execQueueEnable q en s
  | .queueRegisterWrite q off x => Sys2Proof.Machine.execQueueRegisterWrite q off x s
  | .ident n => Sys2Proof.Machine.execIdent n s
  | .attest n => Sys2Proof.Machine.execAttest n s
  | .configure n => Sys2Proof.Machine.execConfigure n s
  | .contextCreate n => Sys2Proof.Machine.execContextCreate n s
  | .contextKill n => Sys2Proof.Machine.execContextKill n s
  | .mapPages n => Sys2Proof.Machine.execMapPages n s
  | .unmap n => Sys2Proof.Machine.execUnmap n s
  | .protect n => Sys2Proof.Machine.execProtect n s
  | .migrate n => Sys2Proof.Machine.execMigrate n s
  | .replicate n => Sys2Proof.Machine.execReplicate n s
  | .heatRead n => Sys2Proof.Machine.execHeatRead n s
  | .launchCommand n => Sys2Proof.Machine.execLaunchCommand n s
  | .streamCreate n => Sys2Proof.Machine.execStreamCreate n s
  | .streamDestroy n => Sys2Proof.Machine.execStreamDestroy n s
  | .settimeStep n => Sys2Proof.Machine.execSettimeStep n s
  | .settimeAdd n => Sys2Proof.Machine.execSettimeAdd n s
  | .settimeSource n => Sys2Proof.Machine.execSettimeSource n s
  | .tickCfg n => Sys2Proof.Machine.execTickCfg n s
  | .ingestCfg n => Sys2Proof.Machine.execIngestCfg n s
  | .kvpoolCfg n => Sys2Proof.Machine.execKvpoolCfg n s
  | .pfxCfg n => Sys2Proof.Machine.execPfxCfg n s
  | .dieReset n => Sys2Proof.Machine.execDieReset n s
  | .dieIsolate n => Sys2Proof.Machine.execDieIsolate n s
  | .rasQuery n => Sys2Proof.Machine.execRasQuery n s
  | .retireQuery n => Sys2Proof.Machine.execRetireQuery n s
  | .durableFlush n => Sys2Proof.Machine.execDurableFlush n s
  | .shutdown n => Sys2Proof.Machine.execShutdown n s
  | .dawnReport n => Sys2Proof.Machine.execDawnReport n s
  | .getVersion => Sys2Proof.Machine.execGetVersion s
  | .getCapabilities => Sys2Proof.Machine.execGetCapabilities s
  | .negotiateAlgorithms => Sys2Proof.Machine.execNegotiateAlgorithms s
  | .getDigests => Sys2Proof.Machine.execGetDigests s
  | .getCertificate => Sys2Proof.Machine.execGetCertificate s
  | .challenge nonce => Sys2Proof.Machine.execChallenge nonce s
  | .getMeasurements index nonce => Sys2Proof.Machine.execGetMeasurements index nonce s
  | .spdmSessionMessage => Sys2Proof.Machine.execSpdmSessionMessage s
  | .mapreq => Sys2Proof.Machine.execMapreq s
  | .unmapreq => Sys2Proof.Machine.execUnmapreq s
  | .protreq => Sys2Proof.Machine.execProtreq s
  | .notify => Sys2Proof.Machine.execNotify s
  | .rascount => Sys2Proof.Machine.execRascount s
  | .br g e f => Sys2Proof.Machine.execBr g e f s
  | .bri g e f => Sys2Proof.Machine.execBri g e f s
  | .call g e f => Sys2Proof.Machine.execCall g e f s
  | .calli g e f => Sys2Proof.Machine.execCalli g e f s
  | .ret g e f => Sys2Proof.Machine.execRet g e f s
  | .loop g n e f => Sys2Proof.Machine.execLoop g n e f s
  | .endl g n e f => Sys2Proof.Machine.execEndl g n e f s
  | .setf g n e f => Sys2Proof.Machine.execSetf g n e f s
  | .setrm g e f => Sys2Proof.Machine.execSetrm g e f s
  | .fenceAcq g sc e f => Sys2Proof.Machine.execFenceAcq g sc e f s
  | .fenceRel g sc e f => Sys2Proof.Machine.execFenceRel g sc e f s
  | .fenceAr g sc e f => Sys2Proof.Machine.execFenceAr g sc e f s
  | .xfence g e f => Sys2Proof.Machine.execXfence g e f s
  | .pbar g e f => Sys2Proof.Machine.execPbar g e f s
  | .bara g e f => Sys2Proof.Machine.execBara g e f s
  | .baraRlx g e f => Sys2Proof.Machine.execBaraRlx g e f s
  | .barw g e f => Sys2Proof.Machine.execBarw g e f s
  | .bart g e f => Sys2Proof.Machine.execBart g e f s
  | .fork g e f => Sys2Proof.Machine.execFork g e f s
  | .join g e f => Sys2Proof.Machine.execJoin g e f s
  | .yield g e f => Sys2Proof.Machine.execYield g e f s
  | .endTask g e f => Sys2Proof.Machine.execEndTask g e f s
  | .tickw g e f => Sys2Proof.Machine.execTickw g e f s
  | .launch g e f => Sys2Proof.Machine.execLaunch g e f s
  | .trap g e f => Sys2Proof.Machine.execTrap g e f s
  | .tret g e f => Sys2Proof.Machine.execTret g e f s
  | .crgnOpen g e f => Sys2Proof.Machine.execCrgnOpen g e f s
  | .crgnClose g e f => Sys2Proof.Machine.execCrgnClose g e f s
  | .svc g e f => Sys2Proof.Machine.execSvc g e f s
  | .abort g e f => Sys2Proof.Machine.execAbort g e f s
  | .srrd g e f => Sys2Proof.Machine.execSrrd g e f s
  | .srwr g e f => Sys2Proof.Machine.execSrwr g e f s
  | .add g e f => Sys2Proof.Machine.execAdd g e f s
  | .sub g e f => Sys2Proof.Machine.execSub g e f s
  | .mul g e f => Sys2Proof.Machine.execMul g e f s
  | .mulh g e f => Sys2Proof.Machine.execMulh g e f s
  | .mulhu g e f => Sys2Proof.Machine.execMulhu g e f s
  | .and g e f => Sys2Proof.Machine.execAnd g e f s
  | .or g e f => Sys2Proof.Machine.execOr g e f s
  | .xor g e f => Sys2Proof.Machine.execXor g e f s
  | .andn g e f => Sys2Proof.Machine.execAndn g e f s
  | .shl g e f => Sys2Proof.Machine.execShl g e f s
  | .shr g e f => Sys2Proof.Machine.execShr g e f s
  | .sar g e f => Sys2Proof.Machine.execSar g e f s
  | .rotl g e f => Sys2Proof.Machine.execRotl g e f s
  | .minS g e f => Sys2Proof.Machine.execMinS g e f s
  | .maxS g e f => Sys2Proof.Machine.execMaxS g e f s
  | .minu g e f => Sys2Proof.Machine.execMinu g e f s
  | .maxu g e f => Sys2Proof.Machine.execMaxu g e f s
  | .clz g e f => Sys2Proof.Machine.execClz g e f s
  | .ctz g e f => Sys2Proof.Machine.execCtz g e f s
  | .popc g e f => Sys2Proof.Machine.execPopc g e f s
  | .sextB g e f => Sys2Proof.Machine.execSextB g e f s
  | .sextH g e f => Sys2Proof.Machine.execSextH g e f s
  | .sextW g e f => Sys2Proof.Machine.execSextW g e f s
  | .zextB g e f => Sys2Proof.Machine.execZextB g e f s
  | .zextH g e f => Sys2Proof.Machine.execZextH g e f s
  | .zextW g e f => Sys2Proof.Machine.execZextW g e f s
  | .sel g e f => Sys2Proof.Machine.execSel g e f s
  | .addW g e f => Sys2Proof.Machine.execAddW g e f s
  | .subW g e f => Sys2Proof.Machine.execSubW g e f s
  | .mulW g e f => Sys2Proof.Machine.execMulW g e f s
  | .lea g e f => Sys2Proof.Machine.execLea g e f s
  | .cmpEq g e f => Sys2Proof.Machine.execCmpEq g e f s
  | .cmpNe g e f => Sys2Proof.Machine.execCmpNe g e f s
  | .cmpLt g e f => Sys2Proof.Machine.execCmpLt g e f s
  | .cmpLe g e f => Sys2Proof.Machine.execCmpLe g e f s
  | .cmpLtu g e f => Sys2Proof.Machine.execCmpLtu g e f s
  | .cmpLeu g e f => Sys2Proof.Machine.execCmpLeu g e f s
  | .div g e f => Sys2Proof.Machine.execDiv g e f s
  | .divu g e f => Sys2Proof.Machine.execDivu g e f s
  | .rem g e f => Sys2Proof.Machine.execRem g e f s
  | .remu g e f => Sys2Proof.Machine.execRemu g e f s
  | .divW g e f => Sys2Proof.Machine.execDivW g e f s
  | .divuW g e f => Sys2Proof.Machine.execDivuW g e f s
  | .remW g e f => Sys2Proof.Machine.execRemW g e f s
  | .remuW g e f => Sys2Proof.Machine.execRemuW g e f s
  | .ldB g cl e f => Sys2Proof.Machine.execLdB g cl e f s
  | .ldH g cl e f => Sys2Proof.Machine.execLdH g cl e f s
  | .ldW g cl e f => Sys2Proof.Machine.execLdW g cl e f s
  | .ldD g cl e f => Sys2Proof.Machine.execLdD g cl e f s
  | .lduB g cl e f => Sys2Proof.Machine.execLduB g cl e f s
  | .lduH g cl e f => Sys2Proof.Machine.execLduH g cl e f s
  | .lduW g cl e f => Sys2Proof.Machine.execLduW g cl e f s
  | .stB g cl e f => Sys2Proof.Machine.execStB g cl e f s
  | .stH g cl e f => Sys2Proof.Machine.execStH g cl e f s
  | .stW g cl e f => Sys2Proof.Machine.execStW g cl e f s
  | .stD g cl e f => Sys2Proof.Machine.execStD g cl e f s
  | .pwldW g n e f => Sys2Proof.Machine.execPwldW g n e f s
  | .pwldD g n e f => Sys2Proof.Machine.execPwldD g n e f s
  | .aadd g w e f => Sys2Proof.Machine.execAadd g w e f s
  | .amin g w e f => Sys2Proof.Machine.execAmin g w e f s
  | .amax g w e f => Sys2Proof.Machine.execAmax g w e f s
  | .aminu g w e f => Sys2Proof.Machine.execAminu g w e f s
  | .amaxu g w e f => Sys2Proof.Machine.execAmaxu g w e f s
  | .aand g w e f => Sys2Proof.Machine.execAand g w e f s
  | .aor g w e f => Sys2Proof.Machine.execAor g w e f s
  | .axor g w e f => Sys2Proof.Machine.execAxor g w e f s
  | .axchg g w e f => Sys2Proof.Machine.execAxchg g w e f s
  | .acas g w e f => Sys2Proof.Machine.execAcas g w e f s
  | .aaddN g w e f => Sys2Proof.Machine.execAaddN g w e f s
  | .aminN g w e f => Sys2Proof.Machine.execAminN g w e f s
  | .amaxN g w e f => Sys2Proof.Machine.execAmaxN g w e f s
  | .aminuN g w e f => Sys2Proof.Machine.execAminuN g w e f s
  | .amaxuN g w e f => Sys2Proof.Machine.execAmaxuN g w e f s
  | .aandN g w e f => Sys2Proof.Machine.execAandN g w e f s
  | .aorN g w e f => Sys2Proof.Machine.execAorN g w e f s
  | .axorN g w e f => Sys2Proof.Machine.execAxorN g w e f s
  | .msel u g e f => Sys2Proof.Machine.execMsel u g e f s
  | .fadd u g t e f => Sys2Proof.Machine.execFadd u g t e f s
  | .fsub u g t e f => Sys2Proof.Machine.execFsub u g t e f s
  | .fmul u g t e f => Sys2Proof.Machine.execFmul u g t e f s
  | .ffma u g t e f => Sys2Proof.Machine.execFfma u g t e f s
  | .ffms u g t e f => Sys2Proof.Machine.execFfms u g t e f s
  | .fnma u g t e f => Sys2Proof.Machine.execFnma u g t e f s
  | .fmin u g t e f => Sys2Proof.Machine.execFmin u g t e f s
  | .fmax u g t e f => Sys2Proof.Machine.execFmax u g t e f s
  | .fabs u g t e f => Sys2Proof.Machine.execFabs u g t e f s
  | .fneg u g t e f => Sys2Proof.Machine.execFneg u g t e f s
  | .fcpys u g t e f => Sys2Proof.Machine.execFcpys u g t e f s
  | .fcmpEq u g e f => Sys2Proof.Machine.execFcmpEq u g e f s
  | .fcmpNe u g e f => Sys2Proof.Machine.execFcmpNe u g e f s
  | .fcmpLt u g e f => Sys2Proof.Machine.execFcmpLt u g e f s
  | .fcmpLe u g e f => Sys2Proof.Machine.execFcmpLe u g e f s
  | .fcmpUn u g e f => Sys2Proof.Machine.execFcmpUn u g e f s
  | .vsel u g e f => Sys2Proof.Machine.execVsel u g e f s
  | .iadd u g e f => Sys2Proof.Machine.execIadd u g e f s
  | .isub u g e f => Sys2Proof.Machine.execIsub u g e f s
  | .imul u g e f => Sys2Proof.Machine.execImul u g e f s
  | .imulh u g e f => Sys2Proof.Machine.execImulh u g e f s
  | .imulhu u g e f => Sys2Proof.Machine.execImulhu u g e f s
  | .iand u g e f => Sys2Proof.Machine.execIand u g e f s
  | .ior u g e f => Sys2Proof.Machine.execIor u g e f s
  | .ixor u g e f => Sys2Proof.Machine.execIxor u g e f s
  | .iandn u g e f => Sys2Proof.Machine.execIandn u g e f s
  | .ishl u g e f => Sys2Proof.Machine.execIshl u g e f s
  | .ishr u g e f => Sys2Proof.Machine.execIshr u g e f s
  | .isar u g e f => Sys2Proof.Machine.execIsar u g e f s
  | .imin u g e f => Sys2Proof.Machine.execImin u g e f s
  | .imax u g e f => Sys2Proof.Machine.execImax u g e f s
  | .iminu u g e f => Sys2Proof.Machine.execIminu u g e f s
  | .imaxu u g e f => Sys2Proof.Machine.execImaxu u g e f s
  | .iabs u g e f => Sys2Proof.Machine.execIabs u g e f s
  | .iaddSat u g e f => Sys2Proof.Machine.execIaddSat u g e f s
  | .isubSat u g e f => Sys2Proof.Machine.execIsubSat u g e f s
  | .icmpEq u g e f => Sys2Proof.Machine.execIcmpEq u g e f s
  | .icmpNe u g e f => Sys2Proof.Machine.execIcmpNe u g e f s
  | .icmpLt u g e f => Sys2Proof.Machine.execIcmpLt u g e f s
  | .icmpLe u g e f => Sys2Proof.Machine.execIcmpLe u g e f s
  | .icmpLtu u g e f => Sys2Proof.Machine.execIcmpLtu u g e f s
  | .icmpLeu u g e f => Sys2Proof.Machine.execIcmpLeu u g e f s
  | .cvtFH u g e f => Sys2Proof.Machine.execCvtFH u g e f s
  | .cvtFHh u g e f => Sys2Proof.Machine.execCvtFHh u g e f s
  | .cvtFB u g e f => Sys2Proof.Machine.execCvtFB u g e f s
  | .cvtFBh u g e f => Sys2Proof.Machine.execCvtFBh u g e f s
  | .cvtHF u g e f => Sys2Proof.Machine.execCvtHF u g e f s
  | .cvtBF u g e f => Sys2Proof.Machine.execCvtBF u g e f s
  | .cvtIF u g e f => Sys2Proof.Machine.execCvtIF u g e f s
  | .cvtFI u g e f => Sys2Proof.Machine.execCvtFI u g e f s
  | .cvtI8I u g e f => Sys2Proof.Machine.execCvtI8I u g e f s
  | .cvtII8 u g e f => Sys2Proof.Machine.execCvtII8 u g e f s
  | .vbcast u g e f => Sys2Proof.Machine.execVbcast u g e f s
  | .vperm u g e f => Sys2Proof.Machine.execVperm u g e f s
  | .vrot u g e f => Sys2Proof.Machine.execVrot u g e f s
  | .vslup u g e f => Sys2Proof.Machine.execVslup u g e f s
  | .vsldn u g e f => Sys2Proof.Machine.execVsldn u g e f s
  | .vextl u g e f => Sys2Proof.Machine.execVextl u g e f s
  | .mand u g e f => Sys2Proof.Machine.execMand u g e f s
  | .mor u g e f => Sys2Proof.Machine.execMor u g e f s
  | .mxor u g e f => Sys2Proof.Machine.execMxor u g e f s
  | .mnot u g e f => Sys2Proof.Machine.execMnot u g e f s
  | .mpop u g e f => Sys2Proof.Machine.execMpop u g e f s
  | .mfirst u g e f => Sys2Proof.Machine.execMfirst u g e f s
  | .frcp u g e f => Sys2Proof.Machine.execFrcp u g e f s
  | .frsq u g e f => Sys2Proof.Machine.execFrsq u g e f s
  | .fsqrt u g e f => Sys2Proof.Machine.execFsqrt u g e f s
  | .fexp2 u g e f => Sys2Proof.Machine.execFexp2 u g e f s
  | .flog2 u g e f => Sys2Proof.Machine.execFlog2 u g e f s
  | .fdiv u g e f => Sys2Proof.Machine.execFdiv u g e f s
  | .rsumF u g e f => Sys2Proof.Machine.execRsumF u g e f s
  | .rmaxF u g e f => Sys2Proof.Machine.execRmaxF u g e f s
  | .rminF u g e f => Sys2Proof.Machine.execRminF u g e f s
  | .rsumI u g e f => Sys2Proof.Machine.execRsumI u g e f s
  | .rmaxI u g e f => Sys2Proof.Machine.execRmaxI u g e f s
  | .rminI u g e f => Sys2Proof.Machine.execRminI u g e f s
  | .smx u g e f => Sys2Proof.Machine.execSmx u g e f s
  | .smxf u g e f => Sys2Proof.Machine.execSmxf u g e f s
  | .qnt u g n e f => Sys2Proof.Machine.execQnt u g n e f s
  | .dqnt u g n e f => Sys2Proof.Machine.execDqnt u g n e f s
  | .mcfg g e f => Sys2Proof.Machine.execMcfg g e f s
  | .msla g e f => Sys2Proof.Machine.execMsla g e f s
  | .mslb g e f => Sys2Proof.Machine.execMslb g e f s
  | .mklen g e f => Sys2Proof.Machine.execMklen g e f s
  | .mbthr g e f => Sys2Proof.Machine.execMbthr g e f s
  | .mchk g e f => Sys2Proof.Machine.execMchk g e f s
  | .mdtm g e f => Sys2Proof.Machine.execMdtm g e f s
  | .mgrp g e f => Sys2Proof.Machine.execMgrp g e f s
  | .mbPa g e f => Sys2Proof.Machine.execMbPa g e f s
  | .mbP g e f => Sys2Proof.Machine.execMbP g e f s
  | .mbS g e f => Sys2Proof.Machine.execMbS g e f s
  | .mbA g e f => Sys2Proof.Machine.execMbA g e f s
  | .mbD g e f => Sys2Proof.Machine.execMbD g e f s
  | .mtile g e f => Sys2Proof.Machine.execMtile g e f s
  | .mtileW g e f => Sys2Proof.Machine.execMtileW g e f s
  | .mzero g e f => Sys2Proof.Machine.execMzero g e f s
  | .mbank g e f => Sys2Proof.Machine.execMbank g e f s
  | .mdrnSt g e f => Sys2Proof.Machine.execMdrnSt g e f s
  | .mdrnCvt g e f => Sys2Proof.Machine.execMdrnCvt g e f s
  | .mdrnAdd g e f => Sys2Proof.Machine.execMdrnAdd g e f s
  | .mdrnAddc g e f => Sys2Proof.Machine.execMdrnAddc g e f s
  | .mclaimA g e f => Sys2Proof.Machine.execMclaimA g e f s
  | .mclaimB g e f => Sys2Proof.Machine.execMclaimB g e f s
  | .mrel g e f => Sys2Proof.Machine.execMrel g e f s
  | .mbndRd g e f => Sys2Proof.Machine.execMbndRd g e f s
  | .mbndWr g e f => Sys2Proof.Machine.execMbndWr g e f s
  | .mchkNow g e f => Sys2Proof.Machine.execMchkNow g e f s
  | .mwait g e f => Sys2Proof.Machine.execMwait g e f s
  | .mstat g e f => Sys2Proof.Machine.execMstat g e f s
  | .kflg k g e f => Sys2Proof.Machine.execKflg k g e f s
  | .ksw k g e f => Sys2Proof.Machine.execKsw k g e f s
  | .spld k g e f => Sys2Proof.Machine.execSpld k g e f s
  | .spldH k g e f => Sys2Proof.Machine.execSpldH k g e f s
  | .spldBc k g e f => Sys2Proof.Machine.execSpldBc k g e f s
  | .spldG k g e f => Sys2Proof.Machine.execSpldG k g e f s
  | .spldAg k g n e f => Sys2Proof.Machine.execSpldAg k g n e f s
  | .spst k g e f => Sys2Proof.Machine.execSpst k g e f s
  | .spstM k g e f => Sys2Proof.Machine.execSpstM k g e f s
  | .spstS k g e f => Sys2Proof.Machine.execSpstS k g e f s
  | .spstAg k g n e f => Sys2Proof.Machine.execSpstAg k g n e f s
  | .agSet k g n e f => Sys2Proof.Machine.execAgSet k g n e f s
  | .agPos k g n e f => Sys2Proof.Machine.execAgPos k g n e f s
  | .mopld k g e f => Sys2Proof.Machine.execMopld k g e f s
  | .mopldT k g e f => Sys2Proof.Machine.execMopldT k g e f s
  | .xcopy k g e f => Sys2Proof.Machine.execXcopy k g e f s
  | .xgath k g e f => Sys2Proof.Machine.execXgath k g e f s
  | .xscat k g e f => Sys2Proof.Machine.execXscat k g e f s
  | .xmcast k g e f => Sys2Proof.Machine.execXmcast k g e f s
  | .xred k g e f => Sys2Proof.Machine.execXred k g e f s
  | .xhalo k g e f => Sys2Proof.Machine.execXhalo k g e f s
  | .xresh k g e f => Sys2Proof.Machine.execXresh k g e f s
  | .swInit k g e f => Sys2Proof.Machine.execSwInit k g e f s
  | .swAdd k g e f => Sys2Proof.Machine.execSwAdd k g e f s
  | .swWait k g e f => Sys2Proof.Machine.execSwWait k g e f s
  | .swTest k g e f => Sys2Proof.Machine.execSwTest k g e f s
  | .swRd k g e f => Sys2Proof.Machine.execSwRd k g e f s
  | .qput k g e f => Sys2Proof.Machine.execQput k g e f s
  | .qget k g e f => Sys2Proof.Machine.execQget k g e f s
  | .ingPop k g e f => Sys2Proof.Machine.execIngPop k g e f s
  | .kvApp k g e f => Sys2Proof.Machine.execKvApp k g e f s
  | .kvExt k g e f => Sys2Proof.Machine.execKvExt k g e f s
  | .pfxHash k g e f => Sys2Proof.Machine.execPfxHash k g e f s
  | .pfxLook k g e f => Sys2Proof.Machine.execPfxLook k g e f s
  | .pfxIns k g e f => Sys2Proof.Machine.execPfxIns k g e f s
  | .pfxPin k g e f => Sys2Proof.Machine.execPfxPin k g e f s
  | .pfxUnpin k g e f => Sys2Proof.Machine.execPfxUnpin k g e f s
  | .duskOverrun d => Sys2Proof.Machine.execDuskOverrun d s

end Sys2Proof.Machine
end

