-- ==== Sys2Proof/Machine/Schedule.lean ====
section
/-! DEFINITION. Who moves next: the agenda, the turns that fill an empty one, what a turn does (DESIGN CHOICE log 1, 2), and how a program is placed from
outside (DESIGN CHOICE log 5). -/
namespace Sys2Proof.Machine

/-! ## A cycle -/

/-- How a parcel of a slot runs: decoded (R36), then its meaning; what Table 2.12 rejects raises cause 0x02. -/
noncomputable def runMove (ex : Instr → State → Out) : RunMove := fun sl p s =>
  match decodeMove sl s.pipe.ib.lit.isSome p with
  | .ok i => ex i s
  | .error _ => .next (s.trapAt sl 0x02 (s.moveAddr sl))
/-- R277, R278: the card watchdog of a task counts from its first issue. -/
def TaskInfo.countCard (t : TaskInfo) (started : Bool) : TaskInfo :=
  if t.card.isNone then t else { t with cardOn := t.cardOn || started, cardLeft := if t.cardOn || started then t.cardLeft - 1 else t.cardLeft }
/-- The long operations of the current core whose time is over complete, in issue order (R9, R181, R210). -/
def State.landLongs (s : State) : State :=
  let due := s.pipe.longs.filter fun l => l.left = 0 && s.mayComplete s.cur l
  if due.isEmpty then s
  else due.foldl (fun s l => s.completeLong s.cur l) (s.modPipe fun p => { p with longs := p.longs.filter fun l => !due.contains l })
/-- R91: the paths of a core advance by 1 in every LEASEMAX-th of its cycles; those of the die clock that pass in time turns count beside them (DEDUCED log 8). -/
def Core.leaseCycle (k : Core) (leasemax : Nat) : Core :=
  if (k.pipe.cyc.toNat + 1) % max 1 leasemax = 0 then { k with lt := k.lt.map (· + 1), floor := max k.floor (ltime k.lt + 1) } else k
/-- R112 items 2 and 4: every fourth cycle each conversion of a bank does one more row, the last of those converted first on the way back. -/
def Core.convertRows (k : Core) : Core :=
  if k.banks.all (· == .active) || (k.pipe.cyc.toNat + 1) % 4 ≠ 0 then k
  else { k with banks := k.banks.map fun b => match b with | .entering r => .entering (min 64 (r + 1)) | .exiting r => .exiting (r - 1) | b => b }
/-- Counts one cycle of the current core as it begins: CYC, the card watchdog, the long operations that are due; no move has run in it yet. -/
def State.countCycle (s : State) : State :=
  (s.modMe fun k =>
    let started := k.pipe.stream.gpos.any fun p => 32 < p
    let k := (k.leaseCycle s.fw.cfg.leasemax.toNat).convertRows
    { k with pipe := { k.pipe with cyc := k.pipe.cyc + 1, disp := .issued, busy := [] }, task := k.task.countCard started }).landLongs
/-- The state a meaning of the sequencer answers. -/
def Out.get (o : Out) (s : State) : State := match o with | .next t => t | _ => s
/-- The sequencer of the current core runs until no drain is queued, or until it waits; at most `fuel` rounds. -/
def State.runSequencer : Nat → State → State
  | 0, s => s
  | fuel + 1, s =>
    if !s.me.drainsPending || !s.me.sequences then s
    else
      let t := [execGroupFormation, execTileExecution, execMzeroExecution, execMbankExecution, execDrainExecution].foldl (fun s f => (f s).get s) (s.performAll s.cur)
      if t.me.mx.queue = s.me.mx.queue then t else t.runSequencer fuel
/-- What a move finds that waits only for accesses of lower slots of its own bundle: they are performed (R97). -/
def State.finishLower (s : State) : State := ((s.settle s.cur).runSequencer 0x100000).settle s.cur
/-- Counts one cycle of the long operations in flight: one of latency n may complete before the n-th cycle after its issue (R3, R9). -/
def Core.countLongs (k : Core) : Core :=
  { k with pipe := { k.pipe with longs := k.pipe.longs.map fun (l : Long) => { l with left := l.left - 1 } } }
/-- R311: WAITING while every group is held in a wait of BARW, JOIN, TICKW or full/empty, RUNNING else. -/
def Core.noteTask (k : Core) : Core :=
  if k.canIssue then
    let waits := k.pipe.holds.all fun h => h = some 1 || h = some 2 || h = some 5
    { k with task := { k.task with st := if waits then .waiting else .running } }
  else k
/-- The end of a cycle of a core: what its moves have written is in force from the next on (R42, R43). -/
def Core.endCycle (k : Core) : Core := ({ k with pipe := k.pipe.commit } : Core).countLongs.noteTask
/-- One cycle of the current core; pending waits and a pending service may complete. -/
noncomputable def State.runCycle (ex : Instr → State → Out) (gs : BitVec 4) (s : State) : Out :=
  if s.phase != .running then .next s
  else (s.countCycle.cycleGroups (runMove ex) State.finishLower (s.countCycle.startMask gs) [0, 1, 2, 3]).bind fun t => .next ((t.modMe Core.endCycle).retryWaits t.cur)
/-- R313 item 4: `n` cycles are deducted from every bulk job whose span holds cores. They are cycles of the die clock, as time turns pass them, whatever the clock of the
span's rank-0 core (R21; DESIGN CHOICE log 82). -/
def State.chargeJobs (s : State) (n : Nat) : State :=
  let f (j : Job) : Job := if j.lr.cls = 0 && (j.st == .placed || j.st == .stopping || j.st == .saving) then { j with deficit := j.deficit - n } else j
  { s with fw := { s.fw with jobs := s.fw.jobs.map f } }
/-- One turn; an event or a cycle may let what an ended task owes be performed (R277, R304). -/
noncomputable def State.runTurn (ex : Instr → State → Out) (t : Turn) (s : State) : Out :=
  match t with
  | .event c i => if s.hasCore c then (ex i { s with cur := c }).bind fun t => .next t.endOwed else .next s
  | .cycle c gs => if s.hasCore c then (({ s with cur := c } : State).runCycle ex gs).bind fun t => .next t.endOwed else .next s
  | .time n => .next ((s.passTime n).chargeJobs n)
  | .upset u => .next (s.upset u)
  | .pick k m => .next { s with pick := (k, m) }

/-! ## The turns that fill an empty agenda (DESIGN CHOICE log 2) -/

/-- The next core after `c` with something to do, searched in `n` steps. -/
def State.nextCore (s : State) (c : CoreId) : Nat → Option CoreId
  | 0 => none
  | n + 1 => if (s.core c).task.st != .none then some c else s.nextCore (c + 1) n
/-- The steps of a core that wait: completions, accesses, services, what its sequencer holds. -/
noncomputable def Core.turns (k : Core) : List Instr :=
  ((List.range k.pipe.longs.length).map fun n => .longCompletion n)
  ++ (k.reqs.map fun _ => .homeAccess 0)
  ++ (if k.pipe.engPoison.isSome then [.containmentUnwind] else [])
  ++ (match k.pipe.svc with
    | some v => (match v.num.toNat with | 1 => [.mapreq] | 2 => [.unmapreq] | 3 => [.protreq] | 4 => [.notify] | _ => [.rascount])
    | none => [])
  ++ (if k.mx.queue.isEmpty then [] else [.groupFormation, .tileExecution, .mzeroExecution, .mbankExecution, .drainExecution])
  ++ ((List.range 32).filter fun n => !(k.mx.slot n).loads.isEmpty).map fun n => .mopldComplete (BitVec.ofNat 5 n)
/-- The steps of command `n` of a copy slot. -/
noncomputable def cmdTurns (k : KUnit) (n : Nat) : List Instr := [.kvReservation k n, .engineWritePerformed k n, .engineCompletion k n]
/-- The steps of the commands of a core's copy slots. -/
noncomputable def KSlot.turns (q : KSlot) (k : KUnit) : List Instr := (List.range q.queue.length).flatMap fun n => cmdTurns k n
/-- The steps of the commands that go on while their tasks are saved (R134). -/
noncomputable def State.savedTurns (s : State) : List Turn :=
  ((s.fw.saved.map (·.place)).eraseDups).flatMap fun c => [KUnit.ka, KUnit.kb].flatMap fun k =>
    let n := ((s.core c).kslot k).queue.length
    let m := (s.fw.saved.filter fun v => v.place = c).foldl (fun i v => i + (v.core.kslot k).queue.length) 0
    (List.range m).flatMap fun i => (cmdTurns k (n + i)).map (Turn.event c)
/-- The steps of a core's banks (R112). -/
noncomputable def State.bankTurns (s : State) (c : CoreId) : List Instr :=
  let k := s.core c
  (List.range 48).filterMap fun b => match k.banks.getD b .active with
    | .active => if ({ s with cur := c } : State).bankIdle b then some (.bankIdleExpiry b) else none
    | .entering _ => some (.bankEntryComplete b)
    | .exiting _ => some (.bankExitComplete b)
    | .retain => none
/-- The steps of collectives, packets and channels. -/
noncomputable def LinkState.turns (l : LinkState) : List Instr :=
  ((List.range l.net.length).reverse.flatMap fun n => [.packetHop n, .channelDelivery n])
  ++ (l.colls.zip (List.range l.colls.length)).flatMap fun q =>
    (q.1.parts.map fun r => .collectiveCall q.2 r) ++ (q.1.parts.map fun r => .reductionCombine q.2 r) ++ [.xreshPhase q.2, .xreshSwitch q.2]
/-- The step that runs a command. -/
noncomputable def Cmd.turn (x : Cmd) (n : Nat) : List Instr :=
  match x.opc.toNat with
  | 1 => [.ident n] | 2 => [.attest n] | 3 => [.configure n] | 4 => [.contextCreate n] | 5 => [.contextKill n] | 6 => [.mapPages n]
  | 7 => [.unmap n] | 8 => [.protect n] | 9 => [.migrate n] | 10 => [.replicate n] | 11 => [.heatRead n] | 12 => [.launchCommand n]
  | 13 => [.streamCreate n] | 14 => [.streamDestroy n] | 15 => [.settimeStep n, .settimeAdd n, .settimeSource n] | 16 => [.tickCfg n]
  | 17 => [.ingestCfg n] | 18 => [.kvpoolCfg n] | 19 => [.pfxCfg n] | 20 => [.dieReset n] | 21 => [.dieIsolate n] | 22 => [.rasQuery n]
  | 23 => [.retireQuery n] | 24 => [.durableFlush n] | 25 => [.shutdown n] | 26 => [.dawnReport n]
  | _ => []
/-- The commands accepted. -/
noncomputable def State.cmdTurns (s : State) : List Instr :=
  (s.link.cmds.zip (List.range s.link.cmds.length)).reverse.flatMap fun q => q.1.turn q.2
/-- The steps of jobs: completion, quanta, pre-emption, loads, placement at every origin of the package and cluster. -/
noncomputable def State.jobTurns (s : State) : List (CoreId × Instr) :=
  s.fw.jobs.flatMap fun j =>
    let c := (j.cores.find? fun c => (s.core c).task.job = j.num).getD 0
    match j.st with
    | .placed =>
      [(c, .jobCompletion j.num), (c, .quantumExpiry j.num), (c, .preemption)]
      ++ ((List.range j.dies.length).map fun r => (c, .stateLoadComplete j.num r (j.first / 4)))
      ++ j.cores.flatMap fun d => [(d, .coreRejoin), (d, .cardDeadlineExpiry), (d, .recordTake), (d, .cardDispatch j.num d)]
    | .stopping => [(c, .preemption)]
    | .saving => [(c, .stateSaveComplete)]
    | _ =>
      if !s.waits j then []
      else (List.range 8).flatMap fun cl => (s.origins j).map fun o => (c, .spanPlacement j.num o.1 o.2.1 o.2.2 cl)
/-- The steps of contexts and dies: kills, the watchdog, GROW, drains and rejoins. -/
noncomputable def State.dieTurns (s : State) : List Instr :=
  (s.fw.ctxs.flatMap fun x =>
    if x.killed.isSome then (s.pkgDieList.map fun d => .killDrainAck x.id d) ++ [.killRelease x.id] else [.sinkWatchdogExpiry x.id])
  ++ (if s.t.dcyc % 1024 = 0 then s.pkgDieList.map fun d => .growCheck d else [])
  ++ s.link.detours.flatMap fun d => [.dieRoutesDrained d, .dieRejoin d]
/-- The steps of memory: granules, trackers, migrations. -/
noncomputable def State.memTurns (s : State) : List Instr :=
  (s.m.granules.map fun _ => .durableCompletion 0)
  ++ (List.range s.m.migs.length).reverse.flatMap fun n => [.migrationCopyPass n, .migrationSwitch n, .migrationRedirectEnd n]
/-- The steps of the clock: ticks, ingest, holdover. -/
noncomputable def State.timeTurns (s : State) : List Instr :=
  ((List.range 4).map fun c => .tickRelease (BitVec.ofNat 2 c))
  ++ (((List.range 16).filter fun q => (s.ingest q).isSome).flatMap fun q => [.ingestDescriptor (BitVec.ofNat 4 q), .stepDeadline (BitVec.ofNat 4 q)])
  ++ (if s.t.timePort then [.timeHoldover] else [])
/-- The steps of core `c` and its cycle, in which nothing issues while its task stops (R312). -/
noncomputable def State.coreTurns (s : State) (c : CoreId) : List Turn :=
  let k := s.core c
  let spill := (List.range 8).filter fun i => !(s.chan c (BitVec.ofNat 3 i)).ring.isEmpty
  let l := k.turns ++ k.ka.turns .ka ++ k.kb.turns .kb ++ (spill.map fun i => .ashpitRefill (BitVec.ofNat 3 i))
    ++ (if 128 < k.tracker.length then [.persistTrackerWriteback] else [])
    ++ s.bankTurns c
  l.map (Turn.event c) ++ (if k.canIssue then [.cycle c 0xF] else if k.task.st == .stopping then [.cycle c 0] else [])
/-- A bring-up in which everything verifies and no expansion memory is enumerated. -/
def BringUpInputs.plain : BringUpInputs :=
  { paramOk := true, unprotected := false, tier2 := 0, devices := [], retire0Ok := true, retire1Ok := true, damper0Ok := true, damper1Ok := true, boot0Ok := true, boot1Ok := true,
    badRows := [] }
/-- The turns that follow when the agenda is empty. -/
noncomputable def State.defaultTurns (s : State) : List Turn :=
  let ev (l : List Instr) : List Turn := l.map (Turn.event s.cur)
  match s.phase with
  | .bringUp => [.event 0 (.bringUp BringUpInputs.plain)]
  | .recovery => ev s.cmdTurns ++ [.time 1]
  | .dusk => ev ((s.m.dirty.map fun l => .lineWriteback l) ++ (s.m.granules.map fun _ => .durableCompletion 0) ++ [.duskRecord] ++ s.cmdTurns) ++ [.time 1]
  | .running =>
    ev (s.cmdTurns ++ s.dieTurns ++ s.memTurns ++ s.timeTurns ++ s.link.turns) ++ (s.jobTurns.map fun q => .event q.1 q.2)
    ++ s.savedTurns ++ (match s.nextCore (s.cur + 1) 256 with | some c => s.coreTurns c | none => []) ++ [.time 1]
/-- One step: the first turn of the agenda, or of the default turns. -/
noncomputable def State.stepWith (ex : Instr → State → Out) (s : State) : Out :=
  match s.agenda with
  | t :: r => ({ s with agenda := r } : State).runTurn ex t
  | [] =>
    match s.defaultTurns with
    | t :: r => ({ s with agenda := r } : State).runTurn ex t
    | [] => .next s

/-! ## Placing a program from outside (DESIGN CHOICE log 5) -/

/-- The bytes of the bundle that holds parcel `w` in its slot (DESIGN CHOICE log 4), and an empty literal where its FROM is one. -/
noncomputable def bundleBytes (w : Nat) : List Byte :=
  let p : Parcel := BitVec.ofNat 24 w
  match firstSlot p tableSlots with
  | none => parcelBytes 0
  | some (sl, _) =>
    if isLit (MoveFields.ofParcel sl p).f then
      parcelBytes (BitVec.ofNat 24 (2 ^ (16 + sl.index) + 2 ^ 23)) ++ parcelBytes p ++ parcelBytes 0
    else parcelBytes (BitVec.ofNat 24 (2 ^ (16 + sl.index))) ++ parcelBytes p
/-- A task of context 1 on core 0 whose code page, VA 0, lies at PA 0x10000 of tier 0 and holds the bundle at its start; the next turn is a cycle
of that core. -/
noncomputable def State.placeMove (s : State) (_nbits w : Nat) : State :=
  let s := s.modCore 0 fun k => { k with
    task := { k.task with st := .running, ctx := 1 }, tlb := [⟨1, 0, 0, 0x10085, 0⟩],
    pipe := { k.pipe with stream := Stream.startAt 0 } }
  { s with phase := .running, cur := 0, agenda := [.cycle 0 0xF], m := { s.m with mem := Memory.writeBytes s.m.mem 0x10000 (bundleBytes w) } }

end Sys2Proof.Machine
end

