-- ==== Sys2Proof/Machine/Step.lean ====
section
/-! DEFINITION. One step of the machine, and the state in which the next step runs a given move. -/
namespace Sys2Proof.Machine

/-- One step: the turn the agenda gives next. -/
noncomputable def step (s : State) : Host.Outcome State Fault Refusal := s.stepWith exec
/-- The state in which the next step fetches and runs the bundle whose one move is the parcel `w` (DESIGN CHOICE log 4, 5). -/
noncomputable def State.withFetchWord (s : State) (nbits w : Nat) : State := s.placeMove nbits w

end Sys2Proof.Machine
end

