-- ==== Sys2Proof/WellFormed.lean ====
section
/-! DEFINITION. Which instructions a bundle may hold (R34 to R38, R48, R50): every check refuses by itself. -/
namespace Sys2Proof

/-- R35: the guard is not the reserved value. -/
def guardWf (g : BitVec 4) : Bool := g != 8
/-- R37, R38: FROM names a source, and E = 1 only an s, v or o register. -/
def sourceWf (e : Bool) (f : BitVec 10) : Bool := fromListed f && (!e || isSVO f)
/-- R213: a type of the floating family. -/
def typeWf (t : BitVec 2) : Bool := t != 3
/-- The operands a table field admits beyond its width: the type of the floating family (R213), the destination of a
move (Table 2.5). -/
def Instr.operandWf : Instr → Bool
  | .move _ _ d _ _ => toRegister d
  | .fadd _ _ t _ _ => typeWf t
  | .fsub _ _ t _ _ => typeWf t
  | .fmul _ _ t _ _ => typeWf t
  | .ffma _ _ t _ _ => typeWf t
  | .ffms _ _ t _ _ => typeWf t
  | .fnma _ _ t _ _ => typeWf t
  | .fmin _ _ t _ _ => typeWf t
  | .fmax _ _ t _ _ => typeWf t
  | .fabs _ _ t _ _ => typeWf t
  | .fneg _ _ t _ _ => typeWf t
  | .fcpys _ _ t _ _ => typeWf t
  | _ => true
/-- Whether an instruction is well formed; a step without an encoding always is. -/
def Instr.wf (i : Instr) : Bool :=
  match i.fields with
  | some m => guardWf m.g && sourceWf m.e m.f && i.operandWf
  | none => true

end Sys2Proof
end

