-- ==== Sys2Proof/Safety.lean ====
section
/-! DEFINITION. What claims about runs are stated in: when a move executes, what a state shows of its bytes, registers and
flags, and the canonical form every memory keeps. -/
namespace Sys2Proof.Machine

/-! ## When a move executes (R35, R37) -/

/-- Nothing of the matrix array stands in the way of an M-slot move: no pending metadata cause (R242), no trap level (R324), no other
leader (R253). -/
def State.matrixFree (s : State) : Bool :=
  s.me.mx.pendMeta.isNone && s.pipe.trap.tl == 0 && (match s.me.mx.leader with | some l => decide (l = s.cur) | none => true)
/-- A move of a slot executes on the current core: its guard passes and FROM delivers `v` (R35, R37). -/
def State.ready (s : State) (sl : Slot) (g : BitVec 4) (e : Bool) (f : BitVec 10) (v : Val) : Bool :=
  g != 8 && s.pipe.guardOf sl g && decide (s.source s.cur e f = .ok v) && (sl != .m || s.matrixFree)
/-- The D latch of a slot's unit names a register, and no parity error has poisoned it (R41, R334). -/
def State.dNamed (s : State) (sl : Slot) : Bool := !s.pipe.units.bad.getLsbD sl.index && dValid (s.pipe.units.d sl)
/-- The D latch of a slot's unit. -/
def State.dOf (s : State) (sl : Slot) : BitVec 10 := s.pipe.units.d sl
/-- An aligned access of `n` bytes at `a` reaches location `l`, with the caches after it (R65, R71, R180). -/
def State.reaches (s : State) (a : W64) (n : Nat) (acc : Access) (l : Loc) (t : State) : Prop :=
  (∃ x, s.form s.cur a = .ok x) ∧ a.toNat % n = 0 ∧ s.locate s.cur a acc = (.ok l, t)
/-- A sync-word address names the word at `off` of core `h` (R113 rows 1 to 3). -/
def State.namesWord (s : State) (a : W64) (h : CoreId) (off : Nat) : Prop :=
  s.form s.cur a = .ok (.inl (.sp h off)) ∧ off % 16 = 0
/-- That word is readable for a use: not poisoned and not overflowed (R124, Table 14.5). -/
def State.wordUsable (s : State) (h : CoreId) (off : Nat) : Bool :=
  !poisonAt (s.core h).spPoi off 16 && !(s.syncGet h off).ovf
/-- An address names `n` aligned bytes of own scratchpad at `off` (R113 rows 1 to 3). -/
def State.ownsRange (s : State) (a : W64) (align n off : Nat) : Prop :=
  s.form s.cur a = .ok (.inl (.sp s.cur off)) ∧ a.extractLsb' 62 2 = 2 ∧ off % align = 0 ∧ off + n ≤ 0x600000

/-! ## Records, maps and blocks that a move reads (R113, R117, R129) -/

/-- A record of `n` bytes at `a` is read without poison as class-0 loads of the executing move: its bytes, and the state after the loads. -/
def State.readsRecord (s : State) (a : W64) (n : Nat) (bs : List Byte) (t : State) : Prop :=
  s.me.class0Waits = false ∧ (∀ h off, s.form s.cur a = .ok (.inl (.sp h off)) → s.banksReady h off n = true)
  ∧ ∃ lt u, s.readVa s.cur s.me.lt[0] a n (n / 32 + 2) = (.ok (bs, false, lt), u) ∧ t = u.setLt s.cur (u.me.lt.set 0 (max u.me.lt[0] lt))
/-- A valid tensor map at `a` is read. -/
def State.readsMap (s : State) (a : W64) (m : TMap) (t : State) : Prop :=
  (∃ x, s.form s.cur a = .ok x) ∧ a.toNat % 32 = 0 ∧ ∃ bs, s.readsRecord a 96 bs t ∧ mapValid bs = true ∧ m = TMap.ofBytes bs
/-- The block at `a` of an engine command with an operation code is read; KFLG and KSW of the slot are valid (R128, R129 item 3). -/
def State.readsBlock (s : State) (k : KUnit) (a : W64) (opc : Nat) (bs : List Byte) (t : State) : Prop :=
  ((s.me.kslot k).flg.extractLsb' 2 3).toNat < 5 ∧ ((s.me.kslot k).sw = 0 ∨ ∃ h off, s.namesWord (s.me.kslot k).sw h off)
  ∧ s.readsRecord a 64 bs t ∧ fld bs 0 1 = opc
/-- A side of a command: a flat range, or the walk of the map read at its address. -/
def State.readsSide (s : State) (isMap : Bool) (a org : W64) (x : Side) (m : Option TMap) (t : State) : Prop :=
  if isMap then ∃ y, s.readsMap a y t ∧ x = .walk y org ∧ m = some y else x = .flat a ∧ m = none ∧ t = s

/-- The S slot takes a request of an operation at a location: the core holds fewer than 1,024, and its tracker has room for a tier-3 write (R173, R283). -/
def State.roomFor (s : State) (op : ReqOp) (l : Loc) : Bool := !s.me.full && !(op.writes && s.me.trackerFull l)
/-- A location some bytes on. -/
def Loc.plus : Loc → Nat → Loc
  | .sp c o, i => .sp c (o + i)
  | .pa a, i => .pa (a + i)
/-- Request `r` of the current core stands at place `n` and may be performed at `l`: no earlier access stands before it, whether issued, queued or owed by
another group; no switch holds a write; its bank is ACTIVE, and the tracker has room for a tier-3 write (R79, R93, R97, R112, R283). -/
def State.performs (s : State) (n : Nat) (r : Req) (l : Loc) : Prop :=
  s.me.reqs[n]? = some r ∧ s.me.reqs.find? (fun q => decide (q.seq = r.seq)) = some r
  ∧ (s.me.reqs.takeWhile fun q => decide (q.seq ≠ r.seq)).any (fun q => r.after q) = false
  ∧ ((r.cls == 0 || r.op.isAtomic) = true → s.me.pipe.owesBefore 0 r.pos = false ∧ s.me.drainBefore r = false ∧ s.me.getBefore r.pos r.seq = false) ∧ s.m.held = []
  ∧ s.filter r.loc r.op.writes = some l ∧ s.reqReady s.cur r l = true ∧ s.homeUp l = true ∧ s.phase ≠ .dusk

/-! ## What a state shows -/

/-- The byte a location holds at its home. -/
def State.byteAt (s : State) : Loc → Byte
  | .sp c off => Memory.read (s.core c).sp off
  | .pa a => Memory.read s.m.mem a
/-- Register `f` of the current core receives a value that a step brings from outside the bundles: at once, or among the writes of a bundle whose moves still
read (R43), beside the timestamp of an access (Table 4.2). -/
def State.receives (s t : State) (f : BitVec 10) (v : Val) : Prop :=
  match s.pipe.wq with
  | none => t.pipe.regs = s.pipe.regs.put f v ∧ t.pipe.wq = none
  | some w => t.pipe.regs = s.pipe.regs ∧ (t.pipe.wq = some (putCompletion f v w) ∨ ∃ ts, t.pipe.wq = some (putFill f ts (putCompletion f v w)))
/-- No ended task still owes the arrivals of its end (R306). -/
def State.owesNone (s : State) : Prop := ∀ c, (s.core c).task.st = .ended → (s.core c).task.card = none ∧ (s.core c).task.joinw = 0
/-- No replicated page holds a location: a write there collapses nothing (R81). -/
def State.unshared (s : State) (l : Loc) : Prop := ∀ a, l = .pa a → ∀ q ∈ s.fw.replicas, ¬(q.frame ≤ a ∧ a < q.frame + pageBytes q.size)
/-- Every byte of device memory, of host memory, of the tier-3 devices and of every scratchpad reads as before. -/
def sameBytes (s t : State) : Prop :=
  (∀ l, t.byteAt l = s.byteAt l) ∧ (∀ a, Memory.read t.m.host a = Memory.read s.m.host a) ∧ (∀ a, Memory.read t.m.pmem a = Memory.read s.m.pmem a)
/-- Every register file, queue and latch, flag, system, trap and saved register of core `c` is as before. -/
def sameArch (s t : State) (c : CoreId) : Prop :=
  (t.core c).pipe.regs = (s.core c).pipe.regs ∧ (t.core c).pipe.units = (s.core c).pipe.units ∧ (t.core c).pipe.sys = (s.core c).pipe.sys
  ∧ (t.core c).pipe.sys2 = (s.core c).pipe.sys2 ∧ (t.core c).pipe.trap = (s.core c).pipe.trap
/-- Every other core is as before, and so are the dies, memory, the clock, the firmware and the links. -/
def sameElsewhere (s t : State) : Prop :=
  (∀ c, c ≠ s.cur → t.core c = s.core c) ∧ t.dies = s.dies ∧ t.m = s.m ∧ t.t = s.t ∧ t.fw = s.fw ∧ t.link = s.link
  ∧ t.product = s.product ∧ t.phase = s.phase ∧ t.cur = s.cur ∧ t.agenda = s.agenda ∧ t.free = s.free

/-! ## The canonical form of every memory -/

/-- Device memory, host memory, the tier-3 devices, every scratchpad and every saved scratchpad keep the canonical form. -/
def State.memWf (s : State) : Prop :=
  Memory.wf s.m.mem = true ∧ Memory.wf s.m.host = true ∧ Memory.wf s.m.pmem = true
  ∧ (∀ c, Memory.wf (s.core c).sp = true) ∧ ∀ v ∈ s.fw.saved, Memory.wf v.core.sp = true

/-- No pending SW.WAIT is on the sync word at an offset of core `h`. -/
def State.noWaiter (s : State) (h : CoreId) (off : Nat) : Prop := ∀ c, ∀ w ∈ (s.core c).pipe.waits, ∀ a g, w.kind = .sw a g → syncAddr c a ≠ (h, off)

/-! ## Commands of the host (R340) -/

/-- Command `n` of the list is `x`, of operation code `opc`; nothing stands before it; the device accepts it; its reserved fields are 0 where no argument
is listed. -/
def State.runs (s : State) (n opc : Nat) (args : List Nat) (x : Cmd) : Bool :=
  s.link.cmds[n]? == some x && decide (x.opc.toNat = opc) && cmdReady s.link.cmds n && s.phase != .bringUp && phaseAllows s.phase opc
  && (x.begun || !(x.rsv || (!namesCtx opc && x.ctx != 0) || [0, 1, 2, 3, 4].any fun i => !args.contains i && x.arg i != 0))

end Sys2Proof.Machine
end

