-- ==== Sys2Proof/Certificates/Slice0/Obligations.lean ====
section
/-! DEFINITION. The statements for the provers. Each is about every state and every operand that meets its hypotheses; `ready` says that a move
executes (R35, R37), and where an instruction traps, waits or is turned away instead, another statement says so. -/
open Sys2Proof Sys2Proof.Machine

/-! ## Reset, decoding, the step -/

/-- What reset leaves of the values the spec gives: s, v and o registers full and 0, p and m registers 0 (m0 all ones), f registers, LC, result queues and latches 0, trap level 0, TPC, TCAUSE, TADDR
and TSNAP 0, no region open, nothing in flight, MBTHR, MGRP and banks, all scratchpad banks ACTIVE (Table 5.1), command queues disabled, the configuration of Table 15.7. -/
def Obligations.ResetLeavesSpecValues : Prop :=
  (∀ c : CoreId, ∀ k : Core, State.reset.core c = k →
    (∀ i : Fin 64, k.pipe.regs.s[i] = ⟨⟨0, false⟩, true⟩) ∧ (∀ f, selV f = true ∨ selO f = true → k.pipe.regs.full f = true ∧ k.pipe.regs.get f = .vec ⟨Vec.splat 0, 0⟩)
    ∧ (∀ i : Fin 8, k.pipe.regs.p[i] = false) ∧ (∀ i : Fin 8, k.pipe.regs.m[i] = if i = 0 then BitVec.allOnes 256 else 0) ∧ (∀ i : Fin 8, k.pipe.regs.f[i] = 0)
    ∧ (∀ i : Fin 2, k.pipe.regs.lc[i] = 0) ∧ k.pipe.units = Units.start ∧ k.pipe.trap.tl = 0 ∧ k.pipe.trap.bank1 = TrapBank.zero ∧ k.pipe.trap.bank2 = TrapBank.zero
    ∧ k.pipe.trap.regions = [] ∧ k.pipe.shorts = [] ∧ k.pipe.longs = [] ∧ k.mx.ports.mbthr = 0x7F800000 ∧ k.mx.ports.mgrp = 1
    ∧ k.mx.bank0.st = .free ∧ k.mx.bank1.st = .free ∧ (∀ b : Fin 48, k.banks[b] = .active))
  ∧ (∀ q : Fin 4, (State.reset.link.queues[q]).en = false)
  ∧ State.reset.fw.cfg.ilvsz = 0 ∧ State.reset.fw.cfg.durdirty = 16 ∧ State.reset.fw.cfg.pcoord = 0 ∧ State.reset.fw.cfg.wrap = 7 ∧ State.reset.fw.cfg.evqlog = 0
  ∧ State.reset.fw.cfg.evqbase = 0 ∧ State.reset.fw.cfg.leasemax = 4096 ∧ State.reset.fw.cfg.leaselen = 8 ∧ State.reset.fw.cfg.fluew = 8 ∧ State.reset.fw.cfg.bkidle = 65536
  ∧ State.reset.fw.cfg.latmax = 16384 ∧ State.reset.fw.cfg.quant = 1000000 ∧ State.reset.phase = .bringUp

/-- Words written out from Tables 2.3 and 2.14 to 2.18: G in bits 23 to 20, TO in 19 to 11, E in bit 10, FROM in 9 to 0. -/
def Obligations.WordsDecode : Prop :=
  decodeMove .s false 0b0000_100000000_0_0000000001 = .ok (.add 0 false 1)
  ∧ decodeMove .c false 0b0011_100000000_1_0000000010 = .ok (.br 3 true 2)
  ∧ decodeMove .va false 0b0000_101000000_0_0001000111 = .ok (.iadd .va 0 false 0x47)
  ∧ decodeMove .m false 0b1001_100010000_0_0011000000 = .ok (.mtile 9 false 0xC0)
  ∧ decodeMove .kb true 0b0000_100100000_0_0100000000 = .ok (.xcopy .kb 0 false 0x100)
  ∧ decodeMove .s false 0b0000_011000000_0_0000000101 = .ok (.move .s 0 0xC0 false 5)
  ∧ decodeMove .s false 0b1000_100000000_0_0000000001 = .error .guard
  ∧ decodeMove .s false 0b0000_100000000_0_0100000000 = .error .literal

/-- The decoder reads back every well-formed instruction that has an encoding, with every operand it admits. -/
def Obligations.DecodeOfEncode : Prop :=
  ∀ (i : Instr) (sl : Slot) (p : Parcel) (lit : Bool), i.wf = true → encode i = some (sl, p)
    → (isLit (MoveFields.ofParcel sl p).f = true → lit = true) → decodeMove sl lit p = .ok i

/-- A parcel that decodes is the word of the instruction it decodes to, which is well formed: no bit of a move is dropped and no reserved word is taken. -/
def Obligations.EncodeOfDecode : Prop :=
  ∀ (i : Instr) (sl : Slot) (p : Parcel) (lit : Bool), decodeMove sl lit p = .ok i → encode i = some (sl, p) ∧ i.wf = true

/-- A parcel is three bytes at CODEBASE + 3n, lowest first, each read through the translation that a fetch gets and its line then held by its home slice (R26,
R27, R75). No migration is open. -/
def Obligations.FetchReadsParcel : Prop :=
  ∀ (s s0 s1 s2 : State) (c : CoreId) (base : W64) (n : W32) (pa0 pa1 pa2 : Nat),
    let a := parcelAddr base n
    (∀ k : BitVec 64, k.toNat < 3 → (a + k).extractLsb' 56 8 = 0)
    → s.translateVa c a.toNat .fetch 3 = (.ok pa0, s0) → (s0.cacheLine c.die pa0).translateVa c (a + 1).toNat .fetch 3 = (.ok pa1, s1)
    → (s1.cacheLine c.die pa1).translateVa c (a + 2).toNat .fetch 3 = (.ok pa2, s2) → s0.m.migs = [] → s1.m.migs = [] → s2.m.migs = []
    → s.fetchParcel c base n = (.ok (Memory.read s2.m.mem pa2 ++ Memory.read s1.m.mem pa1 ++ Memory.read s0.m.mem pa0), s2.cacheLine c.die pa2)

/-- A step runs the decoded instruction: on a turn that gives one group of a core of the package its cycle, where that group's next bundle holds one move that decodes to `i`, whose
register reads the banks serve (R164), the step is `exec i` on the state with the bundle's landings and with the logical times of the accesses whose values the bundle reads (Table 4.2),
and then the bundle retires; around it the cycle is counted before, with what is due in it, and after the move a full/empty wait that is over clears the refused mark (R138), waits are
retried, and ended tasks that owe nothing else arrive (R306). That the banks serve the groups in ascending order is the model's choice (log entry 59). -/
def Obligations.StepRunsDecodedMove : Prop :=
  ∀ (s t : State) (c : CoreId) (r : List Turn) (d : Disp) (sl : Slot) (p : Parcel) (i : Instr) (p0 : Pipe),
    s.agenda = .cycle c (1 <<< sl.gix) :: r → s.phase = .running → s.hasCore c = true
    → let s1 := State.countCycle { s with agenda := r, cur := c }
      let g := sl.gix
      let n := s1.pipe.pos g
      let s2 := s1.dispatchTo c n 20
      s1.me.canIssue = true → s1.pipe.mayReach g = true → s2.pipe.stream.at n = some d → s2.pipe.mayIssue g d = true → d.marker = none
      → s2.metaDue [g] n d = false → s2.pipe.together g d = [g] → d.moves = [(sl, p)] → s2.pipe.begin [g] n d = (p0, .done) → (g = 1 → s2.pipe.fpDue = none)
      → p0.ib.lit = d.lit → decodeMove sl d.lit.isSome p = .ok i
      → let w := s2.pipe.serve g (p0.vReads [g] d)
        w.2 = true → exec i (((s2.modPipe fun _ => p0).readTimes p0 [g] d).atSlot sl) = .next t → t.cur = c → t.pipe.disp = .issued
      → let u := if s2.pipe.holds.getD g none = some 1 then t.unrefuse c else t
        step s = .next ((((u.modPipe fun p => { (p.dropFills p0 [g] d).retire [g] with busy := w.1.busy }).modMe Core.endCycle).retryWaits c).endOwed)

/-- Every memory keeps its canonical form in every step, so that equal memories are equal data. -/
def Obligations.MemoryStaysCanonical : Prop :=
  ∀ s t : State, s.memWf → step s = .next t → t.memWf

/-- Reset's memories have the canonical form. -/
def Obligations.ResetMemoryCanonical : Prop := State.reset.memWf

/-! ## Issue of a move (R35, R37, R41, R42) -/

/-- Rule R35: a move whose guard is false writes nothing and has no effect: it only issues. Of every well-formed instruction that is a move. -/
def Obligations.GuardedOffMoveOnlyIssues : Prop :=
  ∀ (i : Instr) (m : MoveFields) (s : State), i.fields = some m → i.wf = true → s.pipe.guardOf m.slot m.g = false → exec i s = .next s.issued

/-- The reserved guard, and a source that reads an empty register: with G = 0b1000 cause 0x02 is raised at the move's parcel; with E = 0 the group waits, with E = 1
cause 0x03 is raised with the selector (R35, R37, Table 14.1). Of every move, the type of the floating family apart (R213). What stands in the way of a move of the M slot comes before its
source: the cause of a metadata word that is pending (R242), a trap level but for MSTAT (R324), another core that leads the group (R253). -/
def Obligations.UnreadableMoveWaitsOrTraps : Prop :=
  ∀ (i : Instr) (m : MoveFields) (s : State), i.fields = some m → i.operandWf = true →
    let mx := s.me.mx
    let allowed : Prop := s.pipe.trap.tl = 0 ∨ ∃ g e f, i = .mstat g e f
    let free : Prop := m.slot = .m → mx.pendMeta = none ∧ allowed ∧ (mx.leader = none ∨ mx.leader = some s.cur)
    (m.g = 8 → exec i s = .next (s.trapAt m.slot 0x02 (s.moveAddr m.slot)))
    ∧ (m.g ≠ 8 → s.pipe.guardOf m.slot m.g = true →
      (free → s.source s.cur m.e m.f = .wait → exec i s = .next (s.hold 1))
      ∧ (free → s.source s.cur m.e m.f = .empty → exec i s = .next (s.trapAt m.slot 0x03 (m.f.setWidth 64)))
      ∧ (m.slot = .m →
        (∀ x a, mx.pendMeta = some (x, a) →
          let t := s.modMx fun y => { y with pendMeta := none }
          exec i s = .next (if x = 0x08 then t.consume .m a else t.trapAt .m x a))
        ∧ (mx.pendMeta = none → ¬allowed → exec i s = .next (s.trapAt .m 0x02 (s.moveAddr .m)))
        ∧ (mx.pendMeta = none → allowed → ∀ l, mx.leader = some l → l ≠ s.cur → exec i s = .next (s.trapAt .m 0x0C (BitVec.ofNat 64 l.num)))))

/-- Reading and writing a register by selector (R36, R42, R163, Tables 2.5, 2.6, 2.8): s0 and m0 discard what is written and read as 0 and as all ones; any other
register reads what was written, converted to its width, and no other selector's register changes. -/
def Obligations.RegistersReadWhatWasWritten : Prop :=
  ∀ (r : RegFile) (v : Val),
    r.put 0 v = r ∧ r.get 0 = .w64 0 ∧ r.put 0x88 v = r ∧ r.get 0x88 = .msk (BitVec.allOnes 256)
    ∧ (∀ f, selS f = true → f ≠ 0 → (r.put f v).get f = .sc v.toS ∧ (r.put f v).full f = true)
    ∧ (∀ f, selV f = true ∨ selO f = true → (r.put f v).get f = .vec v.toV ∧ (r.put f v).full f = true)
    ∧ (∀ f, selP f = true → (r.put f v).get f = .w64 (boolWord 64 v.toP))
    ∧ (∀ f, selM f = true → f ≠ 0x88 → (r.put f v).get f = .msk v.toM)
    ∧ (∀ f h, f ≠ h → dValid f = true → dValid h = true → (r.put f v).get h = r.get h ∧ (r.put f v).full h = r.full h)

/-- MOVE (R42): a source value goes to the register TO names, with its conversion, or into the slot's X, Y or D latch; a p, m or D destination takes no poison
from the lanes that reach it: one that would is consumed (Tables 2.8, 14.5). -/
def Obligations.MoveWritesDestination : Prop :=
  ∀ (s : State) (sl : Slot) (g : BitVec 4) (d : BitVec 9) (e : Bool) (f : BitVec 10) (v : Val),
    s.ready sl g e f v = true → toRegister d = true →
    (v.spoils d = false → d.toNat < 0xC0 → exec (.move sl g d e f) s = .next (s.regWrite (.put (d.setWidth 10) v)).issued)
      ∧ (v.spoils d = true → exec (.move sl g d e f) s = .next (s.consume sl (f.setWidth 64)))
      ∧ (v.spoils d = false → 0xC0 ≤ d.toNat → exec (.move sl g d e f) s = .next (s.modPipe fun p => { p with units := p.units.putLatch sl d v }).issued)

/-- The frame of what only registers receive (R168, R169, R43): a short operation leaves one more result on its way, due after the unit's latency, and changes no register, queue, flag, system or trap register, no
byte of memory and no other core; a register write that issues changes that register and no latch, queue, flag, system or trap register, no byte and no other core. Of
the moves of the S, KA, KB, VA, VB, M and C slots whose result statements are in these terms. -/
def Obligations.RegisterOperationFrame : Prop :=
  (∀ (s : State) (u : Unit7) (v : Val) (fl : Flags) (d : Option (BitVec 10)),
    (s.short u v fl d).pipe.shorts = s.pipe.shorts ++ [⟨u, v, fl, d, u.latency⟩] ∧ (s.short u v fl d).pipe.disp = .issued
    ∧ sameArch s (s.short u v fl d) s.cur ∧ sameBytes s (s.short u v fl d) ∧ sameElsewhere s (s.short u v fl d))
  ∧ ∀ (s : State) (f : BitVec 10) (v : Val), s.pipe.wq = none →
    let t := (s.regWrite (.put f v)).issued
    let e := (s.regWrite (.empty f)).issued
    t.pipe.regs = s.pipe.regs.put f v ∧ e.pipe.regs = s.pipe.regs.drain f
    ∧ (∀ x ∈ [t, e], x.pipe.units = s.pipe.units ∧ x.pipe.sys = s.pipe.sys ∧ x.pipe.sys2 = s.pipe.sys2 ∧ x.pipe.trap = s.pipe.trap ∧ x.pipe.shorts = s.pipe.shorts
        ∧ x.pipe.longs = s.pipe.longs ∧ x.pipe.disp = .issued ∧ x.me.mx = s.me.mx ∧ sameBytes s x ∧ sameElsewhere s x)

/-! ## The scalar unit (R177 to R182) -/

/-- The short scalar operations (R177): with X the latch and F what FROM delivers, each lands its value at the S unit's latency with no flag, poisoned by the operands
it reads. -/
def Obligations.ScalarShortResults : Prop :=
  ∀ (s : State) (g : BitVec 4) (e : Bool) (f : BitVec 10) (v : Val), s.ready .s g e f v = true →
    let x := s.pipe.units.s.x.val
    let y := s.pipe.units.s.y.val
    let w := v.toS.val
    let px := s.pipe.units.s.x.poi
    let py := s.pipe.units.s.y.poi
    let pf := v.toS.poi
    let r (u : W64) (bad : Bool) : Out := .next (s.short .s (.sc ⟨u, bad⟩) 0 none)
    exec (.add g e f) s = r (x + w) (px || pf) ∧ exec (.sub g e f) s = r (x - w) (px || pf) ∧ exec (.mul g e f) s = r (x * w) (px || pf)
    ∧ exec (.mulh g e f) s = r (BitVec.ofInt 64 (x.toInt * w.toInt / 2 ^ 64)) (px || pf)
    ∧ exec (.mulhu g e f) s = r (((x.setWidth 128) * (w.setWidth 128)).extractLsb' 64 64) (px || pf)
    ∧ exec (.and g e f) s = r (x &&& w) (px || pf) ∧ exec (.or g e f) s = r (x ||| w) (px || pf) ∧ exec (.xor g e f) s = r (x ^^^ w) (px || pf)
    ∧ exec (.andn g e f) s = r (x &&& ~~~w) (px || pf)
    ∧ exec (.shl g e f) s = r (x <<< (w.extractLsb' 0 6).toNat) (px || pf) ∧ exec (.shr g e f) s = r (x >>> (w.extractLsb' 0 6).toNat) (px || pf)
    ∧ exec (.sar g e f) s = r (x.sshiftRight (w.extractLsb' 0 6).toNat) (px || pf)
    ∧ exec (.rotl g e f) s = r (x.rotateLeft (w.extractLsb' 0 6).toNat) (px || pf)
    ∧ exec (.minS g e f) s = r (if x.toInt ≤ w.toInt then x else w) (px || pf) ∧ exec (.maxS g e f) s = r (if x.toInt < w.toInt then w else x) (px || pf)
    ∧ exec (.minu g e f) s = r (if x.toNat ≤ w.toNat then x else w) (px || pf) ∧ exec (.maxu g e f) s = r (if x.toNat < w.toNat then w else x) (px || pf)
    ∧ exec (.clz g e f) s = r (if w = 0 then 64 else BitVec.ofNat 64 (63 - Nat.log2 w.toNat)) pf
    ∧ exec (.ctz g e f) s = r (BitVec.ofNat 64 (((List.range 64).find? fun i => w.getLsbD i).getD 64)) pf
    ∧ exec (.popc g e f) s = r (BitVec.ofNat 64 ((List.range 64).countP fun i => w.getLsbD i)) pf
    ∧ exec (.sextB g e f) s = r ((w.extractLsb' 0 8).signExtend 64) pf ∧ exec (.sextH g e f) s = r ((w.extractLsb' 0 16).signExtend 64) pf
    ∧ exec (.sextW g e f) s = r ((w.extractLsb' 0 32).signExtend 64) pf
    ∧ exec (.zextB g e f) s = r (w &&& 0xFF) pf ∧ exec (.zextH g e f) s = r (w &&& 0xFFFF) pf ∧ exec (.zextW g e f) s = r (w &&& 0xFFFFFFFF) pf
    ∧ exec (.sel g e f) s = (if y.toNat % 8 ≠ 0 ∧ s.pipe.regs.p.getD (y.toNat % 8) false = true then r x (px || py) else r w (pf || py))
    ∧ exec (.addW g e f) s = r (((x + w).extractLsb' 0 32).signExtend 64) (px || pf)
    ∧ exec (.subW g e f) s = r (((x - w).extractLsb' 0 32).signExtend 64) (px || pf)
    ∧ exec (.mulW g e f) s = r (((x * w).extractLsb' 0 32).signExtend 64) (px || pf)
    ∧ exec (.lea g e f) s = r (x + (w <<< (y.extractLsb' 0 2).toNat)) (px || py || pf)

/-- The scalar compares (R178): the truth of the condition, as 1 or 0, lands in s.q0 and in the register D names at the trigger; where D names none, cause 0x02, and a
D latch that a parity error has poisoned is consumed (log entry 48). -/
def Obligations.ScalarCompareResults : Prop :=
  ∀ (s : State) (g : BitVec 4) (e : Bool) (f : BitVec 10) (v : Val), s.ready .s g e f v = true →
    let x := s.pipe.units.s.x.val
    let w := v.toS.val
    let r (b : Bool) : Out := if s.dNamed .s then .next (s.short .s (.sc ⟨if b then 1 else 0, s.pipe.units.s.x.poi || v.toS.poi⟩) 0 (some (s.dOf .s)))
      else if s.pipe.units.bad.getLsbD Slot.s.index then .next (s.consume .s ((s.dOf .s).setWidth 64)) else .next (s.trapAt .s 0x02 (s.moveAddr .s))
    exec (.cmpEq g e f) s = r (decide (x = w)) ∧ exec (.cmpNe g e f) s = r (decide (x ≠ w))
    ∧ exec (.cmpLt g e f) s = r (decide (x.toInt < w.toInt)) ∧ exec (.cmpLe g e f) s = r (decide (x.toInt ≤ w.toInt))
    ∧ exec (.cmpLtu g e f) s = r (decide (x.toNat < w.toNat)) ∧ exec (.cmpLeu g e f) s = r (decide (x.toNat ≤ w.toNat))

/-- Division (R179, Table 14.3): quotient truncated towards zero and its remainder, F = 0 giving all ones and X, −2^(n−1) by −1 giving −2^(n−1) and 0; the register D names
empties and receives the value 40 cycles later, 24 for the .W forms (the rule gives these as the most: log entry 15). No division is pending. A divisor of 0 with DZE = 1 raises cause 0x04, the bundle
issued, with TADDR the D selector, and writes nothing. Where D names no register, cause 0x02 (R41; that D comes first is log entry 75). -/
def Obligations.DivisionResults : Prop :=
  ∀ (s : State) (g : BitVec 4) (e : Bool) (f : BitVec 10) (v : Val), s.ready .s g e f v = true →
    (s.dNamed .s = false → s.pipe.units.bad.getLsbD Slot.s.index = false →
      ∀ i ∈ [Instr.div g e f, .divu g e f, .rem g e f, .remu g e f, .divW g e f, .divuW g e f, .remW g e f, .remuW g e f], exec i s = .next (s.trapAt .s 0x02 (s.moveAddr .s)))
    ∧ (s.dNamed .s = true → s.pipe.dividing = false →
    let x := s.pipe.units.s.x.val
    let w := v.toS.val
    let x4 := x.setWidth 32
    let w4 := w.setWidth 32
    let d := s.dOf .s
    let r (u : W64) (n : Nat) : Out := .next (((s.modPipe fun p => { p with
      longs := p.longs ++ [⟨.s, .sc ⟨u, s.pipe.units.s.x.poi || v.toS.poi⟩, 0, d, n, .value⟩] }).regWrite (.empty d)).issued)
    let sdiv (n : Nat) (a b : BitVec n) : BitVec n := if b = 0 then BitVec.allOnes n else BitVec.ofInt n (a.toInt.tdiv b.toInt)
    let srem (n : Nat) (a b : BitVec n) : BitVec n := if b = 0 then a else BitVec.ofInt n (a.toInt.tmod b.toInt)
    let udiv (n : Nat) (a b : BitVec n) : BitVec n := if b = 0 then BitVec.allOnes n else a / b
    let urem (n : Nat) (a b : BitVec n) : BitVec n := if b = 0 then a else a % b
    ((s.pipe.sys.dze = false ∨ w ≠ 0) → exec (.div g e f) s = r (sdiv 64 x w) 40 ∧ exec (.divu g e f) s = r (udiv 64 x w) 40
      ∧ exec (.rem g e f) s = r (srem 64 x w) 40 ∧ exec (.remu g e f) s = r (urem 64 x w) 40)
    ∧ ((s.pipe.sys.dze = false ∨ w4 ≠ 0) → exec (.divW g e f) s = r ((sdiv 32 x4 w4).signExtend 64) 24 ∧ exec (.divuW g e f) s = r ((udiv 32 x4 w4).signExtend 64) 24
      ∧ exec (.remW g e f) s = r ((srem 32 x4 w4).signExtend 64) 24 ∧ exec (.remuW g e f) s = r ((urem 32 x4 w4).signExtend 64) 24)
    ∧ (s.pipe.sys.dze = true →
      let t : Out := .next (s.trapIssued .s 0x04 ((s.dOf .s).setWidth 64))
      (w = 0 → exec (.div g e f) s = t ∧ exec (.divu g e f) s = t ∧ exec (.rem g e f) s = t ∧ exec (.remu g e f) s = t)
      ∧ (w4 = 0 → exec (.divW g e f) s = t ∧ exec (.divuW g e f) s = t ∧ exec (.remW g e f) s = t ∧ exec (.remuW g e f) s = t)))

/-- Loads (R180, Table 7.9): an access of the form's width at X + F that is aligned and translates becomes the task's next request of its class, and the
register D names empties. -/
def Obligations.LoadsIssueRequests : Prop :=
  ∀ (s t : State) (g : BitVec 4) (cl : BitVec 2) (e : Bool) (f : BitVec 10) (v : Val) (l : Loc), s.ready .s g e f v = true → s.dNamed .s = true →
    s.pipe.units.s.x.poi = false → v.toS.poi = false →
    let a := s.pipe.units.s.x.val + v.toS.val
    let d := s.dOf .s
    let ok (n : Nat) (sg : Bool) : Prop := s.reaches a n .read l t ∧ t.roomFor (.load sg) l = true
    let r (n : Nat) (sg : Bool) : Out := .next (((t.modMe fun k => { k with
      reqs := k.reqs ++ [⟨k.seq, cl, .load sg, l, n, ⟨0, false⟩, ⟨0, false⟩, d, some k.pipe.ib.idx⟩], seq := k.seq + 1 }).regWrite (.empty d)).issued)
    (ok 1 true → exec (.ldB g cl e f) s = r 1 true) ∧ (ok 2 true → exec (.ldH g cl e f) s = r 2 true) ∧ (ok 4 true → exec (.ldW g cl e f) s = r 4 true)
    ∧ (ok 8 false → exec (.ldD g cl e f) s = r 8 false) ∧ (ok 1 false → exec (.lduB g cl e f) s = r 1 false)
    ∧ (ok 2 false → exec (.lduH g cl e f) s = r 2 false) ∧ (ok 4 false → exec (.lduW g cl e f) s = r 4 false)

/-- Stores (R180, Table 7.9): the low bytes of Y with its poison become the task's next request, and no register changes. -/
def Obligations.StoresIssueRequests : Prop :=
  ∀ (s t : State) (g : BitVec 4) (cl : BitVec 2) (e : Bool) (f : BitVec 10) (v : Val) (l : Loc), s.ready .s g e f v = true →
    s.pipe.units.s.x.poi = false → v.toS.poi = false → t.roomFor .store l = true →
    let a := s.pipe.units.s.x.val + v.toS.val
    let r (n : Nat) : Out := .next ((t.modMe fun k => { k with
      reqs := k.reqs ++ [⟨k.seq, cl, .store, l, n, t.pipe.units.s.y, ⟨0, false⟩, 0, some k.pipe.ib.idx⟩], seq := k.seq + 1, task := { k.task with refused := false } }).issued)
    (s.reaches a 1 .write l t → exec (.stB g cl e f) s = r 1) ∧ (s.reaches a 2 .write l t → exec (.stH g cl e f) s = r 2)
    ∧ (s.reaches a 4 .write l t → exec (.stW g cl e f) s = r 4) ∧ (s.reaches a 8 .write l t → exec (.stD g cl e f) s = r 8)

/-- An address that is of no form raises its form's cause, and then one that is not aligned to the width of the access cause 0x07, with TADDR the address, and
nothing is requested (R65, R73, R180, R182): of every load, store and atomic, whatever D names where the form writes no register. A window read checks its offset,
then the sum (R181). A load, a returning atomic or a window read whose D names no register raises cause 0x02 (R41; that D comes first is log entry 75). -/
def Obligations.MisalignedAccessTraps : Prop :=
  ∀ (s : State) (g : BitVec 4) (cl : BitVec 2) (w : BitVec 1) (n : BitVec 3) (e : Bool) (f : BitVec 10) (v : Val), s.ready .s g e f v = true →
    let o := v.toS.val
    let a := s.pipe.units.s.x.val + o
    let r (k : Nat) (b : W64) (t : Out) : Prop := ((∃ x, s.form s.cur b = .ok x) → b.toNat % k ≠ 0 → t = .next (s.trapAt .s 0x07 b))
      ∧ (∀ c d, s.form s.cur b = .error (c, d) → t = .next (s.trapAt .s c d))
    let loads : List (Nat × Out) := [(1, exec (.ldB g cl e f) s), (2, exec (.ldH g cl e f) s), (4, exec (.ldW g cl e f) s), (8, exec (.ldD g cl e f) s),
      (1, exec (.lduB g cl e f) s), (2, exec (.lduH g cl e f) s), (4, exec (.lduW g cl e f) s)]
    let stores : List (Nat × Out) := [(1, exec (.stB g cl e f) s), (2, exec (.stH g cl e f) s), (4, exec (.stW g cl e f) s), (8, exec (.stD g cl e f) s)]
    let returning : List Out := [exec (.aadd g w e f) s, exec (.amin g w e f) s, exec (.amax g w e f) s, exec (.aminu g w e f) s, exec (.amaxu g w e f) s,
      exec (.aand g w e f) s, exec (.aor g w e f) s, exec (.axor g w e f) s, exec (.axchg g w e f) s, exec (.acas g w e f) s]
    let silent : List Out := [exec (.aaddN g w e f) s, exec (.aminN g w e f) s, exec (.amaxN g w e f) s, exec (.aminuN g w e f) s, exec (.amaxuN g w e f) s,
      exec (.aandN g w e f) s, exec (.aorN g w e f) s, exec (.axorN g w e f) s]
    let windows : List (Nat × Out) := [(4, exec (.pwldW g n e f) s), (8, exec (.pwldD g n e f) s)]
    let len := (s.pipe.sys.pws[n.toNat]'(by omega)).toNat
    let b := (s.pipe.sys.pwb[n.toNat]'(by omega)) + o
    (v.toS.poi = false →
      (s.pipe.units.s.x.poi = false → (∀ q ∈ stores, r q.1 a q.2) ∧ (s.dNamed .s = true → ∀ q ∈ loads, r q.1 a q.2))
      ∧ (∀ t ∈ silent, r (if w = 1 then 8 else 4) o t) ∧ (s.dNamed .s = true → ∀ t ∈ returning, r (if w = 1 then 8 else 4) o t)
      ∧ (s.dNamed .s = true → len ≠ 0 → ∀ q ∈ windows, (o.toNat % q.1 ≠ 0 → q.2 = .next (s.trapAt .s 0x07 o))
          ∧ (o.toNat % q.1 = 0 → o.toNat + q.1 ≤ len → (b.toNat % q.1 ≠ 0 → q.2 = .next (s.trapAt .s 0x07 b))
            ∧ (b.toNat % q.1 = 0 → ∀ c d, s.form s.cur b = .error (c, d) → q.2 = .next (s.trapAt .s c d)))))
    ∧ (s.dNamed .s = false → s.pipe.units.bad.getLsbD Slot.s.index = false →
        ∀ t ∈ loads.map (·.2) ++ returning ++ windows.map (·.2), t = .next (s.trapAt .s 0x02 (s.moveAddr .s)))

/-- Parameter windows (R181): a read inside window n becomes a class-0 request at PWB_n + F; one that runs past its length writes 0 a cycle later and is
entered in PWSTAT; a window of length 0 raises cause 0x09 with n. -/
def Obligations.WindowReads : Prop :=
  ∀ (s t : State) (g : BitVec 4) (n : BitVec 3) (e : Bool) (f : BitVec 10) (v : Val) (l : Loc), s.ready .s g e f v = true → s.dNamed .s = true → v.toS.poi = false →
    let o := v.toS.val
    let len := (s.pipe.sys.pws[n.toNat]'(by omega)).toNat
    let a := (s.pipe.sys.pwb[n.toNat]'(by omega)) + o
    let d := s.dOf .s
    let r (k : Nat) (x : Out) : Prop :=
      (len ≠ 0 → o.toNat % k = 0 → o.toNat + k ≤ len → s.reaches a k .read l t → t.roomFor (.load false) l = true
        → x = .next (((t.modMe fun c => { c with reqs := c.reqs ++ [⟨c.seq, 0, .load false, l, k, ⟨0, false⟩, ⟨0, false⟩, d, some c.pipe.ib.idx⟩], seq := c.seq + 1 }).regWrite (.empty d)).issued))
      ∧ (len ≠ 0 → o.toNat % k = 0 → len < o.toNat + k
        → x = .next (((s.modPipe fun p => { p with longs := p.longs ++ [⟨.s, .w64 0, 0, d, 1, .window n⟩] }).regWrite (.empty d)).issued))
      ∧ (len = 0 → x = .next (s.trapAt .s 0x09 (n.setWidth 64)))
    r 4 (exec (.pwldW g n e f) s) ∧ r 8 (exec (.pwldD g n e f) s)

/-- Atomics (R182, Table 7.10): at F, of 4 bytes for w = 0 and 8 for w = 1, with operand Y and for ACAS the expected value X; a returning form
empties the register D names, and the .N forms write none. -/
def Obligations.AtomicsIssueRequests : Prop :=
  ∀ (s t : State) (g : BitVec 4) (w : BitVec 1) (e : Bool) (f : BitVec 10) (v : Val) (l : Loc), s.ready .s g e f v = true → v.toS.poi = false →
    let n := if w = 1 then 8 else 4
    s.reaches v.toS.val n .write l t → (∀ op ret, t.roomFor (.atomic op ret) l = true) →
    let q (op : AOp) (ret : Bool) (d : BitVec 10) : State := t.modMe fun k => { k with
      reqs := k.reqs ++ [⟨k.seq, 0, .atomic op ret, l, n, t.pipe.units.s.y, t.pipe.units.s.x, d, some k.pipe.ib.idx⟩], seq := k.seq + 1, task := { k.task with refused := false } }
    let ret (op : AOp) : Out := .next (((q op true (s.dOf .s)).regWrite (.empty (s.dOf .s))).issued)
    let no (op : AOp) : Out := .next (q op false 0).issued
    (s.dNamed .s = true → exec (.aadd g w e f) s = ret .add ∧ exec (.amin g w e f) s = ret .min ∧ exec (.amax g w e f) s = ret .max
      ∧ exec (.aminu g w e f) s = ret .minu ∧ exec (.amaxu g w e f) s = ret .maxu ∧ exec (.aand g w e f) s = ret .and ∧ exec (.aor g w e f) s = ret .or
      ∧ exec (.axor g w e f) s = ret .xor ∧ exec (.axchg g w e f) s = ret .xchg ∧ exec (.acas g w e f) s = ret .cas)
    ∧ exec (.aaddN g w e f) s = no .add ∧ exec (.aminN g w e f) s = no .min ∧ exec (.amaxN g w e f) s = no .max ∧ exec (.aminuN g w e f) s = no .minu
    ∧ exec (.amaxuN g w e f) s = no .maxu ∧ exec (.aandN g w e f) s = no .and ∧ exec (.aorN g w e f) s = no .or ∧ exec (.axorN g w e f) s = no .xor

/-! ## Accesses at their homes (R93, R106) -/

/-- HOME_ACCESS of a store (R81, R93, R180): the low bytes of its operand are at its location, lowest first; every other byte of memory reads as before, where the location lies in no
replicated page, which would collapse first; and no register changes. Then the ended tasks that waited for it arrive (R306). -/
def Obligations.HomeStoreWritesBytes : Prop :=
  ∀ (s : State) (n : Nat) (r : Req) (l : Loc), s.memWf → s.performs n r l → r.op = .store →
    ∃ t, exec (.homeAccess n) s = .next t.endOwed ∧ (s.owesNone → t.endOwed = t)
      ∧ (∀ i, i < r.size → t.byteAt (l.plus i) = BitVec.ofNat 8 (r.data.val.toNat / 256 ^ i))
      ∧ (∀ a, Memory.read t.m.host a = Memory.read s.m.host a) ∧ (∀ a, Memory.read t.m.pmem a = Memory.read s.m.pmem a) ∧ (∀ c, sameArch s t c)
      ∧ (s.unshared l → (∀ x, (∀ i, i < r.size → x ≠ l.plus i) → t.byteAt x = s.byteAt x)
        ∧ t.me.reqs = s.me.reqs.filter fun q => decide (q.seq ≠ r.seq))

/-- HOME_ACCESS of a load whose home is the core's own die, or whose line its die holds no copy of (R93, R180): the bytes at its location, lowest first, extended, reach the register D named at
issue, which becomes full, with the poison of the words they lie in; no byte of memory changes. Then the ended tasks that waited for it arrive (R306). -/
def Obligations.HomeLoadReturnsBytes : Prop :=
  ∀ (s : State) (n : Nat) (r : Req) (l : Loc) (sg : Bool), s.performs n r l → r.op = .load sg →
    (s.locDie l = s.cur.die ∨ ∀ a, l = .pa a → ∀ x ∈ (s.die s.cur.die).copies, x.line ≠ a / 128 * 128) →
    ∃ t, exec (.homeAccess n) s = .next t.endOwed ∧ (s.owesNone → t.endOwed = t) ∧ sameBytes s t
      ∧ s.receives t r.dsel (.sc ⟨extend r.size sg (natOfBytes ((List.range r.size).map fun i => s.byteAt (l.plus i))), (s.homeBytes l r.size).2⟩)
      ∧ t.me.reqs = s.me.reqs.filter fun q => decide (q.seq ≠ r.seq)

/-- HOME_ACCESS of an atomic, and ATOMIC_AT_HOME, of one part and of two merged ones (R81, R93, R106, R146, R147, R182): an atomic at its home makes the word the operation's value of the old word and the
operand, the returning form's register receives the old word, and every other byte reads as before, where the location lies in no replicated page; of two parts that merge, in either order
given, the one of the lower core number is performed first and the other on what it leaves. Then the ended tasks that waited for them arrive (R306). -/
def Obligations.HomeAtomicUpdatesWord : Prop :=
  (∀ (s : State) (n : Nat) (r : Req) (l : Loc) (op : AOp) (ret : Bool), s.memWf → s.performs n r l → r.op = .atomic op ret →
    let old : W64 := BitVec.ofNat 64 (natOfBytes ((List.range r.size).map fun i => s.byteAt (l.plus i)))
    let new := op.apply r.size old r.data.val r.x.val
    ∃ t, exec (.homeAccess n) s = .next t.endOwed ∧ exec (.atomicAtHome [(s.cur, n)]) s = .next t.endOwed ∧ (s.owesNone → t.endOwed = t)
      ∧ (∀ i, i < r.size → t.byteAt (l.plus i) = BitVec.ofNat 8 (new.toNat / 256 ^ i))
      ∧ (s.unshared l → ∀ x, (∀ i, i < r.size → x ≠ l.plus i) → t.byteAt x = s.byteAt x)
      ∧ (ret = true → s.receives t r.dsel (.sc ⟨extend r.size (r.size == 4) old.toNat, (s.homeBytes l r.size).2⟩))
      ∧ (ret = false → t.pipe.regs = s.pipe.regs ∧ t.pipe.wq = s.pipe.wq))
  ∧ ∀ (s : State) (c d : CoreId) (m n : Nat) (r q : Req), s.phase ≠ .dusk → c.val < d.val → s.reqAt (c, m) = some (c, r) → s.reqAt (d, n) = some (d, q) →
    s.mergeable c d r q = true → s.mergeable d c q r = true →
    let t := ((s.performReq c r.seq).performReq d q.seq).endOwed
    exec (.atomicAtHome [(c, m), (d, n)]) s = .next t ∧ exec (.atomicAtHome [(d, n), (c, m)]) s = .next t

/-! ## The vector units (R207 to R226) -/

/-- The lane-wise integer operations and VSEL (R208, R216, R217, Table 9.4): an active lane takes the operation of a = X and f = F, an inactive one keeps X; poison follows
the lanes read, and an MSEL latch that a parity error has poisoned (log entry 48); no flag. -/
def Obligations.VectorIntegerResults : Prop :=
  ∀ (s : State) (u : VUnit) (g : BitVec 4) (e : Bool) (f : BitVec 10) (v : Val), s.ready u.slot g e f v = true →
    let X := (s.pipe.units.vec u).x
    let Y := (s.pipe.units.vec u).y
    let F := v.toV
    let act := s.pipe.maskFor u
    let out (h : Fin 256 → W32) (bad : Nat → Bool) : Out := .next (s.short u.slot.unit (.vec
      ⟨Vec.tab fun i => if act.getLsbD i.val then h i else X.val[i],
       maskOf fun i => s.pipe.maskBad u || if act.getLsbD i.val then bad i.val else X.poi.getLsbD i.val⟩) 0 none)
    let r (h : W32 → W32 → W32) : Out := out (fun i => h X.val[i] F.val[i]) fun i => X.poi.getLsbD i || F.poi.getLsbD i
    exec (.iadd u g e f) s = r (fun a f => a + f) ∧ exec (.isub u g e f) s = r (fun a f => a - f) ∧ exec (.imul u g e f) s = r (fun a f => a * f)
    ∧ exec (.imulh u g e f) s = r (fun a f => BitVec.ofInt 32 (a.toInt * f.toInt / 2 ^ 32))
    ∧ exec (.imulhu u g e f) s = r (fun a f => ((a.setWidth 64) * (f.setWidth 64)).extractLsb' 32 32)
    ∧ exec (.iand u g e f) s = r (fun a f => a &&& f) ∧ exec (.ior u g e f) s = r (fun a f => a ||| f) ∧ exec (.ixor u g e f) s = r (fun a f => a ^^^ f)
    ∧ exec (.iandn u g e f) s = r (fun a f => a &&& ~~~f)
    ∧ exec (.ishl u g e f) s = r (fun a f => a <<< (f.extractLsb' 0 5).toNat) ∧ exec (.ishr u g e f) s = r (fun a f => a >>> (f.extractLsb' 0 5).toNat)
    ∧ exec (.isar u g e f) s = r (fun a f => a.sshiftRight (f.extractLsb' 0 5).toNat)
    ∧ exec (.imin u g e f) s = r (fun a f => if f.toInt < a.toInt then f else a) ∧ exec (.imax u g e f) s = r (fun a f => if a.toInt < f.toInt then f else a)
    ∧ exec (.iminu u g e f) s = r (fun a f => if f.toNat < a.toNat then f else a) ∧ exec (.imaxu u g e f) s = r (fun a f => if a.toNat < f.toNat then f else a)
    ∧ exec (.iabs u g e f) s = out (fun i => if F.val[i].toInt < 0 then 0 - F.val[i] else F.val[i]) (fun i => F.poi.getLsbD i)
    ∧ exec (.iaddSat u g e f) s = r (fun a f => BitVec.ofInt 32 (max (-(2 ^ 31)) (min (2 ^ 31 - 1) (a.toInt + f.toInt))))
    ∧ exec (.isubSat u g e f) s = r (fun a f => BitVec.ofInt 32 (max (-(2 ^ 31)) (min (2 ^ 31 - 1) (a.toInt - f.toInt))))
    ∧ exec (.vsel u g e f) s = out (fun i => if Y.val[i] = 0 then X.val[i] else F.val[i])
        (fun i => (if Vec.lane Y.val i = 0 then X.poi.getLsbD i else F.poi.getLsbD i) || Y.poi.getLsbD i)

/-- The floating operations (R208, R213, R214, Table 9.3): type 0 works on 256 fp32 lanes, types 1 and 2 on 512 packed fp16 and bf16 elements; each active lane is the exact
result rounded under RMODE with its own draw, its flags entered at the landing; an inactive lane keeps X. Type 3 is no port and raises cause 0x02. -/
def Obligations.VectorFloatResults : Prop :=
  ∀ (s : State) (u : VUnit) (g : BitVec 4) (t : BitVec 2) (e : Bool) (f : BitVec 10) (v : Val), s.ready u.slot g e f v = true →
    let r (op : FpOp) : Out :=
      if t = 3 then .next (s.trapAt u.slot 0x02 (s.moveAddr u.slot))
      else
        let n := if op = .min ∨ op = .max ∨ op = .abs ∨ op = .neg ∨ op = .cpys then 0 else if t = 0 then 256 else 512
        let i := s.vin u v n
        let F := if t = 1 then fp16 else bf16
        let fp (F : Fmt) (a b f d : Nat) : Nat × Flags :=
          let c := (op.exact (decide (i.1.rm.mode = 3)) (F.decode a) (F.decode b) (F.decode f)).code F i.1.rm.mode.toNat d
          (c.1, c.2.1)
        let el (j : Nat) : Nat × Flags := fp F (elem i.1.x.val j) (elem i.1.y.val j) (elem i.1.f.val j) (i.1.draw j)
        let ln (k : Fin 256) : W32 × Flags :=
          if t = 0 then let c := fp fp32 (i.1.xl k).toNat (i.1.yl k).toNat (i.1.fl k).toNat (i.1.draw k.val); (w32 c.1, c.2)
          else (w32 ((el (2 * k.val)).1 + 65536 * (el (2 * k.val + 1)).1), (el (2 * k.val)).2 ||| (el (2 * k.val + 1)).2)
        let bad (k : Nat) : Bool := (op.readsX && i.1.px k) || (op.readsY && i.1.py k) || i.1.pf k
        .next (i.2.short u.slot.unit (.vec
          ⟨Vec.tab fun k => if i.1.act.getLsbD k.val then (ln k).1 else i.1.xl k, maskOf fun k => i.1.bad || if i.1.act.getLsbD k.val then bad k.val else i.1.px k.val⟩)
          (orFlags (lanes.map fun k => if i.1.act.getLsbD k.val then (ln k).2 else 0)) none)
    exec (.fadd u g t e f) s = r .add ∧ exec (.fsub u g t e f) s = r .sub ∧ exec (.fmul u g t e f) s = r .mul ∧ exec (.ffma u g t e f) s = r .fma
    ∧ exec (.ffms u g t e f) s = r .fms ∧ exec (.fnma u g t e f) s = r .nma ∧ exec (.fmin u g t e f) s = r .min ∧ exec (.fmax u g t e f) s = r .max
    ∧ exec (.fabs u g t e f) s = r .abs ∧ exec (.fneg u g t e f) s = r .neg ∧ exec (.fcpys u g t e f) s = r .cpys

/-- The vector compares (R215): an active lane is 1 or 0 by the condition on X and F, an inactive one 0, in q0 and in the register D names at the trigger; an unordered
fp32 comparison is false but for NE and UN; no flag. A D latch that names no register raises cause 0x02 (R41), and one that a parity error has poisoned is consumed (log entry 48). -/
def Obligations.VectorCompareResults : Prop :=
  ∀ (s : State) (u : VUnit) (g : BitVec 4) (e : Bool) (f : BitVec 10) (v : Val), s.ready u.slot g e f v = true →
    (s.dNamed u.slot = false → ∀ i ∈ [Instr.fcmpEq u g e f, .fcmpNe u g e f, .fcmpLt u g e f, .fcmpLe u g e f, .fcmpUn u g e f, .icmpEq u g e f, .icmpNe u g e f, .icmpLt u g e f,
        .icmpLe u g e f, .icmpLtu u g e f, .icmpLeu u g e f],
      exec i s = .next (if s.pipe.units.bad.getLsbD u.slot.index then s.consume u.slot ((s.dOf u.slot).setWidth 64) else s.trapAt u.slot 0x02 (s.moveAddr u.slot)))
    ∧ (s.dNamed u.slot = true →
    let X := (s.pipe.units.vec u).x
    let F := v.toV
    let act := s.pipe.maskFor u
    let r (c : W32 → W32 → Bool) : Out := .next (s.short u.slot.unit (.vec
      ⟨Vec.tab fun i => if act.getLsbD i.val ∧ c X.val[i] F.val[i] = true then 1 else 0,
       maskOf fun i => s.pipe.maskBad u || act.getLsbD i.val && (X.poi.getLsbD i.val || F.poi.getLsbD i.val)⟩) 0 (some (s.dOf u.slot)))
    exec (.fcmpEq u g e f) s = r (fun a b => fxEq (fx32 a) (fx32 b)) ∧ exec (.fcmpNe u g e f) s = r (fun a b => !fxEq (fx32 a) (fx32 b))
    ∧ exec (.fcmpLt u g e f) s = r (fun a b => fxLt (fx32 a) (fx32 b)) ∧ exec (.fcmpLe u g e f) s = r (fun a b => fxLt (fx32 a) (fx32 b) || fxEq (fx32 a) (fx32 b))
    ∧ exec (.fcmpUn u g e f) s = r (fun a b => isNan32 a || isNan32 b)
    ∧ exec (.icmpEq u g e f) s = r (fun a b => decide (a = b)) ∧ exec (.icmpNe u g e f) s = r (fun a b => decide (a ≠ b))
    ∧ exec (.icmpLt u g e f) s = r (fun a b => decide (a.toInt < b.toInt)) ∧ exec (.icmpLe u g e f) s = r (fun a b => decide (a.toInt ≤ b.toInt))
    ∧ exec (.icmpLtu u g e f) s = r (fun a b => decide (a.toNat < b.toNat)) ∧ exec (.icmpLeu u g e f) s = r (fun a b => decide (a.toNat ≤ b.toNat)))

/-- The conversions (R199, R208, R218, Table 9.5): widening, narrowing with one draw an element, to and from int32 and int8. CVT.H.F, CVT.B.F and CVT.I8.I ignore the mask. -/
def Obligations.VectorConvertResults : Prop :=
  ∀ (s : State) (u : VUnit) (g : BitVec 4) (e : Bool) (f : BitVec 10) (v : Val), s.ready u.slot g e f v = true →
    let m (n : Nat) (ln : VIn → Fin 256 → W32 × Flags) (bad : VIn → Nat → Bool) : Out :=
      let i := s.vin u v n
      .next (i.2.short u.slot.unit (.vec
        ⟨Vec.tab fun k => if i.1.act.getLsbD k.val then (ln i.1 k).1 else i.1.xl k, maskOf fun k => i.1.bad || if i.1.act.getLsbD k.val then bad i.1 k.val else i.1.px k.val⟩)
        (orFlags (lanes.map fun k => if i.1.act.getLsbD k.val then (ln i.1 k).2 else 0)) none)
    let wide (F : Fmt) (b : Nat) : Out := m 0 (fun i k => let c := (F.decode (elem i.f.val (b + k.val))).res.code fp32 0 0; (w32 c.1, c.2.1)) fun i k => i.pf ((b + k) / 2)
    let slim (F : Fmt) : Out :=
      let i := s.vin u v 512
      let el (j : Nat) : Nat × Flags :=
        let c := (fx32 (if j < 256 then Vec.lane i.1.x.val j else Vec.lane i.1.f.val (j - 256))).res.code F i.1.rm.mode.toNat (i.1.draw j); (c.1, c.2.1)
      let bad (j : Nat) : Bool := if j < 256 then i.1.px j else i.1.pf (j - 256)
      .next (i.2.short u.slot.unit (.vec ⟨Vec.tab fun k => w32 ((el (2 * k.val)).1 + 65536 * (el (2 * k.val + 1)).1), maskOf fun k => bad (2 * k.val) || bad (2 * k.val + 1)⟩)
        (orFlags ((List.range 512).map fun j => (el j).2)) none)
    exec (.cvtFH u g e f) s = wide fp16 0 ∧ exec (.cvtFHh u g e f) s = wide fp16 256 ∧ exec (.cvtFB u g e f) s = wide bf16 0 ∧ exec (.cvtFBh u g e f) s = wide bf16 256
    ∧ exec (.cvtHF u g e f) s = slim fp16 ∧ exec (.cvtBF u g e f) s = slim bf16
    ∧ exec (.cvtIF u g e f) s = m 256 (fun i k => let c := toIntN 32 i.rm.isat i.rm.mode.toNat (i.draw k.val) (fx32 (i.fl k)); (w32 c.1, c.2)) (fun i k => i.pf k)
    ∧ exec (.cvtFI u g e f) s = m 256 (fun i k => let c := fp32.round i.rm.mode.toNat (i.draw k.val) (intEx (i.fl k).toInt); (w32 c.1, c.2.1)) (fun i k => i.pf k)
    ∧ exec (.cvtI8I u g e f) s = .next (s.short u.slot.unit (.vec
        ⟨vecOfBytes fun k => if k < 256 then (narrowInt 8 s.pipe.rmode.isat (Vec.lane v.toV.val k).toInt).1 else 0,
         maskOf fun i => i.val < 64 && (List.range 4).any fun k => v.toV.poi.getLsbD (4 * i.val + k)⟩)
        (orFlags ((List.range 256).map fun k => (narrowInt 8 s.pipe.rmode.isat (Vec.lane v.toV.val k).toInt).2)) none)
    ∧ exec (.cvtII8 u g e f) s = m 0 (fun i k => ((BitVec.ofNat 8 (vecByte i.f.val k.val)).signExtend 32, 0)) (fun i k => i.pf (k / 4))

/-- MSEL, permutes and mask operations (R208, R219, R220, Tables 9.6 and 9.7): MSEL takes bits 2 to 0 of F; with k = Y.lane[0][7:0] each active lane takes the lane of F or X its table gives, with that lane's poison
and that of the control lane; truth operations give 1 or 0; MPOP and MFIRST give the number of active true lanes and the lowest of them, 256 for none, in every lane. -/
def Obligations.VectorPermuteMaskResults : Prop :=
  ∀ (s : State) (u : VUnit) (g : BitVec 4) (e : Bool) (f : BitVec 10) (v : Val), s.ready u.slot g e f v = true →
    let X := (s.pipe.units.vec u).x
    let Y := (s.pipe.units.vec u).y
    let F := v.toV
    let act := s.pipe.maskFor u
    let out (h : Fin 256 → W32 × Bool) : Out := .next (s.short u.slot.unit (.vec
      ⟨Vec.tab fun i => if act.getLsbD i.val then (h i).1 else X.val[i],
       maskOf fun i => s.pipe.maskBad u || if act.getLsbD i.val then (h i).2 else X.poi.getLsbD i.val⟩) 0 none)
    let k := (Y.val[0]).toNat % 256
    let ofF (j : Nat) : W32 × Bool := (Vec.lane F.val j, F.poi.getLsbD j || Y.poi.getLsbD 0)
    let ofX (j : Nat) : W32 × Bool := (Vec.lane X.val j, X.poi.getLsbD j || Y.poi.getLsbD 0)
    let truth (h : Bool → Bool → Bool) : Out :=
      out fun i => (if h (decide (X.val[i] ≠ 0)) (decide (F.val[i] ≠ 0)) then 1 else 0, X.poi.getLsbD i.val || F.poi.getLsbD i.val)
    let on := (List.finRange 256).filter fun (i : Fin 256) => act.getLsbD i.val && decide (F.val[i] ≠ 0)
    let count (n : Nat) : Out := .next (s.short u.slot.unit (.vec ⟨Vec.splat (BitVec.ofNat 32 n),
      if s.pipe.maskBad u = false ∧ act &&& F.poi = 0 then 0 else BitVec.allOnes 256⟩) 0 none)
    (v.poiS = false → exec (.msel u g e f) s = .next (s.modPipe fun p => { p with
      units := (p.units.mend (8 + u.slot.index)).setV u.slot { p.units.vec u with msel := v.toS.val.extractLsb' 0 3 } }).issued)
    ∧ (v.poiS = true → exec (.msel u g e f) s = .next (s.consume u.slot (f.setWidth 64)))
    ∧ exec (.vbcast u g e f) s = out (fun _ => ofF k) ∧ exec (.vrot u g e f) s = out (fun i => ofF ((i.val + k) % 256))
    ∧ exec (.vperm u g e f) s = out (fun i => (Vec.lane F.val ((Y.val[i]).toNat % 256), F.poi.getLsbD ((Y.val[i]).toNat % 256) || Y.poi.getLsbD i.val))
    ∧ exec (.vslup u g e f) s = out (fun i => if i.val < k then ofX i.val else ofF (i.val - k))
    ∧ exec (.vsldn u g e f) s = out (fun i => if i.val + k < 256 then ofF (i.val + k) else ofX i.val)
    ∧ exec (.vextl u g e f) s = out (fun i => if i.val + k < 256 then ofX (i.val + k) else ofF (i.val + k - 256))
    ∧ exec (.mand u g e f) s = truth (fun a b => a && b) ∧ exec (.mor u g e f) s = truth (fun a b => a || b) ∧ exec (.mxor u g e f) s = truth (fun a b => xor a b)
    ∧ exec (.mnot u g e f) s = out (fun i => (if F.val[i] = 0 then 1 else 0, F.poi.getLsbD i.val))
    ∧ exec (.mpop u g e f) s = count on.length ∧ exec (.mfirst u g e f) s = count ((on.head?.map Fin.val).getD 256)

/-- Special functions (R208, R210, R221, Table 9.8): each active lane is the function of F's lane (and X's for FDIV), rounded under RMODE, FRSQ, FEXP2 and FLOG2 to one of the two
enclosing values (which, the model leaves free: log entry 12); the register D names empties and receives the lanes 8 cycles later, 12 for FSQRT and FDIV. A D latch that names no register raises cause 0x02 (R41), and one that a parity error has poisoned is consumed (log entry 48). -/
def Obligations.SpecialFunctionResults : Prop :=
  ∀ (s : State) (u : VUnit) (g : BitVec 4) (e : Bool) (f : BitVec 10) (v : Val), s.ready u.slot g e f v = true →
    (s.dNamed u.slot = false → ∀ i ∈ [Instr.frcp u g e f, .frsq u g e f, .fsqrt u g e f, .fexp2 u g e f, .flog2 u g e f, .fdiv u g e f],
      exec i s = .next (if s.pipe.units.bad.getLsbD u.slot.index then s.consume u.slot ((s.dOf u.slot).setWidth 64) else s.trapAt u.slot 0x02 (s.moveAddr u.slot)))
    ∧ (s.dNamed u.slot = true →
    s.pipe.longs.countP (fun l => l.unit == u.slot.unit) < 8 →
    let r (n c : Nat) (x : Bool) (h : VIn → Fin 256 → W32 × Flags) : Out :=
      let i := s.vin u v n
      let ln (k : Fin 256) : W32 × Flags := h i.1 k
      .next (i.2.long u.slot.unit (.vec ⟨Vec.tab fun k => if i.1.act.getLsbD k.val then (ln k).1 else i.1.xl k,
          maskOf fun k => i.1.bad || if i.1.act.getLsbD k.val then (x && i.1.px k.val) || i.1.pf k.val else i.1.px k.val⟩)
        (orFlags (lanes.map fun k => if i.1.act.getLsbD k.val then (ln k).2 else 0)) (s.dOf u.slot) c)
    let rnd (q : Fx → Fx → Res) : VIn → Fin 256 → W32 × Flags := fun i k =>
      let c := (q (fx32 (i.fl k)) (fx32 (i.xl k))).code fp32 i.rm.mode.toNat (i.draw k.val); (w32 c.1, c.2.1)
    let enc (n : Nat) (q : Fx → Res) : VIn → Fin 256 → W32 × Flags := fun i k =>
      let c := (q (fx32 (i.fl k))).code fp32 (if Config.enclosesAbove n (i.fl k) then 2 else 3) 0
      let o := (q (fx32 (i.fl k))).code fp32 0 0
      if c.2.2 then (w32 o.1, o.2.1) else (w32 c.1, c.2.1)
    exec (.frcp u g e f) s = r 256 8 false (rnd fun a _ => fxDiv (.fin false 1 0) a) ∧ exec (.frsq u g e f) s = r 0 8 false (enc 0 rsqrtRes)
    ∧ exec (.fsqrt u g e f) s = r 256 12 false (rnd fun a _ => sqrtRes a) ∧ exec (.fexp2 u g e f) s = r 0 8 false (enc 1 exp2Res)
    ∧ exec (.flog2 u g e f) s = r 0 8 false (enc 2 log2Res) ∧ exec (.fdiv u g e f) s = r 256 12 true (rnd fun a b => fxDiv a b))

/-- Reductions (R205, R210, R222, Table 9.9): the tree over F's active lanes with the identity elsewhere, in every lane of the register D names, 10 cycles later; the
fp32 forms give the canonical NaN with flag NAN where an active lane is a NaN. A D latch that names no register raises cause 0x02 (R41), and one that a parity error has poisoned is consumed (log entry 48). -/
def Obligations.ReductionResults : Prop :=
  ∀ (s : State) (u : VUnit) (g : BitVec 4) (e : Bool) (f : BitVec 10) (v : Val), s.ready u.slot g e f v = true →
    (s.dNamed u.slot = false → ∀ i ∈ [Instr.rsumI u g e f, .rmaxI u g e f, .rminI u g e f, .rsumF u g e f, .rmaxF u g e f, .rminF u g e f],
      exec i s = .next (if s.pipe.units.bad.getLsbD u.slot.index then s.consume u.slot ((s.dOf u.slot).setWidth 64) else s.trapAt u.slot 0x02 (s.moveAddr u.slot)))
    ∧ (s.dNamed u.slot = true →
    s.pipe.longs.countP (fun l => l.unit == u.slot.unit) < 8 →
    let F := v.toV
    let act := s.pipe.maskFor u
    let bad := (if s.pipe.maskBad u = false ∧ act &&& F.poi = 0 then 0 else BitVec.allOnes 256 : Mask)
    let terms (z : W32) : List (W32 × Flags) := (List.finRange 256).map fun i => (if act.getLsbD i.val then F.val[i] else z, 0)
    let fold (z : W32) (h : W32 → W32 → W32 × Flags) : W32 × Flags :=
      (tree (fun a b => ((h a.1 b.1).1, a.2 ||| b.2 ||| (h a.1 b.1).2)) 8 (terms z)).headD (z, 0)
    let nan := (List.finRange 256).any fun i => act.getLsbD i.val && isNan32 F.val[i]
    let ri (z : W32) (h : W32 → W32 → W32) : Out :=
      .next (s.long u.slot.unit (.vec ⟨Vec.splat (fold z fun a b => (h a b, 0)).1, bad⟩) (fold z fun a b => (h a b, 0)).2 (s.dOf u.slot) 10)
    let rf (z : W32) (h : W32 → W32 → W32 × Flags) : Out :=
      .next (s.long u.slot.unit (.vec ⟨Vec.splat (if nan then nan32 else (fold z h).1), bad⟩) ((fold z h).2 ||| flagIf nan fNAN) (s.dOf u.slot) 10)
    exec (.rsumI u g e f) s = ri 0 (fun a b => a + b) ∧ exec (.rmaxI u g e f) s = ri 0x80000000 (fun a b => if a.toInt < b.toInt then b else a)
    ∧ exec (.rminI u g e f) s = ri 0x7FFFFFFF (fun a b => if b.toInt < a.toInt then b else a)
    ∧ exec (.rsumF u g e f) s = rf 0x80000000 fadd32 ∧ exec (.rmaxF u g e f) s = rf 0xFF800000 (extreme .max) ∧ exec (.rminF u g e f) s = rf 0x7F800000 (extreme .min))

/-- Triples, quantise and dequantise (R149, R192, R200 to R203, R210, R223 to R226): the results in the register D names, 12 cycles later, 8 for DQNT, whose result is poisoned by the lanes of F it reads alone (R211); an invalid format
register raises cause 0x0F with its number, D having come first (log entry 75). A D latch that names no register raises cause 0x02 (R41), and one that a parity error has poisoned is consumed (log entry 48). -/
def Obligations.TripleQuantResults : Prop :=
  ∀ (s : State) (u : VUnit) (g : BitVec 4) (n : BitVec 3) (e : Bool) (f : BitVec 10) (v : Val), s.ready u.slot g e f v = true →
    (s.dNamed u.slot = false → ∀ i ∈ [Instr.smx u g e f, .smxf u g e f, .qnt u g n e f, .dqnt u g n e f],
      exec i s = .next (if s.pipe.units.bad.getLsbD u.slot.index then s.consume u.slot ((s.dOf u.slot).setWidth 64) else s.trapAt u.slot 0x02 (s.moveAddr u.slot)))
    ∧ (s.dNamed u.slot = true →
    s.pipe.longs.countP (fun l => l.unit == u.slot.unit) < 8 →
    let X := (s.pipe.units.vec u).x
    let F := v.toV
    let d := s.dOf u.slot
    let reg := s.pipe.fmt n
    let bad (b : Bool) : Mask := if b then BitVec.allOnes 256 else 0
    let q := quantise reg s.pipe.rmode.mode.toNat F.val (s.pipe.sys2.rng[vStream u])
    let t := if s.pipe.rmode.mode = 4 then s.modPipe fun p => { p with sys2 := { p.sys2 with rng := p.sys2.rng.set (vStream u) q.2.2 } } else s
    let i := s.vin u v 256
    let ln (k : Fin 256) : W32 × Flags := dequantLane reg i.1.rm.mode.toNat (i.1.draw k.val) F.val k.val
    let used := (dqntReads reg F.val).any fun j => F.poi.getLsbD j
    exec (.smx u g e f) s = .next (s.long u.slot.unit (.vec ⟨(smxCombine X.val F.val).1, bad (X.poi != 0 || F.poi != 0)⟩)
      ((smxCombine X.val F.val).2.2 ||| flagIf (smxCombine X.val F.val).2.1 fNAN) d 12)
    ∧ exec (.smxf u g e f) s = .next (s.long u.slot.unit (.vec ⟨(smxFinal F.val).1, bad (F.poi != 0)⟩) (smxFinal F.val).2 d 12)
    ∧ (fmtValid reg = true → exec (.qnt u g n e f) s = .next (t.long u.slot.unit (.vec ⟨q.1, bad (F.poi != 0)⟩) q.2.1 d 12))
    ∧ (fmtValid reg = true → exec (.dqnt u g n e f) s =
        .next (i.2.long u.slot.unit (.vec ⟨Vec.tab fun k => (ln k).1, bad used⟩) (orFlags (lanes.map fun k => (ln k).2)) d 8))
    ∧ (fmtValid reg = false → exec (.qnt u g n e f) s = .next (s.trapAt u.slot 0x0F (n.setWidth 64)) ∧ exec (.dqnt u g n e f) s = .next (s.trapAt u.slot 0x0F (n.setWidth 64))))

/-- Completions (R43, R165, R168, R169, R178, R181, R198, R210, R212, R300, R328, Table 14.5): the oldest due short result of a unit shifts its queue, enters its flags
and is written through the D captured at the trigger, whose full or empty bit stays; one that would bring poison to p or m does not land but is consumed, and one that is invalid under
FVE raises cause 0x11 with its unit; where none is due the step changes nothing. A bundle's landings do the same, the first fault standing. A long operation empties the register D names at
issue; once its time has run out, and that of no older one of its unit has, it fills it, and then: a value enters its flags and, where they are invalid under FVE, makes a trap due for the
lowest such slot; a read past its window is entered in PWSTAT; a barrier test gives whether GEN differs, a false one reads the word as a load does, and a true one acquires, once no access that
the acquire performs is stuck (R102 rule 4). Before its time, or behind an older one of its unit, it does not complete. What a landing for p or m consumes, a short compare
result and no long one, is the model's choice of log entry 52. -/
def Obligations.ResultsLand : Prop :=
  (∀ (s : State) (u : Unit7) (x : Short), s.pipe.shorts.find? (fun y => y.unit = u && y.left = 0) = some x →
    let due := s.modPipe fun p => { p with shorts := p.shorts.erase x }
    let lands := s.modPipe fun p => { p with
      shorts := p.shorts.erase x, units := p.units.land u x.val, sys := { p.sys with fpstat := p.sys.fpstat ||| x.flags },
      regs := match x.dsel with | some f => p.regs.write f x.val | none => p.regs }
    (x.consumes = false → (s.pipe.sys.fve = false ∨ x.flags &&& fNV = 0) → exec (.resultLanding u) s = .next lands)
    ∧ (x.consumes = false → s.pipe.sys.fve = true → x.flags &&& fNV ≠ 0 → exec (.resultLanding u) s = .next (lands.trapAt u.slot 0x11 (BitVec.ofNat 64 u.index)))
    ∧ ∀ f, x.dsel = some f → (selP f = true ∧ x.val.poiS = true ∨ selM f = true ∧ x.val.poiAny = true) → exec (.resultLanding u) s = .next (due.consume u.slot (f.setWidth 64)))
  ∧ (∀ (s : State) (u : Unit7), s.pipe.shorts.find? (fun y => y.unit = u && y.left = 0) = none → exec (.resultLanding u) s = .next s)
  ∧ (∀ (p : Pipe) (gs : List Nat) (n : Nat) (x : Short), p.dueShort gs = some x →
    (x.consumes = false → (p.sys.fve = false ∨ x.flags &&& fNV = 0) → ∀ l, p.landAll gs l (n + 1) = (p.landUnit x.unit).landAll gs l n)
    ∧ (∀ f, x.consumes = true → x.dsel = some f → p.landAll gs .done (n + 1) = ({ p with shorts := p.shorts.erase x } : Pipe).landAll gs (.poison x.unit f) n)
    ∧ (x.consumes = false → p.sys.fve = true → x.flags &&& fNV ≠ 0 → (p.landAll gs .done (n + 1)).2 = .invalid x.unit))
  ∧ (∀ (p : Pipe) (gs : List Nat) (n : Nat) (l : Landing), l ≠ .done → (p.landAll gs l n).2 = l)
  ∧ (∀ (s : State) (u : Unit7) (f : BitVec 10),
    (Landing.poison u f).take s = s.consume u.slot (f.setWidth 64) ∧ (Landing.invalid u).take s = s.trapAt u.slot 0x11 (BitVec.ofNat 64 u.index) ∧ Landing.done.take s = s)
  ∧ (∀ (s : State) (u : Unit7) (v : Val) (fl : Flags) (d : BitVec 10) (n : Nat),
    (s.long u v fl d n).pipe.longs = s.pipe.longs ++ [⟨u, v, fl, d, n, .value⟩] ∧ sameBytes s (s.long u v fl d n) ∧ sameElsewhere s (s.long u v fl d n)
    ∧ (s.pipe.wq = none → (s.long u v fl d n).pipe.regs = s.pipe.regs.drain d))
  ∧ (∀ (s : State) (n : Nat) (l : Long), s.pipe.longs[n]? = some l → l.left = 0 → (∀ x ∈ s.pipe.longs.take n, x.unit = l.unit → x.left ≠ 0) →
    (l.fin = .value → ∃ t, exec (.longCompletion n) s = .next t ∧ t.pipe.longs = s.pipe.longs.eraseIdx n ∧ s.receives t l.dsel l.val
      ∧ t.pipe.sys.fpstat = s.pipe.sys.fpstat ||| l.flags ∧ sameBytes s t ∧ sameElsewhere s t
      ∧ t.pipe.fpDue = (if s.pipe.sys.fve && l.flags &&& fNV != 0
          then some (match s.pipe.fpDue with | some u => if u.slot.index ≤ l.unit.slot.index then u else l.unit | none => l.unit) else s.pipe.fpDue))
    ∧ (∀ w, l.fin = .window w → ∃ t, exec (.longCompletion n) s = .next t ∧ t.pipe.longs = s.pipe.longs.eraseIdx n ∧ s.receives t l.dsel l.val
      ∧ t.pipe.sys.pwstat = s.pipe.sys.pwstat ||| 0x100 ||| (1 <<< w.toNat) ∧ sameBytes s t ∧ sameElsewhere s t)
    ∧ (∀ h off g p m, l.fin = .test h off g p m → s.phase ≠ .dusk → (s.syncGet h off).gen = g.toNat → ∃ u, exec (.longCompletion n) s = .next (u.readWord s.cur h off)
      ∧ u.pipe.longs = s.pipe.longs.eraseIdx n ∧ s.receives u l.dsel (.sc ⟨0, false⟩) ∧ sameBytes s u ∧ sameElsewhere s u)
    ∧ (∀ h off g p m, l.fin = .test h off g p m → s.phase ≠ .dusk → (s.syncGet h off).gen ≠ g.toNat → s.readsStuck s.cur p m = false →
      ∃ u, exec (.longCompletion n) s = .next (u.waitDone s.cur h off)
      ∧ u.pipe.longs = s.pipe.longs.eraseIdx n ∧ s.receives u l.dsel (.sc ⟨1, false⟩) ∧ sameBytes s u ∧ sameElsewhere s u))
  ∧ ∀ (s : State) (n : Nat) (l : Long), s.pipe.longs[n]? = some l →
      (l.left ≠ 0 ∨ (∃ x ∈ s.pipe.longs.take n, x.unit = l.unit ∧ x.left = 0) ∨ s.mayComplete s.cur l = false) → exec (.longCompletion n) s = .next s

/-! ## The control slot (R175, R176, R190, R191, R293 to R310, R322 to R330) -/

/-- Branches and loops (R295, R296): the stream continues at the target after the two delay bundles; CALL and CALLI write the link, what follows the second delay
bundle, to s63; RET reads s63; LOOP.n sets lc_n and LS_n; ENDL.n goes back while lc_n is above 1, else makes it 0. -/
def Obligations.BranchResults : Prop :=
  ∀ (s : State) (g : BitVec 4) (n : BitVec 1) (e : Bool) (f : BitVec 10) (v : Val), s.ready .c g e f v = true → v.toS.poi = false →
    let w := (v.toS.val).setWidth 32
    let b := s.pipe.ib.pc
    let go (s : State) (a : W32) : State :=
      (s.modPipe fun p => { p with stream := { p.stream with redirs := p.stream.redirs ++ [(p.ib.idx + 3, a)] } }).issued
    let ln := s.linkAddr
    let linked (a : W32) : Out := .next (go (ln.2.regWrite (.put 0x3F (.w64 (ln.1.setWidth 64)))) a)
    let lc := s.pipe.regs.lc[n.toNat]'(by omega)
    let set (a : W32) : State := s.modPipe fun p => { p with regs := { p.regs with lc := p.regs.lc.set n.toNat a (by omega) } }
    exec (.br g e f) s = .next (go s (b + w)) ∧ exec (.bri g e f) s = .next (go s w) ∧ exec (.call g e f) s = linked (b + w) ∧ exec (.calli g e f) s = linked w
    ∧ (∀ x, s.pipe.regs.s[63] = ⟨⟨x, false⟩, true⟩ → exec (.ret g e f) s = .next (go s (x.setWidth 32)))
    ∧ exec (.loop g n e f) s = .next ((s.modPipe fun p => { p with regs := { p.regs with
        lc := p.regs.lc.set n.toNat w (by omega), ls := p.regs.ls.set n.toNat s.nextPc (by omega) } }).issued)
    ∧ exec (.endl g n e f) s = (if 1 < lc.toNat then .next (go (set (lc - 1)) (s.pipe.regs.ls[n.toNat]'(by omega))) else .next (set 0).issued)

/-- SETF.fn, SETRM and SRRD (R175, R190, R191, R193, R297): a valid format value opens a shadow of its register that the fifth bundle on sees, an invalid one raises
cause 0x0F with the value; SETRM takes bits 3 to 0, MODE 5 to 7 leaving MODE; SRRD gives a listed system register in c.q0, an unlisted number cause 0x02. -/
def Obligations.FormatAndSystemReads : Prop :=
  ∀ (s : State) (g : BitVec 4) (n : BitVec 3) (e : Bool) (f : BitVec 10) (v : Val), s.ready .c g e f v = true → v.toS.poi = false →
    let w := v.toS.val
    let shadow (r : ShReg) (x : BitVec 24) : Out :=
      .next ((s.modPipe fun p => { p with shadows := p.shadows ++ [⟨r, x, p.ib.idx + 5⟩], trap := p.trap.noteWrite r }).issued)
    let old := (s.pipe.newest .rm)
    let mode := if 4 < (w.extractLsb' 0 3).toNat then old.extractLsb' 0 3 else w.extractLsb' 0 3
    (w.toNat < 2 ^ 24 → fmtValid (w.setWidth 24) = true → exec (.setf g n e f) s = shadow (.f n) (w.setWidth 24))
    ∧ ((2 ^ 24 ≤ w.toNat ∨ fmtValid (w.setWidth 24) = false) → exec (.setf g n e f) s = .next (s.trapAt .c 0x0F w))
    ∧ exec (.setrm g e f) s = shadow .rm ((BitVec.ofBool (w.getLsbD 3) ++ mode).setWidth 24)
    ∧ (sysAccess w.toNat ≠ none → exec (.srrd g e f) s = .next (s.short .c (.sc ⟨s.pipe.readSys w.toNat, false⟩) 0 none))
    ∧ (sysAccess w.toNat = none → exec (.srrd g e f) s = .next (s.trapAt .c 0x02 w))

/-- SRWR (R176, Tables 7.5 and 13.2): the C unit's X goes to the system register F names, at the end of the bundle; RMODE in its shadow; a read-only register raises cause 0x06,
an unlisted number 0x02, with F. -/
def Obligations.SystemRegisterWrites : Prop :=
  ∀ (s : State) (g : BitVec 4) (e : Bool) (f : BitVec 10) (v : Val), s.ready .c g e f v = true → v.toS.poi = false → s.pipe.units.c.x.poi = false →
    let w := v.toS.val
    let x := s.pipe.units.c.x.val
    (sysAccess w.toNat = some false → w ≠ 0x030 → exec (.srwr g e f) s = .next (s.regWrite (.sys w.toNat x)).issued)
    ∧ (w = 0x030 → exec (.srwr g e f) s = .next (s.writeRmode x).issued)
    ∧ (sysAccess w.toNat = some true → exec (.srwr g e f) s = .next (s.trapAt .c 0x06 w))
    ∧ (sysAccess w.toNat = none → exec (.srwr g e f) s = .next (s.trapAt .c 0x02 w))

/-- What a system-register write leaves (R176, Tables 7.5, 7.6, 11.5, 11.6, 13.2, 14.1, 14.2): each register takes the bits it has, and a read of any other listed system register, every other register and
the latches are as before; of TSNAP only DROP is written; FPSTAT, LATEQ, NULLQ and PWSTAT clear the bits written as 1. That CODEBASE and MDBASE drop bits 7 to 0 and that TICKCH takes no
value above 4 is the model's reading (log entry 51). -/
def Obligations.SystemRegisterValues : Prop :=
  ∀ (p : Pipe) (v : W64),
    (p.writeSys 0x000 v).readSys 0x000 = (p.readSys 0x000 &&& 0x68) ||| (v &&& 0x17)
    ∧ (p.writeSys 0x002 v).sys.thbase = v.setWidth 32 ∧ (p.writeSys 0x010 v).trap.bank1.tpc = v.setWidth 32 ∧ (p.writeSys 0x018 v).trap.bank2.tpc = v.setWidth 32
    ∧ (p.writeSys 0x012 v).trap.bank1.addr = v ∧ (p.writeSys 0x01A v).trap.bank2.addr = v
    ∧ (∀ n ∈ [0x011, 0x019], (p.writeSys n v).readSys n = v &&& 0x3FFF)
    ∧ (∀ n ∈ [0x013, 0x01B], (p.writeSys n v).readSys n = (p.readSys n &&& ~~~(0x800000000 : W64)) ||| (v &&& 0x800000000))
    ∧ (p.writeSys 0x070 v).readSys 0x070 = (if 4 < (v &&& 7).toNat then 0 else v &&& 7)
    ∧ (p.writeSys 0x031 v).sys.rseed = v ∧ (p.writeSys 0x032 v).sys.fpstat = p.sys.fpstat &&& ~~~(v.setWidth 9)
    ∧ (p.writeSys 0x050 v).sys.wdti = v.setWidth 32 ∧ (p.writeSys 0x058 v).sys.codebase = (v &&& ~~~0xFF) ∧ (p.writeSys 0x059 v).sys.mdbase = (v &&& ~~~0xFF)
    ∧ (p.writeSys 0x080 v).sys.pwstat = p.sys.pwstat &&& ~~~(v.setWidth 9)
    ∧ (p.writeSys 0x071 v).sys2.lateq = p.sys2.lateq &&& ~~~(v.extractLsb' 16 16) ∧ (p.writeSys 0x071 v).sys2.nullq = p.sys2.nullq &&& ~~~(v.extractLsb' 0 16)
    ∧ (p.writeSys 0x090 v).regs.ls[0] = v.setWidth 32 ∧ (p.writeSys 0x091 v).regs.ls[1] = v.setWidth 32
    ∧ (p.writeSys 0x092 v).regs.lc[0] = v.setWidth 32 ∧ (p.writeSys 0x093 v).regs.lc[1] = v.setWidth 32
    ∧ (∀ n k, k ≠ n → sysAccess k ≠ none → (p.writeSys n v).readSys k = p.readSys k)
    ∧ (∀ n, (p.writeSys n v).units = p.units ∧ (p.writeSys n v).shorts = p.shorts ∧ (p.writeSys n v).regs.s = p.regs.s ∧ (p.writeSys n v).regs.v = p.regs.v
        ∧ (p.writeSys n v).regs.o = p.regs.o ∧ (p.writeSys n v).regs.p = p.regs.p ∧ (p.writeSys n v).regs.m = p.regs.m ∧ (p.writeSys n v).trap.tl = p.trap.tl)

/-- Fences (R95, R96, R99, R101, R284): with nothing outstanding that it waits for, a fence takes every class path to the largest logical time; an acquire of scope PKG or wider
also applies the invalidation log and drops expired copies, as does scope DIE on an HV1X, where it is the package; XFENCE only orders; PBAR completes once no tracked line waits to be durable, writing
those lines back meanwhile, and in dusk never. What a fence waits for are earlier accesses alone: a request, a drain or a pending QGET of an earlier bundle, an acquire not for stores and drains; one of a
later bundle holds it not. An access of whatever location and scope counts: R99 lets an implementation wait for more than its least, and that this model waits for every access is its choice (log entry 26). -/
def Obligations.FenceResults : Prop :=
  ∀ (s : State) (g : BitVec 4) (sc : BitVec 2) (e : Bool) (f : BitVec 10) (v : Val), s.ready .c g e f v = true →
    let mx := max (max s.me.lt[0] s.me.lt[1]) (max s.me.lt[2] s.me.lt[3])
    let m := s.setLt s.cur (Vector.ofFn fun i : Fin 4 => max mx s.me.lt[i])
    let acq := if 2 ≤ sc.toNat ∨ (sc = 1 ∧ s.product = .hv1x) then m.acquireAction s.cur else m
    let i := s.pipe.ib.idx
    let gets (past : Option Nat → Prop) : Prop := ∀ x ∈ s.pipe.waits, (∃ ch, x.kind = .qget ch) → past x.pos
    let later (p : Option Nat) : Prop := ∃ j, p = some j ∧ i < j
    (s.me.acquireWaits = false → exec (.fenceAcq g sc e f) s = .next acq.issued) ∧ (s.me.acquireWaits = true → exec (.fenceAcq g sc e f) s = .next (s.hold 0))
    ∧ (s.me.releaseWaits = false → exec (.fenceRel g sc e f) s = .next m.issued ∧ exec (.fenceAr g sc e f) s = .next acq.issued
        ∧ exec (.xfence g e f) s = .next s.issued
        ∧ (s.phase ≠ .dusk → (s.me.tracker = [] → exec (.pbar g e f) s = .next m.issued)
          ∧ (s.me.tracker ≠ [] → exec (.pbar g e f) s = .next ((s.me.tracker.foldl (fun y l => y.writeBack l) s).trackersClean.hold 0))))
    ∧ (s.me.releaseWaits = true → exec (.fenceRel g sc e f) s = .next (s.hold 0) ∧ exec (.fenceAr g sc e f) s = .next (s.hold 0) ∧ exec (.xfence g e f) s = .next (s.hold 0))
    ∧ ((s.me.releaseWaits = true ∨ s.phase = .dusk) → exec (.pbar g e f) s = .next (s.hold 0))
    ∧ ((∀ r ∈ s.me.reqs, r.op = .store ∨ later r.pos) → gets (fun p => p = none ∨ later p) → s.me.acquireWaits = false)
    ∧ ((∀ r ∈ s.me.reqs, later r.pos) → (∀ d, SeqOp.drain d ∈ s.me.mx.queue → later d.pos) → gets (fun p => p = none ∨ later p) → s.me.releaseWaits = false)
    ∧ (∀ j, j < i →
        (∀ r ∈ s.me.reqs, r.pos = some j → s.me.releaseWaits = true ∧ (r.op ≠ .store → s.me.acquireWaits = true))
        ∧ (∀ d, SeqOp.drain d ∈ s.me.mx.queue → d.pos = some j → s.me.releaseWaits = true)
        ∧ (∀ x ∈ s.pipe.waits, ∀ ch, x.kind = .qget ch → x.pos = some j → s.me.releaseWaits = true ∧ s.me.acquireWaits = true))

/-- Barriers on sync words (R102, R123, R300): X names the word; BARA arrives with weight F after a release, once every other group has come, BARA.RLX at once;
BARW goes on when GEN differs from F, and acquires, once no access that the acquire performs is stuck, else it holds; BART gives its D register the truth 8 cycles later on the core's own
scratchpad, and also on a peer's, where R300 says only when the read returns: those 8 cycles are the model's choice (log entry 21). A word whose bank is not ACTIVE holds each of them, and its
bank begins to exit (R112). No card task names its crew's words. -/
def Obligations.BarrierResults : Prop :=
  ∀ (s : State) (g : BitVec 4) (e : Bool) (f : BitVec 10) (v : Val) (h : CoreId) (off : Nat), s.ready .c g e f v = true → v.toS.poi = false →
    s.pipe.units.c.x.poi = false → s.namesWord s.pipe.units.c.x.val h off →
    let shut : Out := .next ((s.wakeBanks h off 16).hold 0)
    (s.banksReady h off 16 = false → exec (.bara g e f) s = shut ∧ exec (.baraRlx g e f) s = shut ∧ exec (.barw g e f) s = shut ∧ exec (.bart g e f) s = shut)
    ∧ (s.banksReady h off 16 = true → s.wordUsable h off = true → s.cardBarrier h off = false →
    let w := (v.toS.val).setWidth 32
    let m := s.mergeClasses s.cur
    let a := m.syncArrive h off w.toNat (ltime m.me.lt)
    (s.othersReached = true → s.me.releaseWaits = false → exec (.bara g e f) s = .next (a.2.setLt a.2.cur (ltMerge a.2.me.lt a.1)).issued)
    ∧ ((s.othersReached = false ∨ s.me.releaseWaits = true) → exec (.bara g e f) s = .next (s.hold 0))
    ∧ (let r := s.syncArrive h off w.toNat s.me.lt[0]
      exec (.baraRlx g e f) s = .next (r.2.setLt r.2.cur (r.2.me.lt.set 0 (max r.2.me.lt[0] r.1))).issued)
    ∧ ((s.syncGet h off).gen ≠ w.toNat → s.waitStuck = false → exec (.barw g e f) s = .next (s.waitDone s.cur h off).issued)
    ∧ ((s.syncGet h off).gen ≠ w.toNat → s.waitStuck = true → exec (.barw g e f) s = .next (s.hold 0))
    ∧ ((s.syncGet h off).gen = w.toNat → exec (.barw g e f) s = .next (s.hold 2))
    ∧ (s.dNamed .c = true → exec (.bart g e f) s = .next (((s.modPipe fun p => { p with
        longs := p.longs ++ [⟨.c, .w64 0, 0, s.dOf .c, 8, .test h off w (some s.pipe.ib.idx) s.me.seq⟩] }).regWrite (.empty (s.dOf .c))).issued)))

/-- An arrival of weight w at a sync word (R122, R123): below TARGET it adds to COUNT; reaching TARGET it advances GEN modulo 2^32 and with ARM = 1 makes COUNT 0; passing it, or
arriving at a word already overflowed, it sets or keeps OVF with COUNT saturating and GEN as it was; weight 0 changes a word that has not overflowed in nothing.
The step SYNC_ARRIVAL applies one such arrival at the home core, whole, and changes no other byte and no register; the pending waits on the word then end where it lets them (R126). It is of a
word of a core that the package has, that is not a span's barrier word (R299) and whose bank is ACTIVE; else the bank's exit begins (R112). -/
def Obligations.SyncArrivalCounts : Prop :=
  (∀ (x : SyncWord) (w : Nat), x.count < 2 ^ 32 → x.gen < 2 ^ 32 →
    (x.ovf = false → w = 0 → x.arrive w = x)
    ∧ (x.ovf = false → w ≠ 0 → x.count + w < x.target → x.arrive w = { x with count := x.count + w })
    ∧ (x.ovf = false → w ≠ 0 → x.count + w = x.target →
        (x.arrive w).gen = (x.gen + 1) % 2 ^ 32 ∧ (x.arrive w).count = (if x.arm then 0 else x.target) ∧ (x.arrive w).flags = x.flags ∧ (x.arrive w).target = x.target)
    ∧ (x.ovf = false → w ≠ 0 → x.target < x.count + w → (x.arrive w).ovf = true ∧ (x.arrive w).gen = x.gen ∧ (x.arrive w).count = min (x.count + w) 0xFFFFFFFF)
    ∧ (x.ovf = true → (x.arrive w).ovf = true ∧ (x.arrive w).gen = x.gen ∧ (x.arrive w).count = min (x.count + w) 0xFFFFFFFF))
  ∧ ∀ (s : State) (h : CoreId) (off : Nat) (w : W32), s.memWf → s.hasCore h = true → off % 16 = 0 → off + 16 ≤ 0x600000 → s.phase ≠ .dusk → s.syncCopies h off = [(h, off)] →
    (s.banksReady h off 16 = false → exec (.syncArrival h off w) s = .next (s.wakeBanks h off 16)) ∧ (s.banksReady h off 16 = true →
    ∃ t, exec (.syncArrival h off w) s = .next (t.wakeSync h off) ∧ (s.noWaiter h off → t.wakeSync h off = t) ∧ t.syncGet h off = (s.syncGet h off).arrive w.toNat
      ∧ (∀ l, (∀ i, i < 16 → l ≠ .sp h (off + i)) → t.byteAt l = s.byteAt l) ∧ (∀ c, sameArch s t c))

/-- Forked work and the end of a task (R302, R304, R306, R307, R313): FORK pushes the record at F onto the core's deque, or answers 0 when it holds 64; JOIN goes on when COUNT is
TARGET, and acquires, else it holds, as it does at a bank that is not ACTIVE (R112); YIELD spends a bulk job's quantum where another bulk job is next in its stream and waits for cores its span holds, and is otherwise without effect (which of several places a waiting
request waits for, and so which request it is, is the model's choice of log entry 40); END raises a cause its matrix has pending, else it ends the task: with no join word and no
card its latches, results, waits and traps are gone, its registers are no task's and stand as they stood (R352), and its accesses, engine commands and every byte stay; a record's
task with nothing outstanding arrives with weight 1 on its join word, whose bank is ACTIVE and on which no other task waits. -/
def Obligations.WorkUnitResults : Prop :=
  ∀ (s : State) (g : BitVec 4) (e : Bool) (f : BitVec 10) (v : Val), s.ready .c g e f v = true → v.toS.poi = false →
    let a := v.toS.val
    (∀ off, s.ownsRange a 64 64 off → s.dNamed .c = true → s.me.class0Waits = false → s.banksReady s.cur off 64 = true →
      let l := s.loadAt s.cur.die s.me.lt[0] (.sp s.cur off) 64
      let t := l.2.setLt s.cur (l.2.me.lt.set 0 l.1.2.2)
      let jw : W64 := BitVec.ofNat 64 (fld l.1.1 8 8)
      let r : TaskRec := ⟨BitVec.ofNat 32 (fld l.1.1 0 4), peerForm t.cur jw, Vector.ofFn fun i => BitVec.ofNat 64 (fld l.1.1 (16 + 8 * i.val) 8), t.me.seq⟩
      l.1.2.1 = false → zeros l.1.1 4 4 = true → (jw = 0 ∨ t.syncOk jw = true) →
        (t.me.deque.length < 64 → exec (.fork g e f) s = .next ((t.modMe fun k => { k with deque := r :: k.deque }).accept (s.dOf .c) true))
        ∧ (64 ≤ t.me.deque.length → exec (.fork g e f) s = .next (t.accept (s.dOf .c) false)))
    ∧ (∀ h off, s.namesWord a h off → (s.banksReady h off 16 = false → exec (.join g e f) s = .next ((s.wakeBanks h off 16).hold 0))
        ∧ (s.banksReady h off 16 = true → s.wordUsable h off = true → (s.syncGet h off).arm = false →
          ((s.syncGet h off).count = (s.syncGet h off).target → s.waitStuck = false → exec (.join g e f) s = .next (s.waitDone s.cur h off).issued)
          ∧ ((s.syncGet h off).count ≠ (s.syncGet h off).target → exec (.join g e f) s = .next (s.hold 2))))
    ∧ (let wanted : Prop := s.pipe.sys.cls = 0 ∧ ∃ j r p, s.job s.me.task.job = some j ∧ r ∈ s.fw.jobs ∧ r.num ≠ s.me.task.job ∧ r.lr.cls = 0 ∧ s.waits r = true
          ∧ s.target r = some p ∧ j.holds p r.clusters = true
      (wanted → exec (.yield g e f) s = .next (s.modJob s.me.task.job fun j => { j with deficit := min j.deficit 0 }).issued)
      ∧ (¬wanted → exec (.yield g e f) s = .next s.issued))
    ∧ (∀ c x u, s.matrixPending = some (c, x, u) → (c ≠ 0x08 ∨ u.pipe.trap.regions = []) → exec (.endTask g e f) s = .next (u.takeTrap 7 2 c x false))
    ∧ (s.me.mx.pendMeta = none → s.me.mx.pendMis = none → s.me.mx.pendNv = false →
      exec (.endTask g e f) s = .next (s.endTask s.cur)
      ∧ (s.me.task.card = none → s.me.task.joinw = 0 → ∃ t, exec (.endTask g e f) s = .next t ∧ t.me.task = { s.me.task with st := .ended }
          ∧ t.pipe.regs = s.pipe.regs ∧ t.pipe.sys = s.pipe.sys ∧ t.pipe.trap.tl = 0 ∧ t.pipe.trap.regions = [] ∧ t.pipe.units = Units.start ∧ t.pipe.shorts = [] ∧ t.pipe.longs = [] ∧ t.pipe.waits = [] ∧ t.pipe.disp = .steered
          ∧ t.me.reqs.map (fun r => (r.seq, r.cls, r.op, r.loc)) = s.me.reqs.map (fun r => (r.seq, r.cls, r.op, r.loc)) ∧ t.me.ka = s.me.ka ∧ t.me.kb = s.me.kb
          ∧ sameBytes s t ∧ ∀ c, c ≠ s.cur → t.core c = s.core c)
      ∧ (s.memWf → s.me.task.card = none → s.me.task.joinw ≠ 0 → s.me.owesAny = false →
          let w := syncAddr s.cur s.me.task.joinw
          s.syncCopies w.1 w.2 = [w] → s.banksReady w.1 w.2 16 = true → s.noWaiter w.1 w.2 → ∃ t, exec (.endTask g e f) s = .next t ∧ t.me.task = { s.me.task with st := .ended, joinw := 0 }
            ∧ t.syncGet w.1 w.2 = (s.syncGet w.1 w.2).arrive 1))

/-- TICKW, LAUNCH, SVC and ABORT (R308, R310, R326, R327): TICKW goes on once the channel has released step F, else it holds; LAUNCH queues the record at F for
the context, at the task's logical time (R310), or answers 0 when 64 jobs wait; SVC leaves its request pending with its D register empty; ABORT kills the context with reason 2 and CODE F. -/
def Obligations.LaunchAndServiceResults : Prop :=
  ∀ (s : State) (g : BitVec 4) (e : Bool) (f : BitVec 10) (v : Val), s.ready .c g e f v = true → v.toS.poi = false →
    let w := v.toS.val
    let ch := s.pipe.sys2.tickch
    (∀ k, ch ≠ 0 → (s.t.ticks[selIx 2 (ch.setWidth 10 - 1)]).last = some k →
      exec (.tickw g e f) s = (if (w.extractLsb' 0 40).toNat ≤ k then .next (s.unrefuse s.cur).issued else .next (s.hold 5)))
    ∧ (∀ l t x bs lt, s.dNamed .c = true → s.reaches w 64 .read l t → t.me.releaseWaits = false → (∀ h off, l = .sp h off → t.banksReady h off 256 = true) →
        (t.mergeClasses t.cur).readVa t.cur (t.mergeClasses t.cur).me.lt[0] w 256 8 = (.ok (bs, false, lt), x) →
        let u := x.setLt x.cur (x.me.lt.set 0 lt)
        launchValid bs = true → u.boxFits (Launch.ofBytes bs) = true → (Launch.ofBytes bs).cls.toNat ≤ u.pipe.sys.cls.toNat
        → u.streamOk u.me.task.ctx (Launch.ofBytes bs).stream = true →
        exec (.launch g e f) s = (if 64 ≤ u.launchQueue u.me.task.ctx then .next (u.accept (s.dOf .c) false)
          else .next ((u.queueJob u.me.task.ctx bs (ltime u.me.lt)).2.accept (s.dOf .c) true)))
    ∧ (∀ h off t, s.dNamed .c = true → s.reaches w 64 .read (.sp h off) t → t.me.releaseWaits = false → t.banksReady h off 256 = false →
        exec (.launch g e f) s = .next ((t.wakeBanks h off 256).hold 0))
    ∧ (w.toNat < 256 → s.pipe.units.c.x.poi = false → s.pipe.units.c.y.poi = false → s.dNamed .c = true → s.pipe.svc = none →
        exec (.svc g e f) s = .next (((s.modPipe fun p => { p with svc := some ⟨w.setWidth 8, s.pipe.units.c.x.val, s.pipe.units.c.y.val, s.dOf .c⟩ }).regWrite
          (.empty (s.dOf .c))).issued))
    ∧ (s.me.releaseWaits = false → exec (.abort g e f) s = .next ((s.killContext s.me.task.ctx 2 0 s.cur s.pipe.ib.pc 0 w).setDisp .steered))
    ∧ (s.me.releaseWaits = true → exec (.abort g e f) s = .next (s.hold 0))

/-- Containment regions (R329, R330): CRGN.OPEN makes F the innermost handler, a fifth raises cause 0x02; CRGN.CLOSE closes the innermost region of the current level, and with none
open there raises 0x02. -/
def Obligations.ContainmentRegionResults : Prop :=
  ∀ (s : State) (g : BitVec 4) (e : Bool) (f : BitVec 10) (v : Val), s.ready .c g e f v = true → v.toS.poi = false →
    let t := s.pipe.trap
    exec (.crgnOpen g e f) s = (if t.regions.length < 4
      then .next (s.modPipe fun p => { p with trap := { p.trap with regions := ⟨v.toS.val.setWidth 32, s.me.engSeq⟩ :: p.trap.regions } }).issued
      else .next (s.trapAt .c 0x02 v.toS.val))
    ∧ exec (.crgnClose g e f) s = (if t.entryDepth < t.regions.length
      then .next (s.modPipe fun p => { p with trap := { p.trap with regions := p.trap.regions.drop 1 } }).issued
      else .next (s.trapAt .c 0x02 (BitVec.ofNat 64 t.regions.length)))

/-! ## Exceptions (R317 to R325) -/

/-- Taking a trap at an unissued bundle (R317 to R321, R323, Table 14.1) with nothing outstanding: the level rises by 1; the level's bank holds the bundle's header address, the cause,
slot, group and TADDR, and its snapshot is valid with LOCK as it was; LOCK becomes 0; the handler starts at THBASE + 16(n − 1); the short results, the latches and queues and LOCK are kept in the level's buffer;
what the bundle's landings wrote is undone, the registers are otherwise as they were, and no byte of memory changes. A trap at level 2 kills the context with reason 1, and one at an unmarked
trap point of a class-2 task with reason 6. -/
def Obligations.TrapEntrySavesState : Prop :=
  (∀ (s : State) (slot : Slot) (cause : BitVec 8) (addr : W64), s.me.reqs = [] → s.pipe.longs = [] → s.pipe.svc = none → s.pipe.trap.tl.toNat < 2 →
    (s.pipe.sys.cls = 2 → s.pipe.ib.q = true) →
    let n := s.pipe.trap.tl.toNat + 1
    let t := s.trapAt slot cause addr
    let q := t.pipe
    let b := if n = 1 then q.trap.bank1 else q.trap.bank2
    let was := s.pipe.atTrap false
    q.trap.tl.toNat = n ∧ b.tpc = s.pipe.ib.pc ∧ b.cause = cause ∧ b.slot = BitVec.ofNat 3 slot.index ∧ b.group = BitVec.ofNat 3 slot.group.index.val ∧ b.addr = addr
    ∧ b.snap.valid = true ∧ b.snap.drop = false ∧ b.snap.locks = s.pipe.sys.lock ∧ b.snap.nres = BitVec.ofNat 5 was.shorts.length
    ∧ q.sys.lock = false ∧ q.stream = Stream.startAt (s.pipe.sys.thbase + BitVec.ofNat 32 (16 * (n - 1))) ∧ q.shorts = [] ∧ q.disp = .trapped cause
    ∧ (∃ u, (if n = 1 then q.trap.buf1 else q.trap.buf2) = some u ∧ u.shorts = was.shorts ∧ u.units = was.units ∧ u.lock = s.pipe.sys.lock ∧ u.tpc = s.pipe.ib.pc
        ∧ u.crgnd = s.pipe.trap.regions.length)
    ∧ q.regs.s = was.regs.s ∧ q.regs.v = was.regs.v ∧ q.regs.o = was.regs.o ∧ q.regs.p = was.regs.p ∧ q.regs.m = was.regs.m ∧ q.units = was.units
    ∧ sameBytes s t)
  ∧ ∀ (s : State) (slot : Slot) (cause : BitVec 8) (addr : W64),
    let p := s.modPipe fun p => p.atTrap false
    (s.pipe.trap.tl = 2 → s.trapAt slot cause addr = (p.killContext s.me.task.ctx 1 cause s.cur s.pipe.ib.pc addr 0).setDisp (.trapped cause))
    ∧ (s.pipe.trap.tl.toNat < 2 → s.pipe.sys.cls = 2 → s.pipe.ib.q = false
        → s.trapAt slot cause addr = (p.killContext s.me.task.ctx 6 cause s.cur s.pipe.ib.pc addr 0).setDisp (.trapped cause))

/-- TRAP (R318, R325): cause 0x0E with TADDR F, the bundle issued: it is due once the bundle's other moves have issued, and by itself it enters the trap with the control
group past the bundle. -/
def Obligations.TrapInstructionRaises : Prop :=
  ∀ (s : State) (g : BitVec 4) (e : Bool) (f : BitVec 10) (v : Val), s.ready .c g e f v = true → v.toS.poi = false →
    (s.pipe.ib.mute = true → exec (.trap g e f) s = .next (s.setDisp (.due .c 0x0E v.toS.val)))
    ∧ (s.pipe.ib.mute = false → exec (.trap g e f) s = .next (s.takeTrap 0 0 0x0E v.toS.val true))

/-- TRET (R42, R322): at level n with the region depth of its entry it restores the buffered latches, queues and LOCK, puts the short results back unless DROP is set, issues the buffered waits again beside those the handler has pending, leaves the level with its snapshot no longer
valid, and continues the saved stream, or a fresh one at TPCn when the handler has changed it; at level 0, or with another depth, cause 0x02. That the buffer keeps the stream itself, and that a
wait issued again takes a new number and empties its register again, are the model's choices (log entry 18). -/
def Obligations.TretRestoresState : Prop :=
  (∀ (s : State) (g : BitVec 4) (e : Bool) (f : BitVec 10) (v : Val), s.ready .c g e f v = true → s.pipe.trap.tl = 0 → exec (.tret g e f) s = .next (s.trapAt .c 0x02 0))
  ∧ ∀ (s : State) (g : BitVec 4) (e : Bool) (f : BitVec 10) (v : Val) (b : LateBuf) (n : Nat) (k : TrapBank), s.ready .c g e f v = true →
    ((n = 1 ∧ s.pipe.trap.tl = 1 ∧ s.pipe.trap.buf1 = some b ∧ k = s.pipe.trap.bank1) ∨ (n = 2 ∧ s.pipe.trap.tl = 2 ∧ s.pipe.trap.buf2 = some b ∧ k = s.pipe.trap.bank2)) →
    (s.pipe.trap.regions.length = b.crgnd → ∃ t, exec (.tret g e f) s = .next t ∧ t.pipe.units = b.units ∧ t.pipe.shorts = (if k.snap.drop then [] else b.shorts)
      ∧ t.pipe.sys.lock = b.lock ∧ t.pipe.trap.tl.toNat = n - 1 ∧ t.pipe.stream = (if k.tpc = b.tpc then b.stream else Stream.startAt k.tpc)
      ∧ (if n = 1 then t.pipe.trap.bank1 else t.pipe.trap.bank2).snap.valid = false
      ∧ t.pipe.waits = s.pipe.waits.map Wait.past ++ ((b.waits.zip (List.range b.waits.length)).map fun (q : Wait × Nat) => { q.1.again with seq := s.me.seq + q.2 })
      ∧ t.me.seq = s.me.seq + b.waits.length
      ∧ (let r := b.waits.foldl (fun r w => r.drain w.dsel) s.pipe.regs
        t.pipe.regs.s = r.s ∧ t.pipe.regs.v = r.v ∧ t.pipe.regs.o = r.o ∧ t.pipe.regs.p = s.pipe.regs.p ∧ t.pipe.regs.m = s.pipe.regs.m) ∧ sameBytes s t)
    ∧ (s.pipe.trap.regions.length ≠ b.crgnd → exec (.tret g e f) s = .next (s.trapAt .c 0x02 (BitVec.ofNat 64 s.pipe.trap.regions.length)))

/-! ## The matrix slot (R230 to R257) -/

/-- The configuration ports, MCHK.NOW, MSTAT, MWAIT and the bound registers (R230, R244, R252, R254, R255, Tables 10.4, 10.12, 10.16): a port takes its bits of F;
MSTAT gives the status word and, where F[0] = 1, clears the sticky bits; MWAIT goes on once the queue is empty and nothing is pending; MBND.RD gives the selected bound, the
largest over the members of a group; MBND.WR sets one and makes its bank non-replayable. -/
def Obligations.MatrixPortResults : Prop :=
  ∀ (s : State) (g : BitVec 4) (e : Bool) (f : BitVec 10) (v : Val), s.ready .m g e f v = true → v.toS.poi = false →
    let w := v.toS.val
    let m := s.me.mx
    let port (h : MPorts → MPorts) : Out := .next (s.modMx fun m => { m with ports := h m.ports }).issued
    exec (.mcfg g e f) s = port (fun p => { p with mcfg := w.setWidth 15 }) ∧ exec (.msla g e f) s = port (fun p => { p with msla := w.setWidth 5 })
    ∧ exec (.mslb g e f) s = port (fun p => { p with mslb := w.setWidth 5 }) ∧ exec (.mklen g e f) s = port (fun p => { p with mklen := w.setWidth 9 })
    ∧ exec (.mbthr g e f) s = port (fun p => { p with mbthr := w.setWidth 32 })
    ∧ exec (.mchk g e f) s = port (fun p => { p with mchkN := w.setWidth 11, mchkStep := w.extractLsb' 16 8 })
    ∧ exec (.mdtm g e f) s = port (fun p => { p with mdtm := w }) ∧ exec (.mgrp g e f) s = port (fun p => { p with mgrp := w.setWidth 3 })
    ∧ exec (.mchkNow g e f) s = .next (s.modMx fun m => { m with now := true }).issued
    ∧ (∃ x : W64, exec (.mstat g e f) s = .next ((if w.getLsbD 0 then s.modMx fun m =>
          { m with sticky := { m.sticky with cdef := false, cmis := false, rrun := false, bex := false } } else s).short .m (.sc ⟨x, false⟩) 0 none)
        ∧ x.getLsbD 0 = !m.queue.isEmpty ∧ x.extractLsb' 1 3 = BitVec.ofNat 3 m.queue.length ∧ x.getLsbD 4 = m.sticky.bex ∧ x.getLsbD 5 = m.sticky.rrun
        ∧ x.getLsbD 6 = m.sticky.cmis ∧ x.getLsbD 7 = m.sticky.cdef ∧ x.extractLsb' 8 2 = m.bank0.st.code ∧ x.extractLsb' 10 2 = m.bank1.st.code
        ∧ x.getLsbD 12 = m.leader.isSome ∧ x.extractLsb' 16 8 = m.sticky.crow ∧ x.extractLsb' 24 7 = m.sticky.ccol ∧ x.extractLsb' 32 8 = m.sticky.crot)
    ∧ (m.queue ≠ [] → exec (.mwait g e f) s = .next (s.hold 0))
    ∧ (m.queue = [] → m.pendMis = none → m.pendNv = false → exec (.mwait g e f) s = .next s.issued)
    ∧ (let n := (w.extractLsb' 0 8).toNat
      (∀ x, m.boundReg n = some x → m.queue.any (fun o => o.changes n) = false →
        let all := if n < 4 then (s.members s.cur).map fun c => ((s.core c).mx.boundReg n).getD 0 else [x]
        exec (.mbndRd g e f) s = .next (s.short .m (.sc ⟨(all.foldl maxBound (all.headD x)).setWidth 64, false⟩) 0 none))
      ∧ (m.boundReg n = none → exec (.mbndRd g e f) s = .next (s.trapAt .m 0x02 (BitVec.ofNat 64 n)))
      ∧ (s.pipe.units.m.x.poi = false → m.queue = [] →
        let b := bound32 (s.pipe.units.m.x.val.setWidth 32)
        let set (h : Matrix → Matrix) : Out := .next (s.modMx h).issued
        (n < 2 → exec (.mbndWr g e f) s = set fun m => m.modBank (n = 1) fun k => { k with bnd := b, nonrep := true })
        ∧ (2 ≤ n → n < 4 → exec (.mbndWr g e f) s = set fun m => m.modBank (n = 3) fun k => { k with s := b, nonrep := true })
        ∧ (0x20 ≤ n → n < 0x40 → exec (.mbndWr g e f) s = set fun m => m.setSlot (n - 0x20) { m.slot (n - 0x20) with bound := b })))

/-- The queued operations (R231, R236, R239, R240, R247 to R250, Table 10.5): with room in the queue and no group to form, MTILE that passes its checks makes its bank LIVE, or a
wide pair HI and LO, and is queued with the ports' snapshot; MZERO frees its bank; MBANK names the bank of what follows (log entry 28); a drain below its
threshold is queued with its locations and its place in the order of class 0, takes the task's next number (R249), frees its bank with ZR, and one that converts under MODE 4 has taken one draw of stream 2 an
element (R197). A tile that fails a check raises that cause. One row of a queued drain writes each element that has an
address: its value, the code of its conversion, or the rounded sum with what stood there, for MDRN.ADDC within its clamp; every other byte, and both banks, stay (R247). -/
def Obligations.MatrixQueuedResults : Prop :=
  (∀ (s : State) (g : BitVec 4) (e : Bool) (f : BitVec 10) (v : Val), s.ready .m g e f v = true → s.me.regroups = false →
    let w := v.toS.val
    let b := w.getLsbD 0
    let queued (t : State) (o : SeqOp) : Out := .next (t.modMx fun m => { m with queue := m.queue ++ [o] }).issued
    let tile (wd : Bool) (o : Out) : Prop :=
      let t := s.snapshot wd
      let u := s.modMembers s.cur fun m => m.accumulates t.ports.bank t.wide
      let c := u.me.mx.checkCount t.ports.bank
      (s.tileCheck t = none → o = queued (u.modMx fun _ => c.2) (.tile { t with due := c.1 } 0 0 0))
      ∧ (∀ x, s.tileCheck t = some x → o = .next (s.trapAt .m x.1 x.2))
    let drain (k : DrainKind) (o : Out) : Prop :=
      let x := s.pipe.units.m.x
      let y := s.pipe.units.m.y
      let typ : BitVec 2 := y.val.setWidth 2
      v.toS.poi = false → x.poi = false → y.poi = false → w.extractLsb' 2 62 = 0 → (s.me.mx.bank b).st ≠ .lo → (k = .cvt → typ ≠ 3) →
      ∀ (m : TMap) (s1 s2 s3 : State) (locs : List (List (Nat × Loc))) (ents : List (Nat × Loc)), s.readsMap s.me.mx.ports.mdtm m s1 → m.drainRows ≤ 256 →
        let width := s1.me.mx.width
        let reg := s1.pipe.fmt m.freg
        let rows := (List.range m.drainRows).map fun i => m.drainRow x.val width i
        let tix := y.val.extractLsb' 32 32
        drainMapBad k typ m reg rows = false → (k = .cvt → typ = 2 → fmtValid reg = true) → s1.drainAll s1.cur (k.size typ) rows = (.ok locs, s2) →
        s2.drainLocs s1.cur 4 (if m.btab = 0 then [] else (List.range width).map fun i => (128 * i, m.btab + (tix.setWidth 64 + BitVec.ofNat 64 i) * 4)) = (.ok ents, s3) →
        s3.me.mx.queue.length < 4 → s3.me.mx.queue.any (fun o => o.uses b) = false → s3.drainPending b = none →
        let wide := decide ((s3.me.mx.bank b).st = .hi)
        let bs := s3.drainBounds b wide rows
        bs.any (fun x => exceeds x s3.me.mx.ports.mbthr) = false →
        let d : Drain :=
          { kind := k, bank := b, wide := wide, zr := w.getLsbD 1, typ := typ, clamp := y.val.setWidth 32 &&& 0x7FFFFFFF, fmt := reg, rm := s3.pipe.rmode.mode,
            row := 0, rows := locs, entry := ents.map fun x => some x.2, pos := some s3.pipe.ib.idx, seq := s3.me.seq, rng := s3.pipe.sys2.rng[2], bndd := bs,
            seen := List.replicate width ((0 : W32), false), flags := 0 }
        let s4 := State.modMe (if w.getLsbD 1 then s3.modMembers s3.cur fun m => m.freeBank b wide else s3) fun c => { c with seq := c.seq + 1 }
        o = queued (if k = .cvt ∧ d.rm = 4 then s4.modPipe fun p => { p with sys2 := { p.sys2 with
            rng := p.sys2.rng.set 2 (rngDraws (locs.map List.length).sum d.rng).2 } } else s4) (.drain d)
    (s.me.mx.queue.length < 4 → tile false (exec (.mtile g e f) s) ∧ tile true (exec (.mtileW g e f) s)
      ∧ (let both := decide ((s.me.mx.bank b).st = .hi) || decide ((s.me.mx.bank b).st = .lo)
        exec (.mzero g e f) s = queued (s.modMembers s.cur fun m => m.freeBank b both) (.zero b both))
      ∧ exec (.mbank g e f) s = queued (s.modMx fun m => { m with ports := { m.ports with mcfg := (m.ports.mcfg &&& 0x3FFF) ||| (BitVec.ofNat 15 b.toNat <<< 14) } }) (.bank b))
    ∧ drain .st (exec (.mdrnSt g e f) s) ∧ drain .cvt (exec (.mdrnCvt g e f) s) ∧ drain .add (exec (.mdrnAdd g e f) s) ∧ drain .addc (exec (.mdrnAddc g e f) s))
  ∧ ∀ (s : State) (c : CoreId) (i : Nat) (d : Drain) (row r left : List (Nat × Loc)) (rest : List (List (Nat × Loc))),
      let z := d.kind.size d.typ
      s.memWf → d.rows = row :: rest → (s.core c).rowPart row = (r, left) → (r = [] → row = []) → s.writesReady c (r.map (·.2)) z = true → s.m.migs = [] →
      (∀ q ∈ r, s.homeUp q.2 = true ∧ s.unshared q.2) → r.Pairwise (fun p q => ∀ a b, a < z → b < z → p.2.plus a ≠ q.2.plus b) → (d.kind = .cvt → d.rm ≠ 4) →
      let u := s.stepDrain c i d
      let code (q : Nat × Loc) : Nat :=
        let v := ((s.core (CoreId.mk' c.die (c.num + q.1 / 128))).mx.value d.bank d.wide (rowIx d.row) (memberCol q.1).2).1
        let sum := (fadd32 (BitVec.ofNat 32 (natOfBytes ((List.range 4).map fun a => s.byteAt (q.2.plus a)))) v).1
        match d.kind with
        | .st => v.toNat
        | .cvt => ((fx32 v).res.code d.dest d.rm.toNat 0).1
        | .add => sum.toNat
        | .addc => (clampAbs sum d.clamp).toNat
      (∀ q ∈ r, ∀ a, a < z → u.byteAt (q.2.plus a) = BitVec.ofNat 8 (code q / 256 ^ a))
      ∧ (∀ l, (∀ q ∈ r, ∀ a, a < z → l ≠ q.2.plus a) → u.byteAt l = s.byteAt l)
      ∧ ∀ h, (u.core h).mx.bank0 = (s.core h).mx.bank0 ∧ (u.core h).mx.bank1 = (s.core h).mx.bank1

/-- Claims and beats (R204, R235, R237, R241 to R243, R253): MCLAIM takes slots that are READY on every member and answers 1, else 0; MREL releases slots the matrix owns; with an
empty queue and group width 1 a shifting beat advances the count, brings every element the pair that reaches it, and pushes its own; MB.A adds every held product; MB.D writes
one row at its map's addresses, once their banks are ACTIVE and the tracker has room for their lines. (That a pair accumulates into the bank of the beat that
reaches it, what of the travelling pairs enters MB.A's bound, and that a row past Vr writes nothing, is the model's choice of log entry 30; that MREL acts on every member, of log entry 32.) One beat
of a tile adds to every element of every member's bank the exact product of A line k and the member's B row, rounded to nearest, in wide mode with the rest in lo, and advances the bank's S and
BND; k is the beat's number, or with SP = 1 the K of the metadata word at MPC, which advances, a word with V = 0 ending the tile. A group of two or four takes its leader's bank states, and one that
dissolves keeps its banks. -/
def Obligations.MatrixClaimBeatResults : Prop :=
  (∀ (s : State) (g : BitVec 4) (e : Bool) (f : BitVec 10) (v : Val), s.ready .m g e f v = true →
    let w := v.toS.val
    let n := w.extractLsb' 0 5
    let m := s.me.mx
    let taken (l : List Nat) : Bool := (s.members s.cur).all fun c => l.all fun i => ((s.core c).mx.slot i).st == .ready
    let take (l : List Nat) (pair : Bool) (h : MPorts → MPorts) : State :=
      State.modMx (s.modMembers s.cur fun m => l.foldl (fun m i => m.setSlot i { m.slot i with st := .matrix, apair := pair }) m) fun m => { m with ports := h m.ports }
    (s.dNamed .m = false → s.pipe.units.bad.getLsbD Slot.m.index = false → exec (.mclaimB g e f) s = .next (s.trapAt .m 0x02 (s.moveAddr .m))
      ∧ exec (.mclaimA g e f) s = .next (s.trapAt .m 0x02 (s.moveAddr .m)))
    ∧ (s.dNamed .m = true → n.getLsbD 0 = false → exec (.mclaimA g e f) s = (if taken [n.toNat, n.toNat + 1]
      then .next ((take [n.toNat, n.toNat + 1] true fun p => { p with msla := n }).accept (s.dOf .m) true) else .next (s.accept (s.dOf .m) false)))
    ∧ (s.dNamed .m = true → exec (.mclaimB g e f) s = (if taken [n.toNat] then .next ((take [n.toNat] false fun p => { p with mslb := n }).accept (s.dOf .m) true)
        else .next (s.accept (s.dOf .m) false)))
    ∧ ((w.getLsbD 5 = false ∨ n.getLsbD 0 = false) →
        let l := if w.getLsbD 5 || (m.slot n.toNat).apair then [n.toNat / 2 * 2, n.toNat / 2 * 2 + 1] else [n.toNat]
        exec (.mrel g e f) s = .next (s.modMembers s.cur fun m => m.release l).issued)
    ∧ (m.queue = [] → m.width = 1 → m.ports.mgrp ≠ 2 → m.ports.mgrp ≠ 4 →
        let t := s.snapshot false
        let k := (w.extractLsb' 0 9).toNat
        (s.tileCheck t = none → t.ports.sp = false → k < (wclass t.ports.atyp t.fa).beats →
          exec (.mbPa g e f) s = .next (s.shiftBeat t true (beatOps m m t k k)) ∧ exec (.mbP g e f) s = .next (s.shiftBeat t false (beatOps m m t k k)))
        ∧ exec (.mbS g e f) s = .next (s.shiftBeat t false [])
        ∧ (m.forbids t.ports.bank t.wide = false →
          let r := m.accumulate t.ports.bank t.wide m.heldProducts
          exec (.mbA g e f) s = .next (s.beatDone (r.1.bound t.ports.bank t.wide m.travelling.1 m.travelling.2) t.ports.bank t.wide true r.2))
        ∧ (∀ (y : TMap) (s1 s2 : State) (locs : List (Nat × Loc)), v.toS.poi = false → s.pipe.units.m.x.poi = false →
          let b := w.getLsbD 8
          let i := (w.extractLsb' 0 8).toNat
          (m.bank b).st ≠ .lo → s.readsMap m.ports.mdtm y s1 → drainMapBad .st 0 y 0 [] = false →
          s1.drainLocs s1.cur 4 (if i < y.drainRows then y.drainRow s.pipe.units.m.x.val 1 i else []) = (.ok locs, s2) →
          s2.writesReady s2.cur (locs.map (·.2)) 4 = true →
          exec (.mbD g e f) s = .next (locs.foldl (fun u q =>
            let z := s2.me.mx.value b ((s2.me.mx.bank b).st == .hi) (rowIx i) (memberCol q.1).2
            u.storeClass0 u.cur q.2 (bytesOfNat 4 z.1.toNat) z.2) s2).issued)))
  ∧ ∀ (s : State) (t : TileSnap) (acc : Bool) (ops : List (ACol × BRow)), t.wide = false → s.me.mx.forbids t.ports.bank false = false →
      let b := t.ports.bank
      let m := s.me.mx
      let u := s.shiftBeat t acc ops
      u.me.mx.beat = m.beat + 1 ∧ u.pipe.disp = .issued ∧ sameBytes s u
      ∧ ∀ (i : Fin 256) (j : Fin 128), ((u.me.mx.bank b).acc[i])[j] =
          (match (m.pairs ++ [(⟨m.beat + 1, acc, ops, beatBound ops t.bia (t.bib.getD 0 0)⟩ : BeatPair)]).find? fun (p : BeatPair) => p.t + i.val + j.val = m.beat + 1 with
          | some p => if p.acc then (macNormal ((m.bank b).acc[i])[j] (beatProduct p.ops i j)).1 else ((m.bank b).acc[i])[j]
          | none => ((m.bank b).acc[i])[j])
  ∧ (∀ (s : State) (c : CoreId) (q : Nat) (t : TileSnap) (n : Nat) (m0 : W32) (f : Flags), t.due = false →
      let b := t.ports.bank
      let k := (s.core c).mx
      let u := s.stepTile c q t n m0 f
      let pushed (v : State) (ka : Nat) : Prop := (v.core c).mx.width ≤ 4 → c.num + (v.core c).mx.width ≤ 32 → ∀ g, g < (v.core c).mx.width →
        let m := (v.core (CoreId.mk' c.die (c.num + g))).mx
        let r := (u.core (CoreId.mk' c.die (c.num + g))).mx
        let ops := beatOps (v.core c).mx m t ka n
        let x := beatBound ops t.bia (t.bib.getD g 0)
        let S := ruRes (fxAdd false (fx32 (m.bank b).s) x.term)
        (∀ (i : Fin 256) (j : Fin 128),
          let hi := ((m.bank b).acc[i])[j]
          let lo := ((m.bank (!b)).acc[i])[j]
          ((r.bank b).acc[i])[j] = (rne (fxAdd false (fx32 hi) (beatProduct ops i j).1)).1
          ∧ ((r.bank (!b)).acc[i])[j] = if t.wide then (macWide hi lo (beatProduct ops i j)).2.1 else lo)
        ∧ (r.bank b).s = S
        ∧ (opsBad ops = true → (r.bank b).bnd = inf32)
        ∧ (opsBad ops = false → (r.bank b).bnd = ruRes ([boundMul (.fin false 1 (if t.wide then -48 else -24)) (fx32 S), .fin false 1 (-150), boundMul (fx32 x.bia) x.bmax,
            boundMul (fx32 x.bib) x.amax, boundMul (.fin false x.np 0) (boundMul (fx32 x.bia) (fx32 x.bib))].foldl boundAdd (fx32 (m.bank b).bnd)).res)
      (t.ports.sp = false → pushed s n ∧ (u.core c).mx.mpc = k.mpc)
      ∧ (t.ports.sp = true → ∀ w a v, (if n = 0 then s.inputBounds c t else s).metaWord c k.mpc = ((.ok (w, false), a), v) →
        (w.getLsbD 23 = true → metaBad (wclass t.ports.atyp t.fa) w = false → pushed v (w.extractLsb' 15 8).toNat ∧ (u.core c).mx.mpc = k.mpc + 1)
        ∧ (w.getLsbD 23 = false → (u.core c).mx.mpc = k.mpc + 1
          ∧ ∀ h, (u.core h).mx.bank0.acc = (v.core h).mx.bank0.acc ∧ (u.core h).mx.bank1.acc = (v.core h).mx.bank1.acc)))
  ∧ ∀ (s : State) (c : CoreId),
      let lead := (s.core c).mx
      let n := lead.ports.mgrp.toNat
      let u := s.formGroup c
      ((n = 2 ∨ n = 4) → c.num % n = 0 → (u.core c).mx.width = n ∧ ∀ g, g < n →
        let h := CoreId.mk' c.die (c.num + g)
        (u.core h).mx.leader = some c ∧ (u.core h).mx.bank0 = { (s.core h).mx.bank0 with st := lead.bank0.st } ∧ (u.core h).mx.bank1 = { (s.core h).mx.bank1 with st := lead.bank1.st })
      ∧ (n = 1 → (∀ h ∈ s.members c, (u.core h).mx.leader = none ∧ (u.core h).mx.width = 1)
        ∧ ∀ h, (u.core h).mx.bank0 = (s.core h).mx.bank0 ∧ (u.core h).mx.bank1 = (s.core h).mx.bank1)
      ∧ sameBytes s u

/-! ## The copy slots (R113 to R137, R233, R258 to R275) -/

/-- Rows of own scratchpad (R113 to R115, R119 to R121): with every bank ACTIVE, no earlier class-0 access outstanding and the hold of a scattered access over, SPLD and its forms land what their loads give after the
slot's latency, SPST and its forms store X's lanes in order, SPST.M those that Y selects, where one past 0x60_0000 raises cause 0x06 (log entry 61); a base of SPLD.G that is not aligned raises 0x07; AG.SET takes a map, AG.POS an origin, and the AG forms move on by 1 KiB of their walk. What one load gives is the bytes
that lie there, and one store changes those bytes only. (That an SPST row
is one write is the model's choice of log entry 16, and that each element of an AG form is a write of its own of 77.) -/
def Obligations.ScratchpadRowResults : Prop :=
  (∀ (s : State) (k : KUnit) (g : BitVec 4) (n : BitVec 2) (e : Bool) (f : BitVec 10) (v : Val), s.ready k.slot g e f v = true → v.toS.poi = false →
    let a := v.toS.val
    let u := s.kLatch k
    let open_ (z : Nat) (l : List (Option Nat)) : Prop := s.me.class0Waits = false ∧ (l.all fun o => match o with | some o => s.banksReady s.cur o z | none => true) = true
    let lane (z : Nat) (off : Nat) : List (Option Nat) := (List.range 256).map fun i => some (off + z * i)
    let lands (r : List (List Byte × Bool) × State) : Out := .next (r.2.copyShort k (lanesOf r.1))
    let ag := (s.me.kslot k).ag[n.toNat]'(by omega)
    (∀ off, s.ownsRange a 128 1024 off → open_ 4 (lane 4 off) → exec (.spld k g e f) s = lands (s.spLoads 4 (lane 4 off))
      ∧ exec (.spst k g e f) s = .next (s.spStores u.x (lane 4 off)).issued)
    ∧ (∀ off, s.ownsRange a 128 4 off → u.y.poi = 0 →
      let l := (List.finRange 256).map fun (i : Fin 256) => if u.y.val[i] = 0 then none else some (off + 4 * i.val)
      ((∀ i : Fin 256, u.y.val[i] ≠ 0 → off + 4 * i.val < 0x600000) → open_ 4 l → exec (.spstM k g e f) s = .next (s.spStores u.x l).issued)
      ∧ ∀ i : Fin 256, u.y.val[i] ≠ 0 → 0x600000 ≤ off + 4 * i.val → (∀ j : Fin 256, j < i → u.y.val[j] ≠ 0 → off + 4 * j.val < 0x600000) →
          exec (.spstM k g e f) s = .next (s.trapAt k.slot 0x06 (a + BitVec.ofNat 64 (4 * i.val))))
    ∧ (∀ off, s.ownsRange a 64 512 off → open_ 2 (lane 2 off) → exec (.spldH k g e f) s = lands (s.spLoads 2 (lane 2 off)))
    ∧ (∀ off, s.ownsRange a 4 4 off → open_ 4 [some off] →
        exec (.spldBc k g e f) s = .next ((s.spLoad off 4).2.copyShort k ⟨Vec.splat (BitVec.ofNat 32 (natOfBytes (s.spLoad off 4).1.1)), maskAll (s.spLoad off 4).1.2⟩))
    ∧ (u.x.poi = 0 → a.toNat % 4 ≠ 0 → exec (.spldG k g e f) s = .next (s.trapAt k.slot 0x07 a))
    ∧ (∀ l, u.x.poi = 0 → a.toNat % 4 = 0 → s.ownAddrs 4 4 (laneAddrs fun i => a + (u.x.val[i]).setWidth 64) = .ok l → open_ 4 l → s.pipe.stall < rowHold l →
        exec (.spldG k g e f) s = .next ((s.modPipe fun p => { p with stall := p.stall + 1 }).hold 0))
    ∧ (∀ l, u.x.poi = 0 → a.toNat % 4 = 0 → s.ownAddrs 4 4 (laneAddrs fun i => a + (u.x.val[i]).setWidth 64) = .ok l → open_ 4 l → rowHold l ≤ s.pipe.stall →
        exec (.spldG k g e f) s = lands (s.spLoads 4 l))
    ∧ (∀ l, u.y.poi = 0 → s.ownAddrs 4 4 (laneAddrs fun i => a + (u.y.val[i]).setWidth 64) = .ok l → open_ 4 l → rowHold l ≤ s.pipe.stall →
        exec (.spstS k g e f) s = .next (s.spStores u.x l).issued)
    ∧ (∀ m t, a.extractLsb' 62 2 ≠ 3 → s.readsMap a m t → exec (.agSet k g n e f) s = .next (t.modAg k n fun _ => ⟨some m, 0, 0⟩).issued)
    ∧ (∀ m, ag.map = some m → exec (.agPos k g n e f) s = .next (s.modAg k n fun x => { x with org := a, k := 0 }).issued)
    ∧ (ag.map = none → exec (.agPos k g n e f) s = .next (s.trapAt k.slot 0x02 (s.moveAddr k.slot)))
    ∧ (∀ m l, ag.map = some m → s.ownAddrs m.eb m.eb (ag.next m) = .ok l → open_ m.eb l → rowHold l ≤ s.pipe.stall →
        let t := s.modAg k n fun x => { x with k := min (x.k + 1024 / m.eb) m.vol }
        let r := t.spLoads m.eb l
        let bad := (r.1.map fun x => List.replicate m.eb x.2).flatten.toArray
        exec (.spldAg k g n e f) s =
          .next (r.2.copyShort k ⟨vecOfByteList (r.1.map (·.1)).flatten, maskOf fun i => (List.range 4).any fun j => bad.getD (4 * i.val + j) false⟩)
        ∧ exec (.spstAg k g n e f) s = .next (((l.zip (List.range l.length)).foldl (fun y q => match q.1 with
            | some o => y.spStore o ((List.range m.eb).map fun b => BitVec.ofNat 8 (vecByte u.x.val (q.2 * m.eb + b))) (u.x.poi.getLsbD (q.2 * m.eb / 4))
            | none => y) t).spStored m.eb l).issued))
  ∧ (∀ (s : State) (off n : Nat), s.homeUp (.sp s.cur off) = true →
      (s.spLoad off n).1 = ((List.range n).map fun i => s.byteAt (.sp s.cur (off + i)), poisonAt s.me.spPoi off n) ∧ sameBytes s (s.spLoad off n).2)
  ∧ (∀ (s : State) (off : Nat) (bs : List Byte) (bad : Bool), s.memWf → s.homeUp (.sp s.cur off) = true → let t := s.spStore off bs bad
      (∀ i (h : i < bs.length), t.byteAt (.sp s.cur (off + i)) = bs[i]) ∧ (∀ x, (∀ i, i < bs.length → x ≠ .sp s.cur (off + i)) → t.byteAt x = s.byteAt x)
      ∧ (∀ c, sameArch s t c))

/-- Sync words, channels and tokens (R113, R123 to R127, R136, R137, R275): SW.INIT sets TARGET and the flags ARM and REL, COUNT to 0, and leaves GEN; SW.ADD arrives, after a release
where REL is 1; SW.TEST and SW.RD land what the word holds, as class-0 loads that take its timestamp (R93); QPUT sends X's first sixteen lanes while the channel has room, else answers 0; SW.WAIT, QGET and
ING.POP leave a wait with their D register empty; a SW.WAIT whose generation has changed at its issue, or changes with a later write of its word, takes the word's generation at that moment (R126). -/
def Obligations.SyncAndChannelResults : Prop :=
  ∀ (s : State) (k : KUnit) (g : BitVec 4) (e : Bool) (f : BitVec 10) (v : Val), s.ready k.slot g e f v = true → v.toS.poi = false →
    let a := v.toS.val
    let u := s.kLatch k
    let x := u.x.val[0]
    let waits (t : State) (w : WaitKind) : Out := .next (((t.modMe fun c => { c with
      pipe := { c.pipe with waits := c.pipe.waits ++ [⟨w, kUnit k, s.dOf k.slot, some c.pipe.ib.idx, c.seq⟩] }, seq := c.seq + 1 }).regWrite (.empty (s.dOf k.slot))).issued)
    (∀ h off, s.namesWord a h off → s.me.class0Waits = false → s.banksReady h off 16 = true →
      let y := s.syncGet h off
      (s.memWf → u.x.poi.getLsbD 0 = false → u.y.poi.getLsbD 0 = false → ∃ t, exec (.swInit k g e f) s = .next t ∧ t.pipe.disp = .issued
        ∧ t.syncGet h off = ⟨x.toNat, 0, y.gen, u.y.val[0] &&& 5⟩ ∧ (∀ c, sameArch s t c)
        ∧ ∀ l, (∀ i, i < 16 → l ≠ .sp h (off + i)) → t.byteAt l = s.byteAt l)
      ∧ (s.wordUsable h off = true → u.x.poi.getLsbD 0 = false →
        let r := s.syncArrive h off x.toNat s.me.lt[0]
        let m := s.mergeClasses s.cur
        let q := m.syncArrive h off x.toNat (ltime m.me.lt)
        (y.rel = false → exec (.swAdd k g e f) s = .next ((r.2.setLt r.2.cur (r.2.me.lt.set 0 (max r.2.me.lt[0] r.1))).unrefuse r.2.cur).issued)
        ∧ (y.rel = true → s.othersReached = true → s.me.releaseWaits = false →
          exec (.swAdd k g e f) s = .next ((q.2.setLt q.2.cur (ltMerge q.2.me.lt q.1)).unrefuse q.2.cur).issued)
        ∧ (y.rel = true → (s.othersReached = false ∨ s.me.releaseWaits = true) → exec (.swAdd k g e f) s = .next (s.hold 0))
        ∧ (s.dNamed k.slot = true → (y.gen = x.toNat → exec (.swWait k g e f) s = waits s (.sw a x))
          ∧ (y.gen ≠ x.toNat → exec (.swWait k g e f) s = waits (s.readWord s.cur h off) (.bound (.w64 (BitVec.ofNat 64 y.gen)) true)))
        ∧ exec (.swTest k g e f) s = .next ((s.syncRead h off).2.copyShort k ⟨Vec.tab fun i => if i.val = 0 ∧ y.gen ≠ x.toNat then 1 else 0, 0⟩))
      ∧ (s.homeUp (.sp h off) = true → (s.syncRead h off).2.me.lt[0] = max s.me.lt[0] (s.times (.sp h off)).wts ∧ sameBytes s (s.syncRead h off).2)
      ∧ (poisonAt (s.core h).spPoi off 16 = false → exec (.swRd k g e f) s = .next ((s.syncRead h off).2.copyShort k
          ⟨Vec.tab fun i => if i.val = 0 then BitVec.ofNat 32 y.target else if i.val = 1 then BitVec.ofNat 32 y.count else if i.val = 2 then BitVec.ofNat 32 y.gen
            else if i.val = 3 then y.flags else 0, 0⟩)))
    ∧ (let c := CoreId.mk' s.cur.die (a.extractLsb' 0 5).toNat
      let ch := a.extractLsb' 5 3
      let q := s.chan c ch
      ∀ z, a.extractLsb' 8 56 = 0 → s.runsCtx c s.me.task.ctx = true → s.dNamed k.slot = true → s.me.class0Waits = false → s.ctx s.me.task.ctx = some z →
        let p : Packet := { kind := 9, ndata := 1, vc := 0, src := s.cur, dst := c, atDie := s.cur.die, ctx := z.id, kgen := z.kgen, ch := ch, msg := msgOf u.x s.me.lt[0],
                             card := s.me.task.card.map fun i => (s.me.task.job, i) }
        (q.ring = [] → q.msgs.length + s.inFlight c ch < q.cap → exec (.qput k g e f) s =
          .next ((({ s with link := { s.link with net := s.link.net ++ [p] } } : State).modCtx z.id fun y => { y with wd := 0 }).accept (s.dOf k.slot) true))
        ∧ (q.cap ≤ q.msgs.length + s.inFlight c ch → z.ashpit = false →
          exec (.qput k g e f) s = .next ((s.modMe fun t => { t with task := { t.task with refused := true } }).accept (s.dOf k.slot) false)))
    ∧ (s.dNamed k.slot = true → a.toNat < 8 → exec (.qget k g e f) s = waits s (.qget (a.setWidth 3)))
    ∧ (∀ q, s.dNamed k.slot = true → a.extractLsb' 4 12 = 0 → a.extractLsb' 28 36 = 0 → s.ingest (a.extractLsb' 0 4).toNat = some q → (a.extractLsb' 16 12).toNat < q.wi →
        exec (.ingPop k g e f) s = waits s (.ing a none))

/-- Acceptance of an engine command (R9, R128, R129): with 16 commands in the slot's queue it answers 0; else the command joins the queue with KFLG and KSW, which return to 0,
and its path at LTIME, and the answer is 1. -/
def Obligations.EngineAcceptance : Prop :=
  ∀ (s : State) (k : KUnit) (d : BitVec 10) (a : W64) (kind : EngKind) (n eb total : Nat),
    let q := s.me.kslot k
    let t := s.acceptEngine k d a kind n eb total fun _ u => u
    let acq := if q.flg.getLsbD 0 then s.me.classSeqs (q.flg.extractLsb' 5 2) else []
    let c : EngCmd := ⟨s.me.engSeq, kind, a, q.flg, q.sw, n, eb, total, ltime s.me.lt, 0, 0, acq, none, false, false, 0, [], []⟩
    (16 ≤ q.queue.length → t = s.accept d false)
    ∧ (q.queue.length < 16 → (t.me.kslot k).queue = q.queue ++ [c] ∧ (t.me.kslot k).flg = 0 ∧ (t.me.kslot k).sw = 0 ∧ t.me.engSeq = s.me.engSeq + 1
        ∧ t.pipe.disp = .issued ∧ sameBytes s t ∧ (s.pipe.wq = none → t.pipe.regs = s.pipe.regs.put d (.w64 1)))
    ∧ (s.pipe.wq = none → (s.accept d false).pipe.regs = s.pipe.regs.put d (.w64 0))

/-- Engine triggers (R128, R129, R132 to R134, R153 to R160, R234, R262): with the block at F readable and its fields within their limits, each asks acceptance of its command: XCOPY of flat ranges or
walks, XGATH and XSCAT of NTOK rows through the extent list, XMCAST to a die set, XRED, XHALO, XRESH, MOPLD.T into slots that the matrix does not own, KV.APP of NTOK rows. -/
def Obligations.EngineTriggerResults : Prop :=
  ∀ (s : State) (k : KUnit) (g : BitVec 4) (e : Bool) (f : BitVec 10) (v : Val) (off : Nat), s.ready k.slot g e f v = true → v.toS.poi = false →
    s.ownsRange v.toS.val 64 64 off → s.dNamed k.slot = true →
    let a := v.toS.val
    let d := s.dOf k.slot
    let asks (t : State) (kind : EngKind) (n eb total : Nat) (after : Nat → State → State) : Out := .next (t.acceptEngine k d a kind n eb total after)
    let id : Nat → State → State := fun _ t => t
    (∀ b t t1 t2 src dst ms md, s.readsBlock k a 0x20 b t → zeros b 1 1 = true → fld b 2 2 / 4 = 0 → zeros b 40 20 = true →
      (if hbit b 16 = true ∨ hbit b 17 = true then fld b 4 4 = 0 else 1 ≤ fld b 4 4) → (hbit b 16 = false → f64 b 24 = 0) → (hbit b 17 = false → f64 b 32 = 0) →
      t.readsSide (hbit b 16) (f64 b 8) (f64 b 24) src ms t1 → t1.readsSide (hbit b 17) (f64 b 16) (f64 b 32) dst md t2 →
      (∀ m m', ms = some m → md = some m' → m.esize = m'.esize → m.vol = m'.vol →
        exec (.xcopy k g e f) s = asks t2 (.xcopy src dst) (m'.eb * m'.addressed (f64 b 32)) m.eb (m.vol * m.eb) id)
      ∧ (∀ m', ms = none → md = some m' → exec (.xcopy k g e f) s = asks t2 (.xcopy src dst) (m'.eb * m'.addressed (f64 b 32)) m'.eb (m'.vol * m'.eb) id)
      ∧ (∀ m, ms = some m → md = none → exec (.xcopy k g e f) s = asks t2 (.xcopy src dst) (m.vol * m.eb) m.eb (m.vol * m.eb) id)
      ∧ (ms = none → md = none → exec (.xcopy k g e f) s = asks t2 (.xcopy src dst) (fld b 4 4) 1 (fld b 4 4) id))
    ∧ (∀ b t t1 (scat : Bool) mem m, s.readsBlock k a (if scat then 0x22 else 0x21) b t → zeros b 1 1 = true → fld b 2 2 / 4 = 0 → hbit b (if scat then 17 else 16) = false →
        1 ≤ fld b 4 4 → fld b 4 4 ≤ 1048576 → 1 ≤ fld b 28 4 → (hbit b (if scat then 16 else 17) = false → f64 b 32 = 0) → 1 ≤ fld b 40 2 → fld b 40 2 ≤ 32 → zeros b 42 18 = true →
        t.readsSide (hbit b (if scat then 16 else 17)) (f64 b 16) (f64 b 32) mem m t1 →
        let total := fld b 28 4 * fld b 4 4
        let ask (n : Nat) : Out := asks t1 (.xlist scat (f64 b 8) (fld b 40 2) (fld b 4 4) (fld b 24 4) (fld b 28 4) mem) n 1 total id
        (scat = true → exec (.xscat k g e f) s = ask total)
        ∧ (scat = false → m = none → exec (.xgath k g e f) s = ask total)
        ∧ (∀ y, scat = false → m = some y → total = y.vol * y.eb → exec (.xgath k g e f) s = ask (y.eb * y.addressed (f64 b 32)))
        ∧ (∀ y, scat = false → m = some y → ∃ n, exec (.xgath k g e f) s = ask n))
    ∧ (∀ b t t1 ranks src m o1, s.readsBlock k a 0x23 b t → zeros b 1 1 = true → fld b 2 2 / 2 = 0 → (hbit b 16 = true → fld b 4 4 = 0) →
        (hbit b 16 = false → 1 ≤ fld b 4 4 ∧ fld b 4 4 ≤ 0x600000 ∧ formOk (f64 b 8) = true ∧ f64 b 32 = 0) →
        dieSet t.pipe.sys2.shddim (f64 b 24) = some ranks → (fld b 48 1 < 32 ∨ fld b 48 1 = 0xFF) → zeros b 49 11 = true → t.readsSide (hbit b 16) (f64 b 8) (f64 b 32) src m t1 →
        let l := (m.map fun y => y.eb * y.vol).getD (fld b 4 4)
        (f64 b 16).toNat % 0x800000 + l ≤ 0x600000 → t1.ownsRange (f64 b 16) 1 l o1 → (f64 b 40 = 0 ∨ ∃ o2, t1.ownsRange (f64 b 40) 16 16 o2) →
        exec (.xmcast k g e f) s = asks t1 (.xmcast src (f64 b 16) (ranks.map (t1.rankDie t1.cur)) (if fld b 48 1 = 0xFF then t1.cur.num else fld b 48 1) (f64 b 40))
          (l * ranks.length) ((m.map TMap.eb).getD 1) l id)
    ∧ (∀ b t, s.readsBlock k a 0x24 b t → zeros b 1 1 = true → fld b 2 1 / 32 = 0 → fld b 4 4 % 4 = 0 → 4 ≤ fld b 4 4 → fld b 4 4 ≤ 0x100000 →
        (fld b 2 1 % 16 = 4 → fld b 4 4 % 1024 = 0) → fld b 32 2 < t.me.task.spanSize → zeros b 34 22 = true → fld b 56 4 / 4 = 0 →
        let ranks := (dieSet t.pipe.sys2.shddim (f64 b 24)).getD []
        (fld b 32 2 = t.me.task.spanRank → fld b 2 1 % 16 < 5 ∧ fld b 32 2 ∈ ranks ∧ ownBlockAddr (f64 b 16) = true) → (hbit b 20 = false → ownBlockAddr (f64 b 8) = true) →
        exec (.xred k g e f) s = asks t (.xred (BitVec.ofNat 8 (fld b 3 1)) (BitVec.ofNat 4 (fld b 2 1 % 16)) (hbit b 20) (fld b 4 4) (f64 b 8) (f64 b 16) (fld b 32 2) ranks) (fld b 4 4) 4 (fld b 4 4)
          fun i u => if fld b 32 2 = t.me.task.spanRank then u.openColl i (BitVec.ofNat 8 (fld b 3 1)) false ranks else u)
    ∧ (∀ b t t1 m, s.readsBlock k a 0x25 b t → zeros b 1 1 = true → fld b 2 2 / 128 = 0 → zeros b 4 4 = true → zeros b 24 36 = true → t.pipe.sys2.shdmode = 1 →
        (f64 b 16 = 0 ∨ ∃ o1, t.ownsRange (f64 b 16) 16 16 o1) → t.readsMap (f64 b 8) m t1 → m.paddedFits = true →
        let axes := [(3 : Fin 4), 2, 1].filter fun x => hbit b (15 + x.val)
        (∀ x ∈ axes, m.dims[x].lo ≤ m.dims[x].ext ∧ m.dims[x].hi ≤ m.dims[x].ext) →
        let slabs := axes.flatMap fun x => t1.slab m (hbit b 19) (hbit b (19 + x.val)) false x ++ t1.slab m (hbit b 19) (hbit b (19 + x.val)) true x
        let n := m.eb * (slabs.map fun x => x.elems.length).foldl (· + ·) 0
        exec (.xhalo k g e f) s = asks t1 (.xhalo slabs (f64 b 16) m.eb) n m.eb n id)
    ∧ (∀ b t t1 t2 m m', s.readsBlock k a 0x26 b t → zeros b 1 2 = true → zeros b 4 4 = true → zeros b 48 12 = true →
        (t.me.task.spanRank = 0 → (f64 b 24).toNat < 3 ∧ shardBlkOk (f64 b 24).toNat (f64 b 40) = true ∧ f64 b 32 = t.pipe.sys2.shddim.setWidth 64) → t.readsMap (f64 b 8) m t1 → t1.readsMap (f64 b 16) m' t2 → m.esize = m'.esize →
        exec (.xresh k g e f) s = asks t2 (.xresh (BitVec.ofNat 8 (fld b 3 1)) m m' (f64 b 24) (f64 b 40)) (m'.eb * m'.interior) m'.eb 0
          fun i u => if t.me.task.spanRank = 0 then u.openColl i (BitVec.ofNat 8 (fld b 3 1)) true (List.range t.me.task.spanSize) else u)
    ∧ (∀ b t t1 src m, s.readsBlock k a 0x19 b t →
        let c := BitVec.ofNat 32 (fld b 4 4)
        let reg := t.pipe.fmt (c.extractLsb' 7 3)
        let nu := fld b 18 2
        zeros b 1 1 = true → fld b 2 2 / 2 = 0 → ctrlBad c = false → (c.getLsbD 6 = true → fmtValid reg = true) → (hbit b 16 = false → formOk (f64 b 8) = true ∧ f64 b 24 = 0) →
        loadRangeBad c reg (fld b 16 2) nu = false → zeros b 32 28 = true → t.readsSide (hbit b 16) (f64 b 8) (f64 b 24) src m t1 → (∀ y, m = some y → y.vol * y.eb = nu * 1024) →
        let owned := (ctrlSlots c).any fun n => (t1.me.mx.slot n).st == .matrix
        let btab : Option W64 := m.bind fun y => if y.btab = 0 then none else some (y.btab + BitVec.ofNat 64 (4 * fld b 20 4))
        (owned = true → exec (.mopldT k g e f) s = .next (t1.accept d false))
        ∧ (owned = false → exec (.mopldT k g e f) s = asks t1 (.mopldT c reg (fld b 16 2) nu src btab) (nu * 1024) 1 (nu * 1024) fun _ u =>
            u.modMx fun x => x.beginLoad (ctrlSlots c) fun y => { y with pend := y.pend + 1 }))
    ∧ (∀ b t t1 t2 src m lt r, s.readsBlock k a 0x41 b t → zeros b 1 1 = true → fld b 2 2 / 2 = 0 → 1 ≤ fld b 4 4 → fld b 4 4 ≤ 65536 → (hbit b 16 = false → formOk (f64 b 16) = true ∧ f64 b 24 = 0) →
        zeros b 40 20 = true → (∃ x, t.form t.cur (f64 b 8) = .ok x) → (f64 b 8).extractLsb' 62 2 ≠ 3 → (f64 b 8).toNat % 64 = 0 → t.me.class0Waits = false →
        ((f64 b 8).extractLsb' 62 2 = 2 → t.banksReady t.cur ((f64 b 8).toNat % 0x800000 + 8) 4 = true) → t.readVa t.cur t.me.lt[0] (f64 b 8 + 8) 4 2 = (.ok (r, false, lt), t1) → 1 ≤ natOfBytes r → natOfBytes r ≤ 1048576 →
        let n := fld b 4 4 * natOfBytes r
        (t1.setLt t1.cur (t1.me.lt.set 0 lt)).readsSide (hbit b 16) (f64 b 16) (f64 b 24) src m t2 → (∀ y, m = some y → y.vol * y.eb = n) →
        exec (.kvApp k g e f) s = asks t2 (.kvapp (fld b 4 4) (f64 b 8) (natOfBytes r) src none) n 1 n id)

/-- KFLG, KSW, MOPLD, KV.EXT and the prefix table (R128, R233, R261, R264 to R269): the ports take F; MOPLD places its units at issue and its slots load; KV.EXT extends by the lowest free
block of the record's pool, or releases each listed extent with what firmware keeps of it (log entry 65), once the lines of the record it writes find room in the tracker; PFX.HASH chains sixteen tokens; PFX.LOOK finds an entry of the context, which becomes the newest; PFX.INS inserts or answers 0; PFX.PIN appends the
entry's extent or sets PFAIL; PFX.UNPIN drops one pin. -/
def Obligations.KvAndPrefixResults : Prop :=
  ∀ (s : State) (k : KUnit) (g : BitVec 4) (e : Bool) (f : BitVec 10) (v : Val), s.ready k.slot g e f v = true → v.toS.poi = false →
    let a := v.toS.val
    let u := s.kLatch k
    let d := s.dOf k.slot
    let ctx := s.me.task.ctx
    let x := u.x.val[0]
    let long (t : State) (w : Val) (n : Nat) : Out := .next (t.long (kUnit k) w 0 d n)
    let home := s.die s.cur.die
    exec (.kflg k g e f) s = .next (s.modK k fun y => { y with flg := a.setWidth 7 }).issued
    ∧ exec (.ksw k g e f) s = .next (s.modK k fun y => { y with sw := a }).issued
    ∧ (∀ o, u.x.poi &&& 7 = 0 →
        let off := ((u.x.val[1]).extractLsb' 0 16).toNat
        let nu := ((u.x.val[1]).extractLsb' 16 16).toNat
        let reg := s.pipe.fmt (x.extractLsb' 7 3)
        ctrlBad x = false → (x.getLsbD 6 = true → fmtValid reg = true) → loadRangeBad x reg off nu = false → s.ownsRange a 128 (1024 * nu) o →
        ((ctrlSlots x).any fun n => (s.me.mx.slot n).st == .matrix) = false → s.slotsBusy s.cur (ctrlSlots x) = false → s.me.class0Waits = false → s.banksReady s.cur o (1024 * nu) = true →
        let t := (List.range nu).foldl (fun t i => let r := t.unitBytes (o + 1024 * i); r.2.modMx fun m => m.loadUnit x reg off i r.1) s
        exec (.mopld k g e f) s = .next (t.modMx fun m => (m.loadBound (ctrlSlots x) (u.x.val[2])).beginLoad (ctrlSlots x) fun y =>
          { y with loads := y.loads ++ [(x.getLsbD 10, !x.getLsbD 5)] }).issued)
    ∧ (∀ bs t, u.x.poi.getLsbD 0 = false → s.dNamed k.slot = true → (∃ y, s.form s.cur a = .ok y) → a.extractLsb' 62 2 ≠ 3 → a.toNat % 64 = 0 → s.readsRecord a 576 bs t →
        let r := SeqRec.ofBytes bs
        (∀ l q, x = 0 → t.locateAll (({ r with len := 0, cap := 0, next := 0, npin := 0 } : SeqRec).counters a) = (.ok l, q) → q.writesReady q.cur (l.map (·.1)) 16 = true →
          exec (.kvExt k g e f) s = long (((r.exts.take r.next).zip (List.range r.next)).foldl (fun y p => y.unlist a (p.2 < r.npin) p.1.1) (q.storeAll l)) (.w64 (BitVec.ofNat 64 r.next)) 4096)
        ∧ (∀ (y : State) (pinned : Bool) (b : W64), (y.listed a b pinned = none → y.unlist a pinned b = y.modCtx y.me.task.ctx fun z => z.blockRef b false)
          ∧ ∀ w, y.listed a b pinned = some w →
            let y1 := match w.pin with | some (h, i) => y.modDie h fun z => z.unpin i y.me.task.ctx b | none => y
            y.unlist a pinned b = y1.modCtx y.me.task.ctx fun z =>
              let z1 := { z with listed := z.listed.erase w }
              (if w.sink then z1.blockSink b false else z1).blockRef b false)
        ∧ (x ≠ 0 → 4 ≤ r.pool → exec (.kvExt k g e f) s = long t (.w64 0) 4096)
        ∧ (∀ z, ∀ h : r.pool < 4, x ≠ 0 → t.ctx t.me.task.ctx = some z →
          let c := blockFor x.toNat 32 16
          (z.pools[r.pool] = none → exec (.kvExt k g e f) s = long t (.w64 0) 4096)
          ∧ (∀ p, z.pools[r.pool] = some p → (65536 < c ∨ 32 ≤ r.next ∨ r.rowb ≠ p.row ∨ p.findFree c 16 = none) → exec (.kvExt k g e f) s = long t (.w64 0) 4096)
          ∧ (∀ p o l q, z.pools[r.pool] = some p → c ≤ 65536 → r.next < 32 → r.rowb = p.row → p.findFree c 16 = some o →
            t.locateAll ((a + BitVec.ofNat 64 (64 + 16 * r.next), extBytes (p.addr o, c, r.rowb)) :: ({ r with next := r.next + 1, cap := r.cap + c } : SeqRec).capNext a) = (.ok l, q) →
            q.writesReady q.cur (l.map (·.1)) 16 = true →
            let u1 := q.storeAll l
            exec (.kvExt k g e f) s = long (u1.modCtx u1.me.task.ctx fun y =>
              { y with pools := y.pools.setIfInBounds r.pool (some { p with blocks := p.blocks ++ [⟨o, c, 1, if r.sinkFrom r.cap then 1 else 0⟩] }),
                       listed := u1.listing a (p.addr o) (r.sinkFrom r.cap) none :: y.listed }) (.w64 (p.addr o)) 4096)))
    ∧ (s.dNamed k.slot = true → u.y.poi.getLsbD 0 = false → u.x.poi &&& 0xFFFF = 0 →
        let seeded := (u.y.val[0]).getLsbD 0
        let h := pfxHash (if seeded then ((s.ctx ctx).map (·.seed)).getD 0 else a) ((List.range 16).map fun i => Vec.lane u.x.val i)
        exec (.pfxHash k g e f) s = long s (if selV d || selO d then .vec (firstLanes [h.setWidth 32, h.extractLsb' 32 32]) else .sc ⟨h, false⟩) 16)
    ∧ (s.dNamed k.slot = true →
        (home.pfxFind ctx a = none → exec (.pfxLook k g e f) s = long s (.w64 0) 24)
        ∧ (∀ i, home.pfxFind ctx a = some i →
          exec (.pfxLook k g e f) s = long (s.modDie s.cur.die fun y => y.pfxHit i) (.w64 (BitVec.ofNat 64 (0x80000000 + i.val * 65536 + (home.pfx[i]).gen.toNat))) 24))
    ∧ (∀ o bs t z, s.ownsRange a 32 32 o → s.dNamed k.slot = true → s.readsRecord a 32 bs t → t.ctx t.me.task.ctx = some z → zeros bs 28 4 = true → z.extentStart (f64 bs 16) = true →
        let y := t.die t.cur.die
        let c := t.me.task.ctx
        let fresh (i : Fin 64) : PfxEnt := ⟨f64 bs 0, f64 bs 8, f64 bs 16, 0, c, 0, (y.pfx[i]).gen + 1, true⟩
        let gone (i : Fin 64) : State := if (y.pfx[i]).v then t.modCtx (y.pfx[i]).ctx fun q => q.blockRef (y.pfx[i]).base false else t
        (∀ i, y.pfxFind c (f64 bs 0) = some i → exec (.pfxIns k g e f) s = .next ((t.modDie t.cur.die fun q => q.pfxHit i).accept d true))
        ∧ (y.pfxFind c (f64 bs 0) = none → y.pfxVictim c z.pfxQuota = none → exec (.pfxIns k g e f) s = .next (t.accept d false))
        ∧ (∀ i, y.pfxFind c (f64 bs 0) = none → y.pfxVictim c z.pfxQuota = some i → exec (.pfxIns k g e f) s =
          .next ((((gone i).modDie (gone i).cur.die fun q => ({ q with pfx := q.pfx.set i.val (fresh i) } : Die).pfxHit i).modCtx c fun q => q.blockRef (f64 bs 16) true).accept d true)))
    ∧ (u.x.poi.getLsbD 0 = false → exec (.pfxUnpin k g e f) s = (match s.pfxNamed x with
        | some i => .next (s.modDie s.cur.die fun y => { y with pfx := y.pfx.set i.val { home.pfx[i] with pin := if (home.pfx[i]).pin = 0 then 0 else (home.pfx[i]).pin - 1 } }).issued
        | none => .next s.issued))
    ∧ (∀ bs t, u.x.poi.getLsbD 0 = false → (∃ y, s.form s.cur a = .ok y) → a.extractLsb' 62 2 ≠ 3 → a.toNat % 64 = 0 → s.readsRecord a 576 bs t →
        let r := SeqRec.ofBytes bs
        let fits (en : PfxEnt) : Prop := en.pin ≠ 255 ∧ r.next = r.npin ∧ r.next < 32 ∧ (r.win = 0 ∨ 16 * (r.npin + 1) ≤ r.sink)
        ((∀ i, t.pfxNamed x = some i → ¬fits ((t.die t.cur.die).pfx[i])) →
          ∀ l q, t.locateAll [(a + 28, bytesOfNat 4 (r.pfail / 2 * 2 + 1))] = (.ok l, q) → q.writesReady q.cur (l.map (·.1)) 16 = true →
          exec (.pfxPin k g e f) s = .next (q.storeAll l).issued)
        ∧ (∀ i l q, t.pfxNamed x = some i →
          let en := (t.die t.cur.die).pfx[i]
          fits en →
          t.locateAll ((a + BitVec.ofNat 64 (64 + 16 * r.next), extBytes (en.base, 16, r.rowb)) ::
            ({ r with next := r.next + 1, npin := r.npin + 1, cap := r.cap + 16, len := r.len + 16 } : SeqRec).counters a) = (.ok l, q) →
          q.writesReady q.cur (l.map (·.1)) 16 = true →
          let u2 := q.storeAll l
          let u3 := u2.modDie u2.cur.die fun y => { y with pfx := y.pfx.set i.val { en with pin := en.pin + 1 } }
          exec (.pfxPin k g e f) s = .next (u3.modCtx u3.me.task.ctx fun y =>
            let z := { y.blockRef en.base true with listed := u3.listing a en.base (r.sinkFrom r.cap) (some (u3.cur.die, i)) :: y.listed }
            if r.sinkFrom r.cap then z.blockSink en.base true else z).issued))

/-! ## Machine steps of a core and of memory -/

/-- Steps of the current core (R48, R72, R73, R81, R91, R112, R123, R146, R319, R326, R328): the next bundle is dispatched; a trap marker that every group has reached is taken, and poisoned
control data consumed, once the accesses waited for can be performed; walks, faults and collapses act on the translation (that no page with a sink extent collapses: log entry 80); a class path's time advances; banks change mode; a sync word takes an arrival; a pending service of the step's number is performed. -/
def Obligations.CoreStepResults : Prop :=
  ∀ s : State,
    (s.me.canIssue = true → s.phase = .running →
      (s.pipe.mayDispatch = true → exec .bundleDecode s = .next (s.dispatchOne s.cur))
      ∧ (∀ a, s.pipe.engPoison = some a →
          let u := s.modMe Core.recordWaits
          let traps := s.pipe.trap.regions.length ≤ s.pipe.trap.entryDepth
          ((traps → u.entryStuck = false) → (¬traps → u.unwindStuck = false) → exec .containmentUnwind s = .next (u.consumeAsync a))
          ∧ (traps → u.entryStuck = true → exec .containmentUnwind s = .next (u.performAll s.cur))
          ∧ (¬traps → u.unwindStuck = true → exec .containmentUnwind s = .next (u.wakeUnwinds.performAll s.cur)))
      ∧ (∀ d cause slot a, let i := s.pipe.pos 0
          (∀ g, g < 4 → s.pipe.pos g = i) → s.pipe.stream.at i = some d → d.marker = some (cause, slot, a) →
          (s.entryStuck = false → exec .trapEntry s =
            .next ((s.modPipe fun p => { p with ib := ⟨i, none, d.pc, d.q, 0xF, false⟩, wq := none, undo := none }).takeTrap slot 4 cause a false))
          ∧ (s.entryStuck = true → exec .trapEntry s = .next (s.performAll s.cur))))
    ∧ (∀ va : W64, va.extractLsb' 56 8 = 0 → exec (.pageWalk va) s = .next (s.leafFor s.cur va.toNat).2
        ∧ (∀ acc, let l := s.leafFor s.cur va.toNat
          leafFaults l.1 acc = true → exec (.translationFault va acc) s = .next ((l.2.resolveFault s.me.task.ctx va.toNat acc l.1.isSome).getD l.2))
        ∧ (∀ x a n e, s.ctx s.me.task.ctx = some x → s.walk x.root va.toNat = .leaf a n e → ebit e 1 = true → ebit e 3 = true → s.mayCollapse x.id va.toNat n = true →
          exec (.collapseFault va) s = .next (s.collapse x.id va.toNat)))
    ∧ (∀ n r a ret, s.phase ≠ .dusk → s.me.reqs[n]? = some r → r.op = .atomic a ret → a ≠ .xchg → a ≠ .cas →
        let partners := allCores.filterMap fun d => ((s.core d).reqs.find? fun q => s.mergeable s.cur d r q).map fun q => (d, q)
        exec (.flueWaitExpiry n) s = .next (s.performMerged ((s.cur, r) :: partners)))
    ∧ (∀ k : BitVec 2, ∃ t, exec (.logicalTimeAdvance k) s = .next t ∧ t.me.lt = s.me.lt.set k.toNat ((s.me.lt[k.toNat]'(by omega)) + 1) (by omega) ∧ sameBytes s t ∧ sameArch s t s.cur)
    ∧ (∀ b (h : b < 48), let set (m : BankMode) : Out := .next (s.modMe fun k => { k with banks := k.banks.set b m h })
        (s.fw.cfg.bkidle ≠ 0 → (s.me.task.st = .none ∨ s.fw.cfg.bkidle.toNat ≤ (s.pipe.cyc - s.me.bankUse.getD b 0).toNat) → s.me.converting < 4 → s.me.banks[b] = .active →
          exec (.bankIdleExpiry b) s = set (.entering 0))
        ∧ (∀ r, s.me.banks[b] = .entering r → exec (.bankEntryComplete b) s = set .retain) ∧ (∀ r, s.me.banks[b] = .exiting r → exec (.bankExitComplete b) s =
            .next (s.modMe fun k => { k with banks := k.banks.set b .active h }).endOwed))
    ∧ (∀ c off (w : W32), s.hasCore c = true → off % 16 = 0 → off + 16 ≤ 0x600000 → s.phase ≠ .dusk → s.banksReady c off 16 = true → exec (.syncArrival c off w) s = .next (s.syncArrive c off w.toNat 0).2)
    ∧ (∀ v, s.pipe.svc = some v → s.phase ≠ .dusk →
        let done : Out := .next (s.completeSvc s.cur)
        (v.num = 1 → exec .mapreq s = done) ∧ (v.num = 2 → exec .unmapreq s = done) ∧ (v.num = 3 → exec .protreq s = done) ∧ (v.num = 4 → exec .notify s = done) ∧ (v.num = 5 → exec .rascount s = done))

/-- Steps of memory and of the fabric (R78, R79, R86, R135 to R143, R279 to R283, R334): a dirty tier-3 line leaves as two granules with the poison of its words, one of another tier goes to its device;
a granule write makes its bytes durable; a migration copies, switches, performs the held writes and ends; an HBM error is counted or retires its row; a packet goes one hop or is dropped, and a message at its die enters its channel; a link goes down; a channel refills or grows. A copied line of the new frame
holds the old one's bytes; the end of a switch writes the new leaf, logs it with kind 1 on every die and turns the filter to the new frame. (The RAS event numbers are the model's choice of log entry
48, the rows of HBM of 34, the journal's granule of 36.) -/
def Obligations.MemoryStepResults : Prop :=
  ∀ s : State,
    (∀ line, line ∈ s.m.dirty →
      let u := s.writeBack line
      exec (.lineWriteback line) s = .next (if s.phase = .dusk
        then { u with fw := { u.fw with duskLines := u.fw.duskLines + 1, duskPLines := u.fw.duskPLines + (if poisonAt s.m.poi line 128 then 1 else 0) } } else u)
      ∧ line ∉ u.m.dirty
      ∧ u.m.granules = s.m.granules ++ [⟨line, Memory.bytes s.m.mem line 64, poisonedIn s.m.poi line 64⟩, ⟨line + 64, Memory.bytes s.m.mem (line + 64) 64, poisonedIn s.m.poi (line + 64) 64⟩])
    ∧ (∀ line, line ∉ s.m.dirty → s.phase ≠ .dusk → exec (.lineWriteback line) s = .next (s.writeBack line))
    ∧ (128 < s.me.tracker.length → s.phase ≠ .dusk → exec .persistTrackerWriteback s = .next (match s.me.tracker.find? fun l => s.m.dirty.contains l with
        | some l => s.writeBack l | none => s.trackersClean))
    ∧ (∀ n g, s.m.granules[n]? = some g → (s.m.granules.take n).any (fun h => h.addr = g.addr) = false → s.memWf →
        ∃ t, exec (.durableCompletion n) s = .next t ∧ t.m.granules = s.m.granules.eraseIdx n ∧ (∀ l, t.byteAt l = s.byteAt l) ∧ (∀ a, Memory.read t.m.host a = Memory.read s.m.host a)
          ∧ (∀ i (h : i < g.data.length), Memory.read t.m.pmem (g.addr + i) = g.data[i])
          ∧ ∀ a, (∀ i, i < g.data.length → a ≠ g.addr + i) → Memory.read t.m.pmem a = Memory.read s.m.pmem a)
    ∧ (∀ n g, s.m.migs[n]? = some g →
        (s.phase ≠ .dusk →
          let copy (l : List Nat) : Out := .next (State.modMig (l.foldl (fun s i => s.moveLine (g.old + 128 * i) (g.new + 128 * i)) s) n fun g => { g with phase := 2, dirty := [], pass := g.pass + 1 })
          (g.phase = 1 → exec (.migrationCopyPass n) s = copy (List.range (pageBytes g.size.toNat / 128)))
          ∧ (g.phase = 2 → g.pass < 4 → 64 < g.dirty.length → exec (.migrationCopyPass n) s = copy g.dirty)
          ∧ (g.phase = 2 → (g.dirty.length ≤ 64 ∨ 4 ≤ g.pass) → exec (.migrationSwitch n) s = .next ((s.journal g 1).modMig n fun g => { g with phase := 3 }))
          ∧ (g.phase = 3 → exec (.migrationSwitch n) s = .next (s.finishSwitch g).releaseHeld.endOwed))
        ∧ (g.phase = 4 → s.cores.all (fun k => k.applied g.seq) = true → s.underWay g.old (pageBytes g.size.toNat) = false →
          exec (.migrationRedirectEnd n) s = .next (({ s with m := { s.m with migs := s.m.migs.eraseIdx n } } : State).startQueued.retireDone)))
    ∧ (∀ pa, s.backed pa = true → tierOf (s.normPa pa) ≤ 1 →
        let a := s.normPa pa
        let d := s.homeDie a
        let now := s.t.dcyc
        let p : State := { s with m := { s.m with poi := poisonWrite s.m.poi (a / 128 * 128) 128 true } }
        let u := ((s.rasEvent 5 d.val a).countSoft s.me.task.ctx).modDie d fun x => { x with rowErrs := (x.rowErrs.filter fun q => now < q.2 + 86400 * 1250000000) ++ [(s.rowOf a, now)] }
        exec (.hbmReadError pa true) s = .next ((p.rasEvent 6 d.val a).retireRow d (s.rowOf a))
        ∧ exec (.hbmReadError pa false) s = .next (if 3 ≤ (u.die d).rowErrs.countP (fun q => q.1 = s.rowOf a) then u.retireRow d (s.rowOf a) else u)
        ∧ ∀ b, exec (.patrolScrub d [(pa, b)]) s = exec (.hbmReadError pa b) s)
    ∧ (∀ n p, s.link.net[n]? = some p →
        (p.reserved = true → exec (.packetHop n) s = .next ((s.dropPacket n).rasEvent 3 p.atDie.val p.kind.toNat))
        ∧ (p.reserved = false → s.oldGen p = true → exec (.packetHop n) s = .next (s.dropPacket n))
        ∧ (p.reserved = false → s.oldGen p = false → s.phase ≠ .dusk →
          (∀ k r, p.atDie ≠ p.dst.die → s.route p.atDie p.dst.die = some (k :: r) →
            let wrap := !s.linkUp p.atDie k false
            let q := { p with atDie := hopDie p.atDie k, vc := hopVc (wrap || (k :: r) != hops p.atDie p.dst.die [0, 1, 2]) wrap }
            exec (.packetHop n) s = .next { s with link := { s.link with net := s.link.net.set n q } })
          ∧ (p.atDie = p.dst.die → (s.link.net.take n).any (fun q => q.src = p.src && q.dst = p.dst) = false →
            exec (.channelDelivery n) s = .next (((s.dropPacket n).modChan p.dst p.ch fun q => { q with msgs := q.msgs ++ [p.msg] }).retryWaits p.dst))))
    ∧ (∀ d port, (s.hasPort d port = false → exec (.flitCrcFailure d port) s = .next s)
        ∧ (s.hasPort d port = true → (∀ p, s.link.net.find? (fun q => q.atDie = d) = some p → exec (.flitCrcFailure d port) s = .next ((s.countSoft p.ctx).rasEvent 2 d.val port))
          ∧ (s.link.net.find? (fun q => q.atDie = d) = none → exec (.flitCrcFailure d port) s = .next (s.rasEvent 2 d.val port)))
        ∧ (s.hasPort d port = true → port ∉ (s.die d).links → exec (.linkDown d port) s = .next ((s.modDie d fun x => { x with links := x.links ++ [port] }).rasEvent 8 d.val port)))
    ∧ (∀ ch m r, (s.chan s.cur ch).ring = m :: r → (s.chan s.cur ch).msgs.length < (s.chan s.cur ch).cap → s.inFlight s.cur ch = 0 → s.phase ≠ .dusk →
        let u := s.modChan s.cur ch fun q => { q with msgs := q.msgs ++ [m], ring := r }
        exec (.ashpitRefill ch) s = .next ((u.modCtx u.me.task.ctx fun x => { x with quota := x.quota + 64 }).retryWaits u.cur))
    ∧ (∀ d, s.phase ≠ .dusk → s.dieLive d = true → exec (.growCheck d) s = .next (s.fw.ctxs.foldl (fun u x => u.growOne d x) s))
    ∧ (∀ a b, s.memWf →
        let u := s.moveLine a b
        (∀ i, i < 128 → u.byteAt (.pa (b + i)) = s.byteAt (.pa (a + i))) ∧ (∀ l, (∀ i, i < 128 → l ≠ .pa (b + i)) → u.byteAt l = s.byteAt l)
        ∧ (∀ x, Memory.read u.m.host x = Memory.read s.m.host x) ∧ (∀ x, Memory.read u.m.pmem x = Memory.read s.m.pmem x))
    ∧ ∀ g : Migration, g ∈ s.m.migs → g.size.toNat < 3 → tierOf g.new ≠ 3 → tierOf g.old ≠ 3 →
        let t := g.dirty.foldl (fun y l => y.moveLine (g.old + 128 * l) (g.new + 128 * l)) s
        let u := s.finishSwitch g
        (∀ h ∈ u.m.migs, h.old = g.old → h.phase = 4 ∧ h.dirty = [] ∧ h.seq = (u.die 0).seq)
        ∧ (∀ d, ∃ e, (u.die d).log.getLast? = some e ∧ e.kind = 1 ∧ e.ctx = g.ctx ∧ e.size.toNat = g.size.toNat
          ∧ e.page.toNat = g.va.toNat / pageBytes g.size.toNat * pageBytes g.size.toNat / 0x10000 * 0x10000 % 2 ^ 56)
        ∧ ∀ x a z e, t.memWf → t.ctx g.ctx = some x → t.walk x.root g.va.toNat = .leaf a z e →
          let tier := if tierOf g.new = 4 then 0 else tierOf g.new
          Memory.readN u.m.mem (t.normPa a) 8 = ((e &&& ~~~(BitVec.ofNat 64 0x000FFFFFFFFF0310)) ||| BitVec.ofNat 64 (g.new + tier * 256)).toNat
          ∧ ∀ l, (∀ i, i < 8 → l ≠ .pa (t.normPa a + i)) → u.byteAt l = t.byteAt l

/-- Steps of the sequencer and of the engines (R97, R131, R150, R155, R160, R233, R237 to R239, R247, R253, R262): the operation whose turn it is runs a beat, a row, or whole; an engine command that has started does its next
part or ends: a copy, a list once its extents are read, a multicast, an appended row, a halo, a load's units, a contribution to a reduction or its result; a collective pairs, combines (a rank's own contribution,
then what reaches it on its ports, in port order), moves a phase and switches. What one part does to memory it does by the writes of its pieces: each goes to its address, and changes nothing but its
own bytes. -/
def Obligations.SequencerAndEngineStepResults : Prop :=
  ∀ s : State, s.phase ≠ .dusk →
    let c := s.cur
    let q := s.me.mx.queue
    (s.me.sequences = true →
      (∀ i t n mpc f, runnable q (fun o => match o with | .tile _ _ _ _ => true | _ => false) = some i → q[i]? = some (.tile t n mpc f) → exec .tileExecution s = .next (s.stepTile c i t n mpc f))
      ∧ (∀ b both r, q = .zero b both :: r → exec .mzeroExecution s = .next (State.modMx (s.modMembers c fun m => m.zeroBank b both) fun m => { m with queue := m.queue.eraseIdx 0 }))
      ∧ (∀ b r, q = .bank b :: r → exec .mbankExecution s = .next (s.modMx fun m => { m with queue := m.queue.eraseIdx 0 }))
      ∧ (∀ i d, s.me.drainMay d = true → runnable q (fun o => match o with | .drain _ => true | _ => false) = some i → q[i]? = some (.drain d) →
          exec .drainExecution s = .next (s.stepDrain c i d)))
    ∧ (s.me.atQueued = true → s.me.regroups = true → s.formStop c = none → s.pipe.trap.tl = 0 → exec .groupFormation s = .next (s.formGroup c))
    ∧ (∀ (n : BitVec 5) last pair r, (s.me.mx.slot n.toNat).loads = (last, pair) :: r →
        exec (.mopldComplete n) s = .next (s.modMx fun m => (loadSlots n.toNat pair).foldl (fun m i => m.setSlot i ((m.slot i).complete last pair)) m))
    ∧ (∀ k n e t, s.engStart c k n = (some e, t) → (s.me.kslot k).isResh n = false →
        (t.wordReady c e = false → exec (.engineWritePerformed k n) s = .next (t.wakeWord c e))
        ∧ (∀ src dst, e.kind = .xcopy src dst → t.wordReady c e = true → exec (.engineWritePerformed k n) s =
          .next (t.transfer c k e src.walker dst.walker e.total 1 fun i _ bs => vaPut c dst.walker i bs))
        ∧ (∀ src dst dies core rsw, e.kind = .xmcast src dst dies core rsw → e.pos < e.total → t.wordReady c e = true →
          exec (.engineWritePerformed k n) s = .next (t.stepMcast c k e src dst dies core rsw))
        ∧ (∀ ntok rec rowb src p, e.kind = .kvapp ntok rec rowb src (some p) → e.pos < e.total → t.wordReady c e = true →
          exec (.engineWritePerformed k n) s = .next (t.stepApp c k e rec rowb p src))
        ∧ (∀ scat list next rowb first ntok mem, e.kind = .xlist scat list next rowb first ntok mem → t.wordReady c e = true →
          (∀ x, e.extents = some x →
            let l := listWalker x rowb first
            let into := if scat then l else mem.walker
            exec (.engineWritePerformed k n) s = .next (t.transfer c k e (if scat then mem.walker else l) into e.total 1 fun i _ bs => vaPut c into i bs))
          ∧ (e.extents = none → list.toNat % 8 ≠ 0 → exec (.engineWritePerformed k n) s = .next (t.engFail c k e 3))
          ∧ (e.extents = none → list.toNat % 8 = 0 → ∀ bs e1 t1, t.engRead c e list (16 * next) = (.ok (bs, false, e1), t1) →
            let exts := (List.range next).map fun i => (f64 bs (16 * i), fld bs (16 * i + 8) 4, fld bs (16 * i + 12) 4)
            exec (.engineWritePerformed k n) s = .next (if (exts.map fun x => x.2.1).foldl (· + ·) 0 < first + ntok then t1.engFail c k e1 7
              else t1.putCmd c k { e1 with extents := some exts })))
        ∧ (∀ slabs rsw eb d l, e.kind = .xhalo slabs rsw eb → slabAt slabs (e.pos / eb) = some (d, l) → t.wordReady c e = true →
          let base := e.pos / eb * eb
          let dst := elemWalker (l.map (·.2)).toArray base eb
          exec (.engineWritePerformed k n) s = .next (t.transfer c k e (elemWalker (l.map (·.1)).toArray base eb) dst (base + l.length * eb) 1 fun i _ bs =>
            State.targetPut c (CoreId.mk' d c.num) ((((dst i).1).getD 0).toNat % 0x800000) rsw bs))
        ∧ (∀ ctrl reg off nu src btab, e.kind = .mopldT ctrl reg off nu src btab → e.pos < e.total → t.wordReady c e = true →
          (t.slotsBusy c (ctrlSlots ctrl) = true → exec (.engineWritePerformed k n) s = .next t)
          ∧ (t.slotsBusy c (ctrlSlots ctrl) = false →
            let bytes (x : EngCmd) (i z : Nat) : Option (List (Byte × Bool)) := if ctrlFused ctrl reg && x.pos < i then none else x.bytesAt i z
            exec (.engineWritePerformed k n) s = .next (State.engPart c k e ((t.engReads c src.walker e.total e).then (engWrites (fun i => (none, 1024 - i % 1024)) e.total 1 bytes fun i _ bs p =>
              { p with e := p.e.count bs.length, s := p.s.modMxOf c fun m => m.loadUnit ctrl reg off (i / 1024) bs })))))
        ∧ (∀ rtag op nocont len src dst root ranks i x rank, e.kind = .xred rtag op nocont len src dst root ranks → t.wordReady c e = true →
          t.collOf c e.id = some (i, x, rank) → x.status = 0 →
          (∀ r, x.gov = c → x.cmd = e.id → ranked x.partials rank = some r → e.pos < e.total → exec (.engineWritePerformed k n) s = .next (t.stepResult c k e r dst))
          ∧ ((x.gov ≠ c ∨ x.cmd ≠ e.id ∨ ranked x.partials rank = none) → exec (.engineWritePerformed k n) s = .next (t.stepContribute c k e i x rank nocont len src)))
        ∧ (∀ x e' t', t.engDone c e = some (x, e', t') → (x = bankWait → exec (.engineCompletion k n) s = .next t') ∧ (x ≠ bankWait → (x = 0 ∨ x = 4 → t.durWaits e = false) →
          exec (.engineCompletion k n) s = .next (if t.endReady c e then t'.engineEnd c k e' x else t.wakeEnd c e)))
        ∧ (∀ ntok rec rowb src u l0 t1, e.kind = .kvapp ntok rec rowb src none → t.endReady c e = true → t.engLoc c rec 64 .write = (.ok (), u) → t.locate c rec .write = (.ok l0, t1) →
          let (l, t2) := t1.forWrite l0
          let r := SeqRec.ofBytes (t2.homeBytes l 64).1
          (t2.homeBytes l 64).2 = false → (r.win ≠ 0 ∨ r.len + ntok ≤ r.cap) →
          let w := t2.storeAt c.die (t2.core c).task.ctx (max e.lt (t2.times l).wts) l (bytesOfNat 8 (r.len + ntok)) false
          let b := w.2.engBlock c { e with lt := w.1 } 32 (bytesOfNat 8 r.len)
          exec (.kvReservation k n) s = .next (b.2.putCmd c k { b.1 with kind := .kvapp ntok rec rowb src (some r.len) })))
    ∧ (∀ n x j, s.link.colls[n]? = some x → s.job x.job = some j → s.fw.saved.any (fun v => v.job = x.job) = false →
        (∀ rank d, j.dies[rank]? = some d → x.parts.contains rank = true → x.paired.any (fun p => p.1 = rank) = false →
          let h := CoreId.mk' d x.corenum
          (s.core h).task.job = x.job →
          (s.link.colls.take n).any (fun y => y.job = x.job && y.resh == x.resh && (x.resh || (y.rtag == x.rtag && y.gov = x.gov && y.parts.contains rank && !(y.paired.any fun p => p.1 = rank)))) = false →
          ∀ e, ((s.core h).ka.queue ++ (s.core h).kb.queue).filter (fun e => s.answers h x e) = [e] →
          exec (.collectiveCall n rank) s = .next (s.modColl n fun y => { y with paired := y.paired ++ [(rank, h, e.id)] }))
        ∧ (∀ rank op len, x.resh = false → s.rootOf x = some (op, len) → rank < j.dies.length → ranked x.partials rank = none →
          let kids := (redKids (x.parts.map fun r => (j.dies.getD r 0).val) (j.dies.getD rank 0).val x.gov.die.val).map fun y => (j.dies.map (·.val)).idxOf y
          let combined (l : List (List (W32 × Bool))) : Out :=
            let r := (l.drop 1).foldl (fun (a : List (W32 × Bool) × BitVec 2) y => ((redCombine op a.1 y).1, a.2 ||| (redCombine op a.1 y).2)) (l.headD [], 0)
            .next (s.modColl n fun y => { y with partials := y.partials ++ [(rank, r.1)], flags := y.flags ||| r.2 })
          ∀ ps : List (List (W32 × Bool)), (kids.map fun r => ranked x.partials r) = ps.map some →
            (∀ w, x.parts.contains rank = true → ranked x.contribs rank = some w → w.length = len / 4 → exec (.reductionCombine n rank) s = combined (w :: ps))
            ∧ (x.parts.contains rank = false → kids ≠ [] → exec (.reductionCombine n rank) s = combined ps))
        ∧ (x.resh = true → x.status = 0 →
          let t := s.startAll x
          (x.phase < 2 * x.parts.length - 1 → (s.link.colls.take n).any (fun y => y.resh && y.job = x.job) = false → t.allStarted x = true → ∀ om ob dim nm nb, t.reshMaps x = some (om, ob, dim, nm, nb) →
            let send (y : State) (r : Nat) : State := y.reshSend n x r ((r + x.phase) % x.parts.length) (om, ob) (nm, nb) dim
            let r := t.orBanks (if x.phase < x.parts.length then x.parts.foldl send t else t) n
            exec (.xreshPhase n) s = .next (if r.2 then r.1.modColl n fun y => { y with phase := y.phase + 1 } else r.1))
          ∧ (∀ om ob dim nm nb, s.reshMaps x = some (om, ob, dim, nm, nb) →
            (x.phase = 2 * x.parts.length - 1 →
              let r := s.orBanks (x.parts.foldl (fun t r => t.zeroUnreached n x om ob dim nm nb r) s) n
              exec (.xreshSwitch n) s = .next (if r.2 then r.1.modColl n fun y => { y with phase := y.phase + 1 } else r.1))
            ∧ (let cmds := x.parts.filterMap fun r => s.collCmd x r
              2 * x.parts.length - 1 < x.phase → cmds.any (fun y => s.durWaits y.2.2) = false → cmds.all (fun y => s.endReady y.1 y.2.2) = true →
              exec (.xreshSwitch n) s = .next (x.parts.foldl (fun t r => match t.collCmd x r with
                | some (h, k, e) => t.engineEnd h k e (if e.poi then 4 else 0)
                | none => t) (s.setShard x.job (BitVec.ofNat 64 nm) nb))))))
    ∧ (∀ (dst : Walker) (i : Nat) (bs : List (Byte × Bool)) (p : Part), 0 < bs.length →
        ((dst i).1 = none → vaPut c dst i bs p = p)
        ∧ (∀ (a : W64) (t u : State) (l : Loc), (dst i).1 = some a → a.toNat % 64 + bs.length ≤ 64 → p.s.engLoc c a bs.length .write = (.ok (), t) → t.locate c a .write = (.ok l, u) →
          u.memWf → u.m.migs = [] → u.homeUp l = true → u.unshared l →
          let r := vaPut c dst i bs p
          r.status = 0 ∧ r.e.counted = (if p.e.flg.getLsbD 1 then p.e.counted else p.e.counted + bs.length)
          ∧ (∀ j (h : j < bs.length), r.s.byteAt (l.plus j) = (bs[j]).1) ∧ ∀ x, (∀ j, j < bs.length → x ≠ l.plus j) → r.s.byteAt x = u.byteAt x)
        ∧ ∀ (h : CoreId) (off : Nat), p.s.sameCtx c h = true → p.s.targetReady h off bs.length 0 = true → p.s.memWf → p.s.homeUp (.sp h off) = true →
          let r := State.targetPut c h off 0 bs p
          r.status = 0 ∧ (∀ j (g : j < bs.length), r.s.byteAt (.sp h (off + j)) = (bs[j]).1) ∧ ∀ x, (∀ j, j < bs.length → x ≠ .sp h (off + j)) → r.s.byteAt x = p.s.byteAt x)
    ∧ (∀ (kept : State → Prop) (dst : Walker) (total copies : Nat) (bytes : EngCmd → Nat → Nat → Option (List (Byte × Bool))) (put : Nat → Nat → List (Byte × Bool) → Part → Part) (p : Part),
        (∀ i d z e bs y, i < total → d < copies → bytes e i z = some bs → kept y.s → kept (put i d bs y).s) → kept p.s → kept (engWrites dst total copies bytes put p).s)
    ∧ ∀ (k : KUnit) (old : EngCmd) (p : Part), p.e.sw = 0 → p.status = 0 → sameBytes p.s (State.engPart c k old p)

/-! ## Scheduling, kills and dies (R161, R162, R277, R278, R298 to R316, R331 to R333) -/

/-- Placement, load, pre-emption and save, records, cards, the end of a job, kills, and a die that leaves and rejoins: each step takes place where its rule's conditions hold. Where a request
is placed and in what order saved ones arrive is the model's choice (log 40), so is the crew that runs a card set (log 41), which task, PC and CODE a hang or
a card's kill reports (log 38), the event a kill leaves in the ring (log 49), and that a core's rejoin counts die cycles (log 73). Pre-emption stops every task that runs or waits, or gives a load up: with a
message on its way to a loading core it does neither yet. -/
def Obligations.SchedulerStepResults : Prop :=
  (∀ (s : State) (job : Nat) (j : Job), s.job job = some j → s.phase = .running →
    (∀ ox oy oz cluster ds, s.boxFor j ox oy oz = some ds → s.waits j = true → s.unreserved j (ds, cluster) = true → (ds.all fun d => s.clustersFree j d cluster) = true →
      let round : Int := ((if j.lr2.quant = 0 then s.fw.cfg.quant.toNat else j.lr2.quant) * j.lr2.weight : Nat)
      let new : Job := { j with st := .placed, dies := ds, first := 4 * cluster, placedAt := s.fw.nextPlace,
                                deficit := if j.lr.cls = 0 && j.deficit ≤ 0 then j.deficit + round else j.deficit }
      let t := s.modJob job fun _ => new
      let u : State := { t with fw := { t.fw with nextPlace := t.fw.nextPlace + 1 } }
      exec (.spanPlacement job ox oy oz cluster) s = .next (if j.resumed then u.placeSaved new j else u.placeFresh new))
    ∧ (j.st = .placed →
      (∀ rank cluster, j.first = 4 * cluster → exec (.stateLoadComplete job rank cluster) s = .next (s.eachCore ((j.cores.drop (rank * j.lr.crew)).take j.lr.crew) fun _ c t =>
        if (t.core c).task.st == .loading then t.modCore c fun k => { k with task := { k.task with st := .running } } else t))
      ∧ (j.lr.cls = 0 → j.deficit ≤ 0 → exec (.quantumExpiry job) s = .next (if s.bulkWaitsFor job then s.preempt j
          else s.modJob job fun j => { j with deficit := j.deficit + (((if j.lr2.quant = 0 then s.fw.cfg.quant.toNat else j.lr2.quant) * j.lr2.weight : Nat) : Int) }))
      ∧ (s.jobDone j = true → let t := State.eachCore (s.writeDone j j.lr2.doneval) j.cores fun _ c u => u.freeCore c
        exec (.jobCompletion job) s = .next { t with fw := { t.fw with jobs := t.fw.jobs.filter fun k => k.num ≠ job }, link := { t.link with colls := t.link.colls.filter fun q => q.job ≠ job } })
      ∧ (∀ c i again bs lt t b, j.lr2.cards ≠ 0 → (j.cores.take j.lr.crew).contains c = true → s.idle c j = true → j.nextCard c = some (i, again) → s.readVa c 0 j.lr2.cards 64 8 = (.ok (bs, lt), t) →
        let a := BitVec.ofNat 64 (fld bs 0 8 + 32 * i)
        ∀ lt' u, t.readVa c 0 a 32 8 = (.ok (b, lt'), u) → fld b 24 1 % 8 < 5 → fld b 24 4 / 8 = 0 →
        let x := (u.core c).task
        let x' : TaskInfo := { x with st := .running, joinw := 0, card := some i, cardLeft := fld bs (16 + 4 * (fld b 24 1 % 8)) 4 + fld bs 12 4, cardOn := false,
                                      refused := false, engFrom := (u.core c).engSeq, reqFrom := (u.core c).seq, taskId := BitVec.ofNat 32 (65536 * x.spanRank + x.crewRank) }
        let p := j.pipe (BitVec.ofNat 32 (fld bs 40 4)) []
        let p' := { p with sys := { p.sys with pwb := p.sys.pwb.set 0 a, pws := p.sys.pws.set 0 32 } }
        exec (.cardDispatch job c) s = .next (State.modJob (u.modCore c fun k => k.start p' x' j.lt) job fun j => { j with cards := j.cards.set i (.running c again) })))
    ∧ (s.me.task.job = job → j.cores.contains s.cur = true → s.me.task.st ≠ .killed →
      (j.st = .placed → s.mayPreempt j = true → exec .preemption s = .next (s.preempt j))
      ∧ (j.st = .stopping → (j.cores.all fun c => s.quiet c) = true → (j.cores.all fun c => (s.core c).tracker.isEmpty) = true → exec .preemption s = .next (State.modJob
          (s.eachCore (s.coresIn j (· != .none)) fun _ c t => let t := t.applyLog c true
            if (t.core c).task.st == .ended then t else t.modCore c fun k => { k with task := { k.task with st := .saving } }) j.num fun j => { j with st := .saving }))
      ∧ (j.st = .saving → let image (c : CoreId) : SavedTask :=
            ⟨j.num, c, { s.core c with task := { (s.core c).task with st := if (s.core c).task.st == .ended then .ended else .running } }⟩
          let l := s.coresIn j (· != .none)
          let t := s.eachCore l fun _ c t => t.setCore c (t.core c).vacate
          let u : State := { t with fw := { t.fw with saved := t.fw.saved ++ l.map image } }
          let w := u.modJob j.num fun k => { k with st := .saved, resumed := true, arrived := u.fw.nextArrival }
          exec .stateSaveComplete s = .next { w with fw := { w.fw with nextArrival := w.fw.nextArrival + 1 } })
      ∧ (∀ d i r, s.nextRecord s.cur = some (d, i) → s.idle s.cur j = true → (s.core d).deque[i]? = some r →
          let n := j.forks[s.cur.die.val]
          let t := State.modJob (s.modCore d fun k => { k with deque := k.deque.eraseIdx i }) j.num fun j => { j with forks := j.forks.set s.cur.die.val (n + 1) }
          let x : TaskInfo := { s.me.task with st := .running, joinw := r.joinw, card := none, refused := false, taskId := BitVec.ofNat 32 (2 ^ 31 + 65536 * s.me.task.spanRank + n % 65536) }
          let u := t.modCore s.cur fun k => k.start (j.pipe r.entry r.args.toList) x j.lt
          exec .recordTake s = .next ((u.setLt s.cur (ltMerge u.me.lt (ltime (s.core d).lt))).acquirePkg s.cur))
      ∧ (∀ i, s.me.task.card = some i → s.me.task.cardLeft = 0 → s.me.task.cardOn = true → s.me.canIssue = true →
          (∀ c, j.cards[i]? = some (.running c true) → exec .cardDeadlineExpiry s =
            .next (s.killContext s.me.task.ctx 4 0 s.cur (s.heldAt s.cur) 0 (BitVec.ofNat 64 ((s.heldIn s.cur).getD 6))))
          ∧ (∀ c, j.cards[i]? = some (.running c false) → exec .cardDeadlineExpiry s = .next ((s.resetCore s.cur).modJob j.num fun j => { j with cards := j.cards.set i (.replay s.cur) })))))
  ∧ ∀ s : State,
    (s.me.task.rejoin ≠ 0 → s.me.task.rejoin ≤ s.t.dcyc → exec .coreRejoin s = .next (s.modMe fun k => { k with task := { k.task with rejoin := 0 } }))
    ∧ (∀ (id : BitVec 16) (x : Ctx), s.ctx id = some x →
        (0 < s.wdInterval id → s.wdInterval id ≤ x.wd → x.killed = none → s.phase ≠ .dusk → exec (.sinkWatchdogExpiry id) s = .next (s.hangKill id 3))
        ∧ (∀ d, s.link.net.any (fun p => p.ctx == id && p.atDie = d) = false →
          exec (.killDrainAck id d) s = .next (s.modDie d fun x => { x with owed := x.owed.filter fun i => i != id }))
        ∧ (∀ rep, x.killed = some rep → s.phase ≠ .dusk → s.dies.any (fun d => d.live && d.owed.contains id) = false →
          let t := (s.cmdWrite x.report rep).postEvent 2 id (s.killTag id) 0 x.report
          let u := (t.fw.jobs.filter fun j => j.ctx == id && j.lr.stream ≠ 0).foldl (fun y j => y.writeDone j (BitVec.allOnes 64)) t
          exec (.killRelease id) s = .next ((u.releaseCtx id).finishBegun 5 fun c => c.ctx == id)))
    ∧ (∀ d : DieId, d ∈ s.link.detours → s.phase ≠ .dusk →
        ((s.die d).live = true → s.ctxsOn d = [] → s.link.net.any (fun p => p.atDie = d) = false →
          exec (.dieRoutesDrained d) s = .next ((s.resetDie d).finishBegun 0x15 fun c => c.args[0].toNat = d.val))
        ∧ ((s.die d).live = false → (s.die d).isolated = false → d.val < s.pkgDies →
          let t := (s.fillReplicas d).modDie d fun x => { x with live := true, timeBase := s.maxLt + 1 + s.fw.cfg.leaselen.toNat }
          exec (.dieRejoin d) s = .next (({ t with link := { t.link with detours := t.link.detours.filter (· ≠ d) } } : State).finishBegun 0x14 fun c => c.args[0].toNat = d.val)))
    ∧ ∀ j : Job, s.job j.num = some j →
        let u := s.preempt j
        let loading := s.coresIn j (· == .loading)
        (s.link.net.any (fun p => loading.contains p.src || loading.contains p.dst) = true → u = s)
        ∧ (s.link.net.any (fun p => loading.contains p.src || loading.contains p.dst) = false →
          (∀ c, c ∉ j.cores → u.core c = s.core c) ∧ (loading = [] → sameBytes s u)
          ∧ (loading = [] ∨ (∃ c ∈ j.cores, (s.core c).task.st ≠ .loading ∧ (s.core c).task.st ≠ .ended) → (∀ k, u.job j.num = some k → k.st = .stopping)
            ∧ ∀ c ∈ j.cores, ((s.core c).task.st = .running ∨ (s.core c).task.st = .waiting) → (u.core c).task.st = .stopping ∧ (u.core c).sp = (s.core c).sp ∧ (u.core c).reqs = (s.core c).reqs
              ∧ (u.core c).pipe.regs = (s.core c).pipe.regs ∧ ∀ w ∈ (u.core c).pipe.waits, w.pos = none)
          ∧ (loading ≠ [] → (∀ c ∈ j.cores, (s.core c).task.st = .loading ∨ (s.core c).task.st = .ended) → ∀ k, u.job j.num = some k → k.st = .queued))

/-! ## The platform (R105, R270 to R275, R286 to R291, R335 to R349) -/

/-- The clock, ingest and time port, lockstep and the damper, power, dusk, bring-up, the host's accesses and queues, and SPDM. The CRC-16 of a time-of-day frame is
presumed (log entry 42); that a host's store drops the dies' copies, the RAS event numbers 9 and 10, and the form of GET_MEASUREMENTS' signature are the model's choices of log entries 43, 48 and 72. -/
def Obligations.PlatformStepResults : Prop :=
  (∀ s : State,
    (∀ ch : BitVec 2, (s.tick ch).en = true → (s.tick ch).at (s.tick ch).next ≤ s.nowNs →
      exec (.tickRelease ch) s =
        .next ((({ s with t := { s.t with ticks := s.t.ticks.set ch.toNat { s.tick ch with last := some (s.tick ch).next } (by omega) } } : State).tickArrivals s).retryAll))
    ∧ (∀ q, exec (.stepDeadline q) s = .next s.retryAll)
    ∧ (∀ (q : BitVec 4) (x : Ingest), s.ingest q.toNat = some x → s.phase = .running →
        let cons := Memory.readN s.m.mem (x.ring + 8) 8
        let d := Memory.bytes s.m.mem (x.ring + 64 + 64 * (cons % 2 ^ x.k)) 64
        let n := (s.tick x.ch).stepOf (fld d 0 6 * 1000000000 + fld d 8 4)
        Memory.readN s.m.mem x.ring 8 ≠ cons →
        ((n < 0 ∨ 1000000000 ≤ fld d 8 4) → exec (.ingestDescriptor q) s = .next (s.consume1 x.ring (some 20)))
        ∧ (∀ c : Nat, (s.tick x.ch).last = some c → 0 ≤ n → fld d 8 4 < 1000000000 →
          ((c : Int) < n → exec (.ingestDescriptor q) s = .next s)
          ∧ ((x.wi : Int) ≤ c - n → n ≤ c → exec (.ingestDescriptor q) s = .next (s.consume1 x.ring (some 20)))
          ∧ (n ≤ c → (c : Int) - n < x.wi →
            let old := s.slot x (n.toNat % x.wi)
            ((slotValid old = true ∧ slotStep old = n.toNat) → exec (.ingestDescriptor q) s = .next (s.consume1 x.ring (some 24)))
            ∧ (¬ (slotValid old = true ∧ slotStep old = n.toNat) →
              let late := s.deadline x.ch n.toNat
              let t := (s.storeAt (s.homeDie x.win) 0 0 (.pa (x.win + 64 * (n.toNat % x.wi))) (slotBytes d n.toNat late) false).2
              let u := t.consume1 x.ring (if late then some 16 else none)
              exec (.ingestDescriptor q) s = .next (State.retryAll (if late then u.setLate q.toNat x.ch else u))))))
    ∧ (s.t.timePort = false → exec .ppsEdge s = .next { s with t := { s.t with frame := none } })
    ∧ (s.t.timePort = true →
        (∀ sec, s.t.frame = some sec →
          let off : Int := (sec * 5000000000 : Nat) - ((s.t.secs * 5000000000 + s.t.fifths : Nat) : Int)
          let t := { s.t with frame := none, locked := true, holdover := false, sinceEdge := 0 }
          exec .ppsEdge s = .next { s with t := if 5000 < off.natAbs then { t with secs := sec, fifths := 0, slew := 0 } else { t with slew := off } })
        ∧ (s.t.holdover = false → 2500000000 ≤ s.t.sinceEdge → exec .timeHoldover s = .next (({ s with t := { s.t with holdover := true, slew := 0 } } : State).rasEvent 9 0 0)))
    ∧ (∀ x : BitVec 96, let b := bytesOfNat 12 x.toNat
        let ok := fld b 0 1 = 0xA5 ∧ fld b 1 1 = 0x5A ∧ fld b 8 1 % 2 = 1 ∧ fld b 9 1 = 0 ∧ fld b 10 2 = (crc16 (b.take 10)).toNat
        exec (.todFrame x) s = .next { s with t := { s.t with frame := if ok then some (fld b 2 6) else none } })
    ∧ (∀ d (p : Fin 2), d.val < s.pkgDies → (s.fw.unprotected = false → (s.die d).pairs[p] = .inService → exec (.lockstepMismatch d p) s = .next (s.setPair d p .halted))
        ∧ ((s.die d).pairs[p] = .halted → ∀ pass, let t := (s.setPair d p (if pass then .inService else .out)).rasEvent 10 d.val p.val
          exec (.lockstepSelftestDone d p pass) s = .next (if (t.die d).pairs.all fun q => q == .out then t.beginReset d true else t)))
    ∧ (∀ (i : Fin 64) ppm, i.val < 8 * s.pkgDies → ∃ t, exec (.damperMeasure i ppm) s = .next t ∧ t.fw.damper = s.fw.damper.set i.val (max s.fw.damper[i] ((ppm - 20000 + 4999) / 5000)) i.isLt
        ∧ t.fw.flash.damper = t.fw.damper ∧ (10 < t.fw.damper[i] → i.val ∈ t.fw.clusterOut) ∧ t.cores = s.cores ∧ t.m = s.m)
    ∧ exec .powerLimitThrottle s = .next { s with fw := { s.fw with throttle := min (s.fw.throttle + 1) 50 } }
    ∧ exec .powerLimitRestore s = .next { s with fw := { s.fw with throttle := s.fw.throttle - 1 } }
    ∧ exec .railOutOfRange s = .next (s.startDusk 1) ∧ exec .pwrfail s = .next (s.startDusk 1)
    ∧ (∀ port : Fin 2, (s.product ≠ .hv1x ∨ port = 0) → exec (.gpf port) s = .next ((s.startDusk 0).finishBegun 0x19 fun _ => s.m.tier3 = 0))
    ∧ (s.phase = .running → ∀ c, (s.startDusk c).phase = .dusk ∧ (s.startDusk c).fw.duskCause = c ∧ sameBytes s (s.startDusk c) ∧ ∀ i, sameArch s (s.startDusk c) i)
    ∧ (s.phase = .dusk → s.fw.duskDone = false →
        let done (late : Option DieId) : State :=
          let t := State.modDies (s.duskGranule s.duskBase (s.duskRecord late)) fun d => { d with duskOk := true }
          ({ t with fw := { t.fw with duskDone := true } } : State).finishBegun 0x19 fun _ => true
        ((s.pkgDieList.all fun d => !(s.die d).live || s.dieClean d) = true → exec .duskRecord s = .next (done none))
        ∧ (∀ d, s.dieLive d = true → s.dieClean d = false → exec (.duskOverrun d) s = .next (done (some d)) ∧ (done (some d)).fw.duskDone = true))
    ∧ (∀ b : BringUpInputs, ∃ t, exec (.bringUp b) s = .next t ∧ t.product = s.product ∧ t.m.host = s.m.host ∧ t.cores = State.reset.cores ∧ t.fw.cfg = ConfigRec.on s.product
        ∧ (if b.paramOk && paramVerifies then t.phase = .running ∧ t.m.tier3 = backed3 b ∧ t.fw.boot = (s.fw.flash.verified b).boot + 1 ∧ t.fw.flash.boot = t.fw.boot
          else t.phase = .recovery ∧ t.m.tier3 = 0 ∧ t.fw.flash = s.fw.flash.verified b))
    ∧ (∀ pa (data : List Byte), data ≠ [] → pa < 2 ^ 63 → s.hdm pa data.length = true → s.phase ≠ .dusk → exec (.hostHdmStore pa data) s =
        .next (State.fwWrite ((lineParts pa data.length).foldl (fun y q => y.dropCopies (y.normPa q.2.1 / 128 * 128) 128) s) pa data))
    ∧ (∀ pa n, 0 < n → s.hdm pa n = true → exec (.hostHdmLoad pa n) s = .next { s with link := { s.link with response := s.fwRead pa n } })
    ∧ (∀ (q : BitVec 2) (x : W64), exec (.queueTailWrite q x) s = .next (State.poll (s.hostWrite ((s.queue q).qtail.toNat % 2 ^ 52) (bytesOfNat 8 x.toNat)))
        ∧ (∀ en, exec (.queueEnable q en) s = .next (State.poll (s.modQueue q fun k => { k with en := en && (4 ≤ (s.queue q).qlog.toNat && (s.queue q).qlog.toNat ≤ 12 && s.phase != .bringUp) })))
        ∧ ((s.queue q).en = true → ∀ off, exec (.queueRegisterWrite q off x) s = .next s)
        ∧ ((s.queue q).en = false → exec (.queueRegisterWrite q 0 x) s = .next (s.modQueue q fun k => { k with qbase := x &&& ~~~0xFFF })
          ∧ exec (.queueRegisterWrite q 8 x) s = .next (s.modQueue q fun k => { k with qtail := x &&& ~~~0x3F })
          ∧ exec (.queueRegisterWrite q 16 x) s = .next (s.modQueue q fun k => { k with qlog := x.extractLsb' 1 4 }))))
  ∧ ∀ s : State,
    let said (kind next : Nat) (t : State) : Prop := t.link.spdm = next ∧ t.link.response.length = Config.recordLen 2 kind ∧ t.cores = s.cores ∧ t.m = s.m ∧ t.fw = s.fw
    (∃ t, exec .getVersion s = .next t ∧ said 0 1 t) ∧ (1 ≤ s.link.spdm → ∃ t, exec .getCapabilities s = .next t ∧ said 1 2 t)
    ∧ (2 ≤ s.link.spdm → ∃ t, exec .negotiateAlgorithms s = .next t ∧ said 2 3 t)
    ∧ (3 ≤ s.link.spdm → (∃ t, exec .getDigests s = .next t ∧ said 3 3 t) ∧ (∃ t, exec .getCertificate s = .next t ∧ said 4 3 t)
        ∧ (∀ x, ∃ t b, exec (.challenge x) s = .next t ∧ t.link.spdm = 3 ∧ t.link.response = signedResponse b x.toNat ∧ t.cores = s.cores ∧ t.m = s.m ∧ t.fw = s.fw)
        ∧ ∀ i x, let b := (measured i).flatMap s.measure ++ bytesOfNat 32 x.toNat
          exec (.getMeasurements i x) s = .next { s with link := { s.link with spdm := 3, response := b ++ pssSign Config.identityKey b } })
    ∧ exec .spdmSessionMessage s = .next { s with link := { s.link with response := [0x13, 0x7F, 0x07, 0x00] } }

/-! ## Commands of the host (R14, R77 to R80, R161, R260, R264, R270 to R273, R286, R310, R331, R340 to R346) -/

/-- Every command of Table 15.5, ready to run with its reserved fields 0 (`State.runs`): where its rule's conditions hold it has its effect and ends with status 0 and its RESULT (a free value where no rule states one), or is
marked begun and ends later, or waits where memory it takes is not yet released (R84); status 5 for a REPLICATE whose places are taken is the model's choice (log 44); CONTEXT.KILL, STREAM.CREATE, LAUNCH and REPLICATE with a CTX that names no context end with status 3, CONFIG beside a context
or of an invalid record with 4 or 2, SETTIME under the time port and TICK.CFG of a channel above 3 with 4 and 3, DIE.RESET and DIE.ISOLATE of a die outside the partition with 6, a buffer outside memory with its address's status. INGEST.CFG's status 5 and the place
of its window (log entry 74), what it zeroes and the limits of a configuration (57), what RAS.QUERY and RETIRE.QUERY list and clear (45), and the order of the parts that ATTEST and IDENT sign or
return (14) are the model's choices. -/
def Obligations.HostCommandResults : Prop :=
  ∀ (s : State) (n : Nat) (x : Cmd),
    let ends (o : Out) (t : State) (status : Nat) (r : Option W64) : Prop := o = .next (t.finishCmd x status r)
    let begins (o : Out) (t : State) : Prop := o = .next (t.markBegun x)
    let stored (o : Out) (t : State) (bs : List Byte) (r : Option W64) : Prop :=
      let k := min bs.length (x.arg 1)
      (t.addrStatus x.args[0] k = 0 → ends o (t.cmdWrite x.args[0] (bs.take k)) 0 (if x.arg 1 < bs.length then some (BitVec.ofNat 64 bs.length) else r))
      ∧ (t.addrStatus x.args[0] k ≠ 0 → ends o s (t.addrStatus x.args[0] k) none)
    (s.runs n 0x01 [0, 1] x = true → stored (exec (.ident n) s) s.drawFree.2 (s.drawFree.2.identHead s.drawFree.1 ++ bytesOfNat 8 s.m.tier2 ++ bytesOfNat 8 s.m.tier3
      ++ (List.range 4).flatMap fun t => bytesOfNat 4 (Config.leastLatmax t).toNat) none)
    ∧ (s.runs n 0x02 [0, 1, 2] x = true → stored (exec (.attest n) s) s (s.measurement 255 (x.arg 2)) none)
    ∧ (s.runs n 0x03 [0] x = true → s.addrStatus x.args[0] 64 = 0 →
        let b := s.cmdRead x.args[0] 64
        (s.configValid b = false → ends (exec (.configure n) s) s 2 none) ∧ (s.configValid b = true → s.fw.ctxs ≠ [] → ends (exec (.configure n) s) s 4 none)
        ∧ (s.configValid b = true → s.fw.ctxs = [] → ends (exec (.configure n) s) ({ s with fw := { s.fw with cfg := ConfigRec.ofBytes b } } : State).reframe 0 none))
    ∧ (s.runs n 0x04 [0, 1, 2, 3, 4] x = true → x.arg 0 % 0x2000 = 0 → x.arg 1 / 2 % 2 ^ 31 = 0 → x.arg 2 % 128 = 0 → x.arg 3 % 0x10000 = 0 → x.arg 4 % 0x10000 = 0 → tierOf (x.arg 3) ≤ 1 → (x.arg 4 = 0 ∨ s.backedRange (x.arg 3) (x.arg 4) = true) → s.rangeOk (x.arg 0) 0x2000 = true →
        tierOf (s.normPa (x.arg 0)) ≤ 1 → s.addrStatus x.args[2] 128 = 0 → ∀ id t, s.freeId (fun i => s.fw.ctxs.any fun c => c.id.toNat = i) = (some id, t) →
        ends (exec (.contextCreate n) s) { t with fw := { t.fw with ctxs := t.fw.ctxs ++ [Ctx.create id x] } } 0 (some (BitVec.ofNat 64 id)))
    ∧ (s.ctx x.ctx = none → (s.runs n 0x05 [] x = true → ends (exec (.contextKill n) s) s 3 none) ∧ (s.runs n 0x0D [] x = true → ends (exec (.streamCreate n) s) s 3 none)
        ∧ (s.runs n 0x0C [0] x = true → ends (exec (.launchCommand n) s) s 3 none) ∧ (s.runs n 0x0A [0] x = true → ends (exec (.replicate n) s) s 3 none))
    ∧ (∀ c, s.ctx x.ctx = some c →
        (s.runs n 0x05 [] x = true → begins (exec (.contextKill n) s) (s.plainKill c.id 7))
        ∧ (s.runs n 0x0D [] x = true → ∀ id t, s.freeId (fun i => s.fw.streams.any fun q => q.1 = i) = (some id, t) →
          ends (exec (.streamCreate n) s) { t with fw := { t.fw with streams := t.fw.streams ++ [(id, c.id)] } } 0 (some (BitVec.ofNat 64 id)))
        ∧ (s.runs n 0x0E [0] x = true → (s.fw.streams.any fun q => q.1 = x.arg 0 && q.2 == c.id) = true → (s.fw.jobs.any fun j => j.ctx == c.id && j.lr.stream = x.arg 0) = false →
          ends (exec (.streamDestroy n) s) { s with fw := { s.fw with streams := s.fw.streams.filter (fun q => q.1 ≠ x.arg 0 || q.2 != c.id), streamLt := s.fw.streamLt.filter fun q => q.1 ≠ x.arg 0 } } 0 none)
        ∧ (s.runs n 0x0C [0] x = true → x.arg 0 % 64 = 0 → s.addrStatus x.args[0] 256 = 0 →
          let b := s.cmdRead x.args[0] 256
          let l := Launch.ofBytes b
          launchValid b = true → (l.stream = 0 ∨ (s.fw.streams.any fun q => q.1 = l.stream && q.2 == c.id) = true) → s.boxFits l = true → s.launchQueue c.id < 64 →
          ends (exec (.launchCommand n) s) (s.queueJob c.id b 0).2 0 (some (BitVec.ofNat 64 (s.queueJob c.id b 0).1)))
        ∧ (s.runs n 0x06 [0, 1, 2, 3] x = true →
          let va := x.arg 0
          let pa := x.arg 1
          let bytes := x.arg 2
          let w := x.args[3]
          let size := (w.extractLsb' 17 2).toNat
          let p := pageBytes size
          let old := s.leaves c va (va + bytes)
          let cut := c.lazies.flatMap fun l => l.cut va (va + bytes)
          size ≤ 2 → w.extractLsb' 11 5 = 0 → w.extractLsb' 19 45 = 0 → w.getLsbD 0 = true → w.getLsbD 7 = true → w.getLsbD 4 = false → w.getLsbD 3 = false → va % p = 0 → bytes % p = 0 → bytes ≠ 0 →
          va + bytes ≤ 2 ^ 56 → pa % p = 0 → pa + bytes ≤ 2 ^ 52 → s.rangeOk pa bytes = true → ((List.range (bytes / p)).all fun i => !s.leafBad (mapLeaf (pa + i * p) w) size) = true →
          (old.all fun q => q.2.2.1 = size && !ebit q.2.2.2 4 && !ebit q.2.2.2 3) = true → c.meetsSink va (va + bytes) = false →
          (s.pendingRelease pa bytes = true → exec (.mapPages n) s = .next s) ∧ (s.pendingRelease pa bytes = false →
          let s' := s.settleMigs c.id va (va + bytes)
          (w.getLsbD 16 = true → ends (exec (.mapPages n) s) (State.modCtx (State.forget (old.foldl (fun t q => t.clearLeaf c.id q) s') c.id va (va + bytes)) c.id fun c =>
            { c with lazies := ⟨BitVec.ofNat 64 va, pa, bytes, w⟩ :: cut }) 0 none)
          ∧ (w.getLsbD 16 = false →
            let t := (List.range (bytes / p)).foldl (fun t i => t.installLeaf c.root (va + i * p) size (mapLeaf (pa + i * p) w)) s'
            let t := old.foldl (fun t q => t.releaseLeaf c.id q) t
            ends (exec (.mapPages n) s) ((t.forget c.id va (va + bytes)).modCtx c.id fun c => { c with lazies := cut }) 0 none)))
        ∧ (let lo := x.arg 0
          let hi := x.arg 0 + x.arg 1
          lo < hi → hi ≤ 2 ^ 56 → s.wholePages c lo hi = true →
          let t := s.settleMigs c.id lo hi
          (s.runs n 0x07 [0, 1] x = true → c.meetsSink lo hi = false → ends (exec (.unmap n) s)
            ((((t.leaves c lo hi).foldl (fun t q => t.clearLeaf c.id q) t).forget c.id lo hi).modCtx c.id fun c => { c with lazies := c.lazies.flatMap fun l => l.cut lo hi }) 0 none)
          ∧ (s.runs n 0x08 [0, 1, 2] x = true → x.arg 2 < 4 → ends (exec (.protect n) s) (((t.leaves c lo hi).foldl (fun t q => (t.writeLeaf q.1 q.2.2.1 (setPerm q.2.2.2 x.args[2])).appendLog q.2.1 q.2.2.1 0 c.id) t).modCtx c.id fun c =>
              { c with lazies := c.lazies.flatMap fun l => l.cut lo hi ++ (l.inside lo hi).map fun k => k.setPerm x.args[2] }) 0 none))
        ∧ (∀ a va size e, s.leafAt c (x.arg 0) = some (a, va, size, e) →
          (s.runs n 0x09 [0, 1] x = true → x.begun = false → x.arg 1 % pageBytes size = 0 → s.rangeOk (x.arg 1) (pageBytes size) = true → size ≠ 2 → ebit e 3 = false → ebit e 4 = false →
            s.migrating c.id va 5 = false → ebit e 5 = decide (tierOf (x.arg 1) = 3) → c.meetsSink va (va + pageBytes size) = false →
            (s.pendingRelease (x.arg 1) (pageBytes size) = true → exec (.migrate n) s = .next s)
            ∧ (s.pendingRelease (x.arg 1) (pageBytes size) = false → begins (exec (.migrate n) s)
              (s.startMigration { ctx := c.id, va := BitVec.ofNat 64 va, size := BitVec.ofNat 2 size, old := leafFrame e, new := x.arg 1, phase := 1, dirty := [], slot := 0, pass := 0, seq := 0 })))
          ∧ (s.runs n 0x0A [0] x = true → size ≠ 2 → tierOf (leafFrame e) = 0 → ebit e 4 = false → s.migrating c.id va 5 = false →
            let pa := s.normPa (leafFrame e)
            let dst := s.pkgDieList.filter fun d => s.dieLive d && d ≠ s.homeDie pa
            let at0 (d : DieId) : Nat := d.val * 0x2000000000 + pa % 0x2000000000
            let free := dst.all fun d => s.assignable (at0 d) (pageBytes size) && !s.inUse (at0 d) (pageBytes size)
            let t := dst.foldl (fun t d => (List.range (pageBytes size / 128)).foldl (fun t i => t.copyLine (pa + 128 * i) (at0 d + 128 * i)) t) s
            let u : State := { t with fw := { t.fw with replicas := ⟨c.id, va, size, pa⟩ :: t.fw.replicas.filter fun q => !(q.ctx == c.id && q.va = va) } }
            (ebit e 3 = true ∨ free = true → ends (exec (.replicate n) s) (u.writeLeaf a size (e ||| 8)) 0 none)
            ∧ (ebit e 3 = false → free = false → ends (exec (.replicate n) s) s 5 none)))
        ∧ (∀ a va size e, s.leafAt c (x.arg 2) = some (a, va, size, e) → s.runs n 0x0B [0, 1, 2] x = true → ebit e 6 = true →
          let r := pageBytes size / 0x10000
          let at0 (d : DieId) : Nat := s.leafPa d e size va / 0x10000
          let count (d : DieId) (j : Nat) : Nat := match (s.die d).heat.find? fun q => q.1 = at0 d + j with | some q => q.2.toNat | none => 0
          stored (exec (.heatRead n) s) (s.pkgDieList.foldl (fun t d => t.modDie d fun y => { y with heat := y.heat.filter fun q => q.1 < at0 d || at0 d + r ≤ q.1 }) s)
            (s.pkgDieList.flatMap fun d => (List.range r).flatMap fun j => bytesOfNat 2 (count d j)) none)
        ∧ (s.runs n 0x12 [0, 1, 2, 3] x = true → ∀ h : x.arg 0 < 4, x.arg 2 ≤ 20 → 1 ≤ x.arg 3 → x.arg 3 ≤ 1048576 → x.arg 1 + 16 * 2 ^ x.arg 2 * x.arg 3 ≤ 2 ^ 56 →
          (∀ p, c.pools[x.arg 0] = some p → p.blocks = []) →
          ends (exec (.kvpoolCfg n) s) (s.modCtx c.id fun c => { c with pools := c.pools.set (x.arg 0) (some ⟨BitVec.ofNat 64 (x.arg 1), x.arg 2, x.arg 3, []⟩) h }) 0 none)
        ∧ (s.runs n 0x13 [0, 1] x = true → x.arg 1 ≤ 64 → ends (exec (.pfxCfg n) s) (s.modCtx c.id fun c => { c with seed := x.args[0], pfxQuota := x.arg 1 }) 0 none))
    ∧ (x.arg 0 = 0 → s.runs n 0x0F [0, 1, 2] x = true → x.arg 1 < 2 ^ 48 → x.arg 2 < 1000000000 →
        (s.t.timePort = false → ends (exec (.settimeStep n) s) { s with t := { s.t with secs := x.arg 1, fifths := 5 * x.arg 2, slew := 0 } } 0 none)
        ∧ (s.t.timePort = true → ends (exec (.settimeStep n) s) s 4 none))
    ∧ (x.arg 0 = 1 → s.runs n 0x0F [0, 1] x = true → s.t.timePort = false →
        let v : Int := (s.nowNs : Int) + x.args[1].toInt
        0 ≤ v → v < 2 ^ 48 * 1000000000 → ends (exec (.settimeAdd n) s)
          { s with t := { s.t with secs := v.toNat / 1000000000, fifths := 5 * (v.toNat % 1000000000) + s.t.fifths % 5, slew := 0 } } 0 none)
    ∧ (x.arg 0 = 2 → s.runs n 0x0F [0, 1] x = true → x.arg 1 < 2 → ends (exec (.settimeSource n) s)
        { s with t := { s.t with timePort := x.arg 1 = 1, locked := false, holdover := false, sinceEdge := 0, slew := 0, slewCyc := 0 } } 0 none)
    ∧ (s.runs n 0x10 [0, 1, 2, 3, 4] x = true → 1000 ≤ x.arg 1 → x.arg 1 ≤ 1000000000 → x.arg 2 < 2 ^ 48 → x.arg 3 < 1000000000 → x.arg 4 % 2 ^ 32 < x.arg 1 → x.arg 4 < 2 ^ 33 →
        let ch := BitVec.ofNat 2 (x.arg 0)
        let t := s.tick ch
        let phase := x.arg 2 * 1000000000 + x.arg 3
        let y : TickCh := ⟨x.arg 1, phase, x.arg 4 % 2 ^ 32, x.args[4].getLsbD 32, if t.period = x.arg 1 && t.phase = phase then t.last else none, true⟩
        (4 ≤ x.arg 0 → ends (exec (.tickCfg n) s) s 3 none)
        ∧ (x.arg 0 < 4 → ends (exec (.tickCfg n) s) (({ s with t := { s.t with ticks := s.t.ticks.set ch.toNat y (by omega) } } : State).retryAll) 0 none))
    ∧ (s.runs n 0x11 [0, 1, 2] x = true →
        let a := x.arg 2
        let k := a % 32
        let wi := a / 2 ^ 8 % 2 ^ 13
        let die := a / 2 ^ 24 % 16
        let ch := BitVec.ofNat 2 (a / 2 ^ 5)
        a < 2 ^ 28 → a / 2 ^ 7 % 2 = 0 → a / 2 ^ 21 % 8 = 0 → 4 ≤ k → k ≤ 16 → 1 ≤ wi → wi ≤ 4096 → x.arg 1 < 2 ^ 52 → x.arg 0 < 16 → (s.tick ch).conf = true → die < 8 → s.inPart (dieOf die) = true →
        s.hdm (x.arg 1) (64 + 64 * 2 ^ k) = true → (∀ y, s.ingest (x.arg 0) = some y → Memory.readN s.m.mem y.ring 8 = Memory.readN s.m.mem (y.ring + 8) 8) →
        let ring := s.normPa (x.arg 1)
        let u : State := { s with t := { s.t with ingest := s.t.ingest.setIfInBounds (x.arg 0) (some ⟨ring, k, ch, wi, 2 ^ 52⟩) } }
        (∀ w, u.freeWindow (dieOf die) = some w →
          let t := (u.zeroRange w (64 * wi)).fwWrite ring (List.replicate 64 0)
          ends (exec (.ingestCfg n) s) { t with t := { t.t with ingest := t.t.ingest.setIfInBounds (x.arg 0) (some ⟨ring, k, ch, wi, w⟩) } } 0 none)
        ∧ (u.freeWindow (dieOf die) = none → ends (exec (.ingestCfg n) s) s 5 none))
    ∧ (∀ iso : Bool, x.begun = false → s.runs n (if iso then 0x15 else 0x14) [0] x = true →
        let o := if iso then exec (.dieIsolate n) s else exec (.dieReset n) s
        (¬ (x.arg 0 < 8 ∧ s.inPart (dieOf (x.arg 0)) = true) → ends o s 6 none)
        ∧ (x.arg 0 < 8 → s.inPart (dieOf (x.arg 0)) = true → (s.die (dieOf (x.arg 0))).live = true → (s.die (dieOf (x.arg 0))).isolated = false → begins o (s.beginReset (dieOf (x.arg 0)) iso)))
    ∧ (s.runs n 0x16 [0, 1] x = true →
        let r := s.freeBytes (32 * s.fw.ras.length)
        stored (exec (.rasQuery n) s) { r.2 with fw := { r.2.fw with ras := r.2.fw.ras.drop (x.arg 1 / 32) } } r.1 (some (BitVec.ofNat 64 s.fw.ras.length)))
    ∧ (s.runs n 0x17 [0, 1] x = true → stored (exec (.retireQuery n) s) s s.fw.flash.rowBytes none)
    ∧ (s.runs n 0x18 [] x = true →
        (s.m.tier3 = 0 → ends (exec (.durableFlush n) s) s 0 none)
        ∧ (s.m.tier3 ≠ 0 → x.begun = false → begins (exec (.durableFlush n) s) (s.m.dirty.foldl (fun t l => t.writeBack l) s))
        ∧ (s.m.tier3 ≠ 0 → x.begun = true → s.m.granules = [] → ends (exec (.durableFlush n) s) s 0 none))
    ∧ (s.runs n 0x19 [] x = true → s.phase ≠ .dusk →
        (s.fw.ctxs ≠ [] → begins (exec (.shutdown n) s) (s.fw.ctxs.foldl (fun t c => t.plainKill c.id 7) s))
        ∧ (s.fw.ctxs = [] → s.m.tier3 ≠ 0 → begins (exec (.shutdown n) s) (s.startDusk 0)) ∧ (s.fw.ctxs = [] → s.m.tier3 = 0 → ends (exec (.shutdown n) s) (s.startDusk 0) 0 none))
    ∧ (s.runs n 0x1A [0, 1] x = true → stored (exec (.dawnReport n) s) s.drawFree.2 (s.fw.dawn.bytes s.drawFree.1) none)
end

