-- ==== Sys2Proof/Laws/Memory.lean ====
section
/-! SUPPORT. The laws of memory as a canonical list of cells: reading after a write, and that every memory operation keeps the form. -/
namespace Sys2Proof.Machine

/-- Every listed address lies above `lo`. -/
def Memory.above (lo : Nat) (m : Memory) : Prop := ∀ c ∈ m, lo < c.1

theorem Memory.wf_cons (a : Nat) (b : Byte) (r : Memory) :
    Memory.wf ((a, b) :: r) = true ↔ b ≠ Memory.default ∧ Memory.above a r ∧ Memory.wf r = true := by
  induction r generalizing a b with
  | nil => simp [Memory.wf, Memory.above]
  | cons c r ih =>
    obtain ⟨a', b'⟩ := c
    simp only [Memory.wf, Bool.and_eq_true, bne_iff_ne, decide_eq_true_eq]
    constructor
    · rintro ⟨⟨h1, h2⟩, h3⟩
      refine ⟨h1, ?_, h3⟩
      intro c hc
      rcases List.mem_cons.mp hc with rfl | hc
      · exact h2
      · exact Nat.lt_trans h2 (((ih a' b').mp h3).2.1 c hc)
    · rintro ⟨h1, h2, h3⟩
      exact ⟨⟨h1, h2 (a', b') (by simp)⟩, h3⟩

theorem Memory.above_write {lo a : Nat} {b : Byte} {m : Memory} (h : Memory.above lo m) (ha : lo < a) :
    Memory.above lo (Memory.write m a b) := by
  induction m with
  | nil => unfold Memory.write; split <;> simp_all [Memory.above]
  | cons c r ih =>
    obtain ⟨a', b'⟩ := c
    have hr : Memory.above lo r := fun c hc => h c (by simp [hc])
    have h0 : lo < a' := h (a', b') (by simp)
    unfold Memory.write
    intro c hc
    split at hc
    · split at hc
      · exact h c hc
      · rcases List.mem_cons.mp hc with rfl | hc
        · exact ha
        · exact h c hc
    · split at hc
      · split at hc
        · exact hr c hc
        · rcases List.mem_cons.mp hc with rfl | hc
          · exact ha
          · exact hr c hc
      · rcases List.mem_cons.mp hc with rfl | hc
        · exact h0
        · exact ih hr c hc

/-- A write keeps the canonical form. -/
theorem Memory.wf_write {m : Memory} (h : Memory.wf m = true) (a : Nat) (b : Byte) : Memory.wf (Memory.write m a b) = true := by
  induction m with
  | nil => unfold Memory.write; split <;> simp_all [Memory.wf]
  | cons c r ih =>
    obtain ⟨a', b'⟩ := c
    obtain ⟨h1, h2, h3⟩ := (Memory.wf_cons a' b' r).mp h
    unfold Memory.write
    split
    · split
      · exact h
      · rename_i hlt hb
        refine (Memory.wf_cons _ _ _).mpr ⟨hb, ?_, h⟩
        intro c hc
        rcases List.mem_cons.mp hc with rfl | hc
        · exact hlt
        · exact Nat.lt_trans hlt (h2 c hc)
    · split
      · rename_i heq
        split
        · exact h3
        · rename_i hb
          subst heq
          exact (Memory.wf_cons _ _ _).mpr ⟨hb, h2, h3⟩
      · exact (Memory.wf_cons _ _ _).mpr ⟨h1, Memory.above_write h2 (by omega), ih h3⟩

/-- Writing a list of bytes keeps the canonical form. -/
theorem Memory.wf_writeBytes {m : Memory} (h : Memory.wf m = true) (a : Nat) (bs : List Byte) : Memory.wf (Memory.writeBytes m a bs) = true := by
  induction bs generalizing m a with
  | nil => exact h
  | cons b r ih => exact ih (Memory.wf_write h a b) (a + 1)
/-- Writing the low bytes of a number keeps the canonical form. -/
theorem Memory.wf_writeN {m : Memory} (h : Memory.wf m = true) (a n v : Nat) : Memory.wf (Memory.writeN m a n v) = true :=
  Memory.wf_writeBytes h a _

/-- Keeping some of the cells keeps the canonical form. -/
theorem Memory.wf_filter {m : Memory} (h : Memory.wf m = true) (p : Host.Cell → Bool) : Memory.wf (m.filter p) = true := by
  induction m with
  | nil => rfl
  | cons c r ih =>
    obtain ⟨a, b⟩ := c
    obtain ⟨h1, h2, h3⟩ := (Memory.wf_cons a b r).mp h
    by_cases hp : p (a, b) = true
    · rw [List.filter_cons_of_pos hp]
      exact (Memory.wf_cons _ _ _).mpr ⟨h1, fun c hc => h2 c (List.mem_filter.mp hc).1, ih h3⟩
    · rw [List.filter_cons_of_neg hp]
      exact ih h3
/-- Clearing a range keeps the canonical form. -/
theorem Memory.wf_clear {m : Memory} (h : Memory.wf m = true) (a n : Nat) : Memory.wf (Memory.clear m a n) = true := Memory.wf_filter h _

/-- Joining the cells below `n` of one memory and those from `n` up of another keeps the canonical form. -/
theorem Memory.wf_join {l r : Memory} (hl : Memory.wf l = true) (hr : Memory.wf r = true) (n : Nat) :
    Memory.wf (l.filter (fun x => x.1 < n) ++ r.filter (fun x => n ≤ x.1)) = true := by
  have hr' := Memory.wf_filter hr (fun x => n ≤ x.1)
  have hb : ∀ c ∈ r.filter (fun x => decide (n ≤ x.1)), n ≤ c.1 := fun c hc => by simpa using (List.mem_filter.mp hc).2
  induction l with
  | nil => simpa using hr'
  | cons c l ih =>
    obtain ⟨a, b⟩ := c
    obtain ⟨h1, h2, h3⟩ := (Memory.wf_cons a b l).mp hl
    by_cases hp : a < n
    · rw [List.filter_cons_of_pos (by simpa using hp), List.cons_append]
      refine (Memory.wf_cons _ _ _).mpr ⟨h1, ?_, ih h3⟩
      intro c hc
      rcases List.mem_append.mp hc with hc | hc
      · exact h2 c (List.mem_filter.mp hc).1
      · exact Nat.lt_of_lt_of_le hp (hb c hc)
    · rw [List.filter_cons_of_neg (by simpa using hp)]
      exact ih h3

theorem Memory.read_of_above {m : Memory} {a : Nat} (h : Memory.above a m) : Memory.read m a = Memory.default := by
  cases m with
  | nil => rfl
  | cons c r =>
    obtain ⟨a', b'⟩ := c
    have : a < a' := h (a', b') (by simp)
    simp [Memory.read, this, Nat.ne_of_lt this]

/-- Reading after a write: the byte written at its address, every other address as before. -/
theorem Memory.read_write {m : Memory} (h : Memory.wf m = true) (a : Nat) (b : Byte) (x : Nat) :
    Memory.read (Memory.write m a b) x = if x = a then b else Memory.read m x := by
  induction m with
  | nil => unfold Memory.write; split <;> simp_all [Memory.read]
  | cons c r ih =>
    obtain ⟨a', b'⟩ := c
    obtain ⟨h1, h2, h3⟩ := (Memory.wf_cons a' b' r).mp h
    unfold Memory.write
    split
    · rename_i hlt
      split
      · rename_i hb
        by_cases hx : x = a
        · subst hx; simp [Memory.read, hlt, Nat.ne_of_lt hlt, hb]
        · simp [hx]
      · by_cases hx : x = a
        · subst hx; simp [Memory.read]
        · by_cases hxa : x < a
          · have h4 : x < a' := Nat.lt_trans hxa hlt
            have h5 : x ≠ a' := by omega
            simp [Memory.read, hx, hxa, h4, h5]
          · simp [Memory.read, hx, hxa]
    · split
      · rename_i hlt heq
        subst heq
        split
        · rename_i hb
          by_cases hx : x = a
          · subst hx; simp [Memory.read_of_above h2, hb]
          · by_cases hxa : x < a
            · have hab : Memory.above x r := fun c hc => Nat.lt_trans hxa (h2 c hc)
              simp [Memory.read, hx, hxa, Memory.read_of_above hab]
            · simp [Memory.read, hx, hxa]
        · by_cases hx : x = a
          · subst hx; simp [Memory.read]
          · simp [Memory.read, hx]
      · rename_i hlt heq
        by_cases hx : x = a'
        · subst hx
          have : x ≠ a := fun e => heq e.symm
          simp [Memory.read, this]
        · by_cases hxa : x < a'
          · have : x ≠ a := by omega
            simp [Memory.read, hx, hxa, this]
          · simp [Memory.read, hx, hxa, ih h3]

/-- Reading outside the bytes a list write covers. -/
theorem Memory.read_writeBytes_out {m : Memory} (h : Memory.wf m = true) (a : Nat) (bs : List Byte) {x : Nat} (hx : x < a ∨ a + bs.length ≤ x) :
    Memory.read (Memory.writeBytes m a bs) x = Memory.read m x := by
  induction bs generalizing m a with
  | nil => rfl
  | cons b r ih =>
    rw [List.length_cons] at hx
    rw [Memory.writeBytes, ih (Memory.wf_write h a b) (a + 1) (by omega), Memory.read_write h, if_neg (by omega)]
/-- Reading inside the bytes a list write covers. -/
theorem Memory.read_writeBytes_in {m : Memory} (h : Memory.wf m = true) (a : Nat) (bs : List Byte) {i : Nat} (hi : i < bs.length) :
    Memory.read (Memory.writeBytes m a bs) (a + i) = bs[i] := by
  induction bs generalizing m a i with
  | nil => simp at hi
  | cons b r ih =>
    rw [Memory.writeBytes]
    cases i with
    | zero => rw [Nat.add_zero, Memory.read_writeBytes_out (Memory.wf_write h a b) _ _ (by omega), Memory.read_write h]; simp
    | succ i =>
      have e : a + (i + 1) = a + 1 + i := by omega
      rw [e, ih (Memory.wf_write h a b) (a + 1) (by simpa using hi)]
      simp

end Sys2Proof.Machine
end

