-- ==== Sys2Proof/Laws/State.lean ====
section
/-! SUPPORT. What each named update leaves of each field of the state, true by unfolding; and what a core is after one changes. -/
namespace Sys2Proof.Machine

@[simp] theorem State.setCore_dies (s : State) (c : CoreId) (k : Core) : (s.setCore c k).dies = s.dies := rfl
@[simp] theorem State.setCore_m (s : State) (c : CoreId) (k : Core) : (s.setCore c k).m = s.m := rfl
@[simp] theorem State.setCore_t (s : State) (c : CoreId) (k : Core) : (s.setCore c k).t = s.t := rfl
@[simp] theorem State.setCore_fw (s : State) (c : CoreId) (k : Core) : (s.setCore c k).fw = s.fw := rfl
@[simp] theorem State.setCore_link (s : State) (c : CoreId) (k : Core) : (s.setCore c k).link = s.link := rfl
@[simp] theorem State.setCore_product (s : State) (c : CoreId) (k : Core) : (s.setCore c k).product = s.product := rfl
@[simp] theorem State.setCore_phase (s : State) (c : CoreId) (k : Core) : (s.setCore c k).phase = s.phase := rfl
@[simp] theorem State.setCore_cur (s : State) (c : CoreId) (k : Core) : (s.setCore c k).cur = s.cur := rfl
@[simp] theorem State.setCore_agenda (s : State) (c : CoreId) (k : Core) : (s.setCore c k).agenda = s.agenda := rfl
@[simp] theorem State.setCore_free (s : State) (c : CoreId) (k : Core) : (s.setCore c k).free = s.free := rfl
@[simp] theorem State.setCore_pick (s : State) (c : CoreId) (k : Core) : (s.setCore c k).pick = s.pick := rfl
@[simp] theorem State.modCore_dies (s : State) (c : CoreId) (f : Core → Core) : (s.modCore c f).dies = s.dies := rfl
@[simp] theorem State.modCore_m (s : State) (c : CoreId) (f : Core → Core) : (s.modCore c f).m = s.m := rfl
@[simp] theorem State.modCore_t (s : State) (c : CoreId) (f : Core → Core) : (s.modCore c f).t = s.t := rfl
@[simp] theorem State.modCore_fw (s : State) (c : CoreId) (f : Core → Core) : (s.modCore c f).fw = s.fw := rfl
@[simp] theorem State.modCore_link (s : State) (c : CoreId) (f : Core → Core) : (s.modCore c f).link = s.link := rfl
@[simp] theorem State.modCore_product (s : State) (c : CoreId) (f : Core → Core) : (s.modCore c f).product = s.product := rfl
@[simp] theorem State.modCore_phase (s : State) (c : CoreId) (f : Core → Core) : (s.modCore c f).phase = s.phase := rfl
@[simp] theorem State.modCore_cur (s : State) (c : CoreId) (f : Core → Core) : (s.modCore c f).cur = s.cur := rfl
@[simp] theorem State.modCore_agenda (s : State) (c : CoreId) (f : Core → Core) : (s.modCore c f).agenda = s.agenda := rfl
@[simp] theorem State.modCore_free (s : State) (c : CoreId) (f : Core → Core) : (s.modCore c f).free = s.free := rfl
@[simp] theorem State.modCore_pick (s : State) (c : CoreId) (f : Core → Core) : (s.modCore c f).pick = s.pick := rfl
@[simp] theorem State.modDie_cores (s : State) (d : DieId) (f : Die → Die) : (s.modDie d f).cores = s.cores := rfl
@[simp] theorem State.modDie_m (s : State) (d : DieId) (f : Die → Die) : (s.modDie d f).m = s.m := rfl
@[simp] theorem State.modDie_t (s : State) (d : DieId) (f : Die → Die) : (s.modDie d f).t = s.t := rfl
@[simp] theorem State.modDie_fw (s : State) (d : DieId) (f : Die → Die) : (s.modDie d f).fw = s.fw := rfl
@[simp] theorem State.modDie_link (s : State) (d : DieId) (f : Die → Die) : (s.modDie d f).link = s.link := rfl
@[simp] theorem State.modDie_product (s : State) (d : DieId) (f : Die → Die) : (s.modDie d f).product = s.product := rfl
@[simp] theorem State.modDie_phase (s : State) (d : DieId) (f : Die → Die) : (s.modDie d f).phase = s.phase := rfl
@[simp] theorem State.modDie_cur (s : State) (d : DieId) (f : Die → Die) : (s.modDie d f).cur = s.cur := rfl
@[simp] theorem State.modDie_agenda (s : State) (d : DieId) (f : Die → Die) : (s.modDie d f).agenda = s.agenda := rfl
@[simp] theorem State.modDie_free (s : State) (d : DieId) (f : Die → Die) : (s.modDie d f).free = s.free := rfl
@[simp] theorem State.modDie_pick (s : State) (d : DieId) (f : Die → Die) : (s.modDie d f).pick = s.pick := rfl
@[simp] theorem State.modDies_cores (s : State) (f : Die → Die) : (s.modDies f).cores = s.cores := rfl
@[simp] theorem State.modDies_m (s : State) (f : Die → Die) : (s.modDies f).m = s.m := rfl
@[simp] theorem State.modDies_t (s : State) (f : Die → Die) : (s.modDies f).t = s.t := rfl
@[simp] theorem State.modDies_fw (s : State) (f : Die → Die) : (s.modDies f).fw = s.fw := rfl
@[simp] theorem State.modDies_link (s : State) (f : Die → Die) : (s.modDies f).link = s.link := rfl
@[simp] theorem State.modDies_product (s : State) (f : Die → Die) : (s.modDies f).product = s.product := rfl
@[simp] theorem State.modDies_phase (s : State) (f : Die → Die) : (s.modDies f).phase = s.phase := rfl
@[simp] theorem State.modDies_cur (s : State) (f : Die → Die) : (s.modDies f).cur = s.cur := rfl
@[simp] theorem State.modDies_agenda (s : State) (f : Die → Die) : (s.modDies f).agenda = s.agenda := rfl
@[simp] theorem State.modDies_free (s : State) (f : Die → Die) : (s.modDies f).free = s.free := rfl
@[simp] theorem State.modDies_pick (s : State) (f : Die → Die) : (s.modDies f).pick = s.pick := rfl
@[simp] theorem State.modCtx_cores (s : State) (x : BitVec 16) (f : Ctx → Ctx) : (s.modCtx x f).cores = s.cores := rfl
@[simp] theorem State.modCtx_dies (s : State) (x : BitVec 16) (f : Ctx → Ctx) : (s.modCtx x f).dies = s.dies := rfl
@[simp] theorem State.modCtx_m (s : State) (x : BitVec 16) (f : Ctx → Ctx) : (s.modCtx x f).m = s.m := rfl
@[simp] theorem State.modCtx_t (s : State) (x : BitVec 16) (f : Ctx → Ctx) : (s.modCtx x f).t = s.t := rfl
@[simp] theorem State.modCtx_link (s : State) (x : BitVec 16) (f : Ctx → Ctx) : (s.modCtx x f).link = s.link := rfl
@[simp] theorem State.modCtx_product (s : State) (x : BitVec 16) (f : Ctx → Ctx) : (s.modCtx x f).product = s.product := rfl
@[simp] theorem State.modCtx_phase (s : State) (x : BitVec 16) (f : Ctx → Ctx) : (s.modCtx x f).phase = s.phase := rfl
@[simp] theorem State.modCtx_cur (s : State) (x : BitVec 16) (f : Ctx → Ctx) : (s.modCtx x f).cur = s.cur := rfl
@[simp] theorem State.modCtx_agenda (s : State) (x : BitVec 16) (f : Ctx → Ctx) : (s.modCtx x f).agenda = s.agenda := rfl
@[simp] theorem State.modCtx_free (s : State) (x : BitVec 16) (f : Ctx → Ctx) : (s.modCtx x f).free = s.free := rfl
@[simp] theorem State.modCtx_pick (s : State) (x : BitVec 16) (f : Ctx → Ctx) : (s.modCtx x f).pick = s.pick := rfl
@[simp] theorem State.modMe_dies (s : State) (f : Core → Core) : (s.modMe f).dies = s.dies := rfl
@[simp] theorem State.modMe_m (s : State) (f : Core → Core) : (s.modMe f).m = s.m := rfl
@[simp] theorem State.modMe_t (s : State) (f : Core → Core) : (s.modMe f).t = s.t := rfl
@[simp] theorem State.modMe_fw (s : State) (f : Core → Core) : (s.modMe f).fw = s.fw := rfl
@[simp] theorem State.modMe_link (s : State) (f : Core → Core) : (s.modMe f).link = s.link := rfl
@[simp] theorem State.modMe_product (s : State) (f : Core → Core) : (s.modMe f).product = s.product := rfl
@[simp] theorem State.modMe_phase (s : State) (f : Core → Core) : (s.modMe f).phase = s.phase := rfl
@[simp] theorem State.modMe_cur (s : State) (f : Core → Core) : (s.modMe f).cur = s.cur := rfl
@[simp] theorem State.modMe_agenda (s : State) (f : Core → Core) : (s.modMe f).agenda = s.agenda := rfl
@[simp] theorem State.modMe_free (s : State) (f : Core → Core) : (s.modMe f).free = s.free := rfl
@[simp] theorem State.modMe_pick (s : State) (f : Core → Core) : (s.modMe f).pick = s.pick := rfl
@[simp] theorem State.modPipeOf_dies (s : State) (c : CoreId) (f : Pipe → Pipe) : (s.modPipeOf c f).dies = s.dies := rfl
@[simp] theorem State.modPipeOf_m (s : State) (c : CoreId) (f : Pipe → Pipe) : (s.modPipeOf c f).m = s.m := rfl
@[simp] theorem State.modPipeOf_t (s : State) (c : CoreId) (f : Pipe → Pipe) : (s.modPipeOf c f).t = s.t := rfl
@[simp] theorem State.modPipeOf_fw (s : State) (c : CoreId) (f : Pipe → Pipe) : (s.modPipeOf c f).fw = s.fw := rfl
@[simp] theorem State.modPipeOf_link (s : State) (c : CoreId) (f : Pipe → Pipe) : (s.modPipeOf c f).link = s.link := rfl
@[simp] theorem State.modPipeOf_product (s : State) (c : CoreId) (f : Pipe → Pipe) : (s.modPipeOf c f).product = s.product := rfl
@[simp] theorem State.modPipeOf_phase (s : State) (c : CoreId) (f : Pipe → Pipe) : (s.modPipeOf c f).phase = s.phase := rfl
@[simp] theorem State.modPipeOf_cur (s : State) (c : CoreId) (f : Pipe → Pipe) : (s.modPipeOf c f).cur = s.cur := rfl
@[simp] theorem State.modPipeOf_agenda (s : State) (c : CoreId) (f : Pipe → Pipe) : (s.modPipeOf c f).agenda = s.agenda := rfl
@[simp] theorem State.modPipeOf_free (s : State) (c : CoreId) (f : Pipe → Pipe) : (s.modPipeOf c f).free = s.free := rfl
@[simp] theorem State.modPipeOf_pick (s : State) (c : CoreId) (f : Pipe → Pipe) : (s.modPipeOf c f).pick = s.pick := rfl
@[simp] theorem State.modPipe_dies (s : State) (f : Pipe → Pipe) : (s.modPipe f).dies = s.dies := rfl
@[simp] theorem State.modPipe_m (s : State) (f : Pipe → Pipe) : (s.modPipe f).m = s.m := rfl
@[simp] theorem State.modPipe_t (s : State) (f : Pipe → Pipe) : (s.modPipe f).t = s.t := rfl
@[simp] theorem State.modPipe_fw (s : State) (f : Pipe → Pipe) : (s.modPipe f).fw = s.fw := rfl
@[simp] theorem State.modPipe_link (s : State) (f : Pipe → Pipe) : (s.modPipe f).link = s.link := rfl
@[simp] theorem State.modPipe_product (s : State) (f : Pipe → Pipe) : (s.modPipe f).product = s.product := rfl
@[simp] theorem State.modPipe_phase (s : State) (f : Pipe → Pipe) : (s.modPipe f).phase = s.phase := rfl
@[simp] theorem State.modPipe_cur (s : State) (f : Pipe → Pipe) : (s.modPipe f).cur = s.cur := rfl
@[simp] theorem State.modPipe_agenda (s : State) (f : Pipe → Pipe) : (s.modPipe f).agenda = s.agenda := rfl
@[simp] theorem State.modPipe_free (s : State) (f : Pipe → Pipe) : (s.modPipe f).free = s.free := rfl
@[simp] theorem State.modPipe_pick (s : State) (f : Pipe → Pipe) : (s.modPipe f).pick = s.pick := rfl
@[simp] theorem State.modMx_dies (s : State) (f : Matrix → Matrix) : (s.modMx f).dies = s.dies := rfl
@[simp] theorem State.modMx_m (s : State) (f : Matrix → Matrix) : (s.modMx f).m = s.m := rfl
@[simp] theorem State.modMx_t (s : State) (f : Matrix → Matrix) : (s.modMx f).t = s.t := rfl
@[simp] theorem State.modMx_fw (s : State) (f : Matrix → Matrix) : (s.modMx f).fw = s.fw := rfl
@[simp] theorem State.modMx_link (s : State) (f : Matrix → Matrix) : (s.modMx f).link = s.link := rfl
@[simp] theorem State.modMx_product (s : State) (f : Matrix → Matrix) : (s.modMx f).product = s.product := rfl
@[simp] theorem State.modMx_phase (s : State) (f : Matrix → Matrix) : (s.modMx f).phase = s.phase := rfl
@[simp] theorem State.modMx_cur (s : State) (f : Matrix → Matrix) : (s.modMx f).cur = s.cur := rfl
@[simp] theorem State.modMx_agenda (s : State) (f : Matrix → Matrix) : (s.modMx f).agenda = s.agenda := rfl
@[simp] theorem State.modMx_free (s : State) (f : Matrix → Matrix) : (s.modMx f).free = s.free := rfl
@[simp] theorem State.modMx_pick (s : State) (f : Matrix → Matrix) : (s.modMx f).pick = s.pick := rfl
@[simp] theorem State.setDisp_dies (s : State) (d : Disposition) : (s.setDisp d).dies = s.dies := rfl
@[simp] theorem State.setDisp_m (s : State) (d : Disposition) : (s.setDisp d).m = s.m := rfl
@[simp] theorem State.setDisp_t (s : State) (d : Disposition) : (s.setDisp d).t = s.t := rfl
@[simp] theorem State.setDisp_fw (s : State) (d : Disposition) : (s.setDisp d).fw = s.fw := rfl
@[simp] theorem State.setDisp_link (s : State) (d : Disposition) : (s.setDisp d).link = s.link := rfl
@[simp] theorem State.setDisp_product (s : State) (d : Disposition) : (s.setDisp d).product = s.product := rfl
@[simp] theorem State.setDisp_phase (s : State) (d : Disposition) : (s.setDisp d).phase = s.phase := rfl
@[simp] theorem State.setDisp_cur (s : State) (d : Disposition) : (s.setDisp d).cur = s.cur := rfl
@[simp] theorem State.setDisp_agenda (s : State) (d : Disposition) : (s.setDisp d).agenda = s.agenda := rfl
@[simp] theorem State.setDisp_free (s : State) (d : Disposition) : (s.setDisp d).free = s.free := rfl
@[simp] theorem State.setDisp_pick (s : State) (d : Disposition) : (s.setDisp d).pick = s.pick := rfl
@[simp] theorem State.issued_dies (s : State) : (s.issued).dies = s.dies := rfl
@[simp] theorem State.issued_m (s : State) : (s.issued).m = s.m := rfl
@[simp] theorem State.issued_t (s : State) : (s.issued).t = s.t := rfl
@[simp] theorem State.issued_fw (s : State) : (s.issued).fw = s.fw := rfl
@[simp] theorem State.issued_link (s : State) : (s.issued).link = s.link := rfl
@[simp] theorem State.issued_product (s : State) : (s.issued).product = s.product := rfl
@[simp] theorem State.issued_phase (s : State) : (s.issued).phase = s.phase := rfl
@[simp] theorem State.issued_cur (s : State) : (s.issued).cur = s.cur := rfl
@[simp] theorem State.issued_agenda (s : State) : (s.issued).agenda = s.agenda := rfl
@[simp] theorem State.issued_free (s : State) : (s.issued).free = s.free := rfl
@[simp] theorem State.issued_pick (s : State) : (s.issued).pick = s.pick := rfl
@[simp] theorem State.hold_dies (s : State) (w : Nat) : (s.hold w).dies = s.dies := rfl
@[simp] theorem State.hold_m (s : State) (w : Nat) : (s.hold w).m = s.m := rfl
@[simp] theorem State.hold_t (s : State) (w : Nat) : (s.hold w).t = s.t := rfl
@[simp] theorem State.hold_fw (s : State) (w : Nat) : (s.hold w).fw = s.fw := rfl
@[simp] theorem State.hold_link (s : State) (w : Nat) : (s.hold w).link = s.link := rfl
@[simp] theorem State.hold_product (s : State) (w : Nat) : (s.hold w).product = s.product := rfl
@[simp] theorem State.hold_phase (s : State) (w : Nat) : (s.hold w).phase = s.phase := rfl
@[simp] theorem State.hold_cur (s : State) (w : Nat) : (s.hold w).cur = s.cur := rfl
@[simp] theorem State.hold_agenda (s : State) (w : Nat) : (s.hold w).agenda = s.agenda := rfl
@[simp] theorem State.hold_free (s : State) (w : Nat) : (s.hold w).free = s.free := rfl
@[simp] theorem State.hold_pick (s : State) (w : Nat) : (s.hold w).pick = s.pick := rfl
@[simp] theorem State.regWrite_dies (s : State) (w : RegWrite) : (s.regWrite w).dies = s.dies := rfl
@[simp] theorem State.regWrite_m (s : State) (w : RegWrite) : (s.regWrite w).m = s.m := rfl
@[simp] theorem State.regWrite_t (s : State) (w : RegWrite) : (s.regWrite w).t = s.t := rfl
@[simp] theorem State.regWrite_fw (s : State) (w : RegWrite) : (s.regWrite w).fw = s.fw := rfl
@[simp] theorem State.regWrite_link (s : State) (w : RegWrite) : (s.regWrite w).link = s.link := rfl
@[simp] theorem State.regWrite_product (s : State) (w : RegWrite) : (s.regWrite w).product = s.product := rfl
@[simp] theorem State.regWrite_phase (s : State) (w : RegWrite) : (s.regWrite w).phase = s.phase := rfl
@[simp] theorem State.regWrite_cur (s : State) (w : RegWrite) : (s.regWrite w).cur = s.cur := rfl
@[simp] theorem State.regWrite_agenda (s : State) (w : RegWrite) : (s.regWrite w).agenda = s.agenda := rfl
@[simp] theorem State.regWrite_free (s : State) (w : RegWrite) : (s.regWrite w).free = s.free := rfl
@[simp] theorem State.regWrite_pick (s : State) (w : RegWrite) : (s.regWrite w).pick = s.pick := rfl
@[simp] theorem State.complete_dies (s : State) (c : CoreId) (f : BitVec 10) (v : Val) : (s.complete c f v).dies = s.dies := rfl
@[simp] theorem State.complete_m (s : State) (c : CoreId) (f : BitVec 10) (v : Val) : (s.complete c f v).m = s.m := rfl
@[simp] theorem State.complete_t (s : State) (c : CoreId) (f : BitVec 10) (v : Val) : (s.complete c f v).t = s.t := rfl
@[simp] theorem State.complete_fw (s : State) (c : CoreId) (f : BitVec 10) (v : Val) : (s.complete c f v).fw = s.fw := rfl
@[simp] theorem State.complete_link (s : State) (c : CoreId) (f : BitVec 10) (v : Val) : (s.complete c f v).link = s.link := rfl
@[simp] theorem State.complete_product (s : State) (c : CoreId) (f : BitVec 10) (v : Val) : (s.complete c f v).product = s.product := rfl
@[simp] theorem State.complete_phase (s : State) (c : CoreId) (f : BitVec 10) (v : Val) : (s.complete c f v).phase = s.phase := rfl
@[simp] theorem State.complete_cur (s : State) (c : CoreId) (f : BitVec 10) (v : Val) : (s.complete c f v).cur = s.cur := rfl
@[simp] theorem State.complete_agenda (s : State) (c : CoreId) (f : BitVec 10) (v : Val) : (s.complete c f v).agenda = s.agenda := rfl
@[simp] theorem State.complete_free (s : State) (c : CoreId) (f : BitVec 10) (v : Val) : (s.complete c f v).free = s.free := rfl
@[simp] theorem State.complete_pick (s : State) (c : CoreId) (f : BitVec 10) (v : Val) : (s.complete c f v).pick = s.pick := rfl
@[simp] theorem State.noteFill_dies (s : State) (c : CoreId) (f : BitVec 10) (n : Nat) : (s.noteFill c f n).dies = s.dies := rfl
@[simp] theorem State.noteFill_m (s : State) (c : CoreId) (f : BitVec 10) (n : Nat) : (s.noteFill c f n).m = s.m := rfl
@[simp] theorem State.noteFill_t (s : State) (c : CoreId) (f : BitVec 10) (n : Nat) : (s.noteFill c f n).t = s.t := rfl
@[simp] theorem State.noteFill_fw (s : State) (c : CoreId) (f : BitVec 10) (n : Nat) : (s.noteFill c f n).fw = s.fw := rfl
@[simp] theorem State.noteFill_link (s : State) (c : CoreId) (f : BitVec 10) (n : Nat) : (s.noteFill c f n).link = s.link := rfl
@[simp] theorem State.noteFill_product (s : State) (c : CoreId) (f : BitVec 10) (n : Nat) : (s.noteFill c f n).product = s.product := rfl
@[simp] theorem State.noteFill_phase (s : State) (c : CoreId) (f : BitVec 10) (n : Nat) : (s.noteFill c f n).phase = s.phase := rfl
@[simp] theorem State.noteFill_cur (s : State) (c : CoreId) (f : BitVec 10) (n : Nat) : (s.noteFill c f n).cur = s.cur := rfl
@[simp] theorem State.noteFill_agenda (s : State) (c : CoreId) (f : BitVec 10) (n : Nat) : (s.noteFill c f n).agenda = s.agenda := rfl
@[simp] theorem State.noteFill_free (s : State) (c : CoreId) (f : BitVec 10) (n : Nat) : (s.noteFill c f n).free = s.free := rfl
@[simp] theorem State.noteFill_pick (s : State) (c : CoreId) (f : BitVec 10) (n : Nat) : (s.noteFill c f n).pick = s.pick := rfl
@[simp] theorem State.addFlags_dies (s : State) (c : CoreId) (f : Flags) : (s.addFlags c f).dies = s.dies := rfl
@[simp] theorem State.addFlags_m (s : State) (c : CoreId) (f : Flags) : (s.addFlags c f).m = s.m := rfl
@[simp] theorem State.addFlags_t (s : State) (c : CoreId) (f : Flags) : (s.addFlags c f).t = s.t := rfl
@[simp] theorem State.addFlags_fw (s : State) (c : CoreId) (f : Flags) : (s.addFlags c f).fw = s.fw := rfl
@[simp] theorem State.addFlags_link (s : State) (c : CoreId) (f : Flags) : (s.addFlags c f).link = s.link := rfl
@[simp] theorem State.addFlags_product (s : State) (c : CoreId) (f : Flags) : (s.addFlags c f).product = s.product := rfl
@[simp] theorem State.addFlags_phase (s : State) (c : CoreId) (f : Flags) : (s.addFlags c f).phase = s.phase := rfl
@[simp] theorem State.addFlags_cur (s : State) (c : CoreId) (f : Flags) : (s.addFlags c f).cur = s.cur := rfl
@[simp] theorem State.addFlags_agenda (s : State) (c : CoreId) (f : Flags) : (s.addFlags c f).agenda = s.agenda := rfl
@[simp] theorem State.addFlags_free (s : State) (c : CoreId) (f : Flags) : (s.addFlags c f).free = s.free := rfl
@[simp] theorem State.addFlags_pick (s : State) (c : CoreId) (f : Flags) : (s.addFlags c f).pick = s.pick := rfl
@[simp] theorem State.short_dies (s : State) (u : Unit7) (v : Val) (fl : Flags) (d : Option (BitVec 10)) : (s.short u v fl d).dies = s.dies := rfl
@[simp] theorem State.short_m (s : State) (u : Unit7) (v : Val) (fl : Flags) (d : Option (BitVec 10)) : (s.short u v fl d).m = s.m := rfl
@[simp] theorem State.short_t (s : State) (u : Unit7) (v : Val) (fl : Flags) (d : Option (BitVec 10)) : (s.short u v fl d).t = s.t := rfl
@[simp] theorem State.short_fw (s : State) (u : Unit7) (v : Val) (fl : Flags) (d : Option (BitVec 10)) : (s.short u v fl d).fw = s.fw := rfl
@[simp] theorem State.short_link (s : State) (u : Unit7) (v : Val) (fl : Flags) (d : Option (BitVec 10)) : (s.short u v fl d).link = s.link := rfl
@[simp] theorem State.short_product (s : State) (u : Unit7) (v : Val) (fl : Flags) (d : Option (BitVec 10)) : (s.short u v fl d).product = s.product := rfl
@[simp] theorem State.short_phase (s : State) (u : Unit7) (v : Val) (fl : Flags) (d : Option (BitVec 10)) : (s.short u v fl d).phase = s.phase := rfl
@[simp] theorem State.short_cur (s : State) (u : Unit7) (v : Val) (fl : Flags) (d : Option (BitVec 10)) : (s.short u v fl d).cur = s.cur := rfl
@[simp] theorem State.short_agenda (s : State) (u : Unit7) (v : Val) (fl : Flags) (d : Option (BitVec 10)) : (s.short u v fl d).agenda = s.agenda := rfl
@[simp] theorem State.short_free (s : State) (u : Unit7) (v : Val) (fl : Flags) (d : Option (BitVec 10)) : (s.short u v fl d).free = s.free := rfl
@[simp] theorem State.short_pick (s : State) (u : Unit7) (v : Val) (fl : Flags) (d : Option (BitVec 10)) : (s.short u v fl d).pick = s.pick := rfl
@[simp] theorem State.long_dies (s : State) (u : Unit7) (v : Val) (fl : Flags) (d : BitVec 10) (n : Nat) : (s.long u v fl d n).dies = s.dies := rfl
@[simp] theorem State.long_m (s : State) (u : Unit7) (v : Val) (fl : Flags) (d : BitVec 10) (n : Nat) : (s.long u v fl d n).m = s.m := rfl
@[simp] theorem State.long_t (s : State) (u : Unit7) (v : Val) (fl : Flags) (d : BitVec 10) (n : Nat) : (s.long u v fl d n).t = s.t := rfl
@[simp] theorem State.long_fw (s : State) (u : Unit7) (v : Val) (fl : Flags) (d : BitVec 10) (n : Nat) : (s.long u v fl d n).fw = s.fw := rfl
@[simp] theorem State.long_link (s : State) (u : Unit7) (v : Val) (fl : Flags) (d : BitVec 10) (n : Nat) : (s.long u v fl d n).link = s.link := rfl
@[simp] theorem State.long_product (s : State) (u : Unit7) (v : Val) (fl : Flags) (d : BitVec 10) (n : Nat) : (s.long u v fl d n).product = s.product := rfl
@[simp] theorem State.long_phase (s : State) (u : Unit7) (v : Val) (fl : Flags) (d : BitVec 10) (n : Nat) : (s.long u v fl d n).phase = s.phase := rfl
@[simp] theorem State.long_cur (s : State) (u : Unit7) (v : Val) (fl : Flags) (d : BitVec 10) (n : Nat) : (s.long u v fl d n).cur = s.cur := rfl
@[simp] theorem State.long_agenda (s : State) (u : Unit7) (v : Val) (fl : Flags) (d : BitVec 10) (n : Nat) : (s.long u v fl d n).agenda = s.agenda := rfl
@[simp] theorem State.long_free (s : State) (u : Unit7) (v : Val) (fl : Flags) (d : BitVec 10) (n : Nat) : (s.long u v fl d n).free = s.free := rfl
@[simp] theorem State.long_pick (s : State) (u : Unit7) (v : Val) (fl : Flags) (d : BitVec 10) (n : Nat) : (s.long u v fl d n).pick = s.pick := rfl
@[simp] theorem State.unrefuse_dies (s : State) (c : CoreId) : (s.unrefuse c).dies = s.dies := rfl
@[simp] theorem State.unrefuse_m (s : State) (c : CoreId) : (s.unrefuse c).m = s.m := rfl
@[simp] theorem State.unrefuse_t (s : State) (c : CoreId) : (s.unrefuse c).t = s.t := rfl
@[simp] theorem State.unrefuse_fw (s : State) (c : CoreId) : (s.unrefuse c).fw = s.fw := rfl
@[simp] theorem State.unrefuse_link (s : State) (c : CoreId) : (s.unrefuse c).link = s.link := rfl
@[simp] theorem State.unrefuse_product (s : State) (c : CoreId) : (s.unrefuse c).product = s.product := rfl
@[simp] theorem State.unrefuse_phase (s : State) (c : CoreId) : (s.unrefuse c).phase = s.phase := rfl
@[simp] theorem State.unrefuse_cur (s : State) (c : CoreId) : (s.unrefuse c).cur = s.cur := rfl
@[simp] theorem State.unrefuse_agenda (s : State) (c : CoreId) : (s.unrefuse c).agenda = s.agenda := rfl
@[simp] theorem State.unrefuse_free (s : State) (c : CoreId) : (s.unrefuse c).free = s.free := rfl
@[simp] theorem State.unrefuse_pick (s : State) (c : CoreId) : (s.unrefuse c).pick = s.pick := rfl
@[simp] theorem State.writeShadowed_dies (s : State) (r : ShReg) (v : BitVec 24) : (s.writeShadowed r v).dies = s.dies := rfl
@[simp] theorem State.writeShadowed_m (s : State) (r : ShReg) (v : BitVec 24) : (s.writeShadowed r v).m = s.m := rfl
@[simp] theorem State.writeShadowed_t (s : State) (r : ShReg) (v : BitVec 24) : (s.writeShadowed r v).t = s.t := rfl
@[simp] theorem State.writeShadowed_fw (s : State) (r : ShReg) (v : BitVec 24) : (s.writeShadowed r v).fw = s.fw := rfl
@[simp] theorem State.writeShadowed_link (s : State) (r : ShReg) (v : BitVec 24) : (s.writeShadowed r v).link = s.link := rfl
@[simp] theorem State.writeShadowed_product (s : State) (r : ShReg) (v : BitVec 24) : (s.writeShadowed r v).product = s.product := rfl
@[simp] theorem State.writeShadowed_phase (s : State) (r : ShReg) (v : BitVec 24) : (s.writeShadowed r v).phase = s.phase := rfl
@[simp] theorem State.writeShadowed_cur (s : State) (r : ShReg) (v : BitVec 24) : (s.writeShadowed r v).cur = s.cur := rfl
@[simp] theorem State.writeShadowed_agenda (s : State) (r : ShReg) (v : BitVec 24) : (s.writeShadowed r v).agenda = s.agenda := rfl
@[simp] theorem State.writeShadowed_free (s : State) (r : ShReg) (v : BitVec 24) : (s.writeShadowed r v).free = s.free := rfl
@[simp] theorem State.writeShadowed_pick (s : State) (r : ShReg) (v : BitVec 24) : (s.writeShadowed r v).pick = s.pick := rfl
@[simp] theorem State.setLt_dies (s : State) (c : CoreId) (lt : Vector Nat 4) : (s.setLt c lt).dies = s.dies := rfl
@[simp] theorem State.setLt_m (s : State) (c : CoreId) (lt : Vector Nat 4) : (s.setLt c lt).m = s.m := rfl
@[simp] theorem State.setLt_t (s : State) (c : CoreId) (lt : Vector Nat 4) : (s.setLt c lt).t = s.t := rfl
@[simp] theorem State.setLt_fw (s : State) (c : CoreId) (lt : Vector Nat 4) : (s.setLt c lt).fw = s.fw := rfl
@[simp] theorem State.setLt_link (s : State) (c : CoreId) (lt : Vector Nat 4) : (s.setLt c lt).link = s.link := rfl
@[simp] theorem State.setLt_product (s : State) (c : CoreId) (lt : Vector Nat 4) : (s.setLt c lt).product = s.product := rfl
@[simp] theorem State.setLt_phase (s : State) (c : CoreId) (lt : Vector Nat 4) : (s.setLt c lt).phase = s.phase := rfl
@[simp] theorem State.setLt_cur (s : State) (c : CoreId) (lt : Vector Nat 4) : (s.setLt c lt).cur = s.cur := rfl
@[simp] theorem State.setLt_agenda (s : State) (c : CoreId) (lt : Vector Nat 4) : (s.setLt c lt).agenda = s.agenda := rfl
@[simp] theorem State.setLt_free (s : State) (c : CoreId) (lt : Vector Nat 4) : (s.setLt c lt).free = s.free := rfl
@[simp] theorem State.setLt_pick (s : State) (c : CoreId) (lt : Vector Nat 4) : (s.setLt c lt).pick = s.pick := rfl
@[simp] theorem State.dropReq_dies (s : State) (c : CoreId) (q : Nat) : (s.dropReq c q).dies = s.dies := rfl
@[simp] theorem State.dropReq_m (s : State) (c : CoreId) (q : Nat) : (s.dropReq c q).m = s.m := rfl
@[simp] theorem State.dropReq_t (s : State) (c : CoreId) (q : Nat) : (s.dropReq c q).t = s.t := rfl
@[simp] theorem State.dropReq_fw (s : State) (c : CoreId) (q : Nat) : (s.dropReq c q).fw = s.fw := rfl
@[simp] theorem State.dropReq_link (s : State) (c : CoreId) (q : Nat) : (s.dropReq c q).link = s.link := rfl
@[simp] theorem State.dropReq_product (s : State) (c : CoreId) (q : Nat) : (s.dropReq c q).product = s.product := rfl
@[simp] theorem State.dropReq_phase (s : State) (c : CoreId) (q : Nat) : (s.dropReq c q).phase = s.phase := rfl
@[simp] theorem State.dropReq_cur (s : State) (c : CoreId) (q : Nat) : (s.dropReq c q).cur = s.cur := rfl
@[simp] theorem State.dropReq_agenda (s : State) (c : CoreId) (q : Nat) : (s.dropReq c q).agenda = s.agenda := rfl
@[simp] theorem State.dropReq_free (s : State) (c : CoreId) (q : Nat) : (s.dropReq c q).free = s.free := rfl
@[simp] theorem State.dropReq_pick (s : State) (c : CoreId) (q : Nat) : (s.dropReq c q).pick = s.pick := rfl
@[simp] theorem State.wakeBanks_dies (s : State) (h : CoreId) (o n : Nat) : (s.wakeBanks h o n).dies = s.dies := rfl
@[simp] theorem State.wakeBanks_m (s : State) (h : CoreId) (o n : Nat) : (s.wakeBanks h o n).m = s.m := rfl
@[simp] theorem State.wakeBanks_t (s : State) (h : CoreId) (o n : Nat) : (s.wakeBanks h o n).t = s.t := rfl
@[simp] theorem State.wakeBanks_fw (s : State) (h : CoreId) (o n : Nat) : (s.wakeBanks h o n).fw = s.fw := rfl
@[simp] theorem State.wakeBanks_link (s : State) (h : CoreId) (o n : Nat) : (s.wakeBanks h o n).link = s.link := rfl
@[simp] theorem State.wakeBanks_product (s : State) (h : CoreId) (o n : Nat) : (s.wakeBanks h o n).product = s.product := rfl
@[simp] theorem State.wakeBanks_phase (s : State) (h : CoreId) (o n : Nat) : (s.wakeBanks h o n).phase = s.phase := rfl
@[simp] theorem State.wakeBanks_cur (s : State) (h : CoreId) (o n : Nat) : (s.wakeBanks h o n).cur = s.cur := rfl
@[simp] theorem State.wakeBanks_agenda (s : State) (h : CoreId) (o n : Nat) : (s.wakeBanks h o n).agenda = s.agenda := rfl
@[simp] theorem State.wakeBanks_free (s : State) (h : CoreId) (o n : Nat) : (s.wakeBanks h o n).free = s.free := rfl
@[simp] theorem State.wakeBanks_pick (s : State) (h : CoreId) (o n : Nat) : (s.wakeBanks h o n).pick = s.pick := rfl
@[simp] theorem State.mergeClasses_dies (s : State) (c : CoreId) : (s.mergeClasses c).dies = s.dies := rfl
@[simp] theorem State.mergeClasses_m (s : State) (c : CoreId) : (s.mergeClasses c).m = s.m := rfl
@[simp] theorem State.mergeClasses_t (s : State) (c : CoreId) : (s.mergeClasses c).t = s.t := rfl
@[simp] theorem State.mergeClasses_fw (s : State) (c : CoreId) : (s.mergeClasses c).fw = s.fw := rfl
@[simp] theorem State.mergeClasses_link (s : State) (c : CoreId) : (s.mergeClasses c).link = s.link := rfl
@[simp] theorem State.mergeClasses_product (s : State) (c : CoreId) : (s.mergeClasses c).product = s.product := rfl
@[simp] theorem State.mergeClasses_phase (s : State) (c : CoreId) : (s.mergeClasses c).phase = s.phase := rfl
@[simp] theorem State.mergeClasses_cur (s : State) (c : CoreId) : (s.mergeClasses c).cur = s.cur := rfl
@[simp] theorem State.mergeClasses_agenda (s : State) (c : CoreId) : (s.mergeClasses c).agenda = s.agenda := rfl
@[simp] theorem State.mergeClasses_free (s : State) (c : CoreId) : (s.mergeClasses c).free = s.free := rfl
@[simp] theorem State.mergeClasses_pick (s : State) (c : CoreId) : (s.mergeClasses c).pick = s.pick := rfl
@[simp] theorem State.drawFree_fst (s : State) : s.drawFree.1 = Config.freeValue s.free := rfl
@[simp] theorem State.drawFree_cores (s : State) : s.drawFree.2.cores = s.cores := rfl
@[simp] theorem State.drawFree_dies (s : State) : s.drawFree.2.dies = s.dies := rfl
@[simp] theorem State.drawFree_m (s : State) : s.drawFree.2.m = s.m := rfl
@[simp] theorem State.drawFree_t (s : State) : s.drawFree.2.t = s.t := rfl
@[simp] theorem State.drawFree_fw (s : State) : s.drawFree.2.fw = s.fw := rfl
@[simp] theorem State.drawFree_link (s : State) : s.drawFree.2.link = s.link := rfl
@[simp] theorem State.drawFree_product (s : State) : s.drawFree.2.product = s.product := rfl
@[simp] theorem State.drawFree_phase (s : State) : s.drawFree.2.phase = s.phase := rfl
@[simp] theorem State.drawFree_cur (s : State) : s.drawFree.2.cur = s.cur := rfl
@[simp] theorem State.drawFree_agenda (s : State) : s.drawFree.2.agenda = s.agenda := rfl
@[simp] theorem State.drawFree_free (s : State) : s.drawFree.2.free = s.free + 1 := rfl
@[simp] theorem State.drawFree_pick (s : State) : s.drawFree.2.pick = s.pick := rfl

/-! ## Cores and dies after a change -/

@[simp] theorem State.core_setCore_self (s : State) (c : CoreId) (k : Core) : (s.setCore c k).core c = k := by simp [State.core, State.setCore]
theorem State.core_setCore_ne (s : State) {c d : CoreId} (k : Core) (h : d ≠ c) : (s.setCore c k).core d = s.core d := by
  have : c.val ≠ d.val := fun e => h (Fin.ext e.symm)
  simp [State.core, State.setCore, this]
@[simp] theorem State.core_modCore_self (s : State) (c : CoreId) (f : Core → Core) : (s.modCore c f).core c = f (s.core c) := by simp [State.modCore]
theorem State.core_modCore_ne (s : State) {c d : CoreId} (f : Core → Core) (h : d ≠ c) : (s.modCore c f).core d = s.core d := State.core_setCore_ne s _ h
@[simp] theorem State.die_modDie_self (s : State) (d : DieId) (f : Die → Die) : (s.modDie d f).die d = f (s.die d) := by simp [State.die, State.modDie]
theorem State.die_modDie_ne (s : State) {d e : DieId} (f : Die → Die) (h : e ≠ d) : (s.modDie d f).die e = s.die e := by
  have : d.val ≠ e.val := fun x => h (Fin.ext x.symm)
  simp [State.die, State.modDie, this]
@[simp] theorem State.core_modDie (s : State) (d : DieId) (f : Die → Die) (c : CoreId) : (s.modDie d f).core c = s.core c := rfl
@[simp] theorem State.core_modDies (s : State) (f : Die → Die) (c : CoreId) : (s.modDies f).core c = s.core c := rfl
@[simp] theorem State.core_modCtx (s : State) (x : BitVec 16) (f : Ctx → Ctx) (c : CoreId) : (s.modCtx x f).core c = s.core c := rfl

/-! ## The current core -/

@[simp] theorem State.me_modMe (s : State) (f : Core → Core) : (s.modMe f).me = f s.me := State.core_modCore_self s s.cur f
@[simp] theorem State.me_modPipe (s : State) (f : Pipe → Pipe) : (s.modPipe f).me = { s.me with pipe := f s.pipe } := State.core_modCore_self s s.cur _
@[simp] theorem State.pipe_modPipe (s : State) (f : Pipe → Pipe) : (s.modPipe f).pipe = f s.pipe := by simp [State.pipe]
@[simp] theorem State.pipe_modMx (s : State) (f : Matrix → Matrix) : (s.modMx f).pipe = s.pipe := by
  simp [State.pipe, State.modMx]
@[simp] theorem State.pipe_setDisp (s : State) (d : Disposition) : (s.setDisp d).pipe = { s.pipe with disp := d } := State.pipe_modPipe s _
@[simp] theorem State.disp_issued (s : State) : s.issued.pipe.disp = .issued := by simp [State.issued]
@[simp] theorem State.disp_hold (s : State) (w : Nat) : (s.hold w).pipe.disp = .held w := by simp [State.hold]

end Sys2Proof.Machine
end

