-- ==== Sys2Proof/Laws/Ops.lean ====
section
/-! SUPPORT. What each shared operation does, said once: issue of a move, its checks, the writes of registers, the accesses at a home. -/
namespace Sys2Proof.Machine

/-! ## Issue (R35, R37) -/

/-- A move that is ready runs its action on the value FROM delivers. -/
theorem State.issueMove_ready {s : State} {sl : Slot} {g : BitVec 4} {e : Bool} {f : BitVec 10} {v : Val} (h : s.ready sl g e f v = true)
    (b : Bool) (act : Val → State → State) : s.issueMove sl g e f b act = act v s := by
  simp only [State.ready, Bool.and_eq_true, bne_iff_ne, ne_eq, decide_eq_true_eq, Bool.or_eq_true] at h
  obtain ⟨⟨⟨hg, hp⟩, hs⟩, hm⟩ := h
  unfold State.issueMove
  simp only [hg, if_false, hp, Bool.not_true, Bool.false_eq_true, hs]
  by_cases hsl : sl = .m
  · subst hsl
    have hf : s.matrixFree = true := by simpa using hm
    simp only [State.matrixFree, Bool.and_eq_true, beq_iff_eq, Option.isNone_iff_eq_none] at hf
    obtain ⟨⟨h1, h2⟩, h3⟩ := hf
    simp only [if_true, State.matrixGate, h1]
    rw [h2]
    cases hl : s.me.mx.leader with
    | none => simp [hs]
    | some l =>
      rw [hl] at h3
      have : l = s.cur := by simpa using h3
      simp [this, hs]
  · simp [hsl]
/-- R35: where no C move's bundle has waited, a guard is what the predicates say. -/
@[simp] theorem Pipe.guardOf_none {p : Pipe} (h : p.cguard = none) (sl : Slot) (g : BitVec 4) : p.guardOf sl g = p.regs.guard g := by
  unfold Pipe.guardOf; split <;> simp_all
/-- R35: so it is for every move that is not of the C slot. -/
theorem Pipe.guardOf_ne {sl : Slot} (h : sl ≠ .c) (p : Pipe) (g : BitVec 4) : p.guardOf sl g = p.regs.guard g := by
  unfold Pipe.guardOf; split <;> simp_all
/-- R35: a move whose guard is false issues and does nothing else. -/
theorem State.issueMove_off {s : State} {sl : Slot} {g : BitVec 4} (hg : g ≠ 8) (hp : s.pipe.guardOf sl g = false) (e : Bool) (f : BitVec 10) (b : Bool)
    (act : Val → State → State) : s.issueMove sl g e f b act = s.issued := by
  unfold State.issueMove
  rw [if_neg hg, hp]
  rfl
/-- R35: the reserved guard raises cause 0x02. -/
theorem State.issueMove_reserved (s : State) (sl : Slot) (e : Bool) (f : BitVec 10) (b : Bool) (act : Val → State → State) :
    s.issueMove sl 8 e f b act = s.trapAt sl 0x02 (s.moveAddr sl) := by
  simp [State.issueMove]
/-- R41: with D naming a register the action runs on it. -/
theorem State.needD_named {s : State} {sl : Slot} (h : s.dNamed sl = true) (act : BitVec 10 → State → State) : s.needD sl act = act (s.dOf sl) s := by
  simp only [State.dNamed, Bool.and_eq_true, Bool.not_eq_true'] at h
  simp [State.needD, State.dOf, h.1, h.2]
/-- R41: with D naming none, and no parity error in it, cause 0x02. -/
theorem State.needD_none {s : State} {sl : Slot} (hb : s.pipe.units.bad.getLsbD sl.index = false) (h : s.dNamed sl = false) (act : BitVec 10 → State → State) :
    s.needD sl act = s.trapAt sl 0x02 (s.moveAddr sl) := by
  simp only [State.dNamed, hb, Bool.not_false, Bool.true_and] at h
  simp [State.needD, hb, h]
/-- R334: a poisoned D is consumed, with what it holds as the address. -/
theorem State.needD_poisoned {s : State} {sl : Slot} (hb : s.pipe.units.bad.getLsbD sl.index = true) (act : BitVec 10 → State → State) :
    s.needD sl act = s.consume sl ((s.dOf sl).setWidth 64) := by
  simp only [State.needD, State.dOf, hb, if_true]
/-- Without poison the action runs. -/
@[simp] theorem State.needClean_clean (s : State) (sl : Slot) (a : W64) (act : State → State) : s.needClean sl false a act = act s := rfl
/-- Poison is consumed. -/
@[simp] theorem State.needClean_poison (s : State) (sl : Slot) (a : W64) (act : State → State) : s.needClean sl true a act = s.consume sl a := rfl
/-- An access that reaches its location goes on there. -/
theorem State.locating_reaches {s t : State} {sl : Slot} {a : W64} {n : Nat} {acc : Access} {l : Loc} (h : s.reaches a n acc l t)
    (act : Loc → State → State) : s.locating sl a n acc act = act l t := by
  obtain ⟨⟨x, hx⟩, ha, hl⟩ := h
  simp [State.locating, hx, ha, hl]
/-- An access to an aligned range of own scratchpad goes on at its offset. -/
theorem State.ownRange_owns {s : State} {a : W64} {align n off : Nat} (h : s.ownsRange a align n off) (sl : Slot) (act : Nat → State → State) :
    s.ownRange sl a align n act = act off s := by
  obtain ⟨h1, h2, h3, h4⟩ := h
  have h5 : ¬ (0x600000 < off + n) := by omega
  simp [State.ownRange, h1, h2, h3, h5]
/-- A sync word that is named is the target. -/
theorem State.syncTarget_names {s : State} {a : W64} {h : CoreId} {off : Nat} (hn : s.namesWord a h off) (sl : Slot) (act : CoreId → Nat → State → State) :
    s.syncTarget sl a act = act h off s := by
  simp [State.syncTarget, hn.1, hn.2]
/-- A usable sync word is used. -/
theorem State.syncUse_usable {s : State} {h : CoreId} {off : Nat} (hu : s.wordUsable h off = true) (sl : Slot) (a : W64) (act : State → State) :
    s.syncUse sl a h off act = act s := by
  simp only [State.wordUsable, Bool.and_eq_true, Bool.not_eq_true'] at hu
  simp [State.syncUse, hu.1, hu.2]

/-! ## Registers (R36, R42, R163) -/

/-- s0 discards what is written. -/
@[simp] theorem RegFile.put_s0 (r : RegFile) (v : Val) : r.put 0 v = r := rfl
/-- m0 discards what is written. -/
@[simp] theorem RegFile.put_m0 (r : RegFile) (v : Val) : r.put 0x88 v = r := rfl
/-- s0 reads 0. -/
@[simp] theorem RegFile.get_s0 (r : RegFile) : r.get 0 = .w64 0 := rfl
/-- m0 reads all ones. -/
@[simp] theorem RegFile.get_m0 (r : RegFile) : r.get 0x88 = .msk (BitVec.allOnes 256) := rfl

/-! ## Accesses at a home (R93) -/

/-- A write at a home copy keeps every memory canonical. -/
theorem State.memWf_homeWrite {s : State} (h : s.memWf) (l : Loc) (bs : List Byte) (bad : Bool) : (s.homeWrite l bs bad).memWf := by
  obtain ⟨h1, h2, h3, h4, h5⟩ := h
  cases l with
  | pa a => exact ⟨Memory.wf_writeBytes h1 a bs, h2, h3, h4, h5⟩
  | sp c o =>
    refine ⟨h1, h2, h3, ?_, h5⟩
    intro d
    by_cases hd : d = c
    · subst hd
      simp only [State.homeWrite, State.core_modCore_self]
      exact Memory.wf_writeBytes (h4 d) o bs
    · simp only [State.homeWrite]
      rw [State.core_modCore_ne _ _ hd]
      exact h4 d
/-- A change of a core that leaves its scratchpad keeps every memory canonical. -/
theorem State.memWf_modCore {s : State} (h : s.memWf) (c : CoreId) (f : Core → Core) (hf : (f (s.core c)).sp = (s.core c).sp) : (s.modCore c f).memWf := by
  obtain ⟨h1, h2, h3, h4, h5⟩ := h
  refine ⟨h1, h2, h3, ?_, h5⟩
  intro d
  by_cases hd : d = c
  · subst hd; rw [State.core_modCore_self, hf]; exact h4 d
  · rw [State.core_modCore_ne _ _ hd]; exact h4 d
/-- A state that holds the same memories keeps them canonical. -/
theorem State.memWf_of_eq {s t : State} (h : s.memWf) (hc : t.cores = s.cores) (hm : t.m.mem = s.m.mem) (hh : t.m.host = s.m.host) (hp : t.m.pmem = s.m.pmem)
    (hv : t.fw.saved = s.fw.saved) : t.memWf := by
  obtain ⟨h1, h2, h3, h4, h5⟩ := h
  refine ⟨hm ▸ h1, hh ▸ h2, hp ▸ h3, ?_, hv ▸ h5⟩
  intro c
  have : t.core c = s.core c := by unfold State.core; simp [hc]
  rw [this]; exact h4 c
/-- A write at the home of a location of memory changes its bytes and no others. -/
theorem State.byteAt_homeWrite_pa {s : State} (h : s.memWf) (a : Nat) (bs : List Byte) (bad : Bool) (l : Loc)
    (hl : ∀ i, i < bs.length → l ≠ .pa (a + i)) : (s.homeWrite (.pa a) bs bad).byteAt l = s.byteAt l := by
  cases l with
  | sp c o => rfl
  | pa x =>
    refine Memory.read_writeBytes_out h.1 a bs ?_
    by_contra hx
    exact hl (x - a) (by omega) (by congr 1; omega)

/-! ## Encodings (Table 2.3) -/

/-- The fields of a parcel are the fields it was made of. -/
theorem ofParcel_parcel (m : MoveFields) : MoveFields.ofParcel m.slot m.parcel = m := by
  obtain ⟨sl, g, d, e, f⟩ := m
  have hb (i : Nat) : (MoveFields.parcel ⟨sl, g, d, e, f⟩).getLsbD i = (g ++ d ++ BitVec.ofBool e ++ f : BitVec (4 + 9 + 1 + 10)).getLsbD i := rfl
  have h1 : (MoveFields.parcel ⟨sl, g, d, e, f⟩).extractLsb' 20 4 = g := by
    apply BitVec.eq_of_getLsbD_eq
    intro i hi
    rw [BitVec.getLsbD_extractLsb', hb]
    simp only [BitVec.getLsbD_append]
    have e1 : ¬ (20 + i < 10) := by omega
    have e2 : ¬ (20 + i - 10 < 1) := by omega
    have e3 : ¬ (20 + i - 10 - 1 < 9) := by omega
    have e4 : 20 + i - 10 - 1 - 9 = i := by omega
    simp only [hi, e1, e2, e3, if_false, e4, decide_true, Bool.true_and]
  have h2 : (MoveFields.parcel ⟨sl, g, d, e, f⟩).extractLsb' 11 9 = d := by
    apply BitVec.eq_of_getLsbD_eq
    intro i hi
    rw [BitVec.getLsbD_extractLsb', hb]
    simp only [BitVec.getLsbD_append]
    have e1 : ¬ (11 + i < 10) := by omega
    have e2 : ¬ (11 + i - 10 < 1) := by omega
    have e3 : 11 + i - 10 - 1 < 9 := by omega
    have e4 : 11 + i - 10 - 1 = i := by omega
    simp only [hi, e1, e2, if_false, e4, decide_true, Bool.true_and, if_true]
  have h3 : (MoveFields.parcel ⟨sl, g, d, e, f⟩).getLsbD 10 = e := by
    rw [hb]
    simp only [BitVec.getLsbD_append]
    simp
  have h4 : (MoveFields.parcel ⟨sl, g, d, e, f⟩).extractLsb' 0 10 = f := by
    apply BitVec.eq_of_getLsbD_eq
    intro i hi
    rw [BitVec.getLsbD_extractLsb', hb]
    simp only [BitVec.getLsbD_append]
    simp [hi]
  unfold MoveFields.ofParcel
  rw [h1, h2, h3, h4]

/-! ## Waits, holds and pieces (R107, R126, R164) -/

/-- A store to memory ends no wait. -/
theorem State.storeAt_pa (s : State) (d : DieId) (ctx : BitVec 16) (lt a : Nat) (bs : List Byte) (bad : Bool) :
    s.storeAt d ctx lt (.pa a) bs bad = s.storeRaw d ctx lt (.pa a) bs bad := rfl
/-- What a wait takes of the word that it is on: GEN where it differs, all ones on an overflow, else nothing. -/
theorem State.bindWait_eq (s : State) (c : CoreId) (a : W64) (g : W32) :
    let x := s.syncGet (syncAddr c a).1 (syncAddr c a).2
    (s.bindWait c a g).1 = if x.gen ≠ g.toNat then some (.bound (.w64 (BitVec.ofNat 64 x.gen)) true) else if x.ovf then some (.bound (.w64 (BitVec.allOnes 64)) false) else none := by
  simp only [State.bindWait]
  split <;> (try split) <;> simp_all
/-- Waits that are recorded hold no place, and nothing else of the core changes. -/
theorem Core.recordWaits_pos (k : Core) : (∀ w ∈ k.recordWaits.pipe.waits, w.pos = none) ∧ k.recordWaits.pipe.regs = k.pipe.regs ∧ k.recordWaits.reqs = k.reqs
    ∧ k.recordWaits.sp = k.sp ∧ k.recordWaits.mx = k.mx := by
  unfold Core.recordWaits
  split
  · rename_i h
    refine ⟨fun w hw => ?_, rfl, rfl, rfl, rfl⟩
    rw [List.isEmpty_iff.1 h] at hw
    cases hw
  · refine ⟨fun w hw => ?_, rfl, rfl, rfl, rfl⟩
    obtain ⟨x, _, h⟩ := List.mem_map.1 (show w ∈ List.map _ _ from hw)
    exact h ▸ rfl
/-- A bundle that reads no v register is served at once. -/
@[simp] theorem Pipe.serve_nil (p : Pipe) (g : Nat) : (p.serve g []).2 = true := rfl
/-- The pieces of a transfer start before its end. -/
theorem pieces_lt {g : Walker} {total hi : Nat} : ∀ {fuel i : Nat} {x : Nat × Nat}, x ∈ pieces g total hi fuel i → x.1 < total
  | 0, _, _, h => by cases h
  | fuel + 1, i, x, h => by
    unfold pieces at h
    split at h
    · cases h
    · rename_i hn
      simp only [Bool.or_eq_true, decide_eq_true_eq, not_or, Nat.not_le] at hn
      rcases List.mem_cons.1 h with rfl | h
      · exact hn.2
      · exact pieces_lt h
/-- What a step performs of a transfer: pieces that start before its end, each for one of its copies. -/
theorem State.window_mem {s : State} {g : Walker} {total copies lo b : Nat} {x : Nat × Nat × Nat} (h : x ∈ s.window g total copies lo b) : x.1 < total ∧ x.2.2 < copies := by
  simp only [State.window, List.mem_filterMap, Option.ite_none_left_eq_some, Option.some.injEq] at h
  obtain ⟨⟨y, n⟩, hy, -, rfl⟩ := h
  have hz := (List.of_mem_zip hy).1
  simp only [List.mem_flatMap, List.mem_filter, List.mem_map, List.mem_range] at hz
  obtain ⟨p, ⟨hp, -⟩, d, hd, rfl⟩ := hz
  exact ⟨pieces_lt hp, hd⟩

end Sys2Proof.Machine
end

