-- ==== Sys2Proof/Laws/PerInstr.lean ====
section
/-! SUPPORT. A family with one lemma for each constructor: the parcel of an instruction's fields gives the fields back (Table 2.3), so no bit
of G, TO, E or FROM is lost between encoder and decoder. A step without an encoding has no fields. -/
namespace Sys2Proof.Laws

namespace ParcelKeepsFields

/-- Whatever fields the encoding tables give an instruction, the parcel of those fields reads back as them. -/
def Statement (i : Instr) : Prop := ∀ m, i.fields = some m → MoveFields.ofParcel m.slot m.parcel = m

theorem bundleDecode : Statement (.bundleDecode) := fun m _ => Sys2Proof.Machine.ofParcel_parcel m
theorem move (slot : Slot) (g : BitVec 4) (d : BitVec 9) (e : Bool) (f : BitVec 10) : Statement (.move slot g d e f) := fun m _ => Sys2Proof.Machine.ofParcel_parcel m
theorem resultLanding (u : Unit7) : Statement (.resultLanding u) := fun m _ => Sys2Proof.Machine.ofParcel_parcel m
theorem longCompletion (n : Nat) : Statement (.longCompletion n) := fun m _ => Sys2Proof.Machine.ofParcel_parcel m
theorem trapEntry : Statement (.trapEntry) := fun m _ => Sys2Proof.Machine.ofParcel_parcel m
theorem containmentUnwind : Statement (.containmentUnwind) := fun m _ => Sys2Proof.Machine.ofParcel_parcel m
theorem pageWalk (va : W64) : Statement (.pageWalk va) := fun m _ => Sys2Proof.Machine.ofParcel_parcel m
theorem translationFault (va : W64) (acc : Access) : Statement (.translationFault va acc) := fun m _ => Sys2Proof.Machine.ofParcel_parcel m
theorem collapseFault (va : W64) : Statement (.collapseFault va) := fun m _ => Sys2Proof.Machine.ofParcel_parcel m
theorem homeAccess (n : Nat) : Statement (.homeAccess n) := fun m _ => Sys2Proof.Machine.ofParcel_parcel m
theorem atomicAtHome (parts : List (CoreId × Nat)) : Statement (.atomicAtHome parts) := fun m _ => Sys2Proof.Machine.ofParcel_parcel m
theorem flueWaitExpiry (n : Nat) : Statement (.flueWaitExpiry n) := fun m _ => Sys2Proof.Machine.ofParcel_parcel m
theorem logicalTimeAdvance (k : BitVec 2) : Statement (.logicalTimeAdvance k) := fun m _ => Sys2Proof.Machine.ofParcel_parcel m
theorem packetHop (n : Nat) : Statement (.packetHop n) := fun m _ => Sys2Proof.Machine.ofParcel_parcel m
theorem flitCrcFailure (d : DieId) (port : Nat) : Statement (.flitCrcFailure d port) := fun m _ => Sys2Proof.Machine.ofParcel_parcel m
theorem linkDown (d : DieId) (port : Nat) : Statement (.linkDown d port) := fun m _ => Sys2Proof.Machine.ofParcel_parcel m
theorem lineWriteback (line : Nat) : Statement (.lineWriteback line) := fun m _ => Sys2Proof.Machine.ofParcel_parcel m
theorem persistTrackerWriteback : Statement (.persistTrackerWriteback) := fun m _ => Sys2Proof.Machine.ofParcel_parcel m
theorem durableCompletion (n : Nat) : Statement (.durableCompletion n) := fun m _ => Sys2Proof.Machine.ofParcel_parcel m
theorem migrationCopyPass (n : Nat) : Statement (.migrationCopyPass n) := fun m _ => Sys2Proof.Machine.ofParcel_parcel m
theorem migrationSwitch (n : Nat) : Statement (.migrationSwitch n) := fun m _ => Sys2Proof.Machine.ofParcel_parcel m
theorem migrationRedirectEnd (n : Nat) : Statement (.migrationRedirectEnd n) := fun m _ => Sys2Proof.Machine.ofParcel_parcel m
theorem hbmReadError (pa : Nat) (uncorrectable : Bool) : Statement (.hbmReadError pa uncorrectable) := fun m _ => Sys2Proof.Machine.ofParcel_parcel m
theorem patrolScrub (d : DieId) (errs : List (Nat × Bool)) : Statement (.patrolScrub d errs) := fun m _ => Sys2Proof.Machine.ofParcel_parcel m
theorem bankIdleExpiry (b : Nat) : Statement (.bankIdleExpiry b) := fun m _ => Sys2Proof.Machine.ofParcel_parcel m
theorem bankEntryComplete (b : Nat) : Statement (.bankEntryComplete b) := fun m _ => Sys2Proof.Machine.ofParcel_parcel m
theorem bankExitComplete (b : Nat) : Statement (.bankExitComplete b) := fun m _ => Sys2Proof.Machine.ofParcel_parcel m
theorem syncArrival (c : CoreId) (off : Nat) (w : W32) : Statement (.syncArrival c off w) := fun m _ => Sys2Proof.Machine.ofParcel_parcel m
theorem engineWritePerformed (k : KUnit) (n : Nat) : Statement (.engineWritePerformed k n) := fun m _ => Sys2Proof.Machine.ofParcel_parcel m
theorem engineCompletion (k : KUnit) (n : Nat) : Statement (.engineCompletion k n) := fun m _ => Sys2Proof.Machine.ofParcel_parcel m
theorem collectiveCall (n : Nat) (rank : Nat) : Statement (.collectiveCall n rank) := fun m _ => Sys2Proof.Machine.ofParcel_parcel m
theorem reductionCombine (n : Nat) (rank : Nat) : Statement (.reductionCombine n rank) := fun m _ => Sys2Proof.Machine.ofParcel_parcel m
theorem xreshPhase (n : Nat) : Statement (.xreshPhase n) := fun m _ => Sys2Proof.Machine.ofParcel_parcel m
theorem xreshSwitch (n : Nat) : Statement (.xreshSwitch n) := fun m _ => Sys2Proof.Machine.ofParcel_parcel m
theorem mopldComplete (slot : BitVec 5) : Statement (.mopldComplete slot) := fun m _ => Sys2Proof.Machine.ofParcel_parcel m
theorem channelDelivery (n : Nat) : Statement (.channelDelivery n) := fun m _ => Sys2Proof.Machine.ofParcel_parcel m
theorem ashpitRefill (ch : BitVec 3) : Statement (.ashpitRefill ch) := fun m _ => Sys2Proof.Machine.ofParcel_parcel m
theorem growCheck (d : DieId) : Statement (.growCheck d) := fun m _ => Sys2Proof.Machine.ofParcel_parcel m
theorem kvReservation (k : KUnit) (n : Nat) : Statement (.kvReservation k n) := fun m _ => Sys2Proof.Machine.ofParcel_parcel m
theorem tileExecution : Statement (.tileExecution) := fun m _ => Sys2Proof.Machine.ofParcel_parcel m
theorem mzeroExecution : Statement (.mzeroExecution) := fun m _ => Sys2Proof.Machine.ofParcel_parcel m
theorem mbankExecution : Statement (.mbankExecution) := fun m _ => Sys2Proof.Machine.ofParcel_parcel m
theorem drainExecution : Statement (.drainExecution) := fun m _ => Sys2Proof.Machine.ofParcel_parcel m
theorem groupFormation : Statement (.groupFormation) := fun m _ => Sys2Proof.Machine.ofParcel_parcel m
theorem tickRelease (ch : BitVec 2) : Statement (.tickRelease ch) := fun m _ => Sys2Proof.Machine.ofParcel_parcel m
theorem stepDeadline (q : BitVec 4) : Statement (.stepDeadline q) := fun m _ => Sys2Proof.Machine.ofParcel_parcel m
theorem ingestDescriptor (q : BitVec 4) : Statement (.ingestDescriptor q) := fun m _ => Sys2Proof.Machine.ofParcel_parcel m
theorem ppsEdge : Statement (.ppsEdge) := fun m _ => Sys2Proof.Machine.ofParcel_parcel m
theorem todFrame (frame : BitVec 96) : Statement (.todFrame frame) := fun m _ => Sys2Proof.Machine.ofParcel_parcel m
theorem timeHoldover : Statement (.timeHoldover) := fun m _ => Sys2Proof.Machine.ofParcel_parcel m
theorem cardDispatch (job : Nat) (c : CoreId) : Statement (.cardDispatch job c) := fun m _ => Sys2Proof.Machine.ofParcel_parcel m
theorem cardDeadlineExpiry : Statement (.cardDeadlineExpiry) := fun m _ => Sys2Proof.Machine.ofParcel_parcel m
theorem coreRejoin : Statement (.coreRejoin) := fun m _ => Sys2Proof.Machine.ofParcel_parcel m
theorem spanPlacement (job : Nat) (ox oy oz : Nat) (cluster : Nat) : Statement (.spanPlacement job ox oy oz cluster) := fun m _ => Sys2Proof.Machine.ofParcel_parcel m
theorem preemption : Statement (.preemption) := fun m _ => Sys2Proof.Machine.ofParcel_parcel m
theorem stateSaveComplete : Statement (.stateSaveComplete) := fun m _ => Sys2Proof.Machine.ofParcel_parcel m
theorem stateLoadComplete (job : Nat) (rank : Nat) (cluster : Nat) : Statement (.stateLoadComplete job rank cluster) := fun m _ => Sys2Proof.Machine.ofParcel_parcel m
theorem quantumExpiry (job : Nat) : Statement (.quantumExpiry job) := fun m _ => Sys2Proof.Machine.ofParcel_parcel m
theorem recordTake : Statement (.recordTake) := fun m _ => Sys2Proof.Machine.ofParcel_parcel m
theorem jobCompletion (job : Nat) : Statement (.jobCompletion job) := fun m _ => Sys2Proof.Machine.ofParcel_parcel m
theorem sinkWatchdogExpiry (ctx : BitVec 16) : Statement (.sinkWatchdogExpiry ctx) := fun m _ => Sys2Proof.Machine.ofParcel_parcel m
theorem killDrainAck (ctx : BitVec 16) (d : DieId) : Statement (.killDrainAck ctx d) := fun m _ => Sys2Proof.Machine.ofParcel_parcel m
theorem killRelease (ctx : BitVec 16) : Statement (.killRelease ctx) := fun m _ => Sys2Proof.Machine.ofParcel_parcel m
theorem lockstepMismatch (d : DieId) (pair : Fin 2) : Statement (.lockstepMismatch d pair) := fun m _ => Sys2Proof.Machine.ofParcel_parcel m
theorem lockstepSelftestDone (d : DieId) (pair : Fin 2) (pass : Bool) : Statement (.lockstepSelftestDone d pair pass) := fun m _ => Sys2Proof.Machine.ofParcel_parcel m
theorem damperMeasure (cluster : Fin 64) (driftPpm : Nat) : Statement (.damperMeasure cluster driftPpm) := fun m _ => Sys2Proof.Machine.ofParcel_parcel m
theorem powerLimitThrottle : Statement (.powerLimitThrottle) := fun m _ => Sys2Proof.Machine.ofParcel_parcel m
theorem powerLimitRestore : Statement (.powerLimitRestore) := fun m _ => Sys2Proof.Machine.ofParcel_parcel m
theorem railOutOfRange : Statement (.railOutOfRange) := fun m _ => Sys2Proof.Machine.ofParcel_parcel m
theorem gpf (port : Fin 2) : Statement (.gpf port) := fun m _ => Sys2Proof.Machine.ofParcel_parcel m
theorem pwrfail : Statement (.pwrfail) := fun m _ => Sys2Proof.Machine.ofParcel_parcel m
theorem duskRecord : Statement (.duskRecord) := fun m _ => Sys2Proof.Machine.ofParcel_parcel m
theorem bringUp (b : BringUpInputs) : Statement (.bringUp b) := fun m _ => Sys2Proof.Machine.ofParcel_parcel m
theorem dieRoutesDrained (d : DieId) : Statement (.dieRoutesDrained d) := fun m _ => Sys2Proof.Machine.ofParcel_parcel m
theorem dieRejoin (d : DieId) : Statement (.dieRejoin d) := fun m _ => Sys2Proof.Machine.ofParcel_parcel m
theorem hostHdmStore (pa : Nat) (data : List Byte) : Statement (.hostHdmStore pa data) := fun m _ => Sys2Proof.Machine.ofParcel_parcel m
theorem hostHdmLoad (pa : Nat) (n : Nat) : Statement (.hostHdmLoad pa n) := fun m _ => Sys2Proof.Machine.ofParcel_parcel m
theorem queueTailWrite (q : BitVec 2) (tail : W64) : Statement (.queueTailWrite q tail) := fun m _ => Sys2Proof.Machine.ofParcel_parcel m
theorem queueEnable (q : BitVec 2) (en : Bool) : Statement (.queueEnable q en) := fun m _ => Sys2Proof.Machine.ofParcel_parcel m
theorem queueRegisterWrite (q : BitVec 2) (off : BitVec 6) (x : W64) : Statement (.queueRegisterWrite q off x) := fun m _ => Sys2Proof.Machine.ofParcel_parcel m
theorem ident (n : Nat) : Statement (.ident n) := fun m _ => Sys2Proof.Machine.ofParcel_parcel m
theorem attest (n : Nat) : Statement (.attest n) := fun m _ => Sys2Proof.Machine.ofParcel_parcel m
theorem configure (n : Nat) : Statement (.configure n) := fun m _ => Sys2Proof.Machine.ofParcel_parcel m
theorem contextCreate (n : Nat) : Statement (.contextCreate n) := fun m _ => Sys2Proof.Machine.ofParcel_parcel m
theorem contextKill (n : Nat) : Statement (.contextKill n) := fun m _ => Sys2Proof.Machine.ofParcel_parcel m
theorem mapPages (n : Nat) : Statement (.mapPages n) := fun m _ => Sys2Proof.Machine.ofParcel_parcel m
theorem unmap (n : Nat) : Statement (.unmap n) := fun m _ => Sys2Proof.Machine.ofParcel_parcel m
theorem protect (n : Nat) : Statement (.protect n) := fun m _ => Sys2Proof.Machine.ofParcel_parcel m
theorem migrate (n : Nat) : Statement (.migrate n) := fun m _ => Sys2Proof.Machine.ofParcel_parcel m
theorem replicate (n : Nat) : Statement (.replicate n) := fun m _ => Sys2Proof.Machine.ofParcel_parcel m
theorem heatRead (n : Nat) : Statement (.heatRead n) := fun m _ => Sys2Proof.Machine.ofParcel_parcel m
theorem launchCommand (n : Nat) : Statement (.launchCommand n) := fun m _ => Sys2Proof.Machine.ofParcel_parcel m
theorem streamCreate (n : Nat) : Statement (.streamCreate n) := fun m _ => Sys2Proof.Machine.ofParcel_parcel m
theorem streamDestroy (n : Nat) : Statement (.streamDestroy n) := fun m _ => Sys2Proof.Machine.ofParcel_parcel m
theorem settimeStep (n : Nat) : Statement (.settimeStep n) := fun m _ => Sys2Proof.Machine.ofParcel_parcel m
theorem settimeAdd (n : Nat) : Statement (.settimeAdd n) := fun m _ => Sys2Proof.Machine.ofParcel_parcel m
theorem settimeSource (n : Nat) : Statement (.settimeSource n) := fun m _ => Sys2Proof.Machine.ofParcel_parcel m
theorem tickCfg (n : Nat) : Statement (.tickCfg n) := fun m _ => Sys2Proof.Machine.ofParcel_parcel m
theorem ingestCfg (n : Nat) : Statement (.ingestCfg n) := fun m _ => Sys2Proof.Machine.ofParcel_parcel m
theorem kvpoolCfg (n : Nat) : Statement (.kvpoolCfg n) := fun m _ => Sys2Proof.Machine.ofParcel_parcel m
theorem pfxCfg (n : Nat) : Statement (.pfxCfg n) := fun m _ => Sys2Proof.Machine.ofParcel_parcel m
theorem dieReset (n : Nat) : Statement (.dieReset n) := fun m _ => Sys2Proof.Machine.ofParcel_parcel m
theorem dieIsolate (n : Nat) : Statement (.dieIsolate n) := fun m _ => Sys2Proof.Machine.ofParcel_parcel m
theorem rasQuery (n : Nat) : Statement (.rasQuery n) := fun m _ => Sys2Proof.Machine.ofParcel_parcel m
theorem retireQuery (n : Nat) : Statement (.retireQuery n) := fun m _ => Sys2Proof.Machine.ofParcel_parcel m
theorem durableFlush (n : Nat) : Statement (.durableFlush n) := fun m _ => Sys2Proof.Machine.ofParcel_parcel m
theorem shutdown (n : Nat) : Statement (.shutdown n) := fun m _ => Sys2Proof.Machine.ofParcel_parcel m
theorem dawnReport (n : Nat) : Statement (.dawnReport n) := fun m _ => Sys2Proof.Machine.ofParcel_parcel m
theorem getVersion : Statement (.getVersion) := fun m _ => Sys2Proof.Machine.ofParcel_parcel m
theorem getCapabilities : Statement (.getCapabilities) := fun m _ => Sys2Proof.Machine.ofParcel_parcel m
theorem negotiateAlgorithms : Statement (.negotiateAlgorithms) := fun m _ => Sys2Proof.Machine.ofParcel_parcel m
theorem getDigests : Statement (.getDigests) := fun m _ => Sys2Proof.Machine.ofParcel_parcel m
theorem getCertificate : Statement (.getCertificate) := fun m _ => Sys2Proof.Machine.ofParcel_parcel m
theorem challenge (nonce : BitVec 256) : Statement (.challenge nonce) := fun m _ => Sys2Proof.Machine.ofParcel_parcel m
theorem getMeasurements (index : Nat) (nonce : BitVec 256) : Statement (.getMeasurements index nonce) := fun m _ => Sys2Proof.Machine.ofParcel_parcel m
theorem spdmSessionMessage : Statement (.spdmSessionMessage) := fun m _ => Sys2Proof.Machine.ofParcel_parcel m
theorem mapreq : Statement (.mapreq) := fun m _ => Sys2Proof.Machine.ofParcel_parcel m
theorem unmapreq : Statement (.unmapreq) := fun m _ => Sys2Proof.Machine.ofParcel_parcel m
theorem protreq : Statement (.protreq) := fun m _ => Sys2Proof.Machine.ofParcel_parcel m
theorem notify : Statement (.notify) := fun m _ => Sys2Proof.Machine.ofParcel_parcel m
theorem rascount : Statement (.rascount) := fun m _ => Sys2Proof.Machine.ofParcel_parcel m
theorem br (g : BitVec 4) (e : Bool) (f : BitVec 10) : Statement (.br g e f) := fun m _ => Sys2Proof.Machine.ofParcel_parcel m
theorem bri (g : BitVec 4) (e : Bool) (f : BitVec 10) : Statement (.bri g e f) := fun m _ => Sys2Proof.Machine.ofParcel_parcel m
theorem call (g : BitVec 4) (e : Bool) (f : BitVec 10) : Statement (.call g e f) := fun m _ => Sys2Proof.Machine.ofParcel_parcel m
theorem calli (g : BitVec 4) (e : Bool) (f : BitVec 10) : Statement (.calli g e f) := fun m _ => Sys2Proof.Machine.ofParcel_parcel m
theorem ret (g : BitVec 4) (e : Bool) (f : BitVec 10) : Statement (.ret g e f) := fun m _ => Sys2Proof.Machine.ofParcel_parcel m
theorem loop (g : BitVec 4) (n : BitVec 1) (e : Bool) (f : BitVec 10) : Statement (.loop g n e f) := fun m _ => Sys2Proof.Machine.ofParcel_parcel m
theorem endl (g : BitVec 4) (n : BitVec 1) (e : Bool) (f : BitVec 10) : Statement (.endl g n e f) := fun m _ => Sys2Proof.Machine.ofParcel_parcel m
theorem setf (g : BitVec 4) (n : BitVec 3) (e : Bool) (f : BitVec 10) : Statement (.setf g n e f) := fun m _ => Sys2Proof.Machine.ofParcel_parcel m
theorem setrm (g : BitVec 4) (e : Bool) (f : BitVec 10) : Statement (.setrm g e f) := fun m _ => Sys2Proof.Machine.ofParcel_parcel m
theorem fenceAcq (g : BitVec 4) (sc : BitVec 2) (e : Bool) (f : BitVec 10) : Statement (.fenceAcq g sc e f) := fun m _ => Sys2Proof.Machine.ofParcel_parcel m
theorem fenceRel (g : BitVec 4) (sc : BitVec 2) (e : Bool) (f : BitVec 10) : Statement (.fenceRel g sc e f) := fun m _ => Sys2Proof.Machine.ofParcel_parcel m
theorem fenceAr (g : BitVec 4) (sc : BitVec 2) (e : Bool) (f : BitVec 10) : Statement (.fenceAr g sc e f) := fun m _ => Sys2Proof.Machine.ofParcel_parcel m
theorem xfence (g : BitVec 4) (e : Bool) (f : BitVec 10) : Statement (.xfence g e f) := fun m _ => Sys2Proof.Machine.ofParcel_parcel m
theorem pbar (g : BitVec 4) (e : Bool) (f : BitVec 10) : Statement (.pbar g e f) := fun m _ => Sys2Proof.Machine.ofParcel_parcel m
theorem bara (g : BitVec 4) (e : Bool) (f : BitVec 10) : Statement (.bara g e f) := fun m _ => Sys2Proof.Machine.ofParcel_parcel m
theorem baraRlx (g : BitVec 4) (e : Bool) (f : BitVec 10) : Statement (.baraRlx g e f) := fun m _ => Sys2Proof.Machine.ofParcel_parcel m
theorem barw (g : BitVec 4) (e : Bool) (f : BitVec 10) : Statement (.barw g e f) := fun m _ => Sys2Proof.Machine.ofParcel_parcel m
theorem bart (g : BitVec 4) (e : Bool) (f : BitVec 10) : Statement (.bart g e f) := fun m _ => Sys2Proof.Machine.ofParcel_parcel m
theorem fork (g : BitVec 4) (e : Bool) (f : BitVec 10) : Statement (.fork g e f) := fun m _ => Sys2Proof.Machine.ofParcel_parcel m
theorem join (g : BitVec 4) (e : Bool) (f : BitVec 10) : Statement (.join g e f) := fun m _ => Sys2Proof.Machine.ofParcel_parcel m
theorem yield (g : BitVec 4) (e : Bool) (f : BitVec 10) : Statement (.yield g e f) := fun m _ => Sys2Proof.Machine.ofParcel_parcel m
theorem endTask (g : BitVec 4) (e : Bool) (f : BitVec 10) : Statement (.endTask g e f) := fun m _ => Sys2Proof.Machine.ofParcel_parcel m
theorem tickw (g : BitVec 4) (e : Bool) (f : BitVec 10) : Statement (.tickw g e f) := fun m _ => Sys2Proof.Machine.ofParcel_parcel m
theorem launch (g : BitVec 4) (e : Bool) (f : BitVec 10) : Statement (.launch g e f) := fun m _ => Sys2Proof.Machine.ofParcel_parcel m
theorem trap (g : BitVec 4) (e : Bool) (f : BitVec 10) : Statement (.trap g e f) := fun m _ => Sys2Proof.Machine.ofParcel_parcel m
theorem tret (g : BitVec 4) (e : Bool) (f : BitVec 10) : Statement (.tret g e f) := fun m _ => Sys2Proof.Machine.ofParcel_parcel m
theorem crgnOpen (g : BitVec 4) (e : Bool) (f : BitVec 10) : Statement (.crgnOpen g e f) := fun m _ => Sys2Proof.Machine.ofParcel_parcel m
theorem crgnClose (g : BitVec 4) (e : Bool) (f : BitVec 10) : Statement (.crgnClose g e f) := fun m _ => Sys2Proof.Machine.ofParcel_parcel m
theorem svc (g : BitVec 4) (e : Bool) (f : BitVec 10) : Statement (.svc g e f) := fun m _ => Sys2Proof.Machine.ofParcel_parcel m
theorem abort (g : BitVec 4) (e : Bool) (f : BitVec 10) : Statement (.abort g e f) := fun m _ => Sys2Proof.Machine.ofParcel_parcel m
theorem srrd (g : BitVec 4) (e : Bool) (f : BitVec 10) : Statement (.srrd g e f) := fun m _ => Sys2Proof.Machine.ofParcel_parcel m
theorem srwr (g : BitVec 4) (e : Bool) (f : BitVec 10) : Statement (.srwr g e f) := fun m _ => Sys2Proof.Machine.ofParcel_parcel m
theorem add (g : BitVec 4) (e : Bool) (f : BitVec 10) : Statement (.add g e f) := fun m _ => Sys2Proof.Machine.ofParcel_parcel m
theorem sub (g : BitVec 4) (e : Bool) (f : BitVec 10) : Statement (.sub g e f) := fun m _ => Sys2Proof.Machine.ofParcel_parcel m
theorem mul (g : BitVec 4) (e : Bool) (f : BitVec 10) : Statement (.mul g e f) := fun m _ => Sys2Proof.Machine.ofParcel_parcel m
theorem mulh (g : BitVec 4) (e : Bool) (f : BitVec 10) : Statement (.mulh g e f) := fun m _ => Sys2Proof.Machine.ofParcel_parcel m
theorem mulhu (g : BitVec 4) (e : Bool) (f : BitVec 10) : Statement (.mulhu g e f) := fun m _ => Sys2Proof.Machine.ofParcel_parcel m
theorem and (g : BitVec 4) (e : Bool) (f : BitVec 10) : Statement (.and g e f) := fun m _ => Sys2Proof.Machine.ofParcel_parcel m
theorem or (g : BitVec 4) (e : Bool) (f : BitVec 10) : Statement (.or g e f) := fun m _ => Sys2Proof.Machine.ofParcel_parcel m
theorem xor (g : BitVec 4) (e : Bool) (f : BitVec 10) : Statement (.xor g e f) := fun m _ => Sys2Proof.Machine.ofParcel_parcel m
theorem andn (g : BitVec 4) (e : Bool) (f : BitVec 10) : Statement (.andn g e f) := fun m _ => Sys2Proof.Machine.ofParcel_parcel m
theorem shl (g : BitVec 4) (e : Bool) (f : BitVec 10) : Statement (.shl g e f) := fun m _ => Sys2Proof.Machine.ofParcel_parcel m
theorem shr (g : BitVec 4) (e : Bool) (f : BitVec 10) : Statement (.shr g e f) := fun m _ => Sys2Proof.Machine.ofParcel_parcel m
theorem sar (g : BitVec 4) (e : Bool) (f : BitVec 10) : Statement (.sar g e f) := fun m _ => Sys2Proof.Machine.ofParcel_parcel m
theorem rotl (g : BitVec 4) (e : Bool) (f : BitVec 10) : Statement (.rotl g e f) := fun m _ => Sys2Proof.Machine.ofParcel_parcel m
theorem minS (g : BitVec 4) (e : Bool) (f : BitVec 10) : Statement (.minS g e f) := fun m _ => Sys2Proof.Machine.ofParcel_parcel m
theorem maxS (g : BitVec 4) (e : Bool) (f : BitVec 10) : Statement (.maxS g e f) := fun m _ => Sys2Proof.Machine.ofParcel_parcel m
theorem minu (g : BitVec 4) (e : Bool) (f : BitVec 10) : Statement (.minu g e f) := fun m _ => Sys2Proof.Machine.ofParcel_parcel m
theorem maxu (g : BitVec 4) (e : Bool) (f : BitVec 10) : Statement (.maxu g e f) := fun m _ => Sys2Proof.Machine.ofParcel_parcel m
theorem clz (g : BitVec 4) (e : Bool) (f : BitVec 10) : Statement (.clz g e f) := fun m _ => Sys2Proof.Machine.ofParcel_parcel m
theorem ctz (g : BitVec 4) (e : Bool) (f : BitVec 10) : Statement (.ctz g e f) := fun m _ => Sys2Proof.Machine.ofParcel_parcel m
theorem popc (g : BitVec 4) (e : Bool) (f : BitVec 10) : Statement (.popc g e f) := fun m _ => Sys2Proof.Machine.ofParcel_parcel m
theorem sextB (g : BitVec 4) (e : Bool) (f : BitVec 10) : Statement (.sextB g e f) := fun m _ => Sys2Proof.Machine.ofParcel_parcel m
theorem sextH (g : BitVec 4) (e : Bool) (f : BitVec 10) : Statement (.sextH g e f) := fun m _ => Sys2Proof.Machine.ofParcel_parcel m
theorem sextW (g : BitVec 4) (e : Bool) (f : BitVec 10) : Statement (.sextW g e f) := fun m _ => Sys2Proof.Machine.ofParcel_parcel m
theorem zextB (g : BitVec 4) (e : Bool) (f : BitVec 10) : Statement (.zextB g e f) := fun m _ => Sys2Proof.Machine.ofParcel_parcel m
theorem zextH (g : BitVec 4) (e : Bool) (f : BitVec 10) : Statement (.zextH g e f) := fun m _ => Sys2Proof.Machine.ofParcel_parcel m
theorem zextW (g : BitVec 4) (e : Bool) (f : BitVec 10) : Statement (.zextW g e f) := fun m _ => Sys2Proof.Machine.ofParcel_parcel m
theorem sel (g : BitVec 4) (e : Bool) (f : BitVec 10) : Statement (.sel g e f) := fun m _ => Sys2Proof.Machine.ofParcel_parcel m
theorem addW (g : BitVec 4) (e : Bool) (f : BitVec 10) : Statement (.addW g e f) := fun m _ => Sys2Proof.Machine.ofParcel_parcel m
theorem subW (g : BitVec 4) (e : Bool) (f : BitVec 10) : Statement (.subW g e f) := fun m _ => Sys2Proof.Machine.ofParcel_parcel m
theorem mulW (g : BitVec 4) (e : Bool) (f : BitVec 10) : Statement (.mulW g e f) := fun m _ => Sys2Proof.Machine.ofParcel_parcel m
theorem lea (g : BitVec 4) (e : Bool) (f : BitVec 10) : Statement (.lea g e f) := fun m _ => Sys2Proof.Machine.ofParcel_parcel m
theorem cmpEq (g : BitVec 4) (e : Bool) (f : BitVec 10) : Statement (.cmpEq g e f) := fun m _ => Sys2Proof.Machine.ofParcel_parcel m
theorem cmpNe (g : BitVec 4) (e : Bool) (f : BitVec 10) : Statement (.cmpNe g e f) := fun m _ => Sys2Proof.Machine.ofParcel_parcel m
theorem cmpLt (g : BitVec 4) (e : Bool) (f : BitVec 10) : Statement (.cmpLt g e f) := fun m _ => Sys2Proof.Machine.ofParcel_parcel m
theorem cmpLe (g : BitVec 4) (e : Bool) (f : BitVec 10) : Statement (.cmpLe g e f) := fun m _ => Sys2Proof.Machine.ofParcel_parcel m
theorem cmpLtu (g : BitVec 4) (e : Bool) (f : BitVec 10) : Statement (.cmpLtu g e f) := fun m _ => Sys2Proof.Machine.ofParcel_parcel m
theorem cmpLeu (g : BitVec 4) (e : Bool) (f : BitVec 10) : Statement (.cmpLeu g e f) := fun m _ => Sys2Proof.Machine.ofParcel_parcel m
theorem div (g : BitVec 4) (e : Bool) (f : BitVec 10) : Statement (.div g e f) := fun m _ => Sys2Proof.Machine.ofParcel_parcel m
theorem divu (g : BitVec 4) (e : Bool) (f : BitVec 10) : Statement (.divu g e f) := fun m _ => Sys2Proof.Machine.ofParcel_parcel m
theorem rem (g : BitVec 4) (e : Bool) (f : BitVec 10) : Statement (.rem g e f) := fun m _ => Sys2Proof.Machine.ofParcel_parcel m
theorem remu (g : BitVec 4) (e : Bool) (f : BitVec 10) : Statement (.remu g e f) := fun m _ => Sys2Proof.Machine.ofParcel_parcel m
theorem divW (g : BitVec 4) (e : Bool) (f : BitVec 10) : Statement (.divW g e f) := fun m _ => Sys2Proof.Machine.ofParcel_parcel m
theorem divuW (g : BitVec 4) (e : Bool) (f : BitVec 10) : Statement (.divuW g e f) := fun m _ => Sys2Proof.Machine.ofParcel_parcel m
theorem remW (g : BitVec 4) (e : Bool) (f : BitVec 10) : Statement (.remW g e f) := fun m _ => Sys2Proof.Machine.ofParcel_parcel m
theorem remuW (g : BitVec 4) (e : Bool) (f : BitVec 10) : Statement (.remuW g e f) := fun m _ => Sys2Proof.Machine.ofParcel_parcel m
theorem ldB (g : BitVec 4) (cl : BitVec 2) (e : Bool) (f : BitVec 10) : Statement (.ldB g cl e f) := fun m _ => Sys2Proof.Machine.ofParcel_parcel m
theorem ldH (g : BitVec 4) (cl : BitVec 2) (e : Bool) (f : BitVec 10) : Statement (.ldH g cl e f) := fun m _ => Sys2Proof.Machine.ofParcel_parcel m
theorem ldW (g : BitVec 4) (cl : BitVec 2) (e : Bool) (f : BitVec 10) : Statement (.ldW g cl e f) := fun m _ => Sys2Proof.Machine.ofParcel_parcel m
theorem ldD (g : BitVec 4) (cl : BitVec 2) (e : Bool) (f : BitVec 10) : Statement (.ldD g cl e f) := fun m _ => Sys2Proof.Machine.ofParcel_parcel m
theorem lduB (g : BitVec 4) (cl : BitVec 2) (e : Bool) (f : BitVec 10) : Statement (.lduB g cl e f) := fun m _ => Sys2Proof.Machine.ofParcel_parcel m
theorem lduH (g : BitVec 4) (cl : BitVec 2) (e : Bool) (f : BitVec 10) : Statement (.lduH g cl e f) := fun m _ => Sys2Proof.Machine.ofParcel_parcel m
theorem lduW (g : BitVec 4) (cl : BitVec 2) (e : Bool) (f : BitVec 10) : Statement (.lduW g cl e f) := fun m _ => Sys2Proof.Machine.ofParcel_parcel m
theorem stB (g : BitVec 4) (cl : BitVec 2) (e : Bool) (f : BitVec 10) : Statement (.stB g cl e f) := fun m _ => Sys2Proof.Machine.ofParcel_parcel m
theorem stH (g : BitVec 4) (cl : BitVec 2) (e : Bool) (f : BitVec 10) : Statement (.stH g cl e f) := fun m _ => Sys2Proof.Machine.ofParcel_parcel m
theorem stW (g : BitVec 4) (cl : BitVec 2) (e : Bool) (f : BitVec 10) : Statement (.stW g cl e f) := fun m _ => Sys2Proof.Machine.ofParcel_parcel m
theorem stD (g : BitVec 4) (cl : BitVec 2) (e : Bool) (f : BitVec 10) : Statement (.stD g cl e f) := fun m _ => Sys2Proof.Machine.ofParcel_parcel m
theorem pwldW (g : BitVec 4) (n : BitVec 3) (e : Bool) (f : BitVec 10) : Statement (.pwldW g n e f) := fun m _ => Sys2Proof.Machine.ofParcel_parcel m
theorem pwldD (g : BitVec 4) (n : BitVec 3) (e : Bool) (f : BitVec 10) : Statement (.pwldD g n e f) := fun m _ => Sys2Proof.Machine.ofParcel_parcel m
theorem aadd (g : BitVec 4) (w : BitVec 1) (e : Bool) (f : BitVec 10) : Statement (.aadd g w e f) := fun m _ => Sys2Proof.Machine.ofParcel_parcel m
theorem amin (g : BitVec 4) (w : BitVec 1) (e : Bool) (f : BitVec 10) : Statement (.amin g w e f) := fun m _ => Sys2Proof.Machine.ofParcel_parcel m
theorem amax (g : BitVec 4) (w : BitVec 1) (e : Bool) (f : BitVec 10) : Statement (.amax g w e f) := fun m _ => Sys2Proof.Machine.ofParcel_parcel m
theorem aminu (g : BitVec 4) (w : BitVec 1) (e : Bool) (f : BitVec 10) : Statement (.aminu g w e f) := fun m _ => Sys2Proof.Machine.ofParcel_parcel m
theorem amaxu (g : BitVec 4) (w : BitVec 1) (e : Bool) (f : BitVec 10) : Statement (.amaxu g w e f) := fun m _ => Sys2Proof.Machine.ofParcel_parcel m
theorem aand (g : BitVec 4) (w : BitVec 1) (e : Bool) (f : BitVec 10) : Statement (.aand g w e f) := fun m _ => Sys2Proof.Machine.ofParcel_parcel m
theorem aor (g : BitVec 4) (w : BitVec 1) (e : Bool) (f : BitVec 10) : Statement (.aor g w e f) := fun m _ => Sys2Proof.Machine.ofParcel_parcel m
theorem axor (g : BitVec 4) (w : BitVec 1) (e : Bool) (f : BitVec 10) : Statement (.axor g w e f) := fun m _ => Sys2Proof.Machine.ofParcel_parcel m
theorem axchg (g : BitVec 4) (w : BitVec 1) (e : Bool) (f : BitVec 10) : Statement (.axchg g w e f) := fun m _ => Sys2Proof.Machine.ofParcel_parcel m
theorem acas (g : BitVec 4) (w : BitVec 1) (e : Bool) (f : BitVec 10) : Statement (.acas g w e f) := fun m _ => Sys2Proof.Machine.ofParcel_parcel m
theorem aaddN (g : BitVec 4) (w : BitVec 1) (e : Bool) (f : BitVec 10) : Statement (.aaddN g w e f) := fun m _ => Sys2Proof.Machine.ofParcel_parcel m
theorem aminN (g : BitVec 4) (w : BitVec 1) (e : Bool) (f : BitVec 10) : Statement (.aminN g w e f) := fun m _ => Sys2Proof.Machine.ofParcel_parcel m
theorem amaxN (g : BitVec 4) (w : BitVec 1) (e : Bool) (f : BitVec 10) : Statement (.amaxN g w e f) := fun m _ => Sys2Proof.Machine.ofParcel_parcel m
theorem aminuN (g : BitVec 4) (w : BitVec 1) (e : Bool) (f : BitVec 10) : Statement (.aminuN g w e f) := fun m _ => Sys2Proof.Machine.ofParcel_parcel m
theorem amaxuN (g : BitVec 4) (w : BitVec 1) (e : Bool) (f : BitVec 10) : Statement (.amaxuN g w e f) := fun m _ => Sys2Proof.Machine.ofParcel_parcel m
theorem aandN (g : BitVec 4) (w : BitVec 1) (e : Bool) (f : BitVec 10) : Statement (.aandN g w e f) := fun m _ => Sys2Proof.Machine.ofParcel_parcel m
theorem aorN (g : BitVec 4) (w : BitVec 1) (e : Bool) (f : BitVec 10) : Statement (.aorN g w e f) := fun m _ => Sys2Proof.Machine.ofParcel_parcel m
theorem axorN (g : BitVec 4) (w : BitVec 1) (e : Bool) (f : BitVec 10) : Statement (.axorN g w e f) := fun m _ => Sys2Proof.Machine.ofParcel_parcel m
theorem msel (u : VUnit) (g : BitVec 4) (e : Bool) (f : BitVec 10) : Statement (.msel u g e f) := fun m _ => Sys2Proof.Machine.ofParcel_parcel m
theorem fadd (u : VUnit) (g : BitVec 4) (t : BitVec 2) (e : Bool) (f : BitVec 10) : Statement (.fadd u g t e f) := fun m _ => Sys2Proof.Machine.ofParcel_parcel m
theorem fsub (u : VUnit) (g : BitVec 4) (t : BitVec 2) (e : Bool) (f : BitVec 10) : Statement (.fsub u g t e f) := fun m _ => Sys2Proof.Machine.ofParcel_parcel m
theorem fmul (u : VUnit) (g : BitVec 4) (t : BitVec 2) (e : Bool) (f : BitVec 10) : Statement (.fmul u g t e f) := fun m _ => Sys2Proof.Machine.ofParcel_parcel m
theorem ffma (u : VUnit) (g : BitVec 4) (t : BitVec 2) (e : Bool) (f : BitVec 10) : Statement (.ffma u g t e f) := fun m _ => Sys2Proof.Machine.ofParcel_parcel m
theorem ffms (u : VUnit) (g : BitVec 4) (t : BitVec 2) (e : Bool) (f : BitVec 10) : Statement (.ffms u g t e f) := fun m _ => Sys2Proof.Machine.ofParcel_parcel m
theorem fnma (u : VUnit) (g : BitVec 4) (t : BitVec 2) (e : Bool) (f : BitVec 10) : Statement (.fnma u g t e f) := fun m _ => Sys2Proof.Machine.ofParcel_parcel m
theorem fmin (u : VUnit) (g : BitVec 4) (t : BitVec 2) (e : Bool) (f : BitVec 10) : Statement (.fmin u g t e f) := fun m _ => Sys2Proof.Machine.ofParcel_parcel m
theorem fmax (u : VUnit) (g : BitVec 4) (t : BitVec 2) (e : Bool) (f : BitVec 10) : Statement (.fmax u g t e f) := fun m _ => Sys2Proof.Machine.ofParcel_parcel m
theorem fabs (u : VUnit) (g : BitVec 4) (t : BitVec 2) (e : Bool) (f : BitVec 10) : Statement (.fabs u g t e f) := fun m _ => Sys2Proof.Machine.ofParcel_parcel m
theorem fneg (u : VUnit) (g : BitVec 4) (t : BitVec 2) (e : Bool) (f : BitVec 10) : Statement (.fneg u g t e f) := fun m _ => Sys2Proof.Machine.ofParcel_parcel m
theorem fcpys (u : VUnit) (g : BitVec 4) (t : BitVec 2) (e : Bool) (f : BitVec 10) : Statement (.fcpys u g t e f) := fun m _ => Sys2Proof.Machine.ofParcel_parcel m
theorem fcmpEq (u : VUnit) (g : BitVec 4) (e : Bool) (f : BitVec 10) : Statement (.fcmpEq u g e f) := fun m _ => Sys2Proof.Machine.ofParcel_parcel m
theorem fcmpNe (u : VUnit) (g : BitVec 4) (e : Bool) (f : BitVec 10) : Statement (.fcmpNe u g e f) := fun m _ => Sys2Proof.Machine.ofParcel_parcel m
theorem fcmpLt (u : VUnit) (g : BitVec 4) (e : Bool) (f : BitVec 10) : Statement (.fcmpLt u g e f) := fun m _ => Sys2Proof.Machine.ofParcel_parcel m
theorem fcmpLe (u : VUnit) (g : BitVec 4) (e : Bool) (f : BitVec 10) : Statement (.fcmpLe u g e f) := fun m _ => Sys2Proof.Machine.ofParcel_parcel m
theorem fcmpUn (u : VUnit) (g : BitVec 4) (e : Bool) (f : BitVec 10) : Statement (.fcmpUn u g e f) := fun m _ => Sys2Proof.Machine.ofParcel_parcel m
theorem vsel (u : VUnit) (g : BitVec 4) (e : Bool) (f : BitVec 10) : Statement (.vsel u g e f) := fun m _ => Sys2Proof.Machine.ofParcel_parcel m
theorem iadd (u : VUnit) (g : BitVec 4) (e : Bool) (f : BitVec 10) : Statement (.iadd u g e f) := fun m _ => Sys2Proof.Machine.ofParcel_parcel m
theorem isub (u : VUnit) (g : BitVec 4) (e : Bool) (f : BitVec 10) : Statement (.isub u g e f) := fun m _ => Sys2Proof.Machine.ofParcel_parcel m
theorem imul (u : VUnit) (g : BitVec 4) (e : Bool) (f : BitVec 10) : Statement (.imul u g e f) := fun m _ => Sys2Proof.Machine.ofParcel_parcel m
theorem imulh (u : VUnit) (g : BitVec 4) (e : Bool) (f : BitVec 10) : Statement (.imulh u g e f) := fun m _ => Sys2Proof.Machine.ofParcel_parcel m
theorem imulhu (u : VUnit) (g : BitVec 4) (e : Bool) (f : BitVec 10) : Statement (.imulhu u g e f) := fun m _ => Sys2Proof.Machine.ofParcel_parcel m
theorem iand (u : VUnit) (g : BitVec 4) (e : Bool) (f : BitVec 10) : Statement (.iand u g e f) := fun m _ => Sys2Proof.Machine.ofParcel_parcel m
theorem ior (u : VUnit) (g : BitVec 4) (e : Bool) (f : BitVec 10) : Statement (.ior u g e f) := fun m _ => Sys2Proof.Machine.ofParcel_parcel m
theorem ixor (u : VUnit) (g : BitVec 4) (e : Bool) (f : BitVec 10) : Statement (.ixor u g e f) := fun m _ => Sys2Proof.Machine.ofParcel_parcel m
theorem iandn (u : VUnit) (g : BitVec 4) (e : Bool) (f : BitVec 10) : Statement (.iandn u g e f) := fun m _ => Sys2Proof.Machine.ofParcel_parcel m
theorem ishl (u : VUnit) (g : BitVec 4) (e : Bool) (f : BitVec 10) : Statement (.ishl u g e f) := fun m _ => Sys2Proof.Machine.ofParcel_parcel m
theorem ishr (u : VUnit) (g : BitVec 4) (e : Bool) (f : BitVec 10) : Statement (.ishr u g e f) := fun m _ => Sys2Proof.Machine.ofParcel_parcel m
theorem isar (u : VUnit) (g : BitVec 4) (e : Bool) (f : BitVec 10) : Statement (.isar u g e f) := fun m _ => Sys2Proof.Machine.ofParcel_parcel m
theorem imin (u : VUnit) (g : BitVec 4) (e : Bool) (f : BitVec 10) : Statement (.imin u g e f) := fun m _ => Sys2Proof.Machine.ofParcel_parcel m
theorem imax (u : VUnit) (g : BitVec 4) (e : Bool) (f : BitVec 10) : Statement (.imax u g e f) := fun m _ => Sys2Proof.Machine.ofParcel_parcel m
theorem iminu (u : VUnit) (g : BitVec 4) (e : Bool) (f : BitVec 10) : Statement (.iminu u g e f) := fun m _ => Sys2Proof.Machine.ofParcel_parcel m
theorem imaxu (u : VUnit) (g : BitVec 4) (e : Bool) (f : BitVec 10) : Statement (.imaxu u g e f) := fun m _ => Sys2Proof.Machine.ofParcel_parcel m
theorem iabs (u : VUnit) (g : BitVec 4) (e : Bool) (f : BitVec 10) : Statement (.iabs u g e f) := fun m _ => Sys2Proof.Machine.ofParcel_parcel m
theorem iaddSat (u : VUnit) (g : BitVec 4) (e : Bool) (f : BitVec 10) : Statement (.iaddSat u g e f) := fun m _ => Sys2Proof.Machine.ofParcel_parcel m
theorem isubSat (u : VUnit) (g : BitVec 4) (e : Bool) (f : BitVec 10) : Statement (.isubSat u g e f) := fun m _ => Sys2Proof.Machine.ofParcel_parcel m
theorem icmpEq (u : VUnit) (g : BitVec 4) (e : Bool) (f : BitVec 10) : Statement (.icmpEq u g e f) := fun m _ => Sys2Proof.Machine.ofParcel_parcel m
theorem icmpNe (u : VUnit) (g : BitVec 4) (e : Bool) (f : BitVec 10) : Statement (.icmpNe u g e f) := fun m _ => Sys2Proof.Machine.ofParcel_parcel m
theorem icmpLt (u : VUnit) (g : BitVec 4) (e : Bool) (f : BitVec 10) : Statement (.icmpLt u g e f) := fun m _ => Sys2Proof.Machine.ofParcel_parcel m
theorem icmpLe (u : VUnit) (g : BitVec 4) (e : Bool) (f : BitVec 10) : Statement (.icmpLe u g e f) := fun m _ => Sys2Proof.Machine.ofParcel_parcel m
theorem icmpLtu (u : VUnit) (g : BitVec 4) (e : Bool) (f : BitVec 10) : Statement (.icmpLtu u g e f) := fun m _ => Sys2Proof.Machine.ofParcel_parcel m
theorem icmpLeu (u : VUnit) (g : BitVec 4) (e : Bool) (f : BitVec 10) : Statement (.icmpLeu u g e f) := fun m _ => Sys2Proof.Machine.ofParcel_parcel m
theorem cvtFH (u : VUnit) (g : BitVec 4) (e : Bool) (f : BitVec 10) : Statement (.cvtFH u g e f) := fun m _ => Sys2Proof.Machine.ofParcel_parcel m
theorem cvtFHh (u : VUnit) (g : BitVec 4) (e : Bool) (f : BitVec 10) : Statement (.cvtFHh u g e f) := fun m _ => Sys2Proof.Machine.ofParcel_parcel m
theorem cvtFB (u : VUnit) (g : BitVec 4) (e : Bool) (f : BitVec 10) : Statement (.cvtFB u g e f) := fun m _ => Sys2Proof.Machine.ofParcel_parcel m
theorem cvtFBh (u : VUnit) (g : BitVec 4) (e : Bool) (f : BitVec 10) : Statement (.cvtFBh u g e f) := fun m _ => Sys2Proof.Machine.ofParcel_parcel m
theorem cvtHF (u : VUnit) (g : BitVec 4) (e : Bool) (f : BitVec 10) : Statement (.cvtHF u g e f) := fun m _ => Sys2Proof.Machine.ofParcel_parcel m
theorem cvtBF (u : VUnit) (g : BitVec 4) (e : Bool) (f : BitVec 10) : Statement (.cvtBF u g e f) := fun m _ => Sys2Proof.Machine.ofParcel_parcel m
theorem cvtIF (u : VUnit) (g : BitVec 4) (e : Bool) (f : BitVec 10) : Statement (.cvtIF u g e f) := fun m _ => Sys2Proof.Machine.ofParcel_parcel m
theorem cvtFI (u : VUnit) (g : BitVec 4) (e : Bool) (f : BitVec 10) : Statement (.cvtFI u g e f) := fun m _ => Sys2Proof.Machine.ofParcel_parcel m
theorem cvtI8I (u : VUnit) (g : BitVec 4) (e : Bool) (f : BitVec 10) : Statement (.cvtI8I u g e f) := fun m _ => Sys2Proof.Machine.ofParcel_parcel m
theorem cvtII8 (u : VUnit) (g : BitVec 4) (e : Bool) (f : BitVec 10) : Statement (.cvtII8 u g e f) := fun m _ => Sys2Proof.Machine.ofParcel_parcel m
theorem vbcast (u : VUnit) (g : BitVec 4) (e : Bool) (f : BitVec 10) : Statement (.vbcast u g e f) := fun m _ => Sys2Proof.Machine.ofParcel_parcel m
theorem vperm (u : VUnit) (g : BitVec 4) (e : Bool) (f : BitVec 10) : Statement (.vperm u g e f) := fun m _ => Sys2Proof.Machine.ofParcel_parcel m
theorem vrot (u : VUnit) (g : BitVec 4) (e : Bool) (f : BitVec 10) : Statement (.vrot u g e f) := fun m _ => Sys2Proof.Machine.ofParcel_parcel m
theorem vslup (u : VUnit) (g : BitVec 4) (e : Bool) (f : BitVec 10) : Statement (.vslup u g e f) := fun m _ => Sys2Proof.Machine.ofParcel_parcel m
theorem vsldn (u : VUnit) (g : BitVec 4) (e : Bool) (f : BitVec 10) : Statement (.vsldn u g e f) := fun m _ => Sys2Proof.Machine.ofParcel_parcel m
theorem vextl (u : VUnit) (g : BitVec 4) (e : Bool) (f : BitVec 10) : Statement (.vextl u g e f) := fun m _ => Sys2Proof.Machine.ofParcel_parcel m
theorem mand (u : VUnit) (g : BitVec 4) (e : Bool) (f : BitVec 10) : Statement (.mand u g e f) := fun m _ => Sys2Proof.Machine.ofParcel_parcel m
theorem mor (u : VUnit) (g : BitVec 4) (e : Bool) (f : BitVec 10) : Statement (.mor u g e f) := fun m _ => Sys2Proof.Machine.ofParcel_parcel m
theorem mxor (u : VUnit) (g : BitVec 4) (e : Bool) (f : BitVec 10) : Statement (.mxor u g e f) := fun m _ => Sys2Proof.Machine.ofParcel_parcel m
theorem mnot (u : VUnit) (g : BitVec 4) (e : Bool) (f : BitVec 10) : Statement (.mnot u g e f) := fun m _ => Sys2Proof.Machine.ofParcel_parcel m
theorem mpop (u : VUnit) (g : BitVec 4) (e : Bool) (f : BitVec 10) : Statement (.mpop u g e f) := fun m _ => Sys2Proof.Machine.ofParcel_parcel m
theorem mfirst (u : VUnit) (g : BitVec 4) (e : Bool) (f : BitVec 10) : Statement (.mfirst u g e f) := fun m _ => Sys2Proof.Machine.ofParcel_parcel m
theorem frcp (u : VUnit) (g : BitVec 4) (e : Bool) (f : BitVec 10) : Statement (.frcp u g e f) := fun m _ => Sys2Proof.Machine.ofParcel_parcel m
theorem frsq (u : VUnit) (g : BitVec 4) (e : Bool) (f : BitVec 10) : Statement (.frsq u g e f) := fun m _ => Sys2Proof.Machine.ofParcel_parcel m
theorem fsqrt (u : VUnit) (g : BitVec 4) (e : Bool) (f : BitVec 10) : Statement (.fsqrt u g e f) := fun m _ => Sys2Proof.Machine.ofParcel_parcel m
theorem fexp2 (u : VUnit) (g : BitVec 4) (e : Bool) (f : BitVec 10) : Statement (.fexp2 u g e f) := fun m _ => Sys2Proof.Machine.ofParcel_parcel m
theorem flog2 (u : VUnit) (g : BitVec 4) (e : Bool) (f : BitVec 10) : Statement (.flog2 u g e f) := fun m _ => Sys2Proof.Machine.ofParcel_parcel m
theorem fdiv (u : VUnit) (g : BitVec 4) (e : Bool) (f : BitVec 10) : Statement (.fdiv u g e f) := fun m _ => Sys2Proof.Machine.ofParcel_parcel m
theorem rsumF (u : VUnit) (g : BitVec 4) (e : Bool) (f : BitVec 10) : Statement (.rsumF u g e f) := fun m _ => Sys2Proof.Machine.ofParcel_parcel m
theorem rmaxF (u : VUnit) (g : BitVec 4) (e : Bool) (f : BitVec 10) : Statement (.rmaxF u g e f) := fun m _ => Sys2Proof.Machine.ofParcel_parcel m
theorem rminF (u : VUnit) (g : BitVec 4) (e : Bool) (f : BitVec 10) : Statement (.rminF u g e f) := fun m _ => Sys2Proof.Machine.ofParcel_parcel m
theorem rsumI (u : VUnit) (g : BitVec 4) (e : Bool) (f : BitVec 10) : Statement (.rsumI u g e f) := fun m _ => Sys2Proof.Machine.ofParcel_parcel m
theorem rmaxI (u : VUnit) (g : BitVec 4) (e : Bool) (f : BitVec 10) : Statement (.rmaxI u g e f) := fun m _ => Sys2Proof.Machine.ofParcel_parcel m
theorem rminI (u : VUnit) (g : BitVec 4) (e : Bool) (f : BitVec 10) : Statement (.rminI u g e f) := fun m _ => Sys2Proof.Machine.ofParcel_parcel m
theorem smx (u : VUnit) (g : BitVec 4) (e : Bool) (f : BitVec 10) : Statement (.smx u g e f) := fun m _ => Sys2Proof.Machine.ofParcel_parcel m
theorem smxf (u : VUnit) (g : BitVec 4) (e : Bool) (f : BitVec 10) : Statement (.smxf u g e f) := fun m _ => Sys2Proof.Machine.ofParcel_parcel m
theorem qnt (u : VUnit) (g : BitVec 4) (n : BitVec 3) (e : Bool) (f : BitVec 10) : Statement (.qnt u g n e f) := fun m _ => Sys2Proof.Machine.ofParcel_parcel m
theorem dqnt (u : VUnit) (g : BitVec 4) (n : BitVec 3) (e : Bool) (f : BitVec 10) : Statement (.dqnt u g n e f) := fun m _ => Sys2Proof.Machine.ofParcel_parcel m
theorem mcfg (g : BitVec 4) (e : Bool) (f : BitVec 10) : Statement (.mcfg g e f) := fun m _ => Sys2Proof.Machine.ofParcel_parcel m
theorem msla (g : BitVec 4) (e : Bool) (f : BitVec 10) : Statement (.msla g e f) := fun m _ => Sys2Proof.Machine.ofParcel_parcel m
theorem mslb (g : BitVec 4) (e : Bool) (f : BitVec 10) : Statement (.mslb g e f) := fun m _ => Sys2Proof.Machine.ofParcel_parcel m
theorem mklen (g : BitVec 4) (e : Bool) (f : BitVec 10) : Statement (.mklen g e f) := fun m _ => Sys2Proof.Machine.ofParcel_parcel m
theorem mbthr (g : BitVec 4) (e : Bool) (f : BitVec 10) : Statement (.mbthr g e f) := fun m _ => Sys2Proof.Machine.ofParcel_parcel m
theorem mchk (g : BitVec 4) (e : Bool) (f : BitVec 10) : Statement (.mchk g e f) := fun m _ => Sys2Proof.Machine.ofParcel_parcel m
theorem mdtm (g : BitVec 4) (e : Bool) (f : BitVec 10) : Statement (.mdtm g e f) := fun m _ => Sys2Proof.Machine.ofParcel_parcel m
theorem mgrp (g : BitVec 4) (e : Bool) (f : BitVec 10) : Statement (.mgrp g e f) := fun m _ => Sys2Proof.Machine.ofParcel_parcel m
theorem mbPa (g : BitVec 4) (e : Bool) (f : BitVec 10) : Statement (.mbPa g e f) := fun m _ => Sys2Proof.Machine.ofParcel_parcel m
theorem mbP (g : BitVec 4) (e : Bool) (f : BitVec 10) : Statement (.mbP g e f) := fun m _ => Sys2Proof.Machine.ofParcel_parcel m
theorem mbS (g : BitVec 4) (e : Bool) (f : BitVec 10) : Statement (.mbS g e f) := fun m _ => Sys2Proof.Machine.ofParcel_parcel m
theorem mbA (g : BitVec 4) (e : Bool) (f : BitVec 10) : Statement (.mbA g e f) := fun m _ => Sys2Proof.Machine.ofParcel_parcel m
theorem mbD (g : BitVec 4) (e : Bool) (f : BitVec 10) : Statement (.mbD g e f) := fun m _ => Sys2Proof.Machine.ofParcel_parcel m
theorem mtile (g : BitVec 4) (e : Bool) (f : BitVec 10) : Statement (.mtile g e f) := fun m _ => Sys2Proof.Machine.ofParcel_parcel m
theorem mtileW (g : BitVec 4) (e : Bool) (f : BitVec 10) : Statement (.mtileW g e f) := fun m _ => Sys2Proof.Machine.ofParcel_parcel m
theorem mzero (g : BitVec 4) (e : Bool) (f : BitVec 10) : Statement (.mzero g e f) := fun m _ => Sys2Proof.Machine.ofParcel_parcel m
theorem mbank (g : BitVec 4) (e : Bool) (f : BitVec 10) : Statement (.mbank g e f) := fun m _ => Sys2Proof.Machine.ofParcel_parcel m
theorem mdrnSt (g : BitVec 4) (e : Bool) (f : BitVec 10) : Statement (.mdrnSt g e f) := fun m _ => Sys2Proof.Machine.ofParcel_parcel m
theorem mdrnCvt (g : BitVec 4) (e : Bool) (f : BitVec 10) : Statement (.mdrnCvt g e f) := fun m _ => Sys2Proof.Machine.ofParcel_parcel m
theorem mdrnAdd (g : BitVec 4) (e : Bool) (f : BitVec 10) : Statement (.mdrnAdd g e f) := fun m _ => Sys2Proof.Machine.ofParcel_parcel m
theorem mdrnAddc (g : BitVec 4) (e : Bool) (f : BitVec 10) : Statement (.mdrnAddc g e f) := fun m _ => Sys2Proof.Machine.ofParcel_parcel m
theorem mclaimA (g : BitVec 4) (e : Bool) (f : BitVec 10) : Statement (.mclaimA g e f) := fun m _ => Sys2Proof.Machine.ofParcel_parcel m
theorem mclaimB (g : BitVec 4) (e : Bool) (f : BitVec 10) : Statement (.mclaimB g e f) := fun m _ => Sys2Proof.Machine.ofParcel_parcel m
theorem mrel (g : BitVec 4) (e : Bool) (f : BitVec 10) : Statement (.mrel g e f) := fun m _ => Sys2Proof.Machine.ofParcel_parcel m
theorem mbndRd (g : BitVec 4) (e : Bool) (f : BitVec 10) : Statement (.mbndRd g e f) := fun m _ => Sys2Proof.Machine.ofParcel_parcel m
theorem mbndWr (g : BitVec 4) (e : Bool) (f : BitVec 10) : Statement (.mbndWr g e f) := fun m _ => Sys2Proof.Machine.ofParcel_parcel m
theorem mchkNow (g : BitVec 4) (e : Bool) (f : BitVec 10) : Statement (.mchkNow g e f) := fun m _ => Sys2Proof.Machine.ofParcel_parcel m
theorem mwait (g : BitVec 4) (e : Bool) (f : BitVec 10) : Statement (.mwait g e f) := fun m _ => Sys2Proof.Machine.ofParcel_parcel m
theorem mstat (g : BitVec 4) (e : Bool) (f : BitVec 10) : Statement (.mstat g e f) := fun m _ => Sys2Proof.Machine.ofParcel_parcel m
theorem kflg (k : KUnit) (g : BitVec 4) (e : Bool) (f : BitVec 10) : Statement (.kflg k g e f) := fun m _ => Sys2Proof.Machine.ofParcel_parcel m
theorem ksw (k : KUnit) (g : BitVec 4) (e : Bool) (f : BitVec 10) : Statement (.ksw k g e f) := fun m _ => Sys2Proof.Machine.ofParcel_parcel m
theorem spld (k : KUnit) (g : BitVec 4) (e : Bool) (f : BitVec 10) : Statement (.spld k g e f) := fun m _ => Sys2Proof.Machine.ofParcel_parcel m
theorem spldH (k : KUnit) (g : BitVec 4) (e : Bool) (f : BitVec 10) : Statement (.spldH k g e f) := fun m _ => Sys2Proof.Machine.ofParcel_parcel m
theorem spldBc (k : KUnit) (g : BitVec 4) (e : Bool) (f : BitVec 10) : Statement (.spldBc k g e f) := fun m _ => Sys2Proof.Machine.ofParcel_parcel m
theorem spldG (k : KUnit) (g : BitVec 4) (e : Bool) (f : BitVec 10) : Statement (.spldG k g e f) := fun m _ => Sys2Proof.Machine.ofParcel_parcel m
theorem spldAg (k : KUnit) (g : BitVec 4) (n : BitVec 2) (e : Bool) (f : BitVec 10) : Statement (.spldAg k g n e f) := fun m _ => Sys2Proof.Machine.ofParcel_parcel m
theorem spst (k : KUnit) (g : BitVec 4) (e : Bool) (f : BitVec 10) : Statement (.spst k g e f) := fun m _ => Sys2Proof.Machine.ofParcel_parcel m
theorem spstM (k : KUnit) (g : BitVec 4) (e : Bool) (f : BitVec 10) : Statement (.spstM k g e f) := fun m _ => Sys2Proof.Machine.ofParcel_parcel m
theorem spstS (k : KUnit) (g : BitVec 4) (e : Bool) (f : BitVec 10) : Statement (.spstS k g e f) := fun m _ => Sys2Proof.Machine.ofParcel_parcel m
theorem spstAg (k : KUnit) (g : BitVec 4) (n : BitVec 2) (e : Bool) (f : BitVec 10) : Statement (.spstAg k g n e f) := fun m _ => Sys2Proof.Machine.ofParcel_parcel m
theorem agSet (k : KUnit) (g : BitVec 4) (n : BitVec 2) (e : Bool) (f : BitVec 10) : Statement (.agSet k g n e f) := fun m _ => Sys2Proof.Machine.ofParcel_parcel m
theorem agPos (k : KUnit) (g : BitVec 4) (n : BitVec 2) (e : Bool) (f : BitVec 10) : Statement (.agPos k g n e f) := fun m _ => Sys2Proof.Machine.ofParcel_parcel m
theorem mopld (k : KUnit) (g : BitVec 4) (e : Bool) (f : BitVec 10) : Statement (.mopld k g e f) := fun m _ => Sys2Proof.Machine.ofParcel_parcel m
theorem mopldT (k : KUnit) (g : BitVec 4) (e : Bool) (f : BitVec 10) : Statement (.mopldT k g e f) := fun m _ => Sys2Proof.Machine.ofParcel_parcel m
theorem xcopy (k : KUnit) (g : BitVec 4) (e : Bool) (f : BitVec 10) : Statement (.xcopy k g e f) := fun m _ => Sys2Proof.Machine.ofParcel_parcel m
theorem xgath (k : KUnit) (g : BitVec 4) (e : Bool) (f : BitVec 10) : Statement (.xgath k g e f) := fun m _ => Sys2Proof.Machine.ofParcel_parcel m
theorem xscat (k : KUnit) (g : BitVec 4) (e : Bool) (f : BitVec 10) : Statement (.xscat k g e f) := fun m _ => Sys2Proof.Machine.ofParcel_parcel m
theorem xmcast (k : KUnit) (g : BitVec 4) (e : Bool) (f : BitVec 10) : Statement (.xmcast k g e f) := fun m _ => Sys2Proof.Machine.ofParcel_parcel m
theorem xred (k : KUnit) (g : BitVec 4) (e : Bool) (f : BitVec 10) : Statement (.xred k g e f) := fun m _ => Sys2Proof.Machine.ofParcel_parcel m
theorem xhalo (k : KUnit) (g : BitVec 4) (e : Bool) (f : BitVec 10) : Statement (.xhalo k g e f) := fun m _ => Sys2Proof.Machine.ofParcel_parcel m
theorem xresh (k : KUnit) (g : BitVec 4) (e : Bool) (f : BitVec 10) : Statement (.xresh k g e f) := fun m _ => Sys2Proof.Machine.ofParcel_parcel m
theorem swInit (k : KUnit) (g : BitVec 4) (e : Bool) (f : BitVec 10) : Statement (.swInit k g e f) := fun m _ => Sys2Proof.Machine.ofParcel_parcel m
theorem swAdd (k : KUnit) (g : BitVec 4) (e : Bool) (f : BitVec 10) : Statement (.swAdd k g e f) := fun m _ => Sys2Proof.Machine.ofParcel_parcel m
theorem swWait (k : KUnit) (g : BitVec 4) (e : Bool) (f : BitVec 10) : Statement (.swWait k g e f) := fun m _ => Sys2Proof.Machine.ofParcel_parcel m
theorem swTest (k : KUnit) (g : BitVec 4) (e : Bool) (f : BitVec 10) : Statement (.swTest k g e f) := fun m _ => Sys2Proof.Machine.ofParcel_parcel m
theorem swRd (k : KUnit) (g : BitVec 4) (e : Bool) (f : BitVec 10) : Statement (.swRd k g e f) := fun m _ => Sys2Proof.Machine.ofParcel_parcel m
theorem qput (k : KUnit) (g : BitVec 4) (e : Bool) (f : BitVec 10) : Statement (.qput k g e f) := fun m _ => Sys2Proof.Machine.ofParcel_parcel m
theorem qget (k : KUnit) (g : BitVec 4) (e : Bool) (f : BitVec 10) : Statement (.qget k g e f) := fun m _ => Sys2Proof.Machine.ofParcel_parcel m
theorem ingPop (k : KUnit) (g : BitVec 4) (e : Bool) (f : BitVec 10) : Statement (.ingPop k g e f) := fun m _ => Sys2Proof.Machine.ofParcel_parcel m
theorem kvApp (k : KUnit) (g : BitVec 4) (e : Bool) (f : BitVec 10) : Statement (.kvApp k g e f) := fun m _ => Sys2Proof.Machine.ofParcel_parcel m
theorem kvExt (k : KUnit) (g : BitVec 4) (e : Bool) (f : BitVec 10) : Statement (.kvExt k g e f) := fun m _ => Sys2Proof.Machine.ofParcel_parcel m
theorem pfxHash (k : KUnit) (g : BitVec 4) (e : Bool) (f : BitVec 10) : Statement (.pfxHash k g e f) := fun m _ => Sys2Proof.Machine.ofParcel_parcel m
theorem pfxLook (k : KUnit) (g : BitVec 4) (e : Bool) (f : BitVec 10) : Statement (.pfxLook k g e f) := fun m _ => Sys2Proof.Machine.ofParcel_parcel m
theorem pfxIns (k : KUnit) (g : BitVec 4) (e : Bool) (f : BitVec 10) : Statement (.pfxIns k g e f) := fun m _ => Sys2Proof.Machine.ofParcel_parcel m
theorem pfxPin (k : KUnit) (g : BitVec 4) (e : Bool) (f : BitVec 10) : Statement (.pfxPin k g e f) := fun m _ => Sys2Proof.Machine.ofParcel_parcel m
theorem pfxUnpin (k : KUnit) (g : BitVec 4) (e : Bool) (f : BitVec 10) : Statement (.pfxUnpin k g e f) := fun m _ => Sys2Proof.Machine.ofParcel_parcel m
theorem duskOverrun (d : DieId) : Statement (.duskOverrun d) := fun m _ => Sys2Proof.Machine.ofParcel_parcel m

end ParcelKeepsFields
end Sys2Proof.Laws
end

