-- ==== Sys2Proof/Tests/Slice0.lean ====
section
/-! SUPPORT. The model's own tests: what WellFormed refuses, words written out in the spec that decode to their instruction, single steps
whose results are taken from the spec's tables and examples, and for every statement with hypotheses a state and operands that meet them. -/
namespace Sys2Proof.Tests
open Sys2Proof.Machine
set_option Elab.async false

/-! ## Ill-formed terms that WellFormed refuses, one for each check -/

/-- R35: the reserved guard. -/
theorem test_wf_guard : (Instr.add 8 false 1).wf = false := by decide +kernel
/-- R37: a FROM that no table lists. -/
theorem test_wf_source : (Instr.add 0 false 0x3FF).wf = false := by decide +kernel
/-- R38: E = 1 with a FROM that is no s, v or o register. -/
theorem test_wf_empty_mode : (Instr.add 0 true 0x88).wf = false := by decide +kernel
/-- R213: type 3 of the floating family. -/
theorem test_wf_type : (Instr.fadd .va 0 3 false 0x40).wf = false := by decide +kernel
/-- Table 2.5: a move to the reserved destination 0x080. -/
theorem test_wf_destination : (Instr.move .s 0 0x80 false 1).wf = false := by decide +kernel
/-- A well-formed move is accepted. -/
theorem test_wf_accepts : (Instr.add 9 true 5).wf = true := by decide +kernel

/-! ## Words of the spec's own examples (its "Assembly form" entries), and refusals of Table 2.12 -/

/-- R177: `s: s5 -> add` is 0x08_0005. -/
theorem test_word_add : decodeMove .s false 0x080005 = .ok (.add 0 false 5) := by rfl
/-- R179: `s: s5 -> div.w` is 0x09_A005. -/
theorem test_word_divW : decodeMove .s false 0x09A005 = .ok (.divW 0 false 5) := by rfl
/-- R180: `s: 16 -> ld.d.a1` is 0x0A_68D0. -/
theorem test_word_ldD : decodeMove .s false 0x0A68D0 = .ok (.ldD 0 1 false 0xD0) := by rfl
/-- R180: `s: s6 -> st.w` is 0x0B_4006. -/
theorem test_word_stW : decodeMove .s false 0x0B4006 = .ok (.stW 0 0 false 6) := by rfl
/-- R181: `s: 24 -> pwld.d.5` is 0x0B_E8D8. -/
theorem test_word_pwldD : decodeMove .s false 0x0BE8D8 = .ok (.pwldD 0 5 false 0xD8) := by rfl
/-- R182: `s: s5 -> aadd.d` is 0x0C_0805. -/
theorem test_word_aaddD : decodeMove .s false 0x0C0805 = .ok (.aadd 0 1 false 5) := by rfl
/-- R182: `s: s5 -> aor.n.w` is 0x0D_6005. -/
theorem test_word_aorN : decodeMove .s false 0x0D6005 = .ok (.aorN 0 0 false 5) := by rfl
/-- R175: `c: 0 -> srrd` is 0x0A_4080. -/
theorem test_word_srrd : decodeMove .c false 0x0A4080 = .ok (.srrd 0 false 0x80) := by rfl
/-- R176: `c: RMODE -> srwr` is 0x0A_4900, with its number in the literal. -/
theorem test_word_srwr : decodeMove .c true 0x0A4900 = .ok (.srwr 0 false 0x100) := by rfl
/-- R190: `c: e4m3v -> setf.f1` is 0x08_8900. -/
theorem test_word_setf : decodeMove .c true 0x088900 = .ok (.setf 0 1 false 0x100) := by rfl
/-- R193: `c: 4 -> setrm` is 0x08_C0C4. -/
theorem test_word_setrm : decodeMove .c false 0x08C0C4 = .ok (.setrm 0 false 0xC4) := by rfl
/-- R283: `c: 0 -> pbar` is 0x09_6880. -/
theorem test_word_pbar : decodeMove .c false 0x096880 = .ok (.pbar 0 false 0x80) := by rfl
/-- R295: `c: -4 -> br` is 0x08_00FC. -/
theorem test_word_br : decodeMove .c false 0x0800FC = .ok (.br 0 false 0xFC) := by rfl
/-- R322, R325: `c: 0 -> tret` is 0x0A_0880 and `c: 7 -> trap` 0x0A_00C7. -/
theorem test_word_trap : decodeMove .c false 0x0A0880 = .ok (.tret 0 false 0x80) ∧ decodeMove .c false 0x0A00C7 = .ok (.trap 0 false 0xC7) := ⟨rfl, rfl⟩
/-- R326, R327: `c: 1 -> svc` is 0x0A_20C1 and `c: s9 -> abort` 0x0A_2809. -/
theorem test_word_svc : decodeMove .c false 0x0A20C1 = .ok (.svc 0 false 0xC1) ∧ decodeMove .c false 0x0A2809 = .ok (.abort 0 false 9) := ⟨rfl, rfl⟩
/-- R330: `c: recover -> crgn.open` is 0x0A_1100 and `c: 0 -> crgn.close` 0x0A_1880. -/
theorem test_word_crgn : decodeMove .c true 0x0A1100 = .ok (.crgnOpen 0 false 0x100) ∧ decodeMove .c false 0x0A1880 = .ok (.crgnClose 0 false 0x80) := ⟨rfl, rfl⟩
/-- R99: a fence is 0x09_0080 + ((4·kind + scope) << 11); kind 1, scope 2 is FENCE.REL.PKG. -/
theorem test_word_fence : decodeMove .c false 0x093080 = .ok (.fenceRel 0 2 false 0x80) := by rfl
/-- R214: `va: v5 -> ffma.f` is 0x08_6045 and `vb: v2 -> fmul.b` 0x08_5042. -/
theorem test_word_float : decodeMove .va false 0x086045 = .ok (.ffma .va 0 0 false 0x45) ∧ decodeMove .vb false 0x085042 = .ok (.fmul .vb 0 2 false 0x42) := ⟨rfl, rfl⟩
/-- R215, R216: `va: v1 -> fcmp.lt` is 0x09_7041, `vb: v4 -> icmp.ltu` 0x0A_E044, `va: v6 -> vsel` 0x09_C046. -/
theorem test_word_compare : decodeMove .va false 0x097041 = .ok (.fcmpLt .va 0 false 0x41) ∧ decodeMove .vb false 0x0AE044 = .ok (.icmpLtu .vb 0 false 0x44)
    ∧ decodeMove .va false 0x09C046 = .ok (.vsel .va 0 false 0x46) := ⟨rfl, rfl, rfl⟩
/-- R217: `va: v3 -> iadd` is 0x0A_0043 and `va: 4 -> isar` 0x0A_58C4. -/
theorem test_word_integer : decodeMove .va false 0x0A0043 = .ok (.iadd .va 0 false 0x43) ∧ decodeMove .va false 0x0A58C4 = .ok (.isar .va 0 false 0xC4) := ⟨rfl, rfl⟩
/-- R218: `vb: v9 -> cvt.h.f` is 0x0B_2049 and `va: v2 -> cvt.i.f` 0x0B_3042. -/
theorem test_word_convert : decodeMove .vb false 0x0B2049 = .ok (.cvtHF .vb 0 false 0x49) ∧ decodeMove .va false 0x0B3042 = .ok (.cvtIF .va 0 false 0x42) := ⟨rfl, rfl⟩
/-- R219, R220: `va: v4 -> vperm` is 0x0B_8844, `va: v4 -> vslup` 0x0B_9844, `va: m2 -> mand` 0x0B_C08A. -/
theorem test_word_permute : decodeMove .va false 0x0B8844 = .ok (.vperm .va 0 false 0x44) ∧ decodeMove .va false 0x0B9844 = .ok (.vslup .va 0 false 0x44)
    ∧ decodeMove .va false 0x0BC08A = .ok (.mand .va 0 false 0x8A) := ⟨rfl, rfl, rfl⟩
/-- R221, R222: `vb: v2 -> fdiv` is 0x0C_2842, `va: v7 -> fexp2` 0x0C_1847, `va: v1 -> rsum.f` 0x0C_4041, `vb: v1 -> rmax.i` 0x0C_6041. -/
theorem test_word_special : decodeMove .vb false 0x0C2842 = .ok (.fdiv .vb 0 false 0x42) ∧ decodeMove .va false 0x0C1847 = .ok (.fexp2 .va 0 false 0x47)
    ∧ decodeMove .va false 0x0C4041 = .ok (.rsumF .va 0 false 0x41) ∧ decodeMove .vb false 0x0C6041 = .ok (.rmaxI .vb 0 false 0x41) := ⟨rfl, rfl, rfl, rfl⟩
/-- R223 to R226: `va: v7 -> smx` is 0x0C_8047, `vb: v7 -> smxf` 0x0C_8847, `va: v3 -> qnt.f1` 0x0D_0843, `vb: v10 -> dqnt.f1` 0x0D_484A. -/
theorem test_word_triple : decodeMove .va false 0x0C8047 = .ok (.smx .va 0 false 0x47) ∧ decodeMove .vb false 0x0C8847 = .ok (.smxf .vb 0 false 0x47)
    ∧ decodeMove .va false 0x0D0843 = .ok (.qnt .va 0 1 false 0x43) ∧ decodeMove .vb false 0x0D484A = .ok (.dqnt .vb 0 1 false 0x4A) := ⟨rfl, rfl, rfl, rfl⟩
/-- R233, R234: `ka: s4 -> mopld` is 0x08_C004 and `ka: s4 -> mopld.t` 0x08_C804. -/
theorem test_word_mopld : decodeMove .ka false 0x08C004 = .ok (.mopld .ka 0 false 4) ∧ decodeMove .kb false 0x08C804 = .ok (.mopldT .kb 0 false 4) := ⟨rfl, rfl⟩
/-- R237, R247: `m: 0 -> mtile` is 0x08_8080 and `m: 2 -> mdrn.st` 0x08_C0C2. -/
theorem test_word_matrix : decodeMove .m false 0x088080 = .ok (.mtile 0 false 0x80) ∧ decodeMove .m false 0x08C0C2 = .ok (.mdrnSt 0 false 0xC2) := ⟨rfl, rfl⟩
/-- R114: `ka: s6 -> spld` is 0x08_0006. -/
theorem test_word_spld : decodeMove .ka false 0x080006 = .ok (.spld .ka 0 false 6) := by rfl
/-- R261, R262, R264 to R266, R275: `kv.ext` 0x0A_1004, `kv.app` 0x0A_0804, `pfx.hash` 0x0A_4005, `pfx.look` 0x0A_4805, `pfx.ins` 0x0A_5006, `ing.pop` 0x0A_0004. -/
theorem test_word_kv : decodeMove .ka false 0x0A1004 = .ok (.kvExt .ka 0 false 4) ∧ decodeMove .kb false 0x0A0804 = .ok (.kvApp .kb 0 false 4)
    ∧ decodeMove .ka false 0x0A4005 = .ok (.pfxHash .ka 0 false 5) ∧ decodeMove .ka false 0x0A4805 = .ok (.pfxLook .ka 0 false 5)
    ∧ decodeMove .kb false 0x0A5006 = .ok (.pfxIns .kb 0 false 6) ∧ decodeMove .ka false 0x0A0004 = .ok (.ingPop .ka 0 false 4) := ⟨rfl, rfl, rfl, rfl, rfl, rfl⟩
/-- R48, Table 2.12: the reserved guard, a TO of no port, a reserved FROM, E = 1 off s, v and o, and a LIT without slot L are refused by name. -/
theorem test_word_refused : decodeMove .s false 0x880005 = .error .guard ∧ decodeMove .s false 0x0FF805 = .error .destination ∧ decodeMove .s false 0x0803FF = .error .source
    ∧ decodeMove .s false 0x080488 = .error .emptyMode ∧ decodeMove .s false 0x080100 = .error .literal := ⟨rfl, rfl, rfl, rfl, rfl⟩
/-- Example of R59: `<al:c,m> nop 3` is the header 0x00_2500, RUN 2, ALIGN 0b0101. -/
theorem test_word_run : Header.ofParcel 0x002500 = ⟨0, 2, 5, false, 0⟩ := by decide +kernel

/-! ## States the witnesses speak of -/

/-- A decided property holds of each item of a list. -/
abbrev each {α : Type} (l : List α) (p : α → Prop) [DecidablePred p] : Prop := (l.all fun x => decide (p x)) = true
/-- Context 1, with nothing mapped. -/
def ctx1 : Ctx :=
  { id := 1, root := 0x20000, ashpit := false, quota := 0, report := 0, poolBase := 0, poolSize := 0, mapped := [], limbo := [], kgen := 0, killed := none,
    wd := 0, pools := Vector.replicate 4 none, listed := [], seed := 0, pfxQuota := 0, soft := 0, lazies := [] }
/-- A task of context 1 runs on core 0, whose page at VA 0 lies at PA 0x10000, writable and executable. -/
def run1 : State :=
  let s := State.reset.modCore 0 fun k => { k with task := { k.task with st := .running, ctx := 1 }, tlb := [⟨1, 0, 0, 0x10087, 0⟩] }
  { s with phase := .running, fw := { s.fw with ctxs := [ctx1] } }
/-- The same with a value in s1. -/
def withS1 (a : W64) (s : State) : State := s.modPipe fun p => { p with regs := { p.regs with s := p.regs.s.set 1 ⟨⟨a, false⟩, true⟩ } }
/-- The same with s1 empty. -/
def emptyS1 (s : State) : State := s.modPipe fun p => { p with regs := { p.regs with s := p.regs.s.set 1 ⟨⟨0, false⟩, false⟩ } }
/-- `run1` with a value in s1: FROM = 1 delivers it. -/
def runs1 (a : W64) : State := withS1 a run1
/-- A scalar value without poison. -/
def sv (a : W64) : Val := .sc ⟨a, false⟩
/-- The S unit's X latch. -/
def withX (a : W64) (s : State) : State := s.modPipe fun p => { p with units := { p.units with s := { p.units.s with x := ⟨a, false⟩ } } }
/-- The C unit's X latch. -/
def withCX (a : W64) (s : State) : State := s.modPipe fun p => { p with units := { p.units with c := { p.units.c with x := ⟨a, false⟩ } } }
/-- A pair is its parts. -/
theorem pair_of {α β : Type} {p : α × β} {a : α} (h : p.1 = a) : p = (a, p.2) := by rw [← h]

/-! ## Hypotheses met: reset, decoding, the step -/

theorem witness_DecodeOfEncode : (Instr.add 0 false 1).wf = true ∧ encode (.add 0 false 1) = some (.s, 0x080001)
    ∧ (isLit (MoveFields.ofParcel .s 0x080001).f = true → false = true) := by decide +kernel
theorem witness_DecodeOfEncode_literal : (Instr.srwr 0 false 0x103).wf = true ∧ encode (.srwr 0 false 0x103) = some (.c, 0x0A4903)
    ∧ isLit (MoveFields.ofParcel .c 0x0A4903).f = true := by decide +kernel
theorem witness_EncodeOfDecode : decodeMove .s false 0x080001 = .ok (.add 0 false 1) := by rfl
/-- A cached translation with execute permission gives a fetch its PA and changes nothing. -/
theorem fetch_hit (s : State) (va pa : Nat) (h : tlbFind (s.core 0).tlb (s.core 0).task.ctx va = some ⟨1, 0, 0, 0x10087, 0⟩)
    (hp : s.leafPa (CoreId.die 0) 0x10087 0 va = pa) : s.translateVa 0 va .fetch 3 = (.ok pa, s) := by
  subst hp
  simp only [State.translateVa, State.leafFor, h]
  rfl
theorem witness_FetchReadsParcel : let u := run1.cacheLine 0 0x10000; let v := u.cacheLine 0 0x10001
    (∀ k : BitVec 64, k.toNat < 3 → ((parcelAddr 0 0) + k).extractLsb' 56 8 = 0) ∧ run1.translateVa 0 (parcelAddr 0 0).toNat .fetch 3 = (.ok 0x10000, run1)
    ∧ u.translateVa 0 (parcelAddr 0 0 + 1).toNat .fetch 3 = (.ok 0x10001, u) ∧ v.translateVa 0 (parcelAddr 0 0 + 2).toNat .fetch 3 = (.ok 0x10002, v)
    ∧ run1.m.migs = [] ∧ u.m.migs = [] ∧ v.m.migs = [] := by
  refine ⟨fun k hk => ?_, fetch_hit _ _ _ (by decide +kernel) (by decide +kernel), fetch_hit _ _ _ (by decide +kernel) (by decide +kernel),
    fetch_hit _ _ _ (by decide +kernel) (by decide +kernel), rfl, by decide +kernel⟩
  have : k = 0 ∨ k = 1 ∨ k = 2 := by bv_omega
  rcases this with h | h | h <;> subst h <;> decide
/-- Whether an outcome is a next state. -/
def isNext : Out → Bool | .next _ => true | _ => false
/-- The next state of an outcome, or else `s`. -/
def nextOr (s : State) : Out → State | .next t => t | _ => s
theorem next_of {o : Out} (s : State) (h : isNext o = true) : o = .next (nextOr s o) := by cases o <;> simp_all [isNext, nextOr]
/-- MCHK.NOW (0x12A) placed in the matrix group's next bundle. -/
noncomputable def placed : State := { State.reset.withFetchWord 24 0x095080 with agenda := [.cycle 0 4] }
/-- The state in which its group begins the bundle. -/
noncomputable def placedS2 : State :=
  let s := State.countCycle { placed with agenda := [], cur := 0 }
  s.dispatchTo 0 (s.pipe.pos 2) 20
/-- That bundle, the pipe once it has begun, and what its move does. -/
def placedD : Disp := ⟨0, 2, 0, false, [(.m, 0x095080)], none, none, false⟩
noncomputable def placedPipe : Pipe := (placedS2.pipe.begin [2] 32 placedD).1
noncomputable def placedExec : Out := exec (.mchkNow 0 false 0x80) (((placedS2.modPipe fun _ => placedPipe).readTimes placedPipe [2] placedD).atSlot .m)
theorem witness_StepRunsDecodedMove : ∃ (t : State) (d : Disp) (p0 : Pipe),
    let s := placed; let c : CoreId := 0; let r : List Turn := []; let sl : Slot := .m; let p : Parcel := 0x095080; let i : Instr := .mchkNow 0 false 0x80
    s.agenda = .cycle c (1 <<< sl.gix) :: r ∧ s.phase = .running ∧ s.hasCore c = true
    ∧ let s1 := State.countCycle { s with agenda := r, cur := c }
      let g := sl.gix
      let n := s1.pipe.pos g
      let s2 := s1.dispatchTo c n 20
      s1.me.canIssue = true ∧ s1.pipe.mayReach g = true ∧ s2.pipe.stream.at n = some d ∧ s2.pipe.mayIssue g d = true ∧ d.marker = none
      ∧ s2.metaDue [g] n d = false ∧ s2.pipe.together g d = [g] ∧ d.moves = [(sl, p)] ∧ s2.pipe.begin [g] n d = (p0, .done) ∧ (g = 1 → s2.pipe.fpDue = none)
      ∧ p0.ib.lit = d.lit ∧ decodeMove sl d.lit.isSome p = .ok i ∧ (s2.pipe.serve g (p0.vReads [g] d)).2 = true
      ∧ exec i (((s2.modPipe fun _ => p0).readTimes p0 [g] d).atSlot sl) = .next t ∧ t.cur = c ∧ t.pipe.disp = .issued := by
  refine ⟨nextOr placed placedExec, placedD, placedPipe, by decide +kernel, by decide +kernel, by decide +kernel, by decide +kernel, by decide +kernel, by decide +kernel, by decide +kernel,
    rfl, by decide +kernel, by decide +kernel, rfl, Prod.ext ?_ ?_, by decide +kernel, by decide +kernel, by rfl, by decide +kernel, ?_, by decide +kernel⟩
  · decide +kernel
  · decide +kernel
  · exact next_of placed (o := placedExec) (by decide +kernel)
theorem witness_ResetMemoryWf : State.reset.memWf := by
  refine ⟨rfl, rfl, rfl, fun c => ?_, fun v hv => ?_⟩
  · simp [State.core, State.reset, Core.reset, Memory.wf]
  · simp [State.reset, Firmware.reset] at hv
theorem witness_MemoryStaysCanonical : ∃ t, State.reset.memWf ∧ step State.reset = .next t :=
  ⟨nextOr State.reset (step State.reset), witness_ResetMemoryWf, next_of _ (by decide +kernel)⟩
theorem witness_GuardedOffMoveOnlyIssues : (∃ m, (Instr.add 1 false 1).fields = some m ∧ State.reset.pipe.regs.guard m.g = false) ∧ (Instr.add 1 false 1).wf = true :=
  ⟨⟨⟨.s, 1, 0x100, false, 1⟩, rfl, by decide +kernel⟩, by decide +kernel⟩
theorem witness_UnreadableMoveWaitsOrTraps_reserved : (∃ m, (Instr.add 8 false 1).fields = some m ∧ m.g = 8 ∧ m.slot ≠ .m) ∧ (Instr.add 8 false 1).operandWf = true :=
  ⟨⟨⟨.s, 8, 0x100, false, 1⟩, rfl, by decide⟩, by decide +kernel⟩
theorem witness_UnreadableMoveWaitsOrTraps_waits : let s := emptyS1 run1
    ∃ m, (Instr.add 0 false 1).fields = some m ∧ (Instr.add 0 false 1).operandWf = true ∧ m.slot ≠ .m ∧ m.g ≠ 8 ∧ s.pipe.regs.guard m.g = true ∧ s.source s.cur m.e m.f = .wait :=
  ⟨⟨.s, 0, 0x100, false, 1⟩, rfl, by decide +kernel, by decide, by decide, by decide +kernel⟩
theorem witness_UnreadableMoveWaitsOrTraps_traps : let s := emptyS1 run1
    ∃ m, (Instr.add 0 true 1).fields = some m ∧ (Instr.add 0 true 1).operandWf = true ∧ m.slot ≠ .m ∧ m.g ≠ 8 ∧ s.pipe.regs.guard m.g = true ∧ s.source s.cur m.e m.f = .empty :=
  ⟨⟨.s, 0, 0x100, true, 1⟩, rfl, by decide +kernel, by decide, by decide, by decide +kernel⟩
theorem witness_RegistersReadWhatWasWritten : selS 1 = true ∧ selS 0x3F = true ∧ (1 : BitVec 10) ≠ 0 ∧ selV 0x40 = true ∧ selV 0x7F = true ∧ selO 0x90 = true ∧ selO 0x9F = true
    ∧ selP 0x81 = true ∧ selP 0x87 = true ∧ selM 0x89 = true ∧ selM 0x8F = true ∧ (0x89 : BitVec 10) ≠ 0x88 ∧ dValid 0 = true ∧ dValid 0x9F = true ∧ (0 : BitVec 10) ≠ 0x9F := by decide
theorem witness_MoveWritesDestination : (runs1 5).ready .s 0 false 1 (sv 5) = true ∧ toRegister 0x9F = true ∧ toRegister 0xC0 = true ∧ toRegister 0xC2 = true
    ∧ (sv 5).spoils 0x9F = false ∧ (sv 5).spoils 0xC2 = false ∧ (0x9F : BitVec 9).toNat < 0xC0 ∧ 0xC0 ≤ (0xC0 : BitVec 9).toNat := by decide +kernel
/-- A poisoned value goes to no D latch and no p or m register; of a vector only the lane that reaches a p register counts. -/
theorem witness_MoveWritesDestination_spoils : let x : SVal := ⟨5, true⟩
    let s := run1.modPipe fun p => { p with regs := { p.regs with s := p.regs.s.set 1 ⟨x, true⟩ } }
    s.ready .s 0 false 1 (.sc x) = true ∧ (∀ d ∈ [(0x81 : BitVec 9), 0x87, 0x89, 0x8F, 0xC2], toRegister d = true ∧ (Val.sc x).spoils d = true)
    ∧ (Val.vec ⟨Vec.splat 1, 2⟩).spoils 0x81 = false ∧ (Val.vec ⟨Vec.splat 1, 2⟩).spoils 0x89 = true := by decide +kernel
theorem witness_RegisterOperationFrame : run1.pipe.wq = none := by decide +kernel

/-! ## Hypotheses met: the scalar unit -/

theorem witness_ScalarShortResults : (runs1 5).ready .s 0 false 1 (sv 5) = true := by decide +kernel
theorem witness_ScalarCompareResults : (runs1 5).ready .s 0 false 1 (sv 5) = true ∧ (runs1 5).dNamed .s = true := by decide +kernel
/-- `s` with the D latches named in a mask poisoned by a parity error. -/
def withBad (b : BitVec 16) (s : State) : State := s.modPipe fun p => { p with units := { p.units with bad := b } }
/-- `s` with a selector in the S unit's D latch. -/
def withSD (d : BitVec 10) (s : State) : State := s.modPipe fun p => { p with units := { p.units with s := { p.units.s with d := d } } }
theorem witness_ScalarCompareResults_d : ((withBad 0xFFFF (runs1 5)).ready .s 0 false 1 (sv 5) = true ∧ (withBad 0xFFFF (runs1 5)).dNamed .s = false
      ∧ (withBad 0xFFFF (runs1 5)).pipe.units.bad.getLsbD Slot.s.index = true)
    ∧ (withSD 0xA0 (runs1 5)).ready .s 0 false 1 (sv 5) = true ∧ (withSD 0xA0 (runs1 5)).dNamed .s = false
      ∧ (withSD 0xA0 (runs1 5)).pipe.units.bad.getLsbD Slot.s.index = false := by decide +kernel
theorem witness_DivisionResults : (runs1 0).ready .s 0 false 1 (sv 0) = true ∧ (runs1 0).dNamed .s = true ∧ (runs1 0).pipe.dividing = false
    ∧ (runs1 0).pipe.sys.dze = false := by decide +kernel
/-- DZE = 1, as SRWR of TSTAT bit 2 sets it. -/
def dze1 : State := (runs1 0).modPipe fun p => { p with sys := { p.sys with dze := true } }
theorem witness_DivisionResults_trap : dze1.ready .s 0 false 1 (sv 0) = true ∧ dze1.dNamed .s = true ∧ dze1.pipe.dividing = false ∧ dze1.pipe.sys.dze = true
    ∧ (sv 0).toS.val = 0 ∧ ((sv 0).toS.val).setWidth 32 = (0 : W32) := by decide +kernel
/-- The last byte, halfword, word and doubleword of own scratchpad. -/
theorem witness_LoadsIssueRequests : ∀ n ∈ [1, 2, 4, 8], let s := withX 0x8000000000000000 (runs1 (BitVec.ofNat 64 (0x600000 - n)))
    s.ready .s 0 false 1 (sv (BitVec.ofNat 64 (0x600000 - n))) = true ∧ s.dNamed .s = true ∧ s.pipe.units.s.x.poi = false
    ∧ s.reaches (0x8000000000000000 + BitVec.ofNat 64 (0x600000 - n)) n .read (.sp 0 (0x600000 - n)) s
    ∧ s.roomFor (.load true) (.sp 0 (0x600000 - n)) = true ∧ s.roomFor (.load false) (.sp 0 (0x600000 - n)) = true ∧ s.roomFor .store (.sp 0 (0x600000 - n)) = true
    ∧ s.reaches (0x8000000000000000 + BitVec.ofNat 64 (0x600000 - n)) n .write (.sp 0 (0x600000 - n)) s := by
  intro n hn
  simp only [List.mem_cons, List.not_mem_nil, or_false] at hn
  rcases hn with h | h | h | h <;> subst h <;>
    exact ⟨by decide +kernel, by decide +kernel, by decide +kernel, ⟨⟨.inl _, rfl⟩, by decide +kernel, rfl⟩, by decide +kernel, by decide +kernel, by decide +kernel,
      ⟨⟨.inl _, rfl⟩, by decide +kernel, rfl⟩⟩
/-- An address of own scratchpad that is not a multiple of 2, and the last bytes no form names. -/
theorem witness_MisalignedAccessTraps : let s := runs1 0x8000000000000001
    s.ready .s 0 false 1 (sv 0x8000000000000001) = true ∧ s.dNamed .s = true ∧ s.pipe.units.s.x.poi = false
    ∧ (∃ x, s.form s.cur (s.pipe.units.s.x.val + 0x8000000000000001) = .ok x) ∧ (∀ n ∈ [2, 4, 8], (s.pipe.units.s.x.val + 0x8000000000000001).toNat % n ≠ 0) :=
  ⟨by decide +kernel, by decide +kernel, by decide +kernel, ⟨.inl (.sp 0 1), rfl⟩, by decide +kernel⟩
/-- An atomic's F, misaligned for either width, or of no form; a D that names none. -/
theorem witness_MisalignedAccessTraps_atomic : (∃ x, run1.form run1.cur 0x8000000000000001 = .ok x) ∧ (0x8000000000000001 : W64).toNat % 4 ≠ 0 ∧ (0x8000000000000001 : W64).toNat % 8 ≠ 0
    ∧ run1.form run1.cur 0x8000000000600000 = .error (0x06, 0x8000000000600000) ∧ (withSD 0xA0 run1).ready .s 0 false 0xC0 (.w64 0) = true ∧ (withSD 0xA0 run1).dNamed .s = false
    ∧ (withSD 0xA0 run1).pipe.units.bad.getLsbD Slot.s.index = false := ⟨⟨.inl (.sp 0 1), rfl⟩, by decide +kernel, by decide +kernel, rfl, by decide +kernel⟩
theorem witness_MisalignedAccessTraps_form : let s := runs1 0x8000000000600000
    s.ready .s 0 false 1 (sv 0x8000000000600000) = true ∧ s.form s.cur (s.pipe.units.s.x.val + 0x8000000000600000) = .error (0x06, 0x8000000000600000) :=
  ⟨by decide +kernel, rfl⟩
/-- Parameter window 7 at a base, of a length. -/
def window7 (base : W64) (len : W32) (o : W64) : State :=
  (runs1 o).modPipe fun p => { p with sys := { p.sys with pwb := p.sys.pwb.set 7 base, pws := p.sys.pws.set 7 len } }
/-- A window read at a misaligned offset, at a base that misaligns it, and at a sum of no form. -/
theorem witness_MisalignedAccessTraps_window : (let s := window7 0x8000000000000000 16 1
      s.ready .s 0 false 1 (sv 1) = true ∧ s.dNamed .s = true ∧ (s.pipe.sys.pws[7]).toNat ≠ 0 ∧ ∀ k ∈ [4, 8], (1 : W64).toNat % k ≠ 0)
    ∧ (let s := window7 0x8000000000000001 16 8
      s.ready .s 0 false 1 (sv 8) = true ∧ s.dNamed .s = true ∧ (s.pipe.sys.pws[7]).toNat ≠ 0 ∧ ∀ k ∈ [4, 8], 8 % k = 0 ∧ 8 + k ≤ (s.pipe.sys.pws[7]).toNat ∧ ((s.pipe.sys.pwb[7]) + 8).toNat % k ≠ 0)
    ∧ (let s := window7 0x80000000005FFFF8 16 8
      s.ready .s 0 false 1 (sv 8) = true ∧ s.dNamed .s = true ∧ (s.pipe.sys.pws[7]).toNat ≠ 0
      ∧ ∀ k ∈ [4, 8], 8 % k = 0 ∧ 8 + k ≤ (s.pipe.sys.pws[7]).toNat ∧ ((s.pipe.sys.pwb[7]) + 8).toNat % k = 0 ∧ s.form s.cur ((s.pipe.sys.pwb[7]) + 8) = .error (0x06, 0x8000000000600000)) := by
  refine ⟨by decide +kernel, by decide +kernel, by decide +kernel, by decide +kernel, by decide +kernel, fun k hk => ?_⟩
  simp only [List.mem_cons, List.not_mem_nil, or_false] at hk
  rcases hk with h | h <;> subst h <;> exact ⟨by decide +kernel, by decide +kernel, by decide +kernel, rfl⟩
/-- Inside: offset 8 of a window of 16 bytes; past the end: offset 16; unbound: length 0. -/
theorem witness_WindowReads : (let s := window7 0x8000000000000000 16 8
      s.ready .s 0 false 1 (sv 8) = true ∧ s.dNamed .s = true ∧ (s.pipe.sys.pws[7]).toNat ≠ 0 ∧ (∀ k ∈ [4, 8], 8 % k = 0 ∧ 8 + k ≤ (s.pipe.sys.pws[7]).toNat
        ∧ s.reaches ((s.pipe.sys.pwb[7]) + 8) k .read (.sp 0 8) s) ∧ s.roomFor (.load false) (.sp 0 8) = true)
    ∧ (let s := window7 0x8000000000000000 16 16
      s.ready .s 0 false 1 (sv 16) = true ∧ s.dNamed .s = true ∧ (s.pipe.sys.pws[7]).toNat ≠ 0 ∧ ∀ k ∈ [4, 8], 16 % k = 0 ∧ (s.pipe.sys.pws[7]).toNat < 16 + k)
    ∧ (let s := window7 0 0 0
      s.ready .s 0 false 1 (sv 0) = true ∧ s.dNamed .s = true ∧ (s.pipe.sys.pws[7]).toNat = 0) := by
  refine ⟨⟨by decide +kernel, by decide +kernel, by decide +kernel, fun k hk => ?_, by decide +kernel⟩, by decide +kernel⟩
  simp only [List.mem_cons, List.not_mem_nil, or_false] at hk
  rcases hk with h | h <;> subst h <;> exact ⟨by decide +kernel, by decide +kernel, ⟨.inl _, rfl⟩, by decide +kernel, rfl⟩
theorem witness_AtomicsIssueRequests : ∀ n ∈ [4, 8], let s := runs1 (BitVec.ofNat 64 (0x80000000005FFFF8))
    s.ready .s 0 false 1 (sv 0x80000000005FFFF8) = true ∧ s.dNamed .s = true ∧ s.reaches 0x80000000005FFFF8 n .write (.sp 0 0x5FFFF8) s
    ∧ (∀ op ret, s.roomFor (.atomic op ret) (.sp 0 0x5FFFF8) = true) := by
  intro n hn
  simp only [List.mem_cons, List.not_mem_nil, or_false] at hn
  rcases hn with h | h <;> subst h <;>
    exact ⟨by decide +kernel, by decide +kernel, ⟨⟨.inl _, rfl⟩, by decide +kernel, rfl⟩, fun op ret => by cases op <;> cases ret <;> decide +kernel⟩

/-! ## Hypotheses met: accesses at their homes -/

/-- One request of core 0, of 8 bytes at the end of its scratchpad. -/
def lastWord (op : ReqOp) : Req := ⟨3, 0, op, .sp 0 0x5FFFF8, 8, ⟨0x1122334455667788, false⟩, ⟨0, false⟩, 5, none⟩
/-- `run1` with that request outstanding. -/
def asked (op : ReqOp) : State := run1.modMe fun k => { k with reqs := [lastWord op], seq := 4 }
/-- The operations the witnesses take. -/
def homeOps : List ReqOp := [.store, .load true, .atomic .cas true]
/-- A request at the first 8 bytes of die 1's memory, whose home is not the core's die. -/
def farWord (op : ReqOp) : Req := { lastWord op with loc := .pa 0x2000000000 }
/-- `run1` with that request outstanding. -/
def askedFar (op : ReqOp) : State := run1.modMe fun k => { k with reqs := [farWord op], seq := 4 }
theorem witness_HomeAccess : ∀ op ∈ homeOps, (asked op).memWf ∧ (asked op).performs 0 (lastWord op) (.sp 0 0x5FFFF8) ∧ (asked op).locDie (.sp 0 0x5FFFF8) = (asked op).cur.die
    ∧ (asked op).unshared (.sp 0 0x5FFFF8) := by
  intro op ho
  simp only [homeOps, List.mem_cons, List.not_mem_nil, or_false] at ho
  rcases ho with h | h | h <;> subst h <;>
    exact ⟨by unfold State.memWf; and_intros <;> decide +kernel,
      ⟨by rfl, by decide +kernel, by rfl, fun _ => by decide +kernel, by rfl, by decide +kernel, by decide +kernel, by rfl, by decide⟩, by decide +kernel,
      fun a e => by cases e⟩
theorem witness_HomeAccess_owesNone : (asked .store).owesNone := by unfold State.owesNone; decide +kernel
/-- Nothing is a member of an empty list. -/
theorem not_mem_of {α : Type} {l : List α} {x : α} (h : l.isEmpty = true) : x ∉ l := by cases l <;> simp_all
/-- A load and an atomic of another die's memory, of which the core's die holds no copy and no page is replicated. -/
theorem witness_HomeAccess_far : ∀ op ∈ homeOps, (askedFar op).memWf ∧ (askedFar op).performs 0 (farWord op) (.pa 0x2000000000)
    ∧ (∀ a, Loc.pa 0x2000000000 = .pa a → ∀ x ∈ ((askedFar op).die (askedFar op).cur.die).copies, x.line ≠ a / 128 * 128) ∧ (askedFar op).unshared (.pa 0x2000000000) := by
  intro op ho
  simp only [homeOps, List.mem_cons, List.not_mem_nil, or_false] at ho
  rcases ho with h | h | h <;> subst h <;>
    exact ⟨by unfold State.memWf; and_intros <;> decide +kernel,
      ⟨by rfl, by decide +kernel, by rfl, fun _ => by decide +kernel, by rfl, by decide +kernel, by decide +kernel, by rfl, by decide⟩,
      fun _ _ x hx => absurd hx (not_mem_of (by decide +kernel)), fun _ _ q hq => absurd hq (not_mem_of (by decide +kernel))⟩
/-- Two atomics of cores 0 and 31 on the last word of core 0's scratchpad. -/
def askedTwo : State := (asked (.atomic .add true)).modCore 31 fun k => { k with task := { k.task with st := .running, ctx := 1 }, reqs := [lastWord (.atomic .add true)], seq := 4 }
theorem witness_HomeAtomicUpdatesWord_two : let r := lastWord (.atomic .add true)
    askedTwo.phase ≠ .dusk ∧ (0 : CoreId).val < (31 : CoreId).val ∧ askedTwo.reqAt (0, 0) = some (0, r) ∧ askedTwo.reqAt (31, 0) = some (31, r)
    ∧ askedTwo.mergeable 0 31 r r = true ∧ askedTwo.mergeable 31 0 r r = true := by decide +kernel


/-! ## Hypotheses met: the vector units -/

/-- The scalar zero that FROM = 0x0C0 delivers, which a vector unit takes in every lane (Table 2.8). -/
def vz : Val := .w64 0
theorem witness_Vector : ∀ u ∈ [VUnit.va, .vb], run1.ready u.slot 0 false 0xC0 vz = true ∧ run1.dNamed u.slot = true
    ∧ run1.pipe.longs.countP (fun l => l.unit == u.slot.unit) < 8 := by decide +kernel
/-- MSEL takes a clean scalar and consumes a poisoned one. -/
theorem witness_VectorPermuteMaskResults : (runs1 7).ready .va 0 false 1 (sv 7) = true ∧ (sv 7).poiS = false
    ∧ (let s := run1.modPipe fun p => { p with regs := { p.regs with s := p.regs.s.set 1 ⟨⟨7, true⟩, true⟩ } }
      s.ready .va 0 false 1 (.sc ⟨7, true⟩) = true ∧ (Val.sc ⟨7, true⟩).poiS = true) := by decide +kernel
/-- f1 holds the format e4m3v of the example of R190. -/
def fmt1 : State := run1.modPipe fun p => { p with regs := { p.regs with f := p.regs.f.set 1 0xC60EAA } }
theorem witness_TripleQuantResults : fmt1.ready .va 0 false 0xC0 vz = true ∧ fmt1.dNamed .va = true ∧ fmtValid (fmt1.pipe.fmt 1) = true ∧ fmtValid (fmt1.pipe.fmt 2) = false := by
  decide +kernel
/-- A short result of the S unit that is due, and a long one. -/
def due1 : State := run1.modPipe fun p => { p with shorts := [⟨.s, .sc ⟨7, false⟩, 0, some 5, 0⟩], longs := [⟨.va, vz, 0, 0x45, 0, .value⟩] }
theorem witness_ResultsLand : due1.pipe.shorts.find? (fun y => y.unit = .s && y.left = 0) = some ⟨.s, .sc ⟨7, false⟩, 0, some 5, 0⟩
    ∧ due1.pipe.shorts.find? (fun y => y.unit = .va && y.left = 0) = none ∧ run1.pipe.wq = none := by decide +kernel
/-- Due results that land, that a p and an m register would be poisoned by, and that is invalid under FVE. -/
def dueShort (x : Short) (fve : Bool) : State := run1.modPipe fun p => { p with shorts := [x], sys := { p.sys with fve := fve } }
theorem witness_ResultsLand_short : each [(Short.mk .s (.sc ⟨7, false⟩) 0 (some 5) 0, false), (⟨.s, .sc ⟨7, true⟩, 0, some 0x81, 0⟩, false), (⟨.s, .sc ⟨7, true⟩, 0, some 0x89, 0⟩, false),
      (⟨.va, vz, fNV, none, 0⟩, true)] fun q =>
    (dueShort q.1 q.2).pipe.shorts.find? (fun y => y.unit = q.1.unit && y.left = 0) = some q.1 ∧ (dueShort q.1 q.2).pipe.dueShort [0, 1, 2, 3] = some q.1
    ∧ q.1.consumes = (q.1.dsel.any fun f => f = 0x81 || f = 0x89) ∧ (dueShort q.1 q.2).pipe.sys.fve = q.2 ∧ (q.2 = true → q.1.flags &&& fNV ≠ 0)
    ∧ (q.1.dsel = some 0x81 → selP 0x81 = true ∧ q.1.val.poiS = true) ∧ (q.1.dsel = some 0x89 → selM 0x89 = true ∧ q.1.val.poiAny = true) := by decide +kernel
/-- A long result due at the head: invalid under FVE with a trap already due for slot 3, a read past window 3, and tests of the last sync word, whose GEN is 0. -/
def dueLong (fin : LongEnd) : State := run1.modPipe fun p => { p with
  longs := [⟨.va, vz, fNV, 0x45, 0, fin⟩], fpDue := some .vb, sys := { p.sys with fve := true } }
theorem witness_ResultsLand_long : ∀ fin ∈ [LongEnd.value, .window 3, .test 0 0x5FFFF0 0 (some 31) 0, .test 0 0x5FFFF0 1 (some 31) 0], (dueLong fin).pipe.longs[0]? = some ⟨.va, vz, fNV, 0x45, 0, fin⟩
    ∧ (∀ x ∈ (dueLong fin).pipe.longs.take 0, x.unit = .va → x.left ≠ 0) ∧ ((dueLong fin).syncGet 0 0x5FFFF0).gen = 0 ∧ (dueLong fin).phase ≠ .dusk
    ∧ (dueLong fin).readsStuck (dueLong fin).cur (some 31) 0 = false := by decide +kernel
/-- One not due, and one behind an older one of its unit. -/
theorem witness_ResultsLand_early : let s := run1.modPipe fun p => { p with longs := [⟨.va, vz, 0, 0x45, 0, .value⟩, ⟨.va, vz, 0, 0x46, 0, .value⟩, ⟨.s, vz, 0, 5, 2, .value⟩] }
    (∃ x ∈ s.pipe.longs.take 1, x.unit = .va ∧ x.left = 0) ∧ (s.pipe.longs[2]?.map (·.left)) = some 2 := by decide +kernel

/-! ## Hypotheses met: the control slot -/

theorem witness_BranchResults : (runs1 5).ready .c 0 false 1 (sv 5) = true ∧ (sv 5).toS.poi = false ∧ run1.pipe.regs.s[63] = ⟨⟨0, false⟩, true⟩ := by decide +kernel
/-- The largest number a format register takes, valid and not, and one past it; a system register's number, TSTAT, and one of none. -/
theorem witness_FormatAndSystemReads : (runs1 0xC60EAA).ready .c 0 false 1 (sv 0xC60EAA) = true ∧ (0xC60EAA : W64).toNat < 2 ^ 24 ∧ fmtValid ((0xC60EAA : W64).setWidth 24) = true
    ∧ (runs1 0xFFFFFF).ready .c 0 false 1 (sv 0xFFFFFF) = true ∧ fmtValid ((0xFFFFFF : W64).setWidth 24) = false
    ∧ (runs1 0x1000000).ready .c 0 false 1 (sv 0x1000000) = true ∧ 2 ^ 24 ≤ (0x1000000 : W64).toNat
    ∧ (runs1 0).ready .c 0 false 1 (sv 0) = true ∧ sysAccess 0 ≠ none ∧ (runs1 0xFFF).ready .c 0 false 1 (sv 0xFFF) = true ∧ sysAccess 0xFFF = none := by decide +kernel
theorem witness_SystemRegisterWrites : ((runs1 0).ready .c 0 false 1 (sv 0) = true ∧ (runs1 0x30).ready .c 0 false 1 (sv 0x30) = true ∧ (runs1 0x21).ready .c 0 false 1 (sv 0x21) = true
      ∧ (runs1 0xFFF).ready .c 0 false 1 (sv 0xFFF) = true ∧ (sv 0xFFF).toS.poi = false ∧ (runs1 0xFFF).pipe.units.c.x.poi = false)
    ∧ sysAccess 0 = some false ∧ (0 : W64) ≠ 0x30 ∧ sysAccess 0x21 = some true ∧ sysAccess 0xFFF = none := by decide +kernel
theorem witness_FenceResults : run1.ready .c 0 false 1 (sv 0) = true ∧ run1.me.reqs = [] ∧ run1.me.drainsPending = false ∧ run1.me.reqs.all (fun r => r.op == .store) = true
    ∧ run1.phase ≠ .dusk ∧ run1.me.tracker = [] ∧ (asked .store).ready .c 0 false 1 (sv 0) = true ∧ (asked .store).me.reqs ≠ []
    ∧ (let s : State := { run1 with product := .hv1x }; s.ready .c 0 false 1 (sv 0) = true ∧ s.product = .hv1x) := by decide +kernel
/-- The C unit's X names the last sync word of own scratchpad; its GEN is 0. -/
def barrier (w : W64) : State := withCX 0x80000000005FFFF0 (runs1 w)
theorem witness_BarrierResults : ∀ w ∈ [0, 1], let s := barrier w
    s.ready .c 0 false 1 (sv w) = true ∧ (sv w).toS.poi = false ∧ s.pipe.units.c.x.poi = false ∧ s.namesWord s.pipe.units.c.x.val 0 0x5FFFF0 ∧ s.wordUsable 0 0x5FFFF0 = true
    ∧ s.cardBarrier 0 0x5FFFF0 = false ∧ s.banksReady 0 0x5FFFF0 16 = true ∧ s.waitStuck = false ∧ s.othersReached = true ∧ s.me.releaseWaits = false ∧ s.dNamed .c = true
    ∧ (if w = 0 then (s.syncGet 0 0x5FFFF0).gen = ((sv w).toS.val.setWidth 32).toNat else (s.syncGet 0 0x5FFFF0).gen ≠ ((sv w).toS.val.setWidth 32).toNat) := by
  intro w hw
  simp only [List.mem_cons, List.not_mem_nil, or_false] at hw
  rcases hw with h | h <;> subst h <;>
    exact ⟨by decide +kernel, by decide +kernel, by decide +kernel, ⟨rfl, by decide +kernel⟩, by decide +kernel⟩
/-- A load of the core waits for its bank. -/
def stuck (s : State) : State := s.modMe fun k => { k with reqs := [⟨0, 1, .load false, .sp 0 0, 8, SVal.zero, SVal.zero, 5, none⟩], seq := 1, banks := k.banks.set 0 .retain }
theorem witness_BarrierResults_stuck : let s := stuck (barrier 1)
    s.ready .c 0 false 1 (sv 1) = true ∧ s.pipe.units.c.x.poi = false ∧ s.namesWord s.pipe.units.c.x.val 0 0x5FFFF0 ∧ s.wordUsable 0 0x5FFFF0 = true
    ∧ s.cardBarrier 0 0x5FFFF0 = false ∧ (s.syncGet 0 0x5FFFF0).gen ≠ 1 ∧ s.banksReady 0 0x5FFFF0 16 = true ∧ s.waitStuck = true :=
  ⟨by decide +kernel, by decide +kernel, ⟨rfl, by decide +kernel⟩, by decide +kernel⟩
/-- Below TARGET, at it, past it, and overflowed; and an arrival of the step at a word of core 0. -/
theorem witness_SyncArrivalCounts : (∀ w ∈ [1, 2, 3], let x : SyncWord := ⟨4, 2, 0xFFFFFFFF, 1⟩
      x.count < 2 ^ 32 ∧ x.gen < 2 ^ 32 ∧ x.ovf = false ∧ w ≠ 0 ∧ (w = 1 → x.count + w < x.target) ∧ (w = 2 → x.count + w = x.target) ∧ (w = 3 → x.target < x.count + w))
    ∧ (SyncWord.mk 4 2 0 3).ovf = true ∧ run1.phase ≠ .dusk ∧ run1.syncCopies 0 0x5FFFF0 = [(0, 0x5FFFF0)] ∧ run1.banksReady 0 0x5FFFF0 16 = true
    ∧ (stuck run1).banksReady 0 0 16 = false ∧ (stuck run1).syncCopies 0 0 = [(0, 0)] := by decide +kernel
theorem witness_SyncArrivalCounts_waiter : run1.noWaiter 0 0x5FFFF0 := by
  intro c w hw
  exact absurd hw (not_mem_of (by clear hw w; revert c; decide +kernel))
theorem witness_SyncArrivalCounts_memWf : run1.memWf := ⟨by decide +kernel, by decide +kernel⟩
/-- What an outcome holds, if it is no error. -/
def okOf {ε α : Type} : Except ε α → Option α | .ok a => some a | .error _ => none
theorem ok_of {ε α β : Type} {p : Except ε α × β} {a : α} (h : okOf p.1 = some a) : p = (.ok a, p.2) := by
  obtain ⟨q, b⟩ := p
  cases q <;> simp_all [okOf]
/-- `run1` with bytes at the start of core 0's scratchpad. -/
def withSp (m : List Host.Cell) (s : State) : State := s.modMe fun k => { k with sp := m }
/-- FORK of the task record at the last 64 bytes of scratchpad, all zero: entry 0, no join word. -/
def forker : State := runs1 0x80000000005FFFC0
theorem witness_WorkUnitResults_fork : let s := forker
    s.ready .c 0 false 1 (sv 0x80000000005FFFC0) = true ∧ s.ownsRange 0x80000000005FFFC0 64 64 0x5FFFC0 ∧ s.dNamed .c = true ∧ s.me.class0Waits = false
    ∧ s.banksReady s.cur 0x5FFFC0 64 = true ∧ (s.loadAt s.cur.die s.me.lt[0] (.sp s.cur 0x5FFFC0) 64).1.2.1 = false
    ∧ zeros (s.loadAt s.cur.die s.me.lt[0] (.sp s.cur 0x5FFFC0) 64).1.1 4 4 = true ∧ BitVec.ofNat 64 (fld (s.loadAt s.cur.die s.me.lt[0] (.sp s.cur 0x5FFFC0) 64).1.1 8 8) = 0 :=
  ⟨by decide +kernel, ⟨rfl, by decide +kernel⟩, by decide +kernel⟩
/-- The same where the deque holds 64 records. -/
theorem witness_WorkUnitResults_forkFull : let s := forker.modMe fun k => { k with deque := List.replicate 64 ⟨0, 0, Vector.replicate 6 0, 0⟩ }
    let l := s.loadAt s.cur.die s.me.lt[0] (.sp s.cur 0x5FFFC0) 64
    s.ready .c 0 false 1 (sv 0x80000000005FFFC0) = true ∧ s.ownsRange 0x80000000005FFFC0 64 64 0x5FFFC0 ∧ s.dNamed .c = true ∧ s.me.class0Waits = false
    ∧ s.banksReady s.cur 0x5FFFC0 64 = true ∧ l.1.2.1 = false ∧ zeros l.1.1 4 4 = true ∧ BitVec.ofNat 64 (fld l.1.1 8 8) = 0 ∧ 64 ≤ (l.2.setLt s.cur (l.2.me.lt.set 0 l.1.2.2)).me.deque.length :=
  ⟨by decide +kernel, ⟨rfl, by decide +kernel⟩, by decide +kernel⟩
/-- JOIN on the last sync word, all arrived (TARGET 0) or one missing (TARGET 1). -/
def joiner (n : Byte) : State := withSp (if n = 0 then [] else [(0x5FFFF0, n)]) (runs1 0x80000000005FFFF0)
theorem witness_WorkUnitResults_join : ∀ n ∈ [0, 1], let s := joiner n
    s.ready .c 0 false 1 (sv 0x80000000005FFFF0) = true ∧ (sv 0x80000000005FFFF0).toS.poi = false ∧ s.namesWord 0x80000000005FFFF0 0 0x5FFFF0 ∧ s.wordUsable 0 0x5FFFF0 = true
    ∧ (s.syncGet 0 0x5FFFF0).arm = false ∧ s.banksReady 0 0x5FFFF0 16 = true ∧ s.waitStuck = false ∧ (if n = 0 then (s.syncGet 0 0x5FFFF0).count = (s.syncGet 0 0x5FFFF0).target else (s.syncGet 0 0x5FFFF0).count ≠ (s.syncGet 0 0x5FFFF0).target) := by
  intro n hn
  simp only [List.mem_cons, List.not_mem_nil, or_false] at hn
  rcases hn with h | h <;> subst h <;>
    exact ⟨by decide +kernel, by decide +kernel, ⟨rfl, by decide +kernel⟩, by decide +kernel⟩
/-- A task at its end without a join word, and with one in the core's last sync word. -/
def ending (jw : W64) : State := (runs1 0).modMe fun k => { k with task := { k.task with joinw := jw } }
/-- END with a cause pending in the matrix. -/
theorem witness_WorkUnitResults_pending : ((runs1 0).modMx fun m => { m with pendMeta := some (0x12, 3) }).matrixPending.isSome = true ∧ (runs1 0).pipe.trap.regions = [] := by decide +kernel
theorem witness_WorkUnitResults_end : each [(0 : W64), 0x80000000005FFFF0] fun jw => (ending jw).ready .c 0 false 1 (sv 0) = true ∧ (ending jw).me.mx.pendMeta = none
    ∧ (ending jw).me.mx.pendMis = none ∧ (ending jw).me.mx.pendNv = false ∧ (ending jw).me.task.card = none ∧ (ending jw).me.task.joinw = jw := by decide +kernel
theorem witness_WorkUnitResults_join_memWf : (ending 0x80000000005FFFF0).memWf := ⟨by decide +kernel, by decide +kernel⟩
theorem witness_WorkUnitResults_join_word : (ending 0x80000000005FFFF0).me.owesAny = false ∧ syncAddr 0 0x80000000005FFFF0 = (0, 0x5FFFF0)
    ∧ (ending 0x80000000005FFFF0).syncCopies 0 0x5FFFF0 = [(0, 0x5FFFF0)] ∧ (ending 0x80000000005FFFF0).banksReady 0 0x5FFFF0 16 = true := by decide +kernel
theorem witness_WorkUnitResults_waiter : (ending 0x80000000005FFFF0).noWaiter 0 0x5FFFF0 := by
  intro c w hw
  exact absurd hw (not_mem_of (by clear hw w; revert c; decide +kernel))
/-- Channel 3 (TICKCH 4) has released step 0. -/
def ticked : State :=
  let s := (runs1 0).modPipe fun p => { p with sys2 := { p.sys2 with tickch := 4 } }
  { s with t := { s.t with ticks := s.t.ticks.set 3 ⟨1000, 0, 0, true, some 0, true⟩ } }
theorem witness_LaunchAndServiceResults_tickw : ticked.ready .c 0 false 1 (sv 0) = true ∧ ticked.pipe.sys2.tickch ≠ 0
    ∧ (ticked.t.ticks[selIx 2 (ticked.pipe.sys2.tickch.setWidth 10 - 1)]).last = some 0 := by decide +kernel
theorem witness_LaunchAndServiceResults_svc : let s := runs1 255
    s.ready .c 0 false 1 (sv 255) = true ∧ (255 : W64).toNat < 256 ∧ s.pipe.units.c.x.poi = false ∧ s.pipe.units.c.y.poi = false ∧ s.dNamed .c = true ∧ s.pipe.svc = none
     := by decide +kernel
/-- A launch record of one core, box 1 x 1 x 1, any origin, at the start of scratchpad. -/
def launcher : State := withSp [(0, 1), (2, 1), (8, 1), (9, 1), (10, 1), (13, 128), (180, 1)] (runs1 0x8000000000000000)
/-- What LAUNCH reads. -/
def launchRead : Except Err (List Byte × Bool × Nat) × State := (launcher.mergeClasses 0).readVa 0 (launcher.mergeClasses 0).me.lt[0] 0x8000000000000000 256 8
theorem witness_LaunchAndServiceResults_launch : ∃ l t x bs lt, let w : W64 := 0x8000000000000000
    launcher.ready .c 0 false 1 (sv w) = true ∧ launcher.dNamed .c = true ∧ launcher.reaches w 64 .read l t ∧ t.me.releaseWaits = false ∧ (∀ h off, l = .sp h off → t.banksReady h off 256 = true)
    ∧ (t.mergeClasses t.cur).readVa t.cur (t.mergeClasses t.cur).me.lt[0] w 256 8 = (.ok (bs, false, lt), x)
    ∧ let u := x.setLt x.cur (x.me.lt.set 0 lt)
      launchValid bs = true ∧ u.boxFits (Launch.ofBytes bs) = true ∧ (Launch.ofBytes bs).cls.toNat ≤ u.pipe.sys.cls.toNat
      ∧ u.streamOk u.me.task.ctx (Launch.ofBytes bs).stream = true := by
  refine ⟨.sp 0 0, launcher, launchRead.2, (okOf launchRead.1).getD ([], true, 0) |>.1, 0, by decide +kernel, by decide +kernel, ⟨⟨.inl _, rfl⟩, by decide +kernel, rfl⟩,
    by decide +kernel, fun h off e => (by cases e; decide +kernel), ok_of (by decide +kernel), by decide +kernel⟩
/-- FORK and LAUNCH with D named, above; YIELD of a task that another bulk job wants nothing of, and ABORT. -/
theorem witness_LaunchAndServiceResults_abort : (runs1 7).ready .c 0 false 1 (sv 7) = true ∧ (runs1 7).me.releaseWaits = false := by decide +kernel
theorem witness_ContainmentRegionResults : (runs1 0).ready .c 0 false 1 (sv 0) = true ∧ (runs1 0).pipe.trap.regions.length < 4 ∧ (sv 0).toS.poi = false := by decide +kernel
/-! ## Hypotheses met: exceptions -/

/-- The task at trap level 1, and at level 2, after one trap and two. -/
def level1 : State := run1.trapAt .s 0x04 0
def level2 : State := level1.trapAt .s 0x04 0
/-- A class-2 task at a bundle without a trap point. -/
def class2 : State := run1.modPipe fun p => { p with sys := { p.sys with cls := 2 } }
theorem witness_TrapEntrySavesState : run1.me.reqs = [] ∧ run1.pipe.longs = [] ∧ run1.pipe.svc = none ∧ run1.pipe.trap.tl.toNat < 2 ∧ run1.pipe.sys.cls ≠ 2
    ∧ level1.pipe.trap.tl = 1 ∧ level1.me.reqs = [] ∧ level1.pipe.longs = [] ∧ level1.pipe.svc = none ∧ level2.pipe.trap.tl = 2
    ∧ class2.pipe.trap.tl.toNat < 2 ∧ class2.pipe.sys.cls = 2 ∧ class2.pipe.ib.q = false := by decide +kernel
theorem witness_TrapInstructionRaises : (runs1 7).ready .c 0 false 1 (sv 7) = true ∧ (sv 7).toS.poi = false ∧ (runs1 7).pipe.ib.mute = false
    ∧ (let s := (runs1 7).modPipe fun p => { p with ib := { p.ib with mute := true } }; s.ready .c 0 false 1 (sv 7) = true ∧ s.pipe.ib.mute = true) := by decide +kernel
/-- TRET at level 0. -/
theorem witness_TretRestoresState_level0 : run1.ready .c 0 false 0xC0 (.w64 0) = true ∧ run1.pipe.trap.tl = 0 := by decide +kernel
/-- A level with its buffer, whose region depth is that of its entry (level 1) or not (level 2 with a region opened since). -/
theorem witness_TretRestoresState : (∃ b k, level1.ready .c 0 false 0xC0 (.w64 0) = true ∧ level1.pipe.trap.tl = 1 ∧ level1.pipe.trap.buf1 = some b ∧ k = level1.pipe.trap.bank1
      ∧ level1.pipe.trap.regions.length = b.crgnd)
    ∧ ∃ b k, let s := level2.modPipe fun p => { p with trap := { p.trap with regions := [⟨0, 0⟩] } }
      s.ready .c 0 false 0xC0 (.w64 0) = true ∧ s.pipe.trap.tl = 2 ∧ s.pipe.trap.buf2 = some b ∧ k = s.pipe.trap.bank2 ∧ s.pipe.trap.regions.length ≠ b.crgnd := by
  have some_get {α : Type} {o : Option α} (h : o.isSome = true) : o = some (o.get h) := by simp
  refine ⟨⟨_, _, by decide +kernel, by decide +kernel, some_get (by decide +kernel), rfl, by decide +kernel⟩,
    ⟨_, _, by decide +kernel, by decide +kernel, some_get (by decide +kernel), rfl, by decide +kernel⟩⟩

/-! ## Hypotheses met: the matrix slot -/

/-- `run1` with a queued operation. -/
def queued1 : State := (runs1 0).modMx fun m => { m with queue := [.bank false] }
theorem witness_MatrixPortResults_wait : queued1.ready .m 0 false 1 (sv 0) = true ∧ (sv 0).toS.poi = false ∧ queued1.me.mx.queue ≠ [] := by decide +kernel
/-- The bound registers at the ends of their ranges, 0 to 3 and 0x20 to 0x3F, and numbers that name none. -/
theorem witness_MatrixPortResults : (runs1 0).ready .m 0 false 1 (sv 0) = true ∧ run1.me.mx.queue = [] ∧ run1.me.mx.pendMis = none ∧ run1.me.mx.pendNv = false
    ∧ (∀ n ∈ [0, 1, 2, 3, 0x20, 0x3F], run1.me.mx.boundReg n = some 0) ∧ run1.me.mx.queue.any (fun o => o.changes 0) = false
    ∧ run1.me.mx.boundReg 0x1F = none ∧ run1.me.mx.boundReg 0x40 = none ∧ run1.pipe.units.m.x.poi = false := by decide +kernel
/-- An operand slot of the matrix, in an A pair or not. -/
def ownedSlot (pair : Bool) : OSlot := { OSlot.start with st := .matrix, apair := pair }
/-- The matrix owns operand slots 0, 1 and 31; MSLB is 31; f0 is e4m3. -/
def tiler : State :=
  let s := (runs1 0).modPipe fun p => { p with regs := { p.regs with f := p.regs.f.set 0 0xC60EAA } }
  let slots := ((s.me.mx.slots.set 0 (ownedSlot true)).set 1 (ownedSlot true)).set 31 (ownedSlot false)
  s.modMx fun m => { m with ports := { m.ports with mslb := 31 }, slots := slots }
theorem witness_MatrixQueuedResults_tile : tiler.ready .m 0 false 1 (sv 0) = true ∧ tiler.me.regroups = false ∧ tiler.me.mx.queue.length < 4
    ∧ tiler.tileCheck (tiler.snapshot false) = none ∧ tiler.tileCheck (tiler.snapshot true) = none
    ∧ (runs1 0).ready .m 0 false 1 (sv 0) = true ∧ (runs1 0).me.regroups = false ∧ ((runs1 0).tileCheck ((runs1 0).snapshot false)).isSome = true := by decide +kernel

/-- The state after a record is read. -/
def readTo (s : State) (a : W64) (n lt : Nat) : State :=
  let u := (s.readVa s.cur s.me.lt[0] a n (n / 32 + 2)).2
  u.setLt s.cur (u.me.lt.set 0 (max u.me.lt[0] lt))
/-- Whether the bank of a scratchpad range that an address names is not ACTIVE. -/
def shut (s : State) (a : W64) (n : Nat) : Bool := match s.form s.cur a with | .ok (.inl (.sp h off)) => !s.banksReady h off n | _ => false
theorem reads_of {s : State} {a : W64} {n lt : Nat} {bs : List Byte} (h1 : s.me.class0Waits = false)
    (h2 : shut s a n = false)
    (h3 : okOf (s.readVa s.cur s.me.lt[0] a n (n / 32 + 2)).1 = some (bs, false, lt)) : s.readsRecord a n bs (readTo s a n lt) :=
  ⟨h1, fun h off e => (by simpa [shut, e] using h2), lt, _, ok_of h3, rfl⟩
/-- The bytes of a listed memory. -/
def listed (m : List Host.Cell) (off n : Nat) : List Byte := Memory.bytes m off n
/-- A map of one element of own scratchpad at offset 0x400, by its element size. -/
def tinyMap (esize : BitVec 8) : List Host.Cell := [(1, 4), (7, 0x80), (8, esize <<< 3)]
/-- MDTM names that map at the start of scratchpad; a drain of type `t`. -/
def drainer (esize : BitVec 8) (t : W64) : State :=
  let s := withSp (tinyMap esize) (runs1 0)
  (s.modPipe fun p => { p with units := { p.units with m := { p.units.m with y := ⟨t, false⟩ } } }).modMx fun m => { m with ports := { m.ports with mdtm := 0x8000000000000000 } }
/-- The hypotheses of a drain of a type of element, as the statement has them. -/
def drainHyps (es : BitVec 8) (ty : W64) (k : DrainKind) : Prop :=
  ∃ (m : TMap) (s1 s2 s3 : State) (locs : List (List (Nat × Loc))) (ents : List (Nat × Loc)),
    let s := drainer es ty
    let x := s.pipe.units.m.x
    let y := s.pipe.units.m.y
    let typ : BitVec 2 := y.val.setWidth 2
    s.ready .m 0 false 1 (sv 0) = true ∧ s.me.regroups = false ∧ x.poi = false ∧ y.poi = false ∧ (0 : W64).extractLsb' 2 62 = 0 ∧ (s.me.mx.bank false).st ≠ .lo ∧ (k = .cvt → typ ≠ 3)
    ∧ s.readsMap s.me.mx.ports.mdtm m s1 ∧ m.drainRows ≤ 256
    ∧ let width := s1.me.mx.width
      let rows := (List.range m.drainRows).map fun i => m.drainRow x.val width i
      let tix := y.val.extractLsb' 32 32
      drainMapBad k typ m (s1.pipe.fmt m.freg) rows = false ∧ (k = .cvt → typ = 2 → fmtValid (s1.pipe.fmt m.freg) = true) ∧ s1.drainAll s1.cur (k.size typ) rows = (.ok locs, s2)
      ∧ s2.drainLocs s1.cur 4 (if m.btab = 0 then [] else (List.range width).map fun i => (128 * i, m.btab + (tix.setWidth 64 + BitVec.ofNat 64 i) * 4)) = (.ok ents, s3)
      ∧ s3.me.mx.queue.length < 4 ∧ s3.me.mx.queue.any (fun o => o.uses false) = false ∧ s3.drainPending false = none
      ∧ (s3.drainBounds false (decide ((s3.me.mx.bank false).st = .hi)) rows).any (fun x => exceeds x s3.me.mx.ports.mbthr) = false
theorem witness_MatrixQueuedResults_drain_st : drainHyps 2 0 .st := by
  refine ⟨TMap.ofBytes (listed (tinyMap 2) 0 96), readTo (drainer 2 0) 0x8000000000000000 96 0, readTo (drainer 2 0) 0x8000000000000000 96 0, _,
    [[(0, .sp 0 0x400)]], [], by decide +kernel, by decide +kernel, by decide +kernel, by decide +kernel, by decide +kernel, by decide +kernel, by decide +kernel,
    ⟨⟨.inl _, rfl⟩, by decide +kernel, listed (tinyMap 2) 0 96, reads_of (by decide +kernel) (by decide +kernel) (by decide +kernel), by decide +kernel, rfl⟩,
    by decide +kernel, by decide +kernel, by decide +kernel, by rfl, by rfl, by decide +kernel, by decide +kernel, by rfl, by decide +kernel⟩
theorem witness_MatrixQueuedResults_drain_add : drainHyps 2 0 .add := by
  refine ⟨TMap.ofBytes (listed (tinyMap 2) 0 96), readTo (drainer 2 0) 0x8000000000000000 96 0, readTo (drainer 2 0) 0x8000000000000000 96 0, _,
    [[(0, .sp 0 0x400)]], [], by decide +kernel, by decide +kernel, by decide +kernel, by decide +kernel, by decide +kernel, by decide +kernel, by decide +kernel,
    ⟨⟨.inl _, rfl⟩, by decide +kernel, listed (tinyMap 2) 0 96, reads_of (by decide +kernel) (by decide +kernel) (by decide +kernel), by decide +kernel, rfl⟩,
    by decide +kernel, by decide +kernel, by decide +kernel, by rfl, by rfl, by decide +kernel, by decide +kernel, by rfl, by decide +kernel⟩
/-- Type 2 takes its format from register 0, which holds e4m3v without block scales. -/
def drainerFmt : State := (drainer 1 2).modPipe fun p => { p with regs := { p.regs with f := p.regs.f.set 0 0xC60E8A } }
theorem witness_MatrixQueuedResults_format : drainMapBad .cvt 2 (TMap.ofBytes (listed (tinyMap 0) 0 96)) (drainerFmt.pipe.fmt 0) [] = false ∧ fmtValid (drainerFmt.pipe.fmt 0) = true := by decide +kernel
theorem witness_MatrixQueuedResults_drain_cvt : drainHyps 1 1 .cvt := by
  refine ⟨TMap.ofBytes (listed (tinyMap 1) 0 96), readTo (drainer 1 1) 0x8000000000000000 96 0, readTo (drainer 1 1) 0x8000000000000000 96 0, _,
    [[(0, .sp 0 0x400)]], [], by decide +kernel, by decide +kernel, by decide +kernel, by decide +kernel, by decide +kernel, by decide +kernel, by decide +kernel,
    ⟨⟨.inl _, rfl⟩, by decide +kernel, listed (tinyMap 1) 0 96, reads_of (by decide +kernel) (by decide +kernel) (by decide +kernel), by decide +kernel, rfl⟩,
    by decide +kernel, by decide +kernel, by decide +kernel, by rfl, by rfl, by decide +kernel, by decide +kernel, by rfl, by decide +kernel⟩
/-- Operand slots 30 and 31 READY. -/
def readySlots : State :=
  let r : OSlot := { OSlot.start with st := .ready }
  let slots := (run1.me.mx.slots.set 30 r).set 31 r
  (runs1 30).modMx fun m => { m with slots := slots }
theorem witness_MatrixClaimBeatResults_claim : readySlots.ready .m 0 false 1 (sv 30) = true ∧ readySlots.dNamed .m = true ∧ ((30 : W64).extractLsb' 0 5).getLsbD 0 = false
    ∧ (readySlots.me.mx.slot 30).st = .ready ∧ (readySlots.me.mx.slot 31).st = .ready ∧ (30 : W64).getLsbD 5 = false := by decide +kernel
/-- The first beat and the last of a tile. -/
theorem witness_MatrixClaimBeatResults_beat : (tiler.me.mx.queue = [] ∧ tiler.me.mx.width = 1 ∧ tiler.me.mx.ports.mgrp ≠ 2 ∧ tiler.me.mx.ports.mgrp ≠ 4)
    ∧ (let t := tiler.snapshot false
      tiler.tileCheck t = none ∧ t.ports.sp = false ∧ t.wide = false ∧ tiler.me.mx.forbids t.ports.bank t.wide = false
      ∧ ((0 : W64).extractLsb' 0 9).toNat < (wclass t.ports.atyp t.fa).beats
      ∧ (BitVec.ofNat 64 ((wclass t.ports.atyp t.fa).beats - 1)).extractLsb' 0 9 = BitVec.ofNat 9 ((wclass t.ports.atyp t.fa).beats - 1)
      ∧ (BitVec.ofNat 9 ((wclass t.ports.atyp t.fa).beats - 1)).toNat < (wclass t.ports.atyp t.fa).beats) := by decide +kernel
/-- MB.D of row 0, which has an element, and of row 255, which has none. -/
theorem witness_MatrixClaimBeatResults_row : ∃ (y : TMap) (s1 s2 : State), let s := drainer 2 0
    s.ready .m 0 false 1 (sv 0) = true ∧ s.pipe.units.m.x.poi = false ∧ (s.me.mx.bank false).st ≠ .lo ∧ s.readsMap s.me.mx.ports.mdtm y s1 ∧ drainMapBad .st 0 y 0 [] = false
    ∧ s1.drainLocs s1.cur 4 (if 0 < y.drainRows then y.drainRow s.pipe.units.m.x.val 1 0 else []) = (.ok [(0, .sp 0 0x400)], s2)
    ∧ s1.drainLocs s1.cur 4 (if 255 < y.drainRows then y.drainRow s.pipe.units.m.x.val 1 255 else []) = (.ok [], s2)
    ∧ s2.writesReady s2.cur [.sp 0 0x400] 4 = true ∧ s2.writesReady s2.cur [] 4 = true :=
  ⟨TMap.ofBytes (listed (tinyMap 2) 0 96), readTo (drainer 2 0) 0x8000000000000000 96 0, readTo (drainer 2 0) 0x8000000000000000 96 0, by decide +kernel, by decide +kernel, by decide +kernel,
    ⟨⟨.inl _, rfl⟩, by decide +kernel, listed (tinyMap 2) 0 96, reads_of (by decide +kernel) (by decide +kernel) (by decide +kernel), by decide +kernel, rfl⟩, by decide +kernel, by rfl, by rfl, by decide +kernel⟩

/-! ## Hypotheses met: the copy slots -/

theorem ok_exc {ε α : Type} {x : Except ε α} {a : α} (h : okOf x = some a) : x = .ok a := by cases x <;> simp_all [okOf]
/-- FROM = s1 names the last row of scratchpad. -/
def lastRow : State := runs1 0x80000000005FFC00
theorem witness_ScratchpadRowResults : ∀ k ∈ [KUnit.ka, .kb], lastRow.ready k.slot 0 false 1 (sv 0x80000000005FFC00) = true ∧ (sv 0x80000000005FFC00).toS.poi = false
    ∧ lastRow.ownsRange 0x80000000005FFC00 128 1024 0x5FFC00 ∧ lastRow.me.class0Waits = false ∧ (lastRow.kLatch k).x.poi = 0 ∧ (lastRow.kLatch k).y.poi = 0
    ∧ (((List.range 256).map fun i => some (0x5FFC00 + 4 * i)).all fun o => match o with | some o => lastRow.banksReady lastRow.cur o 4 | none => true) = true := by
  intro k hk
  simp only [List.mem_cons, List.not_mem_nil, or_false] at hk
  rcases hk with h | h <;> subst h <;>
    exact ⟨by decide +kernel, by decide +kernel, ⟨rfl, by decide +kernel⟩, by decide +kernel⟩
/-- SPLD.H of the last half row, SPLD.BC of the last word, SPLD.G and SPST.S with offsets 0. -/
theorem witness_ScratchpadRowResults_other : (let s := runs1 0x80000000005FFE00
      s.ready .ka 0 false 1 (sv 0x80000000005FFE00) = true ∧ s.ownsRange 0x80000000005FFE00 64 512 0x5FFE00
      ∧ (((List.range 256).map fun i => some (0x5FFE00 + 2 * i)).all fun o => match o with | some o => s.banksReady s.cur o 2 | none => true) = true)
    ∧ (let s := runs1 0x80000000005FFFFC
      s.ready .ka 0 false 1 (sv 0x80000000005FFFFC) = true ∧ s.ownsRange 0x80000000005FFFFC 4 4 0x5FFFFC ∧ s.banksReady s.cur 0x5FFFFC 4 = true
      ∧ (s.kLatch .ka).x.poi = 0 ∧ (s.kLatch .ka).y.poi = 0 ∧ (∀ b, s.ownAddr 0x80000000005FFFFC 4 4 ≠ .error (0x07, b))
      ∧ s.ownAddrs 4 4 (laneAddrs fun i => 0x80000000005FFFFC + ((s.kLatch .ka).x.val[i]).setWidth 64) = .ok (List.replicate 256 (some 0x5FFFFC))
      ∧ s.ownAddrs 4 4 (laneAddrs fun i => 0x80000000005FFFFC + ((s.kLatch .ka).y.val[i]).setWidth 64) = .ok (List.replicate 256 (some 0x5FFFFC))) := by
  refine ⟨⟨by decide +kernel, ⟨rfl, by decide +kernel⟩, by decide +kernel⟩, by decide +kernel,
    ⟨rfl, by decide +kernel⟩, by decide +kernel, by decide +kernel, by decide +kernel, fun b h => ?_, ok_exc (by decide +kernel), ok_exc (by decide +kernel)⟩
  have hx : (runs1 0x80000000005FFFFC).ownAddr 0x80000000005FFFFC 4 4 = .ok 0x5FFFFC := ok_exc (by decide +kernel)
  rw [hx] at h
  cases h
/-- SPST.M of lane 31 alone, the last word of scratchpad, and of lane 32, which lies past it. -/
def masker (l : Nat) : State := (runs1 0x80000000005FFF80).modPipe fun p => { p with units := { p.units with ka := { p.units.ka with y := ⟨Vec.tab fun i => if i.val = l then 1 else 0, 0⟩ } } }
theorem witness_ScratchpadRowResults_mask : (∀ l ∈ [31, 32], (masker l).ready .ka 0 false 1 (sv 0x80000000005FFF80) = true ∧ (masker l).ownsRange 0x80000000005FFF80 128 4 0x5FFF80
      ∧ ((masker l).kLatch .ka).y.poi = 0)
    ∧ (masker 31).banksReady (masker 31).cur 0x5FFFFC 4 = true ∧ (masker 31).me.class0Waits = false
    ∧ (∀ i : Fin 256, ((masker 31).kLatch .ka).y.val[i] ≠ 0 → 0x5FFF80 + 4 * i.val < 0x600000)
    ∧ ((masker 32).kLatch .ka).y.val[32] ≠ 0 ∧ 0x600000 ≤ 0x5FFF80 + 4 * 32 ∧ (∀ j : Fin 256, j.val < 32 → ((masker 32).kLatch .ka).y.val[j] = 0) := by
  refine ⟨fun l hl => ?_, by decide +kernel⟩
  simp only [List.mem_cons, List.not_mem_nil, or_false] at hl
  rcases hl with h | h <;> subst h <;> exact ⟨by decide +kernel, ⟨rfl, by decide +kernel⟩, by decide +kernel⟩
/-- AG.SET0 reads the map at the start of scratchpad; with that map AG3 has elements, and AG0 has none. -/
def agSetter : State := withSp (tinyMap 2) (runs1 0x8000000000000000)
/-- A generator with the tiny map of words. -/
def agLoaded : State := agSetter.modMe fun k => k.setK .ka { k.ka with ag := k.ka.ag.set 3 ⟨some (TMap.ofBytes (listed (tinyMap 2) 0 96)), 0, 0⟩ }
/-- A hold of 0 cycles is over at once. -/
theorem witness_ScratchpadRowResults_hold : rowHold (List.replicate 256 (some 0x5FFFFC)) ≤ (runs1 0x80000000005FFFFC).pipe.stall
    ∧ rowHold (some 0x400 :: List.replicate 255 none) ≤ agLoaded.pipe.stall := by decide +kernel
theorem witness_ScratchpadRowResults_ag : (∃ m t, agSetter.ready .ka 0 false 1 (sv 0x8000000000000000) = true ∧ (0x8000000000000000 : W64).extractLsb' 62 2 ≠ 3
      ∧ agSetter.readsMap 0x8000000000000000 m t)
    ∧ agLoaded.ready .ka 0 false 1 (sv 0x8000000000000000) = true ∧ ((agLoaded.me.kslot .ka).ag[3]).map = some (TMap.ofBytes (listed (tinyMap 2) 0 96)) ∧ ((agLoaded.me.kslot .ka).ag[0]).map = none
    ∧ agLoaded.ownAddrs 4 4 (((agLoaded.me.kslot .ka).ag[3]).next (TMap.ofBytes (listed (tinyMap 2) 0 96))) = .ok (some 0x400 :: List.replicate 255 none)
    ∧ ((some 0x400 :: List.replicate 255 none).all fun o => match o with | some o => agLoaded.banksReady agLoaded.cur o 4 | none => true) = true ∧ agLoaded.me.class0Waits = false :=
  ⟨⟨TMap.ofBytes (listed (tinyMap 2) 0 96), readTo agSetter 0x8000000000000000 96 0, by decide +kernel, by decide +kernel,
      ⟨⟨.inl _, rfl⟩, by decide +kernel, listed (tinyMap 2) 0 96, reads_of (by decide +kernel) (by decide +kernel) (by decide +kernel), by decide +kernel, rfl⟩⟩,
    by decide +kernel, by decide +kernel, by decide +kernel, ok_exc (by decide +kernel), by decide +kernel⟩
theorem witness_ScratchpadRowResults_bytes : lastRow.memWf ∧ lastRow.homeUp (.sp lastRow.cur 0x5FFFFC) = true :=
  ⟨⟨by decide +kernel, by decide +kernel⟩, by decide +kernel⟩
/-- The last sync word, its REL clear; and one with REL set. -/
def syncer (rel : Bool) : State := withSp (if rel then [(0x5FFFFC, 4)] else []) (runs1 0x80000000005FFFF0)
theorem witness_SyncAndChannelResults_words : ∀ rel ∈ [false, true], let s := syncer rel
    s.ready .ka 0 false 1 (sv 0x80000000005FFFF0) = true ∧ (sv 0x80000000005FFFF0).toS.poi = false ∧ s.namesWord 0x80000000005FFFF0 0 0x5FFFF0 ∧ s.me.class0Waits = false
    ∧ s.banksReady 0 0x5FFFF0 16 = true ∧ (s.kLatch .ka).x.poi.getLsbD 0 = false ∧ (s.kLatch .ka).y.poi.getLsbD 0 = false ∧ s.wordUsable 0 0x5FFFF0 = true
    ∧ (s.syncGet 0 0x5FFFF0).rel = rel ∧ s.othersReached = true ∧ s.me.releaseWaits = false ∧ s.dNamed .ka = true ∧ poisonAt (s.core 0).spPoi 0x5FFFF0 16 = false := by
  intro rel hr
  simp only [List.mem_cons, List.not_mem_nil, or_false] at hr
  rcases hr with h | h <;> subst h <;>
    exact ⟨by decide +kernel, by decide +kernel, ⟨rfl, by decide +kernel⟩, by decide +kernel⟩
theorem witness_SyncAndChannelResults_home : (syncer false).memWf ∧ (syncer false).homeUp (.sp 0 0x5FFFF0) = true :=
  ⟨⟨by decide +kernel, by decide +kernel⟩, by decide +kernel⟩
/-- Channel 7 of core 0, which runs the context: it has room, or it is full. -/
def sender (cap : Nat) : State := (runs1 0xE0).modMe fun k => { k with chans := k.chans.set 7 ⟨[], cap, []⟩ }
theorem witness_SyncAndChannelResults_qput : ∀ cap ∈ [1, 0], let s := sender cap
    s.ready .ka 0 false 1 (sv 0xE0) = true ∧ (0xE0 : W64).extractLsb' 8 56 = 0 ∧ s.runsCtx (CoreId.mk' s.cur.die ((0xE0 : W64).extractLsb' 0 5).toNat) s.me.task.ctx = true ∧ s.dNamed .ka = true
    ∧ s.me.class0Waits = false ∧ s.ctx s.me.task.ctx = some ctx1 ∧ (s.chan 0 7).ring = [] ∧ (cap = 1 → (s.chan 0 7).msgs.length + s.inFlight 0 7 < (s.chan 0 7).cap)
    ∧ (cap = 0 → (s.chan 0 7).cap ≤ (s.chan 0 7).msgs.length + s.inFlight 0 7 ∧ ctx1.ashpit = false) := by
  intro cap hc
  simp only [List.mem_cons, List.not_mem_nil, or_false] at hc
  rcases hc with h | h <;> subst h <;>
    and_intros <;> decide +kernel
/-- QGET of channel 7; ING.POP at the last offset of queue 15's window of 4. -/
def popper : State := { (runs1 0x3000F) with t := { (runs1 0).t with ingest := (runs1 0).t.ingest.set 15 (some ⟨0x20000, 4, 0, 4, 0x40000⟩) } }
theorem witness_SyncAndChannelResults_waits : (runs1 7).ready .kb 0 false 1 (sv 7) = true ∧ (7 : W64).toNat < 8 ∧ (runs1 7).dNamed .kb = true
    ∧ popper.ready .kb 0 false 1 (sv 0x3000F) = true ∧ (0x3000F : W64).extractLsb' 4 12 = 0 ∧ (0x3000F : W64).extractLsb' 28 36 = 0 ∧ popper.dNamed .kb = true
    ∧ popper.ingest ((0x3000F : W64).extractLsb' 0 4).toNat = some ⟨0x20000, 4, 0, 4, 0x40000⟩ ∧ ((0x3000F : W64).extractLsb' 16 12).toNat < 4 := by decide +kernel
theorem witness_EngineAcceptance : (run1.me.kslot .ka).queue.length < 16 ∧ run1.pipe.wq = none
    ∧ (let s := run1.modMe fun k => k.setK .ka { k.ka with queue := List.replicate 16 ⟨0, .xcopy (.flat 0) (.flat 0), 0, 0, 0, 1, 1, 1, 0, 0, 0, [], none, false, false, 0, [], []⟩ }
      16 ≤ (s.me.kslot .ka).queue.length) := by decide +kernel
/-- A command block at the start of scratchpad, and at 0x100 a map of one word (read as a sequence record, rows of 16 bytes); F names the block. -/
def block (m : List Host.Cell) : State := withSp (m ++ [(0x101, 4), (0x107, 0x80), (0x108, 16)]) (runs1 0x8000000000000000)
/-- What the trigger reads of it. -/
def blockBytes (m : List Host.Cell) : List Byte := listed (m ++ [(0x101, 4), (0x107, 0x80), (0x108, 16)]) 0 64
/-- The map at 0x100, and the state after it is read from `s`. -/
def map100 : TMap := TMap.ofBytes (listed [(1, 4), (7, 0x80), (8, 16)] 0 96)
def after100 (s : State) : State := readTo s 0x8000000000000100 96 0
theorem map_of {s : State} (h1 : s.me.class0Waits = false) (h2 : shut s 0x8000000000000100 96 = false)
    (h3 : okOf (s.readVa s.cur s.me.lt[0] 0x8000000000000100 96 5).1 = some (listed [(1, 4), (7, 0x80), (8, 16)] 0 96, false, 0))
    (h4 : s.form s.cur 0x8000000000000100 = .ok (.inl (.sp s.cur 0x100))) : s.readsMap 0x8000000000000100 map100 (after100 s) :=
  ⟨⟨_, h4⟩, by decide +kernel, _, reads_of h1 h2 h3, by decide +kernel, rfl⟩
theorem block_of {s : State} {opc : Nat} {bs : List Byte} (h0 : ((s.me.kslot .ka).flg.extractLsb' 2 3).toNat < 5) (h5 : (s.me.kslot .ka).sw = 0) (h1 : s.me.class0Waits = false)
    (h2 : shut s 0x8000000000000000 64 = false) (h3 : okOf (s.readVa s.cur s.me.lt[0] 0x8000000000000000 64 4).1 = some (bs, false, 0)) (h4 : fld bs 0 1 = opc) :
    s.readsBlock .ka 0x8000000000000000 opc bs (readTo s 0x8000000000000000 64 0) := ⟨h0, .inl h5, reads_of h1 h2 h3, h4⟩
/-- A map side of a command, at an aligned address of own scratchpad. -/
theorem side_of {s : State} {a : W64} {off : Nat} {bs : List Byte} (h1 : s.me.class0Waits = false) (h2 : shut s a 96 = false)
    (h3 : okOf (s.readVa s.cur s.me.lt[0] a 96 5).1 = some (bs, false, 0)) (h4 : s.form s.cur a = .ok (.inl (.sp s.cur off))) (h5 : a.toNat % 32 = 0) (h6 : mapValid bs = true) :
    s.readsSide true a 0 (.walk (TMap.ofBytes bs) 0) (some (TMap.ofBytes bs)) (readTo s a 96 0) :=
  ⟨_, ⟨⟨_, h4⟩, h5, _, reads_of h1 h2 h3, h6, rfl⟩, rfl, rfl⟩
/-- A block beside a map at 0x200 of `n` + 1 elements of own scratchpad, and that map. -/
def mapped (m : List Host.Cell) (n esize : Byte) : State := withSp (m ++ ([(0x101, 4), (0x107, 0x80), (0x108, 16), (0x201, 4), (0x207, 0x80), (0x208, esize <<< 3), (0x21C, n)] : List Host.Cell)) (runs1 0x8000000000000000)
def mapBytes (n esize : Byte) : List Byte := listed [(1, 4), (7, 0x80), (8, esize <<< 3), (28, n)] 0 96
/-- The state after the block is read, and after the map beside it. -/
def blockTo (s : State) : State := readTo s 0x8000000000000000 64 0
def mapTo (s : State) : State := readTo (blockTo s) 0x8000000000000200 96 0
/-- What every trigger asks first. -/
theorem witness_EngineTriggerResults : (block []).ready .ka 0 false 1 (sv 0x8000000000000000) = true ∧ (sv 0x8000000000000000).toS.poi = false
    ∧ (block []).ownsRange 0x8000000000000000 64 64 0 ∧ (block []).dNamed .ka = true :=
  ⟨by decide +kernel, by decide +kernel, ⟨rfl, by decide +kernel⟩, by decide +kernel⟩
/-- XCOPY of one byte, flat. -/
theorem witness_EngineTriggerResults_xcopy_flat : ∃ b t, (block [(0, 0x20), (4, 1)]).readsBlock .ka 0x8000000000000000 0x20 b t ∧ zeros b 1 1 = true ∧ fld b 2 2 / 4 = 0 ∧ zeros b 40 20 = true
    ∧ hbit b 16 = false ∧ hbit b 17 = false ∧ 1 ≤ fld b 4 4 ∧ f64 b 24 = 0 ∧ f64 b 32 = 0 :=
  ⟨blockBytes [(0, 0x20), (4, 1)], _, block_of (by decide +kernel) (by decide +kernel) (by decide +kernel) (by decide +kernel) (by decide +kernel) (by decide +kernel), by decide +kernel⟩
/-- XCOPY of walks: both maps at 0x200; of one walk, from it or to it, the other side flat. -/
def xcopyWalk : List Host.Cell := [(0, 0x20), (2, 3), (9, 2), (15, 0x80), (17, 2), (23, 0x80)]
theorem witness_EngineTriggerResults_xcopy_walk : let s := mapped xcopyWalk 255 2
    ∃ b t m t1 t2, s.readsBlock .ka 0x8000000000000000 0x20 b t ∧ (zeros b 1 1 = true ∧ fld b 2 2 / 4 = 0 ∧ zeros b 40 20 = true ∧ hbit b 16 = true ∧ hbit b 17 = true ∧ fld b 4 4 = 0
    ∧ f64 b 8 = 0x8000000000000200 ∧ f64 b 16 = 0x8000000000000200 ∧ f64 b 24 = 0 ∧ f64 b 32 = 0)
    ∧ t.readsSide true 0x8000000000000200 0 (.walk m 0) (some m) t1 ∧ t1.readsSide true 0x8000000000000200 0 (.walk m 0) (some m) t2 :=
  ⟨listed xcopyWalk 0 64, _, TMap.ofBytes (mapBytes 255 2), _, _, block_of (by decide +kernel) (by decide +kernel) (by decide +kernel) (by decide +kernel) (by decide +kernel) (by decide +kernel),
    by decide +kernel, side_of (by decide +kernel) (by decide +kernel) (by decide +kernel) (by rfl) (by decide +kernel) (by decide +kernel),
    side_of (by decide +kernel) (by decide +kernel) (by decide +kernel) (by rfl) (by decide +kernel) (by decide +kernel)⟩
/-- XCOPY from a walk to a flat range, or back. -/
def xcopyHalf (back : Bool) : List Host.Cell := if back then [(0, 0x20), (2, 2), (15, 0x80), (17, 2), (23, 0x80)] else [(0, 0x20), (2, 1), (9, 2), (15, 0x80), (23, 0x80)]
theorem witness_EngineTriggerResults_xcopy_half (back : Bool) : let s := mapped (xcopyHalf back) 255 2
    ∃ b t m t1, s.readsBlock .ka 0x8000000000000000 0x20 b t ∧ (zeros b 1 1 = true ∧ fld b 2 2 / 4 = 0 ∧ zeros b 40 20 = true ∧ hbit b 16 = !back ∧ hbit b 17 = back ∧ fld b 4 4 = 0
    ∧ f64 b (if back then 16 else 8) = 0x8000000000000200 ∧ f64 b 24 = 0 ∧ f64 b 32 = 0) ∧ t.readsSide true 0x8000000000000200 0 (.walk m 0) (some m) t1 := by
  refine ⟨listed (xcopyHalf back) 0 64, blockTo (mapped (xcopyHalf back) 255 2), TMap.ofBytes (mapBytes 255 2), mapTo (mapped (xcopyHalf back) 255 2), ?_⟩
  cases back <;>
    exact ⟨block_of (by decide +kernel) (by decide +kernel) (by decide +kernel) (by decide +kernel) (by decide +kernel) (by decide +kernel),
      by decide +kernel, side_of (by decide +kernel) (by decide +kernel) (by decide +kernel) (by rfl) (by decide +kernel) (by decide +kernel)⟩
/-- XGATH and XSCAT of one row of one byte, and with 32 extents. -/
theorem witness_EngineTriggerResults_xgath : ∀ q ∈ [(0x21, 1), (0x22, 32)], let m : List Host.Cell := [(0, BitVec.ofNat 8 q.1), (4, 1), (28, 1), (40, BitVec.ofNat 8 q.2)]
    ∃ b t, (block m).readsBlock .ka 0x8000000000000000 q.1 b t ∧ zeros b 1 1 = true ∧ fld b 2 2 / 4 = 0 ∧ hbit b 16 = false ∧ hbit b 17 = false ∧ 1 ≤ fld b 4 4 ∧ fld b 4 4 ≤ 1048576
      ∧ 1 ≤ fld b 28 4 ∧ f64 b 32 = 0 ∧ 1 ≤ fld b 40 2 ∧ fld b 40 2 ≤ 32 ∧ zeros b 42 18 = true := by
  intro q hq
  simp only [List.mem_cons, List.not_mem_nil, or_false] at hq
  rcases hq with h | h <;> subst h
  · exact ⟨blockBytes [(0, 0x21), (4, 1), (28, 1), (40, 1)], _, block_of (by decide +kernel) (by decide +kernel) (by decide +kernel) (by decide +kernel) (by decide +kernel) (by decide +kernel), by decide +kernel⟩
  · exact ⟨blockBytes [(0, 0x22), (4, 1), (28, 1), (40, 32)], _, block_of (by decide +kernel) (by decide +kernel) (by decide +kernel) (by decide +kernel) (by decide +kernel) (by decide +kernel), by decide +kernel⟩
/-- XGATH to a map and XSCAT from one, of 1,024 rows of one byte. -/
def listMap (scat : Bool) : List Host.Cell := [(0, if scat then 0x22 else 0x21), (2, if scat then 1 else 2), (5, 4), (17, 2), (23, 0x80), (28, 1), (40, 1)]
theorem witness_EngineTriggerResults_xgath_map (scat : Bool) : let s := mapped (listMap scat) 255 2
    ∃ b t m t1, s.readsBlock .ka 0x8000000000000000 (if scat then 0x22 else 0x21) b t ∧ (zeros b 1 1 = true ∧ fld b 2 2 / 4 = 0 ∧ hbit b (if scat then 17 else 16) = false
      ∧ hbit b (if scat then 16 else 17) = true ∧ fld b 4 4 = 1024 ∧ fld b 28 4 = 1 ∧ fld b 40 2 = 1 ∧ zeros b 42 18 = true ∧ f64 b 16 = 0x8000000000000200 ∧ f64 b 32 = 0)
      ∧ t.readsSide true 0x8000000000000200 0 (.walk m 0) (some m) t1 ∧ m.vol * m.eb = fld b 28 4 * fld b 4 4 := by
  refine ⟨listed (listMap scat) 0 64, blockTo (mapped (listMap scat) 255 2), TMap.ofBytes (mapBytes 255 2), mapTo (mapped (listMap scat) 255 2), ?_⟩
  cases scat <;>
    exact ⟨block_of (by decide +kernel) (by decide +kernel) (by decide +kernel) (by decide +kernel) (by decide +kernel) (by decide +kernel),
      by decide +kernel, side_of (by decide +kernel) (by decide +kernel) (by decide +kernel) (by rfl) (by decide +kernel) (by decide +kernel), by decide +kernel⟩
/-- A span of one die. -/
def oneDie (s : State) : State := s.modPipe fun p => { p with sys2 := { p.sys2 with shddim := 0x010101 } }
/-- XMCAST of one byte to the last byte of scratchpad, on every die of a span of one. -/
def mcast : List Host.Cell := [(0, 0x23), (4, 1), (16, 0xFF), (17, 0xFF), (18, 0x5F), (23, 0x80), (48, 31)]
theorem witness_EngineTriggerResults_xmcast : ∃ b t ranks o1, (oneDie (block mcast)).readsBlock .ka 0x8000000000000000 0x23 b t ∧ (zeros b 1 1 = true ∧ fld b 2 2 / 2 = 0 ∧ hbit b 16 = false ∧ 1 ≤ fld b 4 4
    ∧ fld b 4 4 ≤ 0x600000 ∧ formOk (f64 b 8) = true ∧ dieSet t.pipe.sys2.shddim (f64 b 24) = some ranks ∧ f64 b 32 = 0 ∧ fld b 48 1 < 32 ∧ zeros b 49 11 = true
    ∧ (f64 b 16).toNat % 0x800000 + fld b 4 4 ≤ 0x600000) ∧ t.ownsRange (f64 b 16) 1 (fld b 4 4) o1 ∧ f64 b 40 = 0 :=
  ⟨blockBytes mcast, readTo (oneDie (block mcast)) 0x8000000000000000 64 0, [0], 0x5FFFFF,
    block_of (by decide +kernel) (by decide +kernel) (by decide +kernel) (by decide +kernel) (by decide +kernel) (by decide +kernel), by decide +kernel, ⟨by rfl, by decide +kernel⟩, by decide +kernel⟩
/-- XMCAST of a map to the own core, with an arrival on the word at 0x10000. -/
def mcastMap : List Host.Cell := [(0, 0x23), (2, 1), (9, 2), (15, 0x80), (17, 0x20), (23, 0x80), (42, 1), (47, 0x80), (48, 0xFF)]
theorem witness_EngineTriggerResults_xmcast_map : ∃ b t m t1 o1 o2, (oneDie (mapped mcastMap 255 2)).readsBlock .ka 0x8000000000000000 0x23 b t ∧ (zeros b 1 1 = true ∧ fld b 2 2 / 2 = 0 ∧ hbit b 16 = true
    ∧ fld b 4 4 = 0 ∧ dieSet t.pipe.sys2.shddim (f64 b 24) = some [0] ∧ fld b 48 1 = 0xFF ∧ zeros b 49 11 = true ∧ f64 b 8 = 0x8000000000000200 ∧ f64 b 32 = 0)
    ∧ t.readsSide true 0x8000000000000200 0 (.walk m 0) (some m) t1 ∧ (f64 b 16).toNat % 0x800000 + m.eb * m.vol ≤ 0x600000 ∧ t1.ownsRange (f64 b 16) 1 (m.eb * m.vol) o1
    ∧ t1.ownsRange (f64 b 40) 16 16 o2 :=
  ⟨listed mcastMap 0 64, _, TMap.ofBytes (mapBytes 255 2), _, 0x2000, 0x10000, block_of (by decide +kernel) (by decide +kernel) (by decide +kernel) (by decide +kernel) (by decide +kernel) (by decide +kernel),
    by decide +kernel, side_of (by decide +kernel) (by decide +kernel) (by decide +kernel) (by rfl) (by decide +kernel) (by decide +kernel), by decide +kernel,
    ⟨by rfl, by decide +kernel⟩, ⟨by rfl, by decide +kernel⟩⟩
/-- XRED of four bytes on a span of one die, whose root is this one. -/
def redBlock : List Host.Cell := [(0, 0x24), (4, 4), (15, 0x80), (17, 0x10), (23, 0x80)]
def reducer : State := (oneDie (block redBlock)).modMe fun k => { k with task := { k.task with spanSize := 1 } }
theorem witness_EngineTriggerResults_xred : ∃ b t, reducer.readsBlock .ka 0x8000000000000000 0x24 b t ∧ zeros b 1 1 = true ∧ fld b 2 1 / 32 = 0 ∧ fld b 4 4 % 4 = 0 ∧ 4 ≤ fld b 4 4
    ∧ fld b 4 4 ≤ 0x100000 ∧ (fld b 2 1 % 16 = 4 → fld b 4 4 % 1024 = 0) ∧ fld b 32 2 < t.me.task.spanSize ∧ zeros b 34 22 = true ∧ fld b 56 4 / 4 = 0 ∧ dieSet t.pipe.sys2.shddim (f64 b 24) = some [0]
    ∧ fld b 32 2 = t.me.task.spanRank ∧ fld b 2 1 % 16 < 5 ∧ fld b 32 2 ∈ [0] ∧ ownBlockAddr (f64 b 16) = true ∧ hbit b 20 = false ∧ ownBlockAddr (f64 b 8) = true :=
  ⟨blockBytes redBlock, readTo reducer 0x8000000000000000 64 0,
    block_of (by decide +kernel) (by decide +kernel) (by decide +kernel) (by decide +kernel) (by decide +kernel) (by decide +kernel), by decide +kernel⟩
/-- XHALO of the map at 0x100 with no axis; XRESH between the same map. -/
def haloBlock : List Host.Cell := [(0, 0x25), (9, 1), (15, 0x80)]
def haloer : State := (block haloBlock).modPipe fun p => { p with sys2 := { p.sys2 with shdmode := 1 } }
theorem witness_EngineTriggerResults_xhalo : ∃ b t t1 m, haloer.readsBlock .ka 0x8000000000000000 0x25 b t ∧ zeros b 1 1 = true ∧ fld b 2 2 / 128 = 0 ∧ zeros b 4 4 = true ∧ zeros b 24 36 = true
    ∧ t.pipe.sys2.shdmode = 1 ∧ f64 b 16 = 0 ∧ t.readsMap (f64 b 8) m t1 ∧ m.paddedFits = true
    ∧ ∀ x ∈ [(3 : Fin 4), 2, 1].filter fun x => hbit b (15 + x.val), m.dims[x].lo ≤ m.dims[x].ext ∧ m.dims[x].hi ≤ m.dims[x].ext := by
  refine ⟨blockBytes haloBlock, readTo haloer 0x8000000000000000 64 0, after100 (readTo haloer 0x8000000000000000 64 0), map100,
    block_of (by decide +kernel) (by decide +kernel) (by decide +kernel) (by decide +kernel) (by decide +kernel) (by decide +kernel), by decide +kernel, by decide +kernel, by decide +kernel,
    by decide +kernel, by decide +kernel, by decide +kernel, ?_, by decide +kernel⟩
  have h : f64 (blockBytes haloBlock) 8 = 0x8000000000000100 := by decide +kernel
  rw [h]
  exact map_of (by decide +kernel) (by decide +kernel) (by decide +kernel) (by rfl)
def reshBlock : List Host.Cell := [(0, 0x26), (9, 1), (15, 0x80), (17, 1), (23, 0x80), (24, 2), (46, 1)]
theorem witness_EngineTriggerResults_xresh : ∃ b t t1 t2 m m', (block reshBlock).readsBlock .ka 0x8000000000000000 0x26 b t ∧ zeros b 1 2 = true ∧ zeros b 4 4 = true ∧ zeros b 48 12 = true
    ∧ (t.me.task.spanRank = 0 → (f64 b 24).toNat < 3 ∧ shardBlkOk (f64 b 24).toNat (f64 b 40) = true ∧ f64 b 32 = t.pipe.sys2.shddim.setWidth 64) ∧ t.readsMap (f64 b 8) m t1 ∧ t1.readsMap (f64 b 16) m' t2 ∧ m.esize = m'.esize := by
  refine ⟨blockBytes reshBlock, readTo (block reshBlock) 0x8000000000000000 64 0, after100 (readTo (block reshBlock) 0x8000000000000000 64 0),
    after100 (after100 (readTo (block reshBlock) 0x8000000000000000 64 0)), map100, map100,
    block_of (by decide +kernel) (by decide +kernel) (by decide +kernel) (by decide +kernel) (by decide +kernel) (by decide +kernel), by decide +kernel, by decide +kernel, by decide +kernel,
    by decide +kernel, ?_, ?_, rfl⟩
  · have h : f64 (blockBytes reshBlock) 8 = 0x8000000000000100 := by decide +kernel
    rw [h]
    exact map_of (by decide +kernel) (by decide +kernel) (by decide +kernel) (by rfl)
  · have h : f64 (blockBytes reshBlock) 16 = 0x8000000000000100 := by decide +kernel
    rw [h]
    exact map_of (by decide +kernel) (by decide +kernel) (by decide +kernel) (by rfl)
/-- MOPLD.T of one unit to A slots 0 and 1. -/
def loadBlock : List Host.Cell := [(0, 0x19), (18, 1)]
theorem witness_EngineTriggerResults_mopldT : ∃ b t, (block loadBlock).readsBlock .ka 0x8000000000000000 0x19 b t
    ∧ let c := BitVec.ofNat 32 (fld b 4 4)
      let reg := t.pipe.fmt (c.extractLsb' 7 3)
      zeros b 1 1 = true ∧ fld b 2 2 / 2 = 0 ∧ ctrlBad c = false ∧ (c.getLsbD 6 = true → fmtValid reg = true) ∧ formOk (f64 b 8) = true ∧ loadRangeBad c reg (fld b 16 2) (fld b 18 2) = false
      ∧ hbit b 16 = false ∧ f64 b 24 = 0 ∧ zeros b 32 28 = true :=
  ⟨blockBytes loadBlock, readTo (block loadBlock) 0x8000000000000000 64 0,
    block_of (by decide +kernel) (by decide +kernel) (by decide +kernel) (by decide +kernel) (by decide +kernel) (by decide +kernel), by decide +kernel⟩
/-- MOPLD.T of one unit from a map of 1,024 bytes; and a slot of it that the matrix owns. -/
def loadMap : List Host.Cell := [(0, 0x19), (2, 1), (9, 2), (15, 0x80), (18, 1)]
/-- The matrix owns slot 1, or not. -/
def ownerOf (own : Bool) : State := (mapped loadMap 255 2).modMx fun m => { m with slots := m.slots.set 1 (if own then ownedSlot true else OSlot.start) }
theorem witness_EngineTriggerResults_mopldT_map (own : Bool) : let s := ownerOf own
    ∃ b t m t1, s.readsBlock .ka 0x8000000000000000 0x19 b t ∧ (zeros b 1 1 = true ∧ fld b 2 2 / 2 = 0 ∧ fld b 4 4 = 0 ∧ fld b 16 2 = 0 ∧ fld b 18 2 = 1 ∧ hbit b 16 = true
    ∧ f64 b 8 = 0x8000000000000200 ∧ f64 b 24 = 0 ∧ zeros b 32 28 = true) ∧ t.readsSide true 0x8000000000000200 0 (.walk m 0) (some m) t1 ∧ m.vol * m.eb = 1 * 1024
    ∧ ((ctrlSlots 0).any fun n => (t1.me.mx.slot n).st == .matrix) = own := by
  refine ⟨listed loadMap 0 64, blockTo (ownerOf own), TMap.ofBytes (mapBytes 255 2), mapTo (ownerOf own), ?_⟩
  cases own <;>
    exact ⟨block_of (by decide +kernel) (by decide +kernel) (by decide +kernel) (by decide +kernel) (by decide +kernel) (by decide +kernel),
      by decide +kernel, side_of (by decide +kernel) (by decide +kernel) (by decide +kernel) (by rfl) (by decide +kernel) (by decide +kernel), by decide +kernel⟩
/-- KV.APP of one row to the record at 0x100. -/
def appBlock : List Host.Cell := [(0, 0x41), (4, 1), (9, 1), (15, 0x80)]
theorem witness_EngineTriggerResults_kvApp : ∃ b t t1 lt r, (block appBlock).readsBlock .ka 0x8000000000000000 0x41 b t ∧ (zeros b 1 1 = true ∧ fld b 2 2 / 2 = 0 ∧ 1 ≤ fld b 4 4 ∧ fld b 4 4 ≤ 65536
    ∧ formOk (f64 b 16) = true ∧ hbit b 16 = false ∧ f64 b 24 = 0 ∧ zeros b 40 20 = true) ∧ (∃ x, t.form t.cur (f64 b 8) = .ok x) ∧ (f64 b 8).extractLsb' 62 2 ≠ 3 ∧ (f64 b 8).toNat % 64 = 0
    ∧ t.me.class0Waits = false ∧ t.banksReady t.cur ((f64 b 8).toNat % 0x800000 + 8) 4 = true ∧ t.readVa t.cur t.me.lt[0] (f64 b 8 + 8) 4 2 = (.ok (r, false, lt), t1) ∧ 1 ≤ natOfBytes r ∧ natOfBytes r ≤ 1048576 :=
  ⟨blockBytes appBlock, readTo (block appBlock) 0x8000000000000000 64 0, _, 0, [16, 0, 0, 0],
    block_of (by decide +kernel) (by decide +kernel) (by decide +kernel) (by decide +kernel) (by decide +kernel) (by decide +kernel), by decide +kernel, ⟨.inl (.sp 0 0x100), by rfl⟩, by decide +kernel, by decide +kernel, by decide +kernel, by decide +kernel,
    ok_of (by decide +kernel), by decide +kernel⟩
/-- KV.APP of one row from a map of 16 bytes. -/
def appMap : List Host.Cell := [(0, 0x41), (2, 1), (4, 1), (9, 1), (15, 0x80), (17, 2), (23, 0x80)]
theorem witness_EngineTriggerResults_kvApp_map : ∃ b t t1 t2 lt r m, (mapped appMap 15 0).readsBlock .ka 0x8000000000000000 0x41 b t ∧ (zeros b 1 1 = true ∧ fld b 2 2 / 2 = 0 ∧ fld b 4 4 = 1
    ∧ hbit b 16 = true ∧ f64 b 16 = 0x8000000000000200 ∧ f64 b 24 = 0 ∧ zeros b 40 20 = true ∧ (f64 b 8).toNat % 64 = 0 ∧ t.me.class0Waits = false ∧ t.banksReady t.cur ((f64 b 8).toNat % 0x800000 + 8) 4 = true)
    ∧ t.readVa t.cur t.me.lt[0] (f64 b 8 + 8) 4 2 = (.ok (r, false, lt), t1) ∧ natOfBytes r = 16
    ∧ (t1.setLt t1.cur (t1.me.lt.set 0 lt)).readsSide true 0x8000000000000200 0 (.walk m 0) (some m) t2 ∧ m.vol * m.eb = fld b 4 4 * natOfBytes r :=
  ⟨listed (appMap ++ [(0x108, 16)]) 0 64, readTo (mapped appMap 15 0) 0x8000000000000000 64 0, _, _, 0, [16, 0, 0, 0], TMap.ofBytes (mapBytes 15 0),
    block_of (by decide +kernel) (by decide +kernel) (by decide +kernel) (by decide +kernel) (by decide +kernel) (by decide +kernel), by decide +kernel, ok_of (by decide +kernel), by decide +kernel,
    side_of (by decide +kernel) (by decide +kernel) (by decide +kernel) (by rfl) (by decide +kernel) (by decide +kernel), by decide +kernel⟩
/-- X of KA. -/
def withKX (l : List W32) (s : State) : State := s.modPipe fun p => { p with units := { p.units with ka := { p.units.ka with x := firstLanes l } } }
/-- MOPLD of one unit from the last 1 KiB of scratchpad to A slots 0 and 1. -/
def loader : State := withKX [0, 0x10000, 0] lastRow
theorem witness_KvAndPrefixResults_mopld : let u := loader.kLatch .ka
    loader.ready .ka 0 false 1 (sv 0x80000000005FFC00) = true ∧ (sv 0x80000000005FFC00).toS.poi = false ∧ u.x.poi &&& 7 = 0 ∧ ctrlBad u.x.val[0] = false ∧ (u.x.val[0]).getLsbD 6 = false
    ∧ ((u.x.val[1]).extractLsb' 16 16).toNat = 1
    ∧ loadRangeBad u.x.val[0] (loader.pipe.fmt ((u.x.val[0]).extractLsb' 7 3)) ((u.x.val[1]).extractLsb' 0 16).toNat ((u.x.val[1]).extractLsb' 16 16).toNat = false
    ∧ loader.ownsRange 0x80000000005FFC00 128 (1024 * 1) 0x5FFC00 ∧ ((ctrlSlots u.x.val[0]).any fun n => (loader.me.mx.slot n).st == .matrix) = false
    ∧ loader.slotsBusy loader.cur (ctrlSlots u.x.val[0]) = false ∧ loader.me.class0Waits = false ∧ loader.banksReady loader.cur 0x5FFC00 (1024 * 1) = true :=
  ⟨by decide +kernel, by decide +kernel, by decide +kernel, by decide +kernel, by decide +kernel, by decide +kernel, by decide +kernel,
    ⟨rfl, by decide +kernel⟩, by decide +kernel⟩
/-- Context 1 with pool 0 of rows of 16 bytes, with a block in use or not, and prefix entry 63. -/
def kvState (quota : Nat) (x : List W32) (rec : List Host.Cell) : State :=
  let s := withKX x (withSp rec (runs1 0x8000000000000000))
  let c : Ctx := { ctx1 with pools := ctx1.pools.set 0 (some ⟨0x100000, 4, 16, [⟨0, 16, 1, 0⟩]⟩), pfxQuota := quota }
  ({ s with fw := { s.fw with ctxs := [c] } } : State).modDie 0 fun d => { d with pfx := d.pfx.set 63 ⟨5, 0, 0x100000, 0, 1, 0, 3, true⟩ }
/-- A record with ROWB 16, and with POOL 4. -/
def seqRec (pool : BitVec 8) : List Host.Cell := if pool = 0 then [(8, 16)] else [(8, 16), (26, pool)]
/-- What reading the record leaves. -/
def seqRead (pool : BitVec 8) (x : List W32) : State := readTo (kvState 0 x (seqRec pool)) 0x8000000000000000 576 0
theorem reads_seq (pool : BitVec 8) (x : List W32) (h : pool = 0 ∨ pool = 4) (hx : x = [0] ∨ x = [16]) :
    let s := kvState 0 x (seqRec pool)
    s.ready .ka 0 false 1 (sv 0x8000000000000000) = true ∧ (s.kLatch .ka).x.poi.getLsbD 0 = false ∧ s.dNamed .ka = true ∧ (∃ y, s.form s.cur 0x8000000000000000 = .ok y)
    ∧ s.readsRecord 0x8000000000000000 576 (listed (seqRec pool) 0 576) (seqRead pool x) := by
  rcases h with h | h <;> rcases hx with h' | h' <;> subst h <;> subst h' <;>
    exact ⟨by decide +kernel, by decide +kernel, by decide +kernel, ⟨.inl (.sp 0 0), by rfl⟩, reads_of (by decide +kernel) (by decide +kernel) (by decide +kernel)⟩
/-- Writes that are located and find room in the tracker. -/
def writable (t : State) (w : List (W64 × List Byte)) : Bool :=
  match okOf (t.locateAll w).1 with
  | some l => (t.locateAll w).2.writesReady (t.locateAll w).2.cur (l.map (·.1)) 16
  | none => false
theorem located {t : State} {w : List (W64 × List Byte)} (h : writable t w = true) :
    ∃ l q, t.locateAll w = (.ok l, q) ∧ q.writesReady q.cur (l.map (·.1)) 16 = true := by
  unfold writable at h
  split at h
  · rename_i l hl
    exact ⟨l, _, ok_of hl, h⟩
  · cases h
/-- The record as read. -/
def rec0 : SeqRec := SeqRec.ofBytes (listed (seqRec 0) 0 576)
/-- KV.EXT: release (X = 0), a pool that does not exist (POOL = 4), and a grant of 16 tokens. -/
theorem witness_KvAndPrefixResults_kvExt : (((seqRead 0 [0]).kLatch .ka).x.val[0] = 0
      ∧ ∃ l q, (seqRead 0 [0]).locateAll (({ rec0 with len := 0, cap := 0, next := 0, npin := 0 } : SeqRec).counters 0x8000000000000000) = (.ok l, q) ∧ q.writesReady q.cur (l.map (·.1)) 16 = true)
    ∧ (((seqRead 4 [16]).kLatch .ka).x.val[0] ≠ 0 ∧ 4 ≤ (SeqRec.ofBytes (listed (seqRec 4) 0 576)).pool)
    ∧ ∃ z p o, let t := seqRead 0 [16]
      rec0.pool < 4 ∧ t.ctx t.me.task.ctx = some z ∧ z.pools[0] = some p ∧ blockFor 16 32 16 ≤ 65536 ∧ rec0.next < 32 ∧ rec0.rowb = p.row ∧ p.findFree (blockFor 16 32 16) 16 = some o
      ∧ ∃ l q, t.locateAll ((0x8000000000000000 + BitVec.ofNat 64 (64 + 16 * rec0.next), extBytes (p.addr o, blockFor 16 32 16, rec0.rowb))
          :: ({ rec0 with next := rec0.next + 1, cap := rec0.cap + blockFor 16 32 16 } : SeqRec).capNext 0x8000000000000000) = (.ok l, q) ∧ q.writesReady q.cur (l.map (·.1)) 16 = true :=
  ⟨⟨by decide +kernel, located (by decide +kernel)⟩, by decide +kernel, { ctx1 with pools := ctx1.pools.set 0 (some ⟨0x100000, 4, 16, [⟨0, 16, 1, 0⟩]⟩) }, ⟨0x100000, 4, 16, [⟨0, 16, 1, 0⟩]⟩, 16,
    by decide +kernel, by decide +kernel, by decide +kernel, by decide +kernel, by decide +kernel, by decide +kernel, by decide +kernel, located (by decide +kernel)⟩
/-- An extent that a record of the core lists, and one that none does. -/
theorem witness_KvAndPrefixResults_listed : let w : Listing := ⟨0x8000000000000000, some 0, 0x100000, true, some (0, 63)⟩
    let s := run1.modCtx 1 fun c => { c with listed := [w] }
    s.listed 0x8000000000000000 0x100000 true = some w ∧ s.listed 0x8000000000000000 0x100000 false = none := by decide +kernel
/-- KV.EXT where no pool is configured, and where the pool's rows are of another size than the record's. -/
theorem witness_KvAndPrefixResults_kvExt_none : ctx1.pools[0] = none ∧ (SeqRec.ofBytes (listed [(8, 8)] 0 576)).rowb ≠ 16 := by decide +kernel
/-- PFX.HASH; PFX.LOOK of a hash of no entry, and of entry 63; PFX.UNPIN of it. -/
theorem witness_KvAndPrefixResults_pfx : (let s := kvState 1 [0x803F0003] []
      s.dNamed .ka = true ∧ (s.kLatch .ka).y.poi.getLsbD 0 = false ∧ (s.kLatch .ka).x.poi &&& 0xFFFF = 0 ∧ (s.die s.cur.die).pfxFind 1 0x8000000000000000 = none ∧ (s.die s.cur.die).pfxFind 1 5 = some 63
      ∧ s.pfxNamed 0x803F0003 = some 63 ∧ s.pfxNamed 0x803F0004 = none) := by decide +kernel
/-- An insertion record for hash `h` with the block's base. -/
def insRec (h : BitVec 8) : List Host.Cell := if h = 0 then [(18, 0x10)] else [(0, h), (18, 0x10)]
/-- PFX.INS: a hit, a full quota of no entry (quota 0 with its own entry pinned: no victim), and a victim. -/
theorem witness_KvAndPrefixResults_ins : (∀ h ∈ [(5 : BitVec 8), 0], let s := kvState 2 [0] (insRec h)
      s.ownsRange 0x8000000000000000 32 32 0 ∧ s.dNamed .ka = true ∧ s.readsRecord 0x8000000000000000 32 (listed (insRec h) 0 32) (readTo s 0x8000000000000000 32 0)
      ∧ zeros (listed (insRec h) 0 32) 28 4 = true
      ∧ (∃ z, (readTo s 0x8000000000000000 32 0).ctx 1 = some z ∧ z.extentStart (f64 (listed (insRec h) 0 32) 16) = true ∧ z.pfxQuota = 2)
      ∧ (h = 5 → ((readTo s 0x8000000000000000 32 0).die s.cur.die).pfxFind 1 (f64 (listed (insRec h) 0 32) 0) = some 63)
      ∧ (h = 0 → ((readTo s 0x8000000000000000 32 0).die s.cur.die).pfxFind 1 (f64 (listed (insRec h) 0 32) 0) = none
        ∧ ((readTo s 0x8000000000000000 32 0).die s.cur.die).pfxVictim 1 2 = some 0 ∧ (Die.reset.pfxVictim 1 0) = none)) := by
  intro h hh
  simp only [List.mem_cons, List.not_mem_nil, or_false] at hh
  rcases hh with h' | h' <;> subst h' <;>
    exact ⟨⟨by rfl, by decide +kernel⟩, by decide +kernel, reads_of (by decide +kernel) (by decide +kernel) (by decide +kernel), by decide +kernel,
      ⟨{ ctx1 with pools := ctx1.pools.set 0 (some ⟨0x100000, 4, 16, [⟨0, 16, 1, 0⟩]⟩), pfxQuota := 2 }, by decide +kernel, by decide +kernel, rfl⟩, by decide +kernel⟩
/-- PFX.PIN of entry 63 to a record without extents, and of no entry. -/
theorem witness_KvAndPrefixResults_pin : let s := kvState 0 [0x803F0003] (seqRec 0)
    let t := readTo s 0x8000000000000000 576 0
    s.readsRecord 0x8000000000000000 576 (listed (seqRec 0) 0 576) t
    ∧ (t.pfxNamed 0x803F0003 = some 63 ∧ ((t.die t.cur.die).pfx[63]).pin ≠ 255 ∧ rec0.next = rec0.npin ∧ rec0.next < 32 ∧ rec0.win = 0)
    ∧ (∃ l q, t.locateAll ((0x8000000000000000 + BitVec.ofNat 64 (64 + 16 * rec0.next), extBytes (((t.die t.cur.die).pfx[63]).base, 16, rec0.rowb))
        :: ({ rec0 with next := rec0.next + 1, npin := rec0.npin + 1, cap := rec0.cap + 16, len := rec0.len + 16 } : SeqRec).counters 0x8000000000000000) = (.ok l, q)
      ∧ q.writesReady q.cur (l.map (·.1)) 16 = true)
    ∧ t.pfxNamed 0x803F0004 = none
    ∧ ∃ l q, t.locateAll [(0x8000000000000000 + 28, bytesOfNat 4 (rec0.pfail / 2 * 2 + 1))] = (.ok l, q) ∧ q.writesReady q.cur (l.map (·.1)) 16 = true :=
  ⟨reads_of (by decide +kernel) (by decide +kernel) (by decide +kernel), by decide +kernel, located (by decide +kernel), by decide +kernel, located (by decide +kernel)⟩

/-! ## Hypotheses met: machine steps of a core and of memory -/

/-- A marker that every group has reached; a poisoned engine operand. -/
def marked : State := run1.modPipe fun p => { p with stream := { p.stream with win := [⟨0, 1, 0, false, [], none, some (0x01, 7, 0), false⟩] }, engPoison := some 5 }
theorem witness_CoreStepResults_stream : run1.me.canIssue = true ∧ run1.phase = .running ∧ run1.pipe.mayDispatch = true ∧ marked.me.canIssue = true ∧ marked.phase = .running
    ∧ marked.pipe.engPoison = some 5 ∧ (∀ g, g < 4 → marked.pipe.pos g = 32) ∧ marked.pipe.stream.at 32 = some ⟨0, 1, 0, false, [], none, some (0x01, 7, 0), false⟩ := by decide +kernel
/-- What these wait for can be performed, or cannot, in a region and out of one. -/
theorem witness_CoreStepResults_stuck : marked.entryStuck = false ∧ (stuck marked).entryStuck = true ∧ (stuck marked).pipe.engPoison = some 5
    ∧ (∀ g, g < 4 → (stuck marked).pipe.pos g = 32) ∧ (stuck marked).me.canIssue = true ∧ (stuck marked).stuck (fun _ => true) = true := by decide +kernel
/-- A replicated, writable page at VA 0x40000000 of context 1. -/
def replicated : State := run1.installLeaf 0x20000 0x40000000 0 0x3008F
theorem witness_CoreStepResults_pages : (0x40000000 : W64).extractLsb' 56 8 = 0 ∧ (0x00FFFFFFFFFFFFFF : W64).extractLsb' 56 8 = 0 ∧ leafFaults (run1.leafFor run1.cur (0x10000 : W64).toNat).1 .read = true
    ∧ (∃ a n e, replicated.ctx replicated.me.task.ctx = some ctx1 ∧ replicated.walk ctx1.root (0x40000000 : W64).toNat = .leaf a n e ∧ ebit e 1 = true ∧ ebit e 3 = true ∧ replicated.mayCollapse 1 (0x40000000 : W64).toNat n = true) :=
  ⟨by decide, by decide, by decide +kernel, ⟨2 ^ 36 + 2 ^ 35 - 0x2000 * 3, 0, 0x3008F, by decide +kernel, by decide +kernel, by decide, by decide, by decide +kernel⟩⟩
/-- A mergeable atomic; banks 0 and 47 in each mode; a pending service of each number. -/
theorem witness_CoreStepResults : (asked (.atomic .add false)).phase ≠ .dusk ∧ (asked (.atomic .add false)).me.reqs[0]? = some (lastWord (.atomic .add false))
    ∧ run1.phase ≠ .dusk ∧ (∀ b ∈ [0, 47], run1.me.banks.getD b .retain = .active) ∧ run1.fw.cfg.bkidle ≠ 0 ∧ run1.me.converting < 4
    ∧ (let s := run1.modMe fun k => { k with banks := (k.banks.set 0 (.entering 1024)).set 47 (.exiting 1024) }
      s.me.banks[0] = .entering 1024 ∧ s.me.banks[47] = .exiting 1024)
    ∧ 0x5FFFF0 % 16 = 0 ∧ 0x5FFFF0 + 16 ≤ 0x600000 ∧ run1.banksReady 0 0x5FFFF0 16 = true
    ∧ (each [(1 : BitVec 8), 5] fun n => let s := run1.modPipe fun p => { p with svc := some ⟨n, 0, 0, 5⟩ }; s.pipe.svc = some ⟨n, 0, 0, 5⟩) := by decide +kernel

/-- A core without a task, and one that has counted BKIDLE cycles since its last access. -/
theorem witness_CoreStepResults_idle : (run1.modMe fun k => { k with task := { k.task with st := .none } }).me.task.st = .none
    ∧ (let s := run1.modPipe fun p => { p with cyc := 0x1000000 }; s.fw.cfg.bkidle.toNat ≤ (s.pipe.cyc - s.me.bankUse.getD 47 0).toNat) := by decide +kernel

/-- A migration of a 64 KiB page in a phase, with dirty lines. -/
def migrating (phase : Nat) (dirty : List Nat) : State :=
  { run1 with m := { run1.m with migs := [⟨1, 0x40000000, 0, 0x30000, 0x50000, phase, dirty, 0, 1, 0⟩] } }
theorem witness_MemoryStepResults_memory : (let s : State := { run1 with m := { run1.m with dirty := [0x80000000000], granules := [⟨0x80000000000, List.replicate 64 1, []⟩] } }
      0x80000000000 ∈ s.m.dirty ∧ s.m.granules[0]? = some ⟨0x80000000000, List.replicate 64 1, []⟩ ∧ (s.m.granules.take 0).any (fun h => h.addr = 0x80000000000) = false)
    ∧ (let s : State := { run1 with m := { run1.m with vdirty := [0x1000] } }; 0x1000 ∈ s.m.vdirty ∧ 0x1000 ∉ s.m.dirty ∧ s.phase ≠ .dusk)
    ∧ (let s := run1.modMe fun k => { k with tracker := List.range 129 }; 128 < s.me.tracker.length ∧ s.phase ≠ .dusk)
    ∧ (migrating 1 []).m.migs.length = 1 ∧ (migrating 1 []).phase ≠ .dusk ∧ 64 < (List.range 65).length ∧ (List.range 64).length ≤ 64
    ∧ (migrating 4 []).cores.all (fun k => k.applied 0) = true ∧ run1.backed 0x10000 = true ∧ tierOf (run1.normPa 0x10000) ≤ 1 := by decide +kernel
/-- A channel packet from core 0 of die 0 to a core, standing at a die. -/
def packet (kind : BitVec 8) (dst : CoreId) (kgen : BitVec 16) : Packet :=
  ⟨kind, 1, 0, 0, dst, 0, 1, kgen, 7, ⟨Vector.replicate 16 0, 0, 0⟩, none⟩
/-- `run1` with that packet in flight. -/
def flying (p : Packet) : State := { run1 with link := { run1.link with net := [p] } }
/-- A packet of a reserved kind, one of an old kill generation, one with a hop to go, and one at its die. -/
theorem witness_MemoryStepResults_packets : (packet 0xFF 32 0).reserved = true ∧ (packet 9 32 0).reserved = false ∧ (flying (packet 9 32 1)).oldGen (packet 9 32 1) = true
    ∧ (flying (packet 9 32 0)).oldGen (packet 9 32 0) = false ∧ (flying (packet 9 32 0)).link.net[0]? = some (packet 9 32 0) ∧ (packet 9 32 0).atDie ≠ (packet 9 32 0).dst.die
    ∧ ((flying (packet 9 32 0)).route (packet 9 32 0).atDie (packet 9 32 0).dst.die).isSome = true ∧ ((flying (packet 9 32 0)).route (packet 9 32 0).atDie (packet 9 32 0).dst.die) ≠ some []
    ∧ (packet 9 31 0).atDie = (packet 9 31 0).dst.die ∧ ((flying (packet 9 31 0)).link.net.take 0).any (fun q => q.src = (packet 9 31 0).src && q.dst = (packet 9 31 0).dst) = false
    ∧ run1.hasPort 0 5 = true ∧ ({ run1 with product := .hv1x } : State).hasPort 0 5 = false ∧ 5 ∉ (run1.die 0).links ∧ run1.dieLive 7 = true
    ∧ (let s := run1.modMe fun k => { k with chans := k.chans.set 7 ⟨[], 16, [⟨Vector.replicate 16 0, 0, 0⟩]⟩ }
      (s.chan s.cur 7).ring = [⟨Vector.replicate 16 0, 0, 0⟩] ∧ (s.chan s.cur 7).msgs.length < (s.chan s.cur 7).cap ∧ s.inFlight s.cur 7 = 0) := by decide +kernel

/-! ## Hypotheses met: the sequencer and the engines -/

/-- `tiler` with a queued operation. -/
def sequencing (o : SeqOp) : State := tiler.modMx fun m => { m with queue := [o] }
/-- A drain whose rows are done. -/
def doneDrain : Drain := ⟨.st, false, false, true, 0, 0, 0, 0, 0, [], [none], none, 0, 0, [0], [(0, false)], 0⟩
theorem witness_SequencerAndEngineStepResults_sequencer : tiler.phase ≠ .dusk ∧ tiler.me.sequences = true
    ∧ runnable [.tile (tiler.snapshot false) 0 0 0] (fun o => match o with | .tile _ _ _ _ => true | _ => false) = some 0
    ∧ (sequencing (.zero true false)).me.mx.queue = [.zero true false] ∧ (sequencing (.bank true)).me.mx.queue = [.bank true]
    ∧ (sequencing (.drain doneDrain)).me.drainMay doneDrain = true ∧ runnable [.drain doneDrain] (fun o => match o with | .drain _ => true | _ => false) = some 0
    ∧ (let s := run1.modMx fun m => { m with slots := m.slots.set 31 { OSlot.start with loads := [(true, false)] } }
      (s.me.mx.slot (31 : BitVec 5).toNat).loads = [(true, false)]) := by decide +kernel
/-- Cores 0 and 1 of one crew; MGRP 2; the matrix group stands at an MTILE. -/
def grouping : State :=
  let two (k : Core) : Core := { k with task := { k.task with st := .running, ctx := 1, crewSize := 2, job := 1 } }
  let s := (run1.modCore 0 two).modCore 1 two
  (s.modMx fun m => { m with ports := { m.ports with mgrp := 2 } }).modPipe fun p =>
    { p with stream := { p.stream with win := [⟨0, 2, 0, false, [(.m, 0x088080)], none, none, false⟩] } }
theorem witness_SequencerAndEngineStepResults_group : grouping.me.atQueued = true ∧ grouping.me.regroups = true ∧ grouping.formStop grouping.cur = none ∧ grouping.pipe.trap.tl = 0 := by
  decide +kernel
/-- A copy-engine command that has started. -/
def cmdOf (kind : EngKind) (pos total : Nat) : EngCmd := ⟨7, kind, 0x8000000000000000, 0, 0, total, 1, total, 0, pos, 0, [], none, false, true, 0, [], []⟩
/-- `run1` with it in KA's queue. -/
def working (e : EngCmd) : State := run1.modMe fun k => k.setK .ka { k.ka with queue := [e] }
theorem starts (e : EngCmd) (h : e.started = true) : (working e).engStart 0 .ka 0 = (some e, working e) := by
  have hq : (((working e).core 0).kslot .ka).queue = [e] := by rfl
  simp [State.engStart, hq, h]
theorem witness_SequencerAndEngineStepResults_engine : ∀ q ∈ [(EngKind.xcopy (.flat 0x8000000000000000) (.flat 0x8000000000001000)), .xmcast (.flat 0x8000000000000000) 0x8000000000001000 [0] 1 0,
      .kvapp 1 0x8000000000000100 16 (.flat 0x8000000000000000) (some 0)], (working (cmdOf q 0 16)).engStart 0 .ka 0 = (some (cmdOf q 0 16), working (cmdOf q 0 16)) ∧ (cmdOf q 0 16).pos < (cmdOf q 0 16).total
        ∧ ((working (cmdOf q 0 16)).me.kslot .ka).isResh 0 = false ∧ (working (cmdOf q 0 16)).wordReady 0 (cmdOf q 0 16) = true := by
  intro q hq
  refine ⟨starts _ rfl, by simp [cmdOf], ?_, rfl⟩
  simp only [List.mem_cons, List.not_mem_nil, or_false] at hq
  rcases hq with h | h | h <;> subst h <;> rfl
/-- A command whose completion word lies in a bank that is not ACTIVE. -/
theorem witness_SequencerAndEngineStepResults_word : let e := { cmdOf (.xcopy (.flat 0x8000000000000000) (.flat 0x8000000000001000)) 0 16 with sw := 0x8000000000000000 }
    (stuck (working e)).wordReady 0 e = false ∧ ((stuck (working e)).me.kslot .ka).isResh 0 = false := by decide +kernel
theorem witness_SequencerAndEngineStepResults_done : let e := cmdOf (.xcopy (.flat 0x8000000000000000) (.flat 0x8000000000001000)) 16 16
    (working e).engStart 0 .ka 0 = (some e, working e) ∧ (working e).engDone 0 e = some (0, e, working e) ∧ (working e).durWaits e = false
    ∧ ((working e).me.kslot .ka).isResh 0 = false ∧ (working e).endReady 0 e = true ∧ (stuck (working e)).endReady 0 e = false :=
  ⟨starts _ rfl, rfl, by decide +kernel⟩
/-- KV.APP reserves rows of a record of capacity 16. -/
def reserving : State := withSp [(0x108, 16), (0x10C, 16)] (working (cmdOf (.kvapp 1 0x8000000000000100 16 (.flat 0x8000000000000000) none) 0 16))
theorem witness_SequencerAndEngineStepResults_reserve : ∃ u l t1, let e := cmdOf (.kvapp 1 0x8000000000000100 16 (.flat 0x8000000000000000) none) 0 16
    reserving.engStart 0 .ka 0 = (some e, reserving) ∧ reserving.engLoc 0 0x8000000000000100 64 .write = (.ok (), u) ∧ u.locate 0 0x8000000000000100 .write = (.ok l, t1)
    ∧ let t := (t1.forWrite l).2
      let r := SeqRec.ofBytes (t.homeBytes (t1.forWrite l).1 64).1
      (t.homeBytes (t1.forWrite l).1 64).2 = false ∧ r.len + 1 ≤ r.cap ∧ reserving.endReady 0 e = true ∧ (reserving.me.kslot .ka).isResh 0 = false := by
  have hq : ((reserving.core 0).kslot .ka).queue = [cmdOf (.kvapp 1 0x8000000000000100 16 (.flat 0x8000000000000000) none) 0 16] := by rfl
  exact ⟨_, .sp 0 0x100, _, by simp [State.engStart, hq, cmdOf], ok_of (by decide +kernel), ok_of (by decide +kernel), by decide +kernel⟩
/-- Job 1 of one core on die 0. -/
def job1 : Job :=
  { num := 1, ctx := 1, lr := Launch.ofBytes (listed [(0, 1), (2, 1), (8, 1), (9, 1), (10, 1), (13, 128), (180, 1)] 0 256),
    lr2 := Launch2.ofBytes (listed [(0, 1), (2, 1), (8, 1), (9, 1), (10, 1), (13, 128), (180, 1)] 0 256), st := .placed, deficit := 0, dies := [0], first := 0, placedAt := 0, resumed := false,
    cards := [], forks := Vector.replicate 8 0, arrived := 0, lt := 0 }
/-- A state with job 1 placed on core 0. -/
def withJob (j : Job) (s : State) : State :=
  let s := s.modCore 0 fun k => { k with task := { k.task with job := j.num, crewSize := 1, spanSize := 1 } }
  { s with fw := { s.fw with jobs := [j] } }
/-- A collective of one rank whose command is not paired yet, or is. -/
def coll (resh : Bool) (phase : Nat) (paired : Bool) : Coll := ⟨1, 0, 9, 1, 0, 7, resh, [0], if paired then [(0, 0, 7)] else [], [(0, [(1, false)])], [], phase, 0, 0, false⟩
/-- That collective under way with its command. -/
def collecting (q : Coll) (kind : EngKind) : State :=
  let s := withJob job1 (working (cmdOf kind 0 4))
  { s with link := { s.link with colls := [q] } }
theorem witness_SequencerAndEngineStepResults_collective : let x := coll false 0 false
    let s := collecting x (.xred 9 0 false 4 0x8000000000000000 0x8000000000001000 0 [0])
    s.link.colls[0]? = some x ∧ s.job x.job = some job1 ∧ s.fw.saved.any (fun v => v.job = x.job) = false ∧ job1.dies[0]? = some 0 ∧ x.parts.contains 0 = true
    ∧ x.paired.any (fun p => p.1 = 0) = false ∧ (s.link.colls.take 0).length = 0 ∧ (s.core (CoreId.mk' 0 x.corenum)).task.job = x.job ∧ x.resh = false
    ∧ ((s.core 0).ka.queue ++ (s.core 0).kb.queue).filter (fun e => s.answers 0 x e) = [cmdOf (.xred 9 0 false 4 0x8000000000000000 0x8000000000001000 0 [0]) 0 4]
    ∧ s.rootOf x = some (0, 4) ∧ ranked x.partials 0 = none ∧ ranked x.contribs 0 = some [(1, false)] ∧ [((1 : W32), false)].length = 4 / 4
    ∧ redKids (x.parts.map fun r => (job1.dies.getD r 0).val) (job1.dies.getD 0 0).val x.gov.die.val = [] := by decide +kernel
/-- XRESH of one rank: before its phase, after the last one, and at the switch. -/
theorem witness_SequencerAndEngineStepResults_xresh : ∀ phase ∈ [0, 1, 2], let x := coll true phase true
    let s := collecting x (.xresh 9 map100 map100 0 0)
    s.link.colls[0]? = some x ∧ s.job x.job = some job1 ∧ x.resh = true ∧ x.status = 0 ∧ (phase = 0 → x.phase < 2 * x.parts.length - 1) ∧ (phase = 1 → x.phase = 2 * x.parts.length - 1)
    ∧ (s.startAll x).allStarted x = true ∧ ((s.startAll x).reshMaps x).isSome = true ∧ (s.reshMaps x).isSome = true
    ∧ (phase = 2 → 2 * x.parts.length - 1 < x.phase ∧ let l := x.parts.filterMap fun r => s.collCmd x r
      l.any (fun y => s.durWaits y.2.2) = false ∧ l.all (fun y => s.endReady y.1 y.2.2) = true) := by
  intro phase hp
  simp only [List.mem_cons, List.not_mem_nil, or_false] at hp
  rcases hp with h | h | h <;> subst h <;> decide +kernel

/-! ## Hypotheses met: the scheduler -/

/-- Job 1 with a state and a deficit. -/
def jobIn (st : JobSt) (deficit : Int) : Job := { job1 with st := st, deficit := deficit }
/-- Job 1 with a resident task on core 0 in a state. -/
def resident (st : JobSt) (task : TaskSt) (deficit : Int) : State :=
  (withJob (jobIn st deficit) run1).modCore 0 fun k => { k with task := { k.task with st := task } }
/-- A queued job. -/
def job2 : Job := { job1 with num := 2, st := .queued, dies := [], arrived := 1 }
/-- The same beside a queued job of the same class, where cluster 0 of die 0 is the only one in service. -/
def beside (st : JobSt) (task : TaskSt) (deficit : Int) : State :=
  let s := resident st task deficit
  { s with fw := { s.fw with jobs := s.fw.jobs ++ [job2], clusterOut := (List.range 63).map (· + 1) } }
/-- A queued job is placed at the last cluster of die 0, where core 0 is taken. -/
theorem witness_SchedulerStepResults_placement : let j := jobIn .queued 0
    let s := { run1 with fw := { run1.fw with jobs := [j] } }
    s.job 1 = some j ∧ s.phase = .running ∧ s.boxFor j 0 0 0 = some [0] ∧ s.waits j = true ∧ s.unreserved j ([0], 7) = true ∧ (([0] : List DieId).all fun d => s.clustersFree j d 7) = true := by decide +kernel
theorem witness_SchedulerStepResults_placed : (let s := beside .placed .running 0
      s.job 1 = some (jobIn .placed 0) ∧ s.phase = .running ∧ (jobIn .placed 0).st = .placed ∧ (jobIn .placed 0).first = 4 * 0 ∧ (jobIn .placed 0).lr.cls = 0 ∧ (jobIn .placed 0).deficit ≤ 0
      ∧ s.bulkWaitsFor 1 = true ∧ s.me.task.job = 1 ∧ (jobIn .placed 0).cores.contains s.cur = true ∧ s.me.task.st ≠ .killed
      ∧ s.mayPreempt (jobIn .placed 0) = true)
    ∧ (resident .placed .ended 0).jobDone (jobIn .placed 0) = true ∧ (resident .placed .running 0).bulkWaitsFor 1 = false := by decide +kernel
/-- YIELD where job 2 wants its span's cores, and where no job waits. -/
theorem witness_WorkUnitResults_yield : (∃ r p, let s := beside .placed .running 0
      s.ready .c 0 false 0xC0 (.w64 0) = true ∧ s.pipe.sys.cls = 0 ∧ s.job s.me.task.job = some (jobIn .placed 0) ∧ r ∈ s.fw.jobs ∧ r.num ≠ s.me.task.job ∧ r.lr.cls = 0
      ∧ s.waits r = true ∧ s.target r = some p ∧ (jobIn .placed 0).holds p r.clusters = true)
    ∧ (let s := resident .placed .running 0
      s.ready .c 0 false 0xC0 (.w64 0) = true ∧ ∀ r ∈ s.fw.jobs, r.num = s.me.task.job) := by
  refine ⟨⟨job2, ([0], 0), ?_⟩, ?_⟩ <;> decide +kernel
theorem witness_SchedulerStepResults_stopping : (let s := resident .stopping .stopping 0
      s.job 1 = some (jobIn .stopping 0) ∧ ((jobIn .stopping 0).cores.all fun c => s.quiet c) = true ∧ ((jobIn .stopping 0).cores.all fun c => (s.core c).tracker.isEmpty) = true
      ∧ s.me.task.job = 1 ∧ (jobIn .stopping 0).cores.contains s.cur = true ∧ s.me.task.st ≠ .killed)
    ∧ (let s := resident .saving .saving 0
      s.job 1 = some (jobIn .saving 0) ∧ (jobIn .saving 0).st = .saving ∧ s.me.task.job = 1 ∧ s.me.task.st ≠ .killed) := by decide +kernel
/-- Job 1 with a card set at VA 0 of which one card is in a state. -/
def cardJob (x : CardSt) : Job := { job1 with cards := [x], lr2 := { job1.lr2 with cards := 0x8000000000000000 } }
/-- Its core, idle or at the card. -/
def carded (x : CardSt) (st : TaskSt) (card : Option Nat) : State :=
  (withJob (cardJob x) run1).modCore 0 fun k => { k with task := { k.task with st := st, card := card, cardOn := card.isSome } }
/-- The state after the card set is read. -/
def setRead : State := ((carded .waiting .ended none).readVa 0 0 0x8000000000000000 64 8).2
theorem witness_SchedulerStepResults_card : let j := cardJob .waiting
    let s := carded .waiting .ended none
    s.job 1 = some j ∧ j.st = .placed ∧ j.lr2.cards ≠ 0 ∧ (j.cores.take j.lr.crew).contains 0 = true ∧ s.idle 0 j = true ∧ j.nextCard 0 = some (0, false)
    ∧ ∃ bs lt t b lt' u, s.readVa 0 0 j.lr2.cards 64 8 = (.ok (bs, false, lt), t) ∧ t.readVa 0 0 (BitVec.ofNat 64 (fld bs 0 8 + 32 * 0)) 32 8 = (.ok (b, false, lt'), u)
      ∧ fld b 24 1 % 8 < 5 ∧ fld b 24 4 / 8 = 0 := by
  refine ⟨by decide +kernel, rfl, by decide +kernel, by decide +kernel, by decide +kernel, by decide +kernel, List.replicate 64 0, 0, setRead, List.replicate 32 0, 0, _,
    ok_of (by decide +kernel), ok_of (by decide +kernel), by decide +kernel⟩
theorem witness_SchedulerStepResults_cardDeadline : ∀ again ∈ [true, false], let x := CardSt.running 0 again
    let s := carded x .running (some 0)
    s.job 1 = some (cardJob x) ∧ s.me.task.job = 1 ∧ (cardJob x).cores.contains s.cur = true ∧ s.me.task.st ≠ .killed ∧ s.me.task.card = some 0 ∧ s.me.task.cardLeft = 0 ∧ s.me.task.cardOn = true
    ∧ s.me.canIssue = true ∧ (cardJob x).cards[0]? = some x ∧ s.phase = .running := by decide +kernel
/-- The idle core 0 with a record in its own deque. -/
def forked : State := (resident .placed .ended 0).modCore 0 fun k => { k with deque := [⟨0, 0, Vector.replicate 6 0, 0⟩] }
theorem witness_SchedulerStepResults_record : forked.job 1 = some (jobIn .placed 0) ∧ forked.me.task.job = 1 ∧ (jobIn .placed 0).cores.contains forked.cur = true ∧ forked.me.task.st ≠ .killed
    ∧ forked.nextRecord forked.cur = some (0, 0) ∧ forked.idle forked.cur (jobIn .placed 0) = true ∧ ((forked.core 0).deque[0]?).isSome = true := by decide +kernel
/-- A core past its reset time; a context whose watchdog has run out, and one that is being released. -/
theorem witness_SchedulerStepResults_kills : (let s := run1.modMe fun k => { k with task := { k.task with rejoin := 16384 } }
      let s : State := { s with t := { s.t with dcyc := 16384 } }
      s.me.task.rejoin ≠ 0 ∧ s.me.task.rejoin ≤ s.t.dcyc)
    ∧ (let x := { ctx1 with wd := 1 }
      let s := run1.modPipe fun p => { p with sys := { p.sys with wdti := 1 } }
      let s : State := { s with fw := { s.fw with ctxs := [x] } }
      s.ctx 1 = some x ∧ 0 < s.wdInterval 1 ∧ s.wdInterval 1 ≤ x.wd ∧ x.killed = none ∧ s.phase ≠ .dusk ∧ s.link.net.any (fun p => p.ctx == 1 && p.atDie = 7) = false)
    ∧ (let x := { ctx1 with killed := some [] }
      let s : State := { run1 with fw := { run1.fw with ctxs := [x] } }
      s.ctx 1 = some x ∧ x.killed = some [] ∧ s.dies.any (fun d => d.live && d.owed.contains 1) = false) := by decide +kernel
/-- Die 7 leaves, or has left. -/
def leaving (live : Bool) : State :=
  let s := run1.modDie 7 fun d => { d with live := live }
  { s with link := { s.link with detours := [7] } }
theorem witness_SchedulerStepResults_dies : ∀ live ∈ [true, false], 7 ∈ (leaving live).link.detours ∧ (leaving live).phase ≠ .dusk ∧ ((leaving live).die 7).live = live ∧ (leaving live).ctxsOn 7 = []
    ∧ (leaving live).link.net.any (fun p => p.atDie = 7) = false ∧ ((leaving live).die 7).isolated = false ∧ 7 < (leaving live).pkgDies := by
  intro live hl
  simp only [List.mem_cons, List.not_mem_nil, or_false] at hl
  rcases hl with h | h <;> subst h <;> decide +kernel

/-! ## Hypotheses met: the platform -/

/-- Channel 3 on; an ingest queue 15 of it whose ring at 0x20000 holds one descriptor, with the step the channel released last. -/
def clocked (last : Option Nat) (stamp : List Host.Cell) (slots : List Host.Cell) : State :=
  { run1 with m := { run1.m with mem := ((0x20000, 1) : Host.Cell) :: (stamp ++ slots) },
              t := { run1.t with secs := 1, ticks := run1.t.ticks.set 3 ⟨1000, 0, 0, true, last, true⟩, ingest := run1.t.ingest.set 15 (some ⟨0x20000, 4, 3, 4, 0x40000⟩) } }
theorem witness_PlatformStepResults_tick : ((clocked none [] []).tick 3).en = true ∧ ((clocked none [] []).tick 3).at ((clocked none [] []).tick 3).next ≤ (clocked none [] []).nowNs := by decide +kernel
/-- A stamp of step 0 against the clock's step: malformed, in the future, too old, in the window, and there twice. -/
theorem witness_PlatformStepResults_ingest : (∀ q ∈ [(some 0, [(0x2004B, (0x80 : Byte))]), (none, []), (some 0, [(0x20049, 4)]), (some 4, []), (some 3, [])], let s := clocked q.1 q.2 []
      s.ingest (15 : BitVec 4).toNat = some ⟨0x20000, 4, 3, 4, 0x40000⟩ ∧ s.phase = .running ∧ Memory.readN s.m.mem 0x20000 8 ≠ Memory.readN s.m.mem (0x20000 + 8) 8)
    ∧ (let d := Memory.bytes (clocked (some 0) [(0x2004B, 0x80)] []).m.mem (0x20000 + 64 + 64 * (0 % 2 ^ 4)) 64
      1000000000 ≤ fld d 8 4)
    ∧ (let s := clocked (some 0) [(0x20049, 4)] []
      let d := Memory.bytes s.m.mem (0x20000 + 64 + 64 * (0 % 2 ^ 4)) 64
      (s.tick 3).last = some 0 ∧ (0 : Int) < (s.tick 3).stepOf (fld d 0 6 * 1000000000 + fld d 8 4))
    ∧ (∀ c ∈ [3, 4], let s := clocked (some c) [] []
      let d := Memory.bytes s.m.mem (0x20000 + 64 + 64 * (0 % 2 ^ 4)) 64
      (s.tick 3).last = some c ∧ (s.tick 3).stepOf (fld d 0 6 * 1000000000 + fld d 8 4) = 0 ∧ fld d 8 4 < 1000000000)
    ∧ (let old := (clocked none [] []).slot ⟨0x20000, 4, 3, 4, 0x40000⟩ (0 % 4); slotValid old = false)
    ∧ (let old := (clocked none [] [(0x4001F, 0x80)]).slot ⟨0x20000, 4, 3, 4, 0x40000⟩ (0 % 4); slotValid old = true ∧ slotStep old = 0) := by decide +kernel
/-- A valid frame, and no edge for 2 s. -/
theorem witness_PlatformStepResults_port : (let s : State := { run1 with t := { run1.t with timePort := true, frame := some 5 } }
      s.t.timePort = true ∧ s.t.frame = some 5)
    ∧ (let s : State := { run1 with t := { run1.t with timePort := true, sinceEdge := 2500000000 } }
      s.t.timePort = true ∧ s.t.holdover = false ∧ 2500000000 ≤ s.t.sinceEdge)
    ∧ run1.t.timePort = false ∧ (7 : DieId).val < run1.pkgDies ∧ (63 : Fin 64).val < 8 * run1.pkgDies ∧ run1.fw.unprotected = false ∧ (run1.die 7).pairs[(1 : Fin 2)] = .inService ∧ (((run1.setPair 7 1 .halted).die 7).pairs[(1 : Fin 2)] = .halted) ∧ run1.product ≠ .hv1x := by decide +kernel
/-- Dusk with nothing left to write, or with a dirty line of die 0. -/
theorem witness_PlatformStepResults_dusk : (let s : State := { run1 with phase := .dusk }
      s.phase = .dusk ∧ s.fw.duskDone = false ∧ (s.pkgDieList.all fun d => !(s.die d).live || s.dieClean d) = true)
    ∧ (let s : State := { run1 with phase := .dusk, m := { run1.m with dirty := [0x100000000000] } }
      s.phase = .dusk ∧ s.fw.duskDone = false ∧ s.dieLive 0 = true ∧ s.dieClean 0 = false) := by decide +kernel
/-- Host stores and loads at the first and the last byte of tier 0; queue registers. -/
theorem witness_PlatformStepResults_host : (∀ pa ∈ [0, 0xF7FFFFFFFF], pa < 2 ^ 63 ∧ run1.hdm pa 1 = true) ∧ run1.phase ≠ .dusk ∧ (run1.queue 3).en = false
    ∧ (let s := run1.modQueue 3 fun k => { k with en := true }; (s.queue 3).en = true)
    ∧ (let s : State := { run1 with link := { run1.link with spdm := 3 } }; 3 ≤ s.link.spdm) := by decide +kernel

/-! ## Hypotheses met: the host's commands -/

/-- A command of an operation code for a context with arguments. -/
def cmdRec (opc : Byte) (ctx : BitVec 16) (args : Vector W64 5) (begun : Bool) : Cmd := ⟨0, 0, opc, ctx, 0, args, false, begun⟩
/-- `run1` with that command accepted. -/
def told (x : Cmd) : State := { run1 with link := { run1.link with cmds := [x] } }
/-- The same with no context left, or with host memory. -/
def alone (s : State) : State := { s with fw := { s.fw with ctxs := [] } }
def hosted (m : List Host.Cell) (s : State) : State := { s with m := { s.m with host := m } }
/-- A host buffer at the last 4 KiB of host memory, and one in an unbacked tier. -/
def hostBuf : W64 := 0x800FFFFFFFFFF000
/-- IDENT, ATTEST, RAS.QUERY, RETIRE.QUERY and DAWN.REPORT into host memory, and into memory that is not backed. -/
theorem witness_HostCommandResults_records : each [(0x01 : Byte), 0x02, 0x16, 0x17, 0x1A] fun o => (told (cmdRec o 0 #v[hostBuf, 0x1000, 0, 0, 0] false)).runs 0 o.toNat (if o = 2 then [0, 1, 2] else [0, 1])
      (cmdRec o 0 #v[hostBuf, 0x1000, 0, 0, 0] false) = true
    ∧ (told (cmdRec o 0 #v[hostBuf, 0x1000, 0, 0, 0] false)).addrStatus hostBuf 32 = 0 ∧ (told (cmdRec o 0 #v[0x1000000000000, 1, 0, 0, 0] false)).addrStatus 0x1000000000000 1 ≠ 0 := by decide +kernel
/-- The configuration record of Table 15.7 at host address 0, but with the largest LATMAX. -/
def cfgBytes : List Host.Cell := [(1, 16), (5, 0x10), (6, 0x11), (7, 7), (9, 0x10), (12, 8), (14, 8), (18, 1), (22, 0x10), (24, 0x40), (25, 0x42), (26, 0x0F)]
theorem witness_HostCommandResults_config : let x := cmdRec 3 0 #v[0x8000000000000000, 0, 0, 0, 0] false
    (told x).runs 0 3 [0] x = true ∧ (told x).addrStatus x.args[0] 64 = 0 ∧ (told x).configValid ((told x).cmdRead x.args[0] 64) = false ∧ (told x).fw.ctxs ≠ []
    ∧ (hosted cfgBytes (told x)).runs 0 3 [0] x = true ∧ (alone (hosted cfgBytes (told x))).runs 0 3 [0] x = true ∧ (alone (hosted cfgBytes (told x))).fw.ctxs = [] := by decide +kernel
/-- It is valid: no tier's least LATMAX is above the largest. -/
theorem witness_HostCommandResults_config_valid : let x := cmdRec 3 0 #v[0x8000000000000000, 0, 0, 0, 0] false
    (hosted cfgBytes (told x)).configValid ((hosted cfgBytes (told x)).cmdRead x.args[0] 64) = true := by
  intro x
  have hl : ∀ t, (Config.leastLatmax t).toNat ≤ 1048576 := fun t => by simp only [Config.leastLatmax, BitVec.toNat_ofNat]; omega
  have hc : (ConfigRec.ofBytes ((hosted cfgBytes (told x)).cmdRead x.args[0] 64)).latmax.toNat = 1048576 := by decide +kernel
  simp only [State.configValid, hc, hl, decide_true, Bool.or_true, List.all_eq_true, Bool.and_eq_true, implies_true, and_true]
  decide +kernel
/-- CONTEXT.CREATE with its tables at 0x20000 and its report in host memory; the identifier is the first one probed, or the second. -/
theorem witness_HostCommandResults_create : let x := cmdRec 4 0 #v[0x20000, 0, 0x8000000000000000, 0, 0] false
    (told x).runs 0 4 [0, 1, 2, 3, 4] x = true ∧ x.arg 0 % 0x2000 = 0 ∧ x.arg 1 / 2 % 2 ^ 31 = 0 ∧ x.arg 2 % 128 = 0 ∧ x.arg 3 % 0x10000 = 0 ∧ x.arg 4 = 0 ∧ tierOf (x.arg 3) ≤ 1 ∧ (told x).rangeOk (x.arg 0) 0x2000 = true
    ∧ tierOf ((told x).normPa (x.arg 0)) ≤ 1 ∧ (told x).addrStatus x.args[2] 128 = 0 := by decide +kernel
/-- Of 65,535 identifiers one that few use is found. -/
theorem free_id (s : State) (used : Nat → Bool) (h : used (s.drawFree.1.toNat % 65535 + 1) = false) :
    s.freeId used = (some (s.drawFree.1.toNat % 65535 + 1), s.drawFree.2) := by
  have hm : (s.drawFree.1.toNat % 65535 + 0) % 65535 = s.drawFree.1.toNat % 65535 := by simp
  have : (List.range 65535).find? (fun i => !used ((s.drawFree.1.toNat % 65535 + i) % 65535 + 1)) = some 0 := by
    rw [List.range_eq_range', show (65535 : Nat) = 65534 + 1 from rfl, List.range'_succ, List.find?_cons_of_pos]
    simp only [Nat.add_zero, Nat.mod_mod, h, Bool.not_false]
  simp only [State.freeId, this, Option.map_some, hm]
theorem witness_HostCommandResults_ids : (∃ id t, (alone run1).freeId (fun i => (alone run1).fw.ctxs.any fun c => c.id.toNat = i) = (some id, t))
    ∧ ∃ id t, run1.freeId (fun i => run1.fw.streams.any fun q => q.1 = i) = (some id, t) := ⟨⟨_, _, free_id _ _ rfl⟩, ⟨_, _, free_id _ _ rfl⟩⟩
/-- Commands that name context 1, or no context. -/
theorem witness_HostCommandResults_ctx : (∀ q ∈ [((0x05 : Byte), ([] : List Nat)), (0x0A, [0]), (0x0C, [0]), (0x0D, [])], ∀ c ∈ [(1 : BitVec 16), 2],
      (told (cmdRec q.1 c #v[0, 0, 0, 0, 0] false)).runs 0 q.1.toNat q.2 (cmdRec q.1 c #v[0, 0, 0, 0, 0] false) = true)
    ∧ (run1.ctx 2).isNone = true ∧ run1.ctx 1 = some ctx1 := by
  refine ⟨fun q hq c hc => ?_, by decide +kernel⟩
  simp only [List.mem_cons, List.not_mem_nil, or_false] at hq hc
  rcases hq with h | h | h | h <;> rcases hc with h' | h' <;> subst h <;> subst h' <;> decide +kernel
/-- `told` with stream 65,535 of context 1. -/
theorem witness_HostCommandResults_stream : let x := cmdRec 0x0E 1 #v[65535, 0, 0, 0, 0] false
    let s : State := { told x with fw := { run1.fw with streams := [(65535, 1)] } }
    s.runs 0 0x0E [0] x = true ∧ (s.fw.streams.any fun q => q.1 = x.arg 0 && q.2 == ctx1.id) = true ∧ (s.fw.jobs.any fun j => j.ctx == ctx1.id && j.lr.stream = x.arg 0) = false := by decide +kernel
/-- LAUNCH of one core anywhere. -/
def launchBytes : List Host.Cell := [(0, 1), (2, 1), (8, 1), (9, 1), (10, 1), (13, 128), (180, 1)]
theorem witness_HostCommandResults_launch : let x := cmdRec 0x0C 1 #v[0x8000000000000000, 0, 0, 0, 0] false
    let s := hosted launchBytes (told x)
    let b := s.cmdRead x.args[0] 256
    s.runs 0 0x0C [0] x = true ∧ x.arg 0 % 64 = 0 ∧ s.addrStatus x.args[0] 256 = 0 ∧ launchValid b = true ∧ (Launch.ofBytes b).stream = 0 ∧ s.boxFits (Launch.ofBytes b) = true ∧ s.launchQueue ctx1.id < 64 := by
  decide +kernel
/-- MAP of the last 64 KiB of the address space, now or as a backing. -/
theorem witness_HostCommandResults_map : ∀ w ∈ [(0x81 : W64), 0x10081], let x := cmdRec 6 1 #v[0xFFFFFFFFFF0000, 0x30000, 0x10000, w, 0] false
    let s := told x
    s.runs 0 6 [0, 1, 2, 3] x = true ∧ (w.extractLsb' 17 2).toNat ≤ 2 ∧ w.extractLsb' 11 5 = 0 ∧ w.extractLsb' 19 45 = 0 ∧ w.getLsbD 0 = true ∧ w.getLsbD 7 = true ∧ w.getLsbD 4 = false ∧ w.getLsbD 3 = false
    ∧ x.arg 0 % pageBytes (w.extractLsb' 17 2).toNat = 0 ∧ x.arg 2 % pageBytes (w.extractLsb' 17 2).toNat = 0 ∧ x.arg 2 ≠ 0 ∧ x.arg 0 + x.arg 2 ≤ 2 ^ 56 ∧ x.arg 1 % pageBytes (w.extractLsb' 17 2).toNat = 0
    ∧ x.arg 1 + x.arg 2 ≤ 2 ^ 52 ∧ s.rangeOk (x.arg 1) (x.arg 2) = true ∧ s.leafBad (mapLeaf (x.arg 1) w) 0 = false ∧ s.leaves ctx1 (x.arg 0) (x.arg 0 + x.arg 2) = []
    ∧ ctx1.meetsSink (x.arg 0) (x.arg 0 + x.arg 2) = false := by
  intro w hw
  simp only [List.mem_cons, List.not_mem_nil, or_false] at hw
  rcases hw with h | h <;> subst h <;>
    and_intros <;> decide +kernel
/-- A page of context 1 at VA 0x40000000 with an entry, and a command. -/
def paged (e : W64) (x : Cmd) : State := (told x).installLeaf 0x20000 0x40000000 0 e
/-- UNMAP and PROTECT of that page. -/
theorem witness_HostCommandResults_unmap : each [((7 : Byte), (0 : W64)), (8, 3)] fun q => let x := cmdRec q.1 1 #v[0x40000000, 0x10000, q.2, 0, 0] false
    let s := paged 0x30083 x
    x.arg 0 < x.arg 0 + x.arg 1 ∧ x.arg 0 + x.arg 1 ≤ 2 ^ 56 ∧ s.wholePages ctx1 (x.arg 0) (x.arg 0 + x.arg 1) = true ∧ s.runs 0 q.1.toNat (if q.1 = 7 then [0, 1] else [0, 1, 2]) x = true
    ∧ ctx1.meetsSink (x.arg 0) (x.arg 0 + x.arg 1) = false ∧ x.arg 2 < 4 := by decide +kernel
/-- MIGRATE and REPLICATE of it; HEAT.READ of one with HT. -/
theorem witness_HostCommandResults_page : (let x := cmdRec 9 1 #v[0x40000000, 0x50000, 0, 0, 0] false
      let s := paged 0x30083 x
      (s.runs 0 9 [0, 1] x = true ∧ x.begun = false ∧ x.arg 1 % pageBytes 0 = 0 ∧ s.rangeOk (x.arg 1) (pageBytes 0) = true ∧ ebit 0x30083 3 = false ∧ ebit 0x30083 4 = false
      ∧ s.migrating 1 0x40000000 5 = false ∧ (ebit 0x30083 5 = decide (tierOf (x.arg 1) = 3)) ∧ ctx1.meetsSink 0x40000000 (0x40000000 + pageBytes 0) = false)
      ∧ ∃ a, s.leafAt ctx1 (x.arg 0) = some (a, 0x40000000, 0, 0x30083))
    ∧ (let x := cmdRec 0x0A 1 #v[0x40000000, 0, 0, 0, 0] false
      let s := paged 0x30083 x
      s.runs 0 0x0A [0] x = true ∧ tierOf (leafFrame 0x30083) = 0 ∧ ebit 0x30083 4 = false ∧ s.migrating 1 0x40000000 5 = false ∧ ∃ a, s.leafAt ctx1 (x.arg 0) = some (a, 0x40000000, 0, 0x30083))
    ∧ (let x := cmdRec 0x0B 1 #v[hostBuf, 0x1000, 0x40000000, 0, 0] false
      let s := paged 0x300C3 x
      s.runs 0 0x0B [0, 1, 2] x = true ∧ ebit 0x300C3 6 = true ∧ ∃ a, s.leafAt ctx1 (x.arg 2) = some (a, 0x40000000, 0, 0x300C3)) :=
  ⟨⟨by decide +kernel, ⟨2 ^ 36 + 2 ^ 35 - 0x2000 * 3, by decide +kernel⟩⟩,
    ⟨by decide +kernel, by decide +kernel, by decide +kernel, by decide +kernel, ⟨2 ^ 36 + 2 ^ 35 - 0x2000 * 3, by decide +kernel⟩⟩,
    ⟨by decide +kernel, by decide +kernel, ⟨2 ^ 36 + 2 ^ 35 - 0x2000 * 3, by decide +kernel⟩⟩⟩
/-- Memory that MAP and MIGRATE name whose release no core has applied, and memory that is free. -/
theorem witness_HostCommandResults_release : run1.pendingRelease 0x50000 0x10000 = false
    ∧ ({ run1 with fw := { run1.fw with limbo := [(0x50000, 0x10000, 1)] } } : State).pendingRelease 0x50000 0x10000 = true := by decide +kernel
/-- The page at 0x30000 of context 1, and REPLICATE of it. -/
def replicating : State := paged 0x30083 (cmdRec 0x0A 1 #v[0x40000000, 0, 0, 0, 0] false)
/-- A copy of another page on its place of die 7. -/
def taken : State := { replicating with fw := { replicating.fw with replicas := [⟨1, 0x50000000, 0, 0x30000⟩] } }
/-- Firmware may give a place on die 7 or may not; a page is replicated already. -/
theorem witness_HostCommandResults_replicate : replicating.assignable 0xE000030000 0x10000 = true ∧ taken.assignable 0xE000030000 0x10000 = false ∧ ebit 0x3008B 3 = true := by decide +kernel
/-- KVPOOL.CFG at the largest size of a block count and PFX.CFG of the largest quota. -/
theorem witness_HostCommandResults_pools : (let x := cmdRec 0x12 1 #v[3, 0, 20, 1048576, 0] false
      (told x).runs 0 0x12 [0, 1, 2, 3] x = true ∧ x.arg 0 < 4 ∧ x.arg 2 ≤ 20 ∧ 1 ≤ x.arg 3 ∧ x.arg 3 ≤ 1048576 ∧ x.arg 1 + 16 * 2 ^ x.arg 2 * x.arg 3 ≤ 2 ^ 56 ∧ ctx1.pools[3] = none)
    ∧ (let x := cmdRec 0x13 1 #v[5, 64, 0, 0, 0] false; (told x).runs 0 0x13 [0, 1] x = true ∧ x.arg 1 ≤ 64) := by decide +kernel
/-- SETTIME in its three modes, with and without the time port. -/
theorem witness_HostCommandResults_settime : (∀ port ∈ [true, false], let x := cmdRec 0x0F 0 #v[0, 0xFFFFFFFFFFFF, 999999999, 0, 0] false
      let s : State := { told x with t := { run1.t with timePort := port } }
      x.arg 0 = 0 ∧ s.runs 0 0x0F [0, 1, 2] x = true ∧ x.arg 1 < 2 ^ 48 ∧ x.arg 2 < 1000000000 ∧ s.t.timePort = port)
    ∧ (let x := cmdRec 0x0F 0 #v[1, 0xFFFFFFFFFFFFFFFF, 0, 0, 0] false
      let s : State := { told x with t := { run1.t with secs := 1 } }
      x.arg 0 = 1 ∧ s.runs 0 0x0F [0, 1] x = true ∧ s.t.timePort = false ∧ (0 : Int) ≤ (s.nowNs : Int) + x.args[1].toInt ∧ (s.nowNs : Int) + x.args[1].toInt < 2 ^ 48 * 1000000000)
    ∧ (let x := cmdRec 0x0F 0 #v[2, 1, 0, 0, 0] false; x.arg 0 = 2 ∧ (told x).runs 0 0x0F [0, 1] x = true ∧ x.arg 1 < 2) := by decide +kernel
/-- TICK.CFG of channel 3, and of channel 4, which does not exist. -/
theorem witness_HostCommandResults_tickCfg : ∀ ch ∈ [(3 : W64), 4], let x := cmdRec 0x10 0 #v[ch, 1000, 0, 0, 0x1000003E7] false
    (told x).runs 0 0x10 [0, 1, 2, 3, 4] x = true ∧ 1000 ≤ x.arg 1 ∧ x.arg 1 ≤ 1000000000 ∧ x.arg 2 < 2 ^ 48 ∧ x.arg 3 < 1000000000 ∧ x.arg 4 % 2 ^ 32 < x.arg 1 ∧ x.arg 4 < 2 ^ 33
    ∧ x.arg 0 = ch.toNat := by
  intro ch hc
  simp only [List.mem_cons, List.not_mem_nil, or_false] at hc
  rcases hc with h | h <;> subst h <;>
    and_intros <;> decide +kernel
/-- INGEST.CFG of queue 15 for die 7: K 16, channel 3, window 4,096. -/
theorem witness_HostCommandResults_ingestCfg : let x := cmdRec 0x11 0 #v[15, 0x20000, 0x7100070, 0, 0] false
    let s : State := { told x with t := { run1.t with ticks := run1.t.ticks.set 3 ⟨1000, 0, 0, true, none, true⟩ } }
    let a := x.arg 2
    s.runs 0 0x11 [0, 1, 2] x = true ∧ a < 2 ^ 28 ∧ a / 2 ^ 7 % 2 = 0 ∧ a / 2 ^ 21 % 8 = 0 ∧ 4 ≤ a % 32 ∧ a % 32 ≤ 16 ∧ 1 ≤ a / 2 ^ 8 % 2 ^ 13 ∧ a / 2 ^ 8 % 2 ^ 13 ≤ 4096 ∧ x.arg 1 < 2 ^ 52 ∧ x.arg 0 < 16
    ∧ (s.tick (BitVec.ofNat 2 (a / 2 ^ 5))).conf = true ∧ a / 2 ^ 24 % 16 < 8 ∧ s.inPart (dieOf (a / 2 ^ 24 % 16)) = true ∧ s.hdm (x.arg 1) (64 + 64 * 2 ^ (a % 32)) = true ∧ s.ingest (x.arg 0) = none := by decide +kernel
/-- A window of die 7 is the highest 256 KiB of its tier 0; a die out of service has none. -/
theorem witness_HostCommandResults_window : (∃ w, run1.freeWindow 7 = some w) ∧ (run1.modDie 7 fun d => { d with live := false }).freeWindow 7 = none := by
  refine ⟨⟨7 * 0x2000000000 + 96 * 0x40000000 - 0x40000, ?_⟩, ?_⟩
  · have hn : (96 - run1.fw.cfg.ilvsz.toNat) * 0x40000000 = 96 * 0x40000000 := by decide +kernel
    have hd : run1.dieLive 7 = true := by decide +kernel
    simp only [State.freeWindow, hd, if_true, hn]
    rw [List.range_eq_range', show 96 * 0x40000000 / 0x40000 = 393215 + 1 from rfl, List.range'_succ, List.map_cons, List.find?_cons_of_pos]
    · rfl
    · decide +kernel
  · have hd : (run1.modDie 7 fun d => { d with live := false }).dieLive 7 = false := by decide +kernel
    simp only [State.freeWindow, hd]
    rfl
/-- DIE.RESET and DIE.ISOLATE of die 7, and of die 8, which does not exist. -/
theorem witness_HostCommandResults_die : each [((0x14 : Byte), (7 : W64)), (0x15, 7), (0x14, 8), (0x15, 8)] fun q => let x := cmdRec q.1 0 #v[q.2, 0, 0, 0, 0] false
    x.begun = false ∧ (told x).runs 0 q.1.toNat [0] x = true ∧ (q.2 = 8 → ¬ x.arg 0 < 8)
    ∧ (q.2 = 7 → x.arg 0 < 8 ∧ (told x).inPart (dieOf (x.arg 0)) = true ∧ ((told x).die (dieOf (x.arg 0))).live = true ∧ ((told x).die (dieOf (x.arg 0))).isolated = false) := by decide +kernel
/-- DURABLE.FLUSH without tier 3, and begun or not with it; SHUTDOWN with and without contexts and tier 3. -/
theorem witness_HostCommandResults_flush : ∀ b ∈ [true, false], let x := cmdRec 0x18 0 #v[0, 0, 0, 0, 0] b
    (∀ n ∈ [0, 0x100000], let s : State := { told x with m := { run1.m with tier3 := n } }; s.runs 0 0x18 [] x = true ∧ s.m.tier3 = n ∧ x.begun = b ∧ s.m.granules = [])
    ∧ let y := cmdRec 0x19 0 #v[0, 0, 0, 0, 0] b
      (told y).runs 0 0x19 [] y = true ∧ (alone (told y)).runs 0 0x19 [] y = true ∧ (told y).phase ≠ .dusk ∧ (told y).fw.ctxs ≠ [] ∧ (alone (told y)).fw.ctxs = [] ∧ (told y).m.tier3 = 0 := by decide +kernel

/-! ## Values the spec works out -/

/-- The example of address translation (chapter 3): a 64 MiB leaf of tier 1 with ILVSZ 16, from die 2; its granule lies on die 3. -/
def ilv16 : State := { State.reset with fw := { State.reset.fw with cfg := { State.reset.fw.cfg with ilvsz := 16 } } }
theorem test_leaf_pa : ilv16.leafPa (dieOf 2) 0x000001000C000183 1 0x01234567B9AB = 0x1000D67B9AB ∧ ilv16.homeDie 0x1000D67B9AB = 3 := by decide +kernel
/-- Table 8.4: sample codes of e4m3v; its largest exponent is 8. -/
theorem test_e4m3v : (Fmt.ofReg 0xC60EAA).emax = 8 ∧ fxEq ((Fmt.ofReg 0xC60EAA).decode 0x38) (.fin false 1 0) = true ∧ fxEq ((Fmt.ofReg 0xC60EAA).decode 0x01) (.fin false 1 (-9)) = true
    ∧ fxEq ((Fmt.ofReg 0xC60EAA).decode 0x7E) (.fin false 448 0) = true ∧ (Fmt.ofReg 0xC60EAA).decode 0x7F = .nan := by decide +kernel
/-- Chapter 8: 0x3F81_4000 to BF16 in MODE 4, by the draw. -/
theorem test_stochastic : (Fx.res (fx32 0x3F814000)).code bf16 4 0xB7A1 = (0x3F81, fNX, false) ∧ (Fx.res (fx32 0x3F814000)).code bf16 4 0xD002 = (0x3F82, fNX, false) := by decide +kernel
/-- Chapter 8: FP32 −2.5, 3.0e9 and NaN to int32, wrapped and saturated. -/
theorem test_to_int : (toIntN 32 false 0 0 (fx32 0xC0200000)).1 = 0xFFFFFFFE ∧ (toIntN 32 false 0 0 (fx32 0x4F32D05E)).1 = 3000000000
    ∧ toIntN 32 true 0 0 (fx32 0x4F32D05E) = (2147483647, fISAT) ∧ (toIntN 32 true 0 0 (fx32 nan32)).1 = 0 := by decide +kernel
/-- Chapter 9: FMUL.B and FFMA.B of 1.0078125 squared. -/
theorem test_fused : FpOp.code .mul bf16 0 0 0x3F81 0 0x3F81 = (0x3F82, fNX) ∧ FpOp.code .fma bf16 0 0 0x3F81 0xBF82 0x3F81 = (0x3880, 0) ∧ (FpOp.code .add bf16 0 0 0x3F82 0 0xBF82).1 = 0 := by decide +kernel
/-- A vector of its first lanes. -/
def firsts (l : List W32) : Vec := Vec.tab fun i => l.getD i.val 0
/-- The quantiser's example (Table 8.9): codes, the bitmap, the scales and the count, with QRT, OF and NX; lane 2 comes back as 96. -/
theorem test_quantise : let q := quantise 0xC60EAA 0 (firsts [0x43F00000, 0x40400000, 0x42C80000, 0, 0x3E800000, 0x3E400000, 0xC0000000, 0x40A00000]) 1
    (List.range 8).map (vecByte q.1) = [0x77, 0x7C, 0x7C, 0x00, 0x60, 0x5C, 0xF8, 0x7A] ∧ vecByte q.1 256 = 0x97 ∧ (List.range 5).map (fun i => vecByte q.1 (288 + i)) = [0x80, 0x78, 0x7D, 0x78, 0x79]
    ∧ Vec.lane q.1 255 = 5 ∧ q.2.1 = fQRT ||| fOF ||| fNX ∧ dequantLane 0xC60EAA 0 0 q.1 2 = (0x42C00000, 0) := by decide +kernel
/-- A triple (m, s, v0). -/
def triple (m s v : W32) : Vec := Vec.tab fun i => if i.val = 255 then m else if i.val = 254 then s else if i.val = 0 then v else 0
/-- The example of R149: (2, 1, 4) and (2, 3, −2) give (2, 4, 2): both weights are 1. -/
theorem test_smx : tripleWeight 0x40000000 0x40000000 = (0x3F800000, 0) ∧ (weighted 0x3F800000 0x40800000 0x3F800000 0xC0000000).1 = 0x40000000
    ∧ (weighted 0x3F800000 0x3F800000 0x3F800000 0x40400000).1 = 0x40800000 := by decide +kernel
/-- The example of R224: (1, 0, 5) finalises to zeros with NV. -/
theorem test_smxf : let r := smxFinal (triple 0x3F800000 0 0x40A00000)
    Vec.lane r.1 0 = 0 ∧ Vec.lane r.1 254 = 0 ∧ Vec.lane r.1 255 = 0x3F800000 ∧ r.2 = fNV := by decide +kernel
/-- The example of R245: four beats of 2 against 3 give the bound 0x3670_0002, and 0x2A70_0002 in wide mode. -/
theorem test_bound : let b := beatBound [((Vector.replicate 256 (.fin false 2 0, false) : ACol), (Vector.replicate 128 (.fin false 3 0, false) : BRow))] 0 0
    each [(false, (0x36700002 : W32)), (true, 0x2A700002)] fun w => ((List.range 4).foldl (fun m _ => Matrix.bound m false w.1 b false) Matrix.start).bank0.bnd = w.2 := by decide +kernel
/-- The example of R150: the partials that reach dies 0, 2, 4 and 6, in order. -/
theorem test_reduction_tree : redKids [0, 1, 2, 3, 4, 5, 6, 7] 0 0 = [1, 2, 4] ∧ redKids [0, 1, 2, 3, 4, 5, 6, 7] 2 0 = [3] ∧ redKids [0, 1, 2, 3, 4, 5, 6, 7] 4 0 = [5, 6]
    ∧ redKids [0, 1, 2, 3, 4, 5, 6, 7] 6 0 = [7] := by decide +kernel
/-- The example of R259: positions of a window with S = 4 and W = 8. -/
theorem test_window : let r : SeqRec := { SeqRec.ofBytes [] with sink := 4, win := 8 }
    r.slotOf 37 = 5 ∧ r.slotOf 45 = 5 ∧ r.slotOf 2 = 2 := by decide +kernel
/-- R163, R177: an ADD of −1 to 0 lands 2^64 − 1 two bundles later. -/
theorem test_add_wraps : ((nextOr run1 (exec (.add 0 false 0xFF) run1)).pipe.shorts.map fun q => match q.val with | .sc x => x.val | _ => 0) = [0xFFFFFFFFFFFFFFFF] := by decide +kernel
/-- R270: 5 cycles of 1.25 GHz are 4 ns. -/
theorem test_clock : ((TimeState.reset.pass 5 0).fifths / 5) = 4 := by decide +kernel
/-- R48: of two illegal moves the one in the lower slot is reported, with its slot and its byte address. -/
theorem test_marker : let s : State := { run1 with m := { run1.m with mem := Memory.writeBytes [] 0x10000 ([0x070000, 0x0020C7, 0x001900, 0x040080].flatMap parcelBytes) } }
    (((s.dispatchOne 0).core 0).pipe.stream.win.map (·.marker)) = [some (0x02, 1, 6)] := by decide +kernel
/-- A copy group that has slipped two bundles past an S move, at an SPLD. -/
def slipped (st : Parcel) : Pipe := { run1.pipe with stream := { run1.pipe.stream with gpos := #v[32, 34, 34, 34], win :=
  [⟨0, 2, 0, false, [(.s, st)], none, none, false⟩, ⟨2, 3, 0, false, [], none, none, false⟩, ⟨3, 5, 0, false, [(.ka, 0x080002)], none, none, false⟩] } }
/-- The example "Two groups, one class" of R97: the SPLD waits for the class-0 store to issue, not for a load of class 2. -/
theorem test_class_order : (slipped 0x0B6010).mayIssue 3 ⟨3, 5, 0, false, [(.ka, 0x080002)], none, none, false⟩ = false
    ∧ (slipped 0x0A7010).mayIssue 3 ⟨3, 5, 0, false, [(.ka, 0x080002)], none, none, false⟩ = true := by decide +kernel
/-- R164: v0, v4 and v8 lie in bank 0: a cycle serves the first of them; a register read twice, by one bundle or two, is delivered once, and registers of other banks do not wait. -/
theorem test_bank_service : (bankServe [] 0 [0, 4, 8]).1 = [0] ∧ (bankServe [] 1 [0, 4, 8]).1 = [4] ∧ (bankServe [] 0 [5, 5]).2 = 1 <<< 5 ∧ (bankServe [] 0 [4, 5]).1 = [4, 5]
    ∧ (bankServe [1] 0 [1]).2 = 1 <<< 1 ∧ (bankServe [1] 0 [5, 1]).2 = 1 <<< 1 := by decide +kernel
/-- R110, R113 row 6: eight rows of one bank hold seven cycles; one row of each of two banks holds none. -/
theorem test_row_hold : rowHold ((List.range 8).map fun i => some (0x800 * i)) = 7 ∧ rowHold [some 0, some 0x20000, none] = 0 := by decide +kernel
/-- R344, R345: the digest of "abc" that FIPS 180-4 gives. -/
theorem test_sha256 : (sha256 [0x61, 0x62, 0x63]).take 8 = [0xBA, 0x78, 0x16, 0xBF, 0x8F, 0x01, 0xCF, 0xEA] := by decide +kernel

/-! ## Hypotheses met: moves of the M slot, D registers that name none, accesses of other bundles -/

/-- A pending metadata cause, a trap level, a leader that is another core: what comes before an M move's source; and a source that waits or traps. -/
theorem witness_UnreadableMoveWaitsOrTraps_m : (∃ m, (Instr.mcfg 0 false 1).fields = some m ∧ (Instr.mcfg 0 false 1).operandWf = true ∧ m.slot = .m ∧ m.g ≠ 8 ∧ run1.pipe.guardOf m.slot m.g = true
      ∧ (emptyS1 run1).source run1.cur m.e m.f = .wait)
    ∧ (∃ m, (Instr.mstat 0 true 1).fields = some m ∧ (Instr.mstat 0 true 1).operandWf = true ∧ m.slot = .m ∧ m.g ≠ 8 ∧ (emptyS1 run1).source run1.cur m.e m.f = .empty)
    ∧ run1.me.mx.pendMeta = none ∧ run1.pipe.trap.tl = 0 ∧ run1.me.mx.leader = none ∧ level1.pipe.trap.tl ≠ 0
    ∧ (∀ x ∈ [(0x08 : BitVec 8), 0x02], (run1.modMx fun y => { y with pendMeta := some (x, 0) }).me.mx.pendMeta = some (x, 0))
    ∧ (run1.modMx fun y => { y with leader := some 1 }).me.mx.leader = some 1 ∧ (1 : CoreId) ≠ run1.cur :=
  ⟨⟨⟨.m, 0, 0x0C4, false, 1⟩, rfl, by decide +kernel⟩, ⟨⟨.m, 0, 0x131, true, 1⟩, rfl, by decide +kernel⟩, by decide +kernel⟩
/-- `run1` with 0xA0, which names no register, in every D latch. -/
def noD : State := run1.modPipe fun p =>
  { p with units := { p.units with s := { p.units.s with d := 0xA0 }, va := { p.units.va with d := 0xA0 }, vb := { p.units.vb with d := 0xA0 }, m := { p.units.m with d := 0xA0 } } }
theorem witness_DNamesNone : (∀ sl ∈ [Slot.s, .va, .vb, .m], noD.ready sl 0 false 0xC0 (.w64 0) = true ∧ noD.dNamed sl = false ∧ noD.pipe.units.bad.getLsbD sl.index = false)
    ∧ ∀ u ∈ [VUnit.va, .vb], (withBad 0xFFFF noD).ready u.slot 0 false 0xC0 (.w64 0) = true ∧ (withBad 0xFFFF noD).dNamed u.slot = false
      ∧ (withBad 0xFFFF noD).pipe.units.bad.getLsbD u.slot.index = true := by decide +kernel
/-- `run1` at bundle 40 with one access of bundle `j` outstanding: a request, a drain or a QGET. -/
def owing (j : Nat) (what : Nat) : State :=
  let s := run1.modPipe fun p => { p with ib := { p.ib with idx := 40 } }
  match what with
  | 0 => s.modMe fun k => { k with reqs := [{ lastWord (.load true) with pos := some j }], seq := 4 }
  | 1 => s.modMx fun m => { m with queue := [.drain { doneDrain with pos := some j }] }
  | _ => s.modPipe fun p => { p with waits := [⟨.qget 7, .ka, 5, some j, 3⟩] }
/-- Earlier ones make a fence wait, later ones do not, and none of them is a store. -/
theorem witness_FenceResults_owed : (∀ j ∈ [39, 41], ∀ w ∈ [0, 1, 2], (owing j w).ready .c 0 false 0xC0 (.w64 0) = true ∧ (owing j w).pipe.ib.idx = 40
      ∧ (owing j w).me.releaseWaits = decide (j < 40) ∧ (owing j w).me.acquireWaits = (decide (j < 40) && w != 1))
    ∧ (owing 39 0).me.reqs = [{ lastWord (.load true) with pos := some 39 }] ∧ (owing 39 2).pipe.waits = [⟨.qget 7, .ka, 5, some 39, 3⟩]
    ∧ SeqOp.drain { doneDrain with pos := some 39 } ∈ (owing 39 1).me.mx.queue := by
  refine ⟨?_, ?_⟩ <;> decide +kernel
/-- The last bank of core 0's scratchpad in RETAIN, and a group that lags behind the bundle. -/
def shutLast (s : State) : State := s.modMe fun k => { k with banks := k.banks.set 47 .retain }
def lagging (s : State) : State := s.modPipe fun p => { p with ib := { p.ib with idx := 40 } }
theorem witness_BankShut : (let s := shutLast (barrier 1)
      s.ready .c 0 false 1 (sv 1) = true ∧ s.pipe.units.c.x.poi = false ∧ s.namesWord s.pipe.units.c.x.val 0 0x5FFFF0 ∧ s.banksReady 0 0x5FFFF0 16 = false)
    ∧ (let s := shutLast (joiner 0)
      s.ready .c 0 false 1 (sv 0x80000000005FFFF0) = true ∧ s.namesWord 0x80000000005FFFF0 0 0x5FFFF0 ∧ s.banksReady 0 0x5FFFF0 16 = false) :=
  ⟨⟨by decide +kernel, by decide +kernel, ⟨rfl, by decide +kernel⟩, by decide +kernel⟩, by decide +kernel, ⟨rfl, by decide +kernel⟩, by decide +kernel⟩
theorem witness_BarrierResults_lagging : (lagging (barrier 1)).othersReached = false ∧ (lagging (barrier 1)).banksReady 0 0x5FFFF0 16 = true
    ∧ (lagging (syncer true)).othersReached = false ∧ ((lagging (syncer true)).syncGet 0 0x5FFFF0).rel = true ∧ run1.hasCore 0 = true
    ∧ (lagging (stuck (barrier 1))).ready .c 0 false 1 (sv 1) = true ∧ (lagging (stuck (barrier 1))).me.releaseWaits = true := by decide +kernel
/-- LAUNCH of the record in a bank in RETAIN. -/
theorem witness_LaunchAndServiceResults_shut : let s := launcher.modMe fun k => { k with banks := k.banks.set 0 .retain }
    s.ready .c 0 false 1 (sv 0x8000000000000000) = true ∧ s.dNamed .c = true ∧ s.reaches 0x8000000000000000 64 .read (.sp 0 0) s ∧ s.banksReady 0 0 256 = false
    ∧ s.me.releaseWaits = false ∧ (owing 39 0).me.releaseWaits = true ∧ (owing 39 0).ready .c 0 false 0xC0 (.w64 0) = true :=
  ⟨by decide +kernel, by decide +kernel, ⟨⟨.inl _, rfl⟩, by decide +kernel, rfl⟩, by decide +kernel⟩
/-- SPLD.G at a base that is no multiple of 4; with lanes in eight rows of a bank, whose hold of seven cycles has not passed. -/
def scatterer (a : W64) : State := (runs1 a).modPipe fun p => { p with units := { p.units with ka := { p.units.ka with x := ⟨Vec.tab fun i => if i.val < 8 then BitVec.ofNat 32 (0x800 * i.val) else 0, 0⟩ } } }
def scatterRows : List (Option Nat) := (List.range 256).map fun i => some (if i < 8 then 0x800 * i else 0)
theorem witness_ScratchpadRowResults_gather : (let s := runs1 0x7FFFFFFFFFFFFFFE
      s.ready .ka 0 false 1 (sv 0x7FFFFFFFFFFFFFFE) = true ∧ (s.kLatch .ka).x.poi = 0 ∧ (0x7FFFFFFFFFFFFFFE : W64).toNat % 4 ≠ 0)
    ∧ (let s := scatterer 0x8000000000000000
      s.ready .ka 0 false 1 (sv 0x8000000000000000) = true ∧ (s.kLatch .ka).x.poi = 0 ∧ (0x8000000000000000 : W64).toNat % 4 = 0
      ∧ s.ownAddrs 4 4 (laneAddrs fun i => 0x8000000000000000 + ((s.kLatch .ka).x.val[i]).setWidth 64) = .ok scatterRows ∧ s.pipe.stall < rowHold scatterRows
      ∧ s.me.class0Waits = false ∧ (scatterRows.all fun o => match o with | some o => s.banksReady s.cur o 4 | none => true) = true) :=
  ⟨by decide +kernel, by decide +kernel, by decide +kernel, by decide +kernel, ok_exc (by decide +kernel), by decide +kernel⟩
/-- SW.WAIT on a word whose generation is another than the one it names. -/
theorem witness_SyncAndChannelResults_over : let s := withKX [1] (syncer false)
    s.ready .ka 0 false 1 (sv 0x80000000005FFFF0) = true ∧ s.dNamed .ka = true ∧ (s.kLatch .ka).x.poi.getLsbD 0 = false ∧ (s.syncGet 0 0x5FFFF0).gen ≠ ((s.kLatch .ka).x.val[0]).toNat
    ∧ s.wordUsable 0 0x5FFFF0 = true ∧ ((syncer false).syncGet 0 0x5FFFF0).gen = (((syncer false).kLatch .ka).x.val[0]).toNat := by decide +kernel

/-! ## Hypotheses met: rows, beats and groups of the matrix, parts of engine commands, the scheduler -/

theorem memWf_run1 : run1.memWf := ⟨by decide +kernel, by decide +kernel⟩
/-- A row of one element at the last word of scratchpad; a drain of it. -/
def oneRow (k : DrainKind) : Drain := { doneDrain with kind := k, rows := [[(0, .sp 0 0x5FFFFC)]] }
theorem witness_MatrixQueuedResults_row : ∀ k ∈ [DrainKind.st, .cvt, .add, .addc], (oneRow k).rows = [(0, Loc.sp 0 0x5FFFFC)] :: []
    ∧ (run1.core 0).rowPart [(0, .sp 0 0x5FFFFC)] = ([(0, .sp 0 0x5FFFFC)], []) ∧ run1.writesReady 0 [.sp 0 0x5FFFFC] ((oneRow k).kind.size (oneRow k).typ) = true
    ∧ run1.m.migs = [] ∧ run1.homeUp (.sp 0 0x5FFFFC) = true ∧ (oneRow k).rm ≠ 4 := by
  intro k hk
  simp only [List.mem_cons, List.not_mem_nil, or_false] at hk
  rcases hk with h | h | h | h <;> subst h <;> decide +kernel
theorem witness_MatrixQueuedResults_unshared : run1.unshared (.sp 0 0x5FFFFC) ∧ ([(0, Loc.sp 0 0x5FFFFC)] : List (Nat × Loc)).Pairwise (fun p q => ∀ a b, a < 4 → b < 4 → p.2.plus a ≠ q.2.plus b) :=
  ⟨fun _ e => (by cases e), by simp⟩
/-- `tiler` with its metadata at the start of scratchpad: one word whose V is set, or one of zeros. -/
def sparser (v : Bool) : State := withSp (if v then [(2, 0x80)] else []) (tiler.modPipe fun p => { p with sys := { p.sys with mdbase := 0x8000000000000000 } })
/-- Its tile with SP = 1. -/
def sparseTile : TileSnap := { tiler.snapshot false with ports := { (tiler.snapshot false).ports with mcfg := 0x2000 } }
theorem witness_MatrixClaimBeatResults_tile : ((tiler.snapshot false).due = false ∧ (tiler.snapshot false).ports.sp = false ∧ (tiler.core 0).mx.width ≤ 4 ∧ (0 : CoreId).num + (tiler.core 0).mx.width ≤ 32)
    ∧ ∀ v ∈ [true, false], sparseTile.due = false ∧ sparseTile.ports.sp = true
      ∧ ∃ w a u, (sparser v).metaWord 0 ((sparser v).core 0).mx.mpc = ((.ok (w, false), a), u) ∧ w.getLsbD 23 = v ∧ (v = true → metaBad (wclass sparseTile.ports.atyp sparseTile.fa) w = false)
        ∧ (u.core 0).mx.width ≤ 4 := by
  have key (v : Bool) (h : (match ((sparser v).metaWord 0 ((sparser v).core 0).mx.mpc).1.1 with | .ok (w, b) => !b && w.getLsbD 23 == v && (!v || !metaBad (wclass sparseTile.ports.atyp sparseTile.fa) w) | _ => false) = true)
      (h2 : (((sparser v).metaWord 0 ((sparser v).core 0).mx.mpc).2.core 0).mx.width ≤ 4) :
      ∃ w a u, (sparser v).metaWord 0 ((sparser v).core 0).mx.mpc = ((.ok (w, false), a), u) ∧ w.getLsbD 23 = v ∧ (v = true → metaBad (wclass sparseTile.ports.atyp sparseTile.fa) w = false)
        ∧ (u.core 0).mx.width ≤ 4 := by
    generalize (sparser v).metaWord 0 ((sparser v).core 0).mx.mpc = q at h h2
    obtain ⟨⟨r, a⟩, u⟩ := q
    cases r with
    | error e => simp at h
    | ok x =>
      obtain ⟨w, b⟩ := x
      simp only [Bool.and_eq_true, Bool.not_eq_true', beq_iff_eq, Bool.or_eq_true] at h
      refine ⟨w, a, u, by rw [h.1.1], h.1.2, fun hv => ?_, h2⟩
      subst hv; simpa using h.2
  refine ⟨by decide +kernel, fun v hv => ⟨by decide +kernel, by decide +kernel, ?_⟩⟩
  simp only [List.mem_cons, List.not_mem_nil, or_false] at hv
  rcases hv with h | h <;> subst h <;> exact key _ (by decide +kernel) (by decide +kernel)
/-- A core that leads a group of two, and one whose group dissolves. -/
theorem witness_MatrixClaimBeatResults_group : (grouping.core 0).mx.ports.mgrp.toNat = 2 ∧ (0 : CoreId).num % 2 = 0 ∧ (run1.core 0).mx.ports.mgrp.toNat = 1 := by decide +kernel
/-- A poisoned engine operand with a region open, in which a command was accepted. -/
def regioned : State := marked.modPipe fun p => { p with trap := { p.trap with regions := [⟨0, 0⟩] } }
theorem witness_CoreStepResults_unwind : (let u := marked.modMe Core.recordWaits; marked.pipe.trap.regions.length ≤ marked.pipe.trap.entryDepth ∧ u.entryStuck = false)
    ∧ (let u := (stuck marked).modMe Core.recordWaits; (stuck marked).pipe.engPoison = some 5 ∧ (stuck marked).pipe.trap.regions.length ≤ (stuck marked).pipe.trap.entryDepth ∧ u.entryStuck = true)
    ∧ (let u := regioned.modMe Core.recordWaits; regioned.pipe.engPoison = some 5 ∧ ¬regioned.pipe.trap.regions.length ≤ regioned.pipe.trap.entryDepth ∧ u.unwindStuck = false)
    ∧ (let s := stuck regioned
      let u := s.modMe Core.recordWaits
      s.pipe.engPoison = some 5 ∧ s.me.canIssue = true ∧ s.phase = .running ∧ ¬s.pipe.trap.regions.length ≤ s.pipe.trap.entryDepth ∧ u.unwindStuck = true) := by decide +kernel
/-- No access stands at the old frame of a migration in phase 4. -/
theorem witness_MemoryStepResults_redirect : (migrating 4 []).underWay 0x30000 (pageBytes 0) = false := by decide +kernel
/-- A migration whose switch ends: its page is installed. -/
def switching : State := (migrating 3 []).installLeaf 0x20000 0x40000000 0 0x30083
theorem witness_MemoryStepResults_switch : (let g : Migration := ⟨1, 0x40000000, 0, 0x30000, 0x50000, 3, [], 0, 1, 0⟩
      g ∈ switching.m.migs ∧ g.size.toNat < 3 ∧ tierOf g.new ≠ 3 ∧ tierOf g.old ≠ 3 ∧ switching.ctx g.ctx = some ctx1 ∧ switching.walk ctx1.root g.va.toNat = .leaf (2 ^ 36 + 2 ^ 35 - 0x2000 * 3) 0 0x30083)
    ∧ switching.memWf := ⟨by decide +kernel, ⟨by decide +kernel, by decide +kernel⟩⟩
/-- XGATH of one row of one byte, before its extents at an address are read, and after. -/
def lister (list : W64) (x : Option (List (W64 × Nat × Nat))) : EngCmd := { cmdOf (.xlist false list 1 1 0 1 (.flat 0x8000000000001000)) 0 1 with extents := x }
theorem witness_SequencerAndEngineStepResults_list : (each [(0x8000000000000100, some [((0x8000000000000200 : W64), 1, 1)]), (0x8000000000000101, none), ((0x8000000000000100 : W64), none)] fun q =>
      (lister q.1 q.2).started = true ∧ (lister q.1 q.2).extents = q.2 ∧ (working (lister q.1 q.2)).wordReady 0 (lister q.1 q.2) = true ∧ ((working (lister q.1 q.2)).me.kslot .ka).isResh 0 = false)
    ∧ (0x8000000000000101 : W64).toNat % 8 ≠ 0 ∧ (0x8000000000000100 : W64).toNat % 8 = 0
    ∧ ∃ e1 t1, (working (lister 0x8000000000000100 none)).engRead 0 (lister 0x8000000000000100 none) 0x8000000000000100 (16 * 1) = (.ok (List.replicate 16 0, false, e1), t1) :=
  ⟨by decide +kernel, by decide +kernel, by decide +kernel, lister 0x8000000000000100 none, _, ok_of (by decide +kernel)⟩
/-- XHALO of a slab of one element; MOPLD.T of one unit, where a queued tile names its slots and where none does. -/
theorem witness_SequencerAndEngineStepResults_halo : (let e := cmdOf (.xhalo [⟨0, [(0x8000000000000000, 0x8000000000001000)]⟩] 0 4) 0 4
      (working e).wordReady 0 e = true ∧ ((working e).me.kslot .ka).isResh 0 = false ∧ slabAt [⟨0, [(0x8000000000000000, 0x8000000000001000)]⟩] (e.pos / 4) = some (0, [(0x8000000000000000, 0x8000000000001000)]))
    ∧ (let e := cmdOf (.mopldT 0 0 0 1 (.flat 0x8000000000000000) none) 0 1024
      (working e).wordReady 0 e = true ∧ ((working e).me.kslot .ka).isResh 0 = false ∧ e.pos < e.total ∧ (working e).slotsBusy 0 (ctrlSlots 0) = false
      ∧ ((working e).modMx fun m => { m with queue := [.tile (tiler.snapshot false) 0 0 0] }).slotsBusy 0 (ctrlSlots 0) = true) := by decide +kernel
/-- XRED at its root, which is its governor: its partial is there, or it contributes still. -/
theorem witness_SequencerAndEngineStepResults_red : ∀ there ∈ [true, false],
    let x : Coll := { coll false 0 true with partials := if there then [(0, [(1, false)])] else [] }
    let e := cmdOf (.xred 9 0 false 4 0x8000000000000000 0x8000000000001000 0 [0]) 0 4
    let s := collecting x e.kind
    s.collOf 0 e.id = some (0, x, 0) ∧ x.status = 0 ∧ e.pos < e.total ∧ (if there then x.gov = 0 ∧ x.cmd = e.id ∧ ranked x.partials 0 = some [(1, false)] else ranked x.partials 0 = none)
    ∧ (s.me.kslot .ka).isResh 0 = false ∧ (s.me.kslot .ka).queue = [e] ∧ e.started = true := by
  intro there ht
  simp only [List.mem_cons, List.not_mem_nil, or_false] at ht
  rcases ht with h | h <;> subst h <;> decide +kernel
/-- Job 1 on eight dies: rank 0 is the root, dies 1, 2 and 4 send to it. -/
def job8 : Job := { job1 with dies := [0, 1, 2, 3, 4, 5, 6, 7] }
/-- An XRED of ranks 0 and 1, or of rank 1 alone beside the root, whose kids' partials are there. -/
def reducing (parts : List Nat) : Coll :=
  ⟨1, 0, 9, 1, 0, 7, false, parts, [(0, 0, 7)], [(0, [(2, false)])], [(1, [(1, false)]), (2, [(1, false)]), (4, [(1, false)])], 0, 0, 0, false⟩
theorem witness_SequencerAndEngineStepResults_inner : ∀ parts ∈ [[0, 1, 2, 4], [1, 2, 4]],
    let x := reducing parts
    let s := collecting x (.xred 9 0 false 4 0x8000000000000000 0x8000000000001000 0 parts)
    s.link.colls[0]? = some x ∧ x.resh = false ∧ s.rootOf x = some (0, 4) ∧ 0 < job8.dies.length ∧ ranked x.partials 0 = none
    ∧ (let kids := (redKids (x.parts.map fun r => (job8.dies.getD r 0).val) (job8.dies.getD 0 0).val x.gov.die.val).map fun y => (job8.dies.map (·.val)).idxOf y
      kids = [1, 2, 4] ∧ (kids.map fun r => ranked x.partials r) = [[(1, false)], [(1, false)], [((1 : W32), false)]].map some)
    ∧ (x.parts.contains 0 = true → ranked x.contribs 0 = some [(2, false)] ∧ [((2 : W32), false)].length = 4 / 4) := by
  intro parts hp
  simp only [List.mem_cons, List.not_mem_nil, or_false] at hp
  rcases hp with h | h <;> subst h <;> decide +kernel
/-- A piece of eight bytes to the last eight of scratchpad, and to an element without an address. -/
theorem witness_SequencerAndEngineStepResults_piece : ((flatWalker 0x80000000005FFFF8 0).1 = some 0x80000000005FFFF8 ∧ (0x80000000005FFFF8 : W64).toNat % 64 + 8 ≤ 64
      ∧ ∃ t u, run1.engLoc 0 0x80000000005FFFF8 8 .write = (.ok (), t) ∧ t.locate 0 0x80000000005FFFF8 .write = (.ok (.sp 0 0x5FFFF8), u) ∧ u.memWf ∧ u.m.migs = []
        ∧ u.homeUp (.sp 0 0x5FFFF8) = true ∧ u.unshared (.sp 0 0x5FFFF8))
    ∧ run1.memWf ∧ run1.homeUp (.sp 0 0x5FFFF8) = true ∧ run1.sameCtx 0 0 = true ∧ run1.targetReady 0 0x5FFFF8 8 0 = true
    ∧ (elemWalker #[] 0 4 0).1 = none ∧ (cmdOf (.xcopy (.flat 0) (.flat 0)) 0 8).sw = 0 :=
  ⟨⟨by decide +kernel, by decide +kernel, _, _, ok_of (by decide +kernel), ok_of (by decide +kernel), ⟨by decide +kernel, by decide +kernel⟩, by decide +kernel, by decide +kernel,
      fun _ e => (by cases e)⟩, memWf_run1, by decide +kernel⟩
/-- Job 1 on cores 0 to 3 of die 0, whose states are given, with a packet in flight between two of them or not. -/
def crewIn (l : List TaskSt) (flies : Bool) : State :=
  let j : Job := { jobIn .placed 0 with lr := { job1.lr with crew := 2 } }
  let s := withJob j (if flies then flying (packet 9 1 0) else run1)
  (s.modCore 0 fun k => { k with task := { k.task with st := l.getD 0 .ended } }).modCore 1 fun k => { k with task := { k.task with st := l.getD 1 .ended } }
theorem witness_SchedulerStepResults_preempt : (each [[TaskSt.running, .running], [.loading, .running], [.loading, .loading], [.loading, .ended]] fun l =>
      let s := crewIn l false
      let j : Job := { jobIn .placed 0 with lr := { job1.lr with crew := 2 } }
      s.job j.num = some j ∧ s.coresIn j (· == .loading) = (l.zip [(0 : CoreId), 1]).filterMap (fun q => if q.1 = .loading then some q.2 else none)
      ∧ s.link.net.any (fun p => (s.coresIn j (· == .loading)).contains p.src || (s.coresIn j (· == .loading)).contains p.dst) = false)
    ∧ (let s := crewIn [.loading, .running] true
      let j : Job := { jobIn .placed 0 with lr := { job1.lr with crew := 2 } }
      s.link.net.any (fun p => (s.coresIn j (· == .loading)).contains p.src || (s.coresIn j (· == .loading)).contains p.dst) = true) := by decide +kernel

end Sys2Proof.Tests
end

section
/-! PROOFS. The machine's steps of a core: what each does where the conditions of its rule hold. -/
namespace Sys2Proof.Machine

/-! ## Pipeline (R48, R319, R328) -/

section
variable {s : State} (hi : s.me.canIssue = true) (hp : s.phase = .running)
include hi hp

/-- R48: a core that may dispatch dispatches its next bundle. -/
theorem exec_bundleDecode_dispatches (hd : s.pipe.mayDispatch = true) : exec .bundleDecode s = .next (s.dispatchOne s.cur) := by
  show execBundleDecode s = _
  simp [execBundleDecode, hi, hp, hd]

/-- R328, R329: poisoned control data an engine has read, outside every region that a handler entered: a trap, once its entry waits for nothing. -/
theorem exec_containmentUnwind_traps {a : W64} (ha : s.pipe.engPoison = some a) (ht : s.pipe.trap.regions.length ≤ s.pipe.trap.entryDepth) :
    let u := s.modMe Core.recordWaits
    exec .containmentUnwind s = .next (if u.entryStuck then u.performAll s.cur else u.consumeAsync a) := by
  show execContainmentUnwind s = _
  simp [execContainmentUnwind, ha, hi, hp, ht]

/-- R329: within a region, an unwinding, once it waits for nothing. -/
theorem exec_containmentUnwind_unwinds {a : W64} (ha : s.pipe.engPoison = some a) (ht : ¬s.pipe.trap.regions.length ≤ s.pipe.trap.entryDepth) :
    let u := s.modMe Core.recordWaits
    exec .containmentUnwind s = .next (if u.unwindStuck then u.wakeUnwinds.performAll s.cur else u.consumeAsync a) := by
  show execContainmentUnwind s = _
  simp [execContainmentUnwind, ha, hi, hp, ht]

end

/-- Every group stands at the bundle that each of the four positions names. -/
theorem Pipe.gpos_all_of_pos {p : Pipe} {i : Nat} (h : ∀ g, g < 4 → p.pos g = i) : (p.stream.gpos.all fun q => q = i) = true := by
  rw [Vector.all_eq_true]
  intro g hg
  simpa [Pipe.pos, Vector.getD, hg] using h g hg

/-- R48, R319: at a marker that every group has reached, the trap is taken, once its entry waits for nothing. -/
theorem exec_trapEntry_at_marker {s : State} (hi : s.me.canIssue = true) (hp : s.phase = .running) {d : Disp} {cause : BitVec 8} {slot : Nat} {a : W64}
    (hg : ∀ g, g < 4 → s.pipe.pos g = s.pipe.pos 0) (hd : s.pipe.stream.at (s.pipe.pos 0) = some d) (hm : d.marker = some (cause, slot, a)) :
    exec .trapEntry s = .next (if s.entryStuck then s.performAll s.cur
      else (s.modPipe fun p => { p with ib := ⟨s.pipe.pos 0, none, d.pc, d.q, 0xF, false⟩, wq := none, undo := none }).takeTrap slot 4 cause a false) := by
  show execTrapEntry s = _
  simp only [execTrapEntry, hi, hp, Pipe.gpos_all_of_pos hg, hd, hm]
  cases s.entryStuck <;> rfl

/-! ## Translation (R72, R73, R81) -/

section
variable {va : W64} (hva : va.extractLsb' 56 8 = 0)
include hva

/-- R72: a walk of a canonical address fills the caches. -/
theorem exec_pageWalk_canonical (s : State) : exec (.pageWalk va) s = .next (s.leafFor s.cur va.toNat).2 := by
  show execPageWalk va s = _
  rw [execPageWalk, if_pos hva]

/-- R73: firmware is offered an access that faults; where it has no answer, only the walk has happened. -/
theorem exec_translationFault_offered {s : State} {acc : Access} (hf : leafFaults (s.leafFor s.cur va.toNat).1 acc = true) :
    let l := s.leafFor s.cur va.toNat
    exec (.translationFault va acc) s = .next ((l.2.resolveFault s.me.task.ctx va.toNat acc l.1.isSome).getD l.2) := by
  show execTranslationFault va acc s = _
  simp [execTranslationFault, hva, hf]

/-- R81: a writable, replicated page that may collapse does. -/
theorem exec_collapseFault_collapses {s : State} {x : Ctx} {a n : Nat} {e : W64} (hx : s.ctx s.me.task.ctx = some x) (hw : s.walk x.root va.toNat = .leaf a n e)
    (h1 : ebit e 1 = true) (h3 : ebit e 3 = true) (hc : s.mayCollapse x.id va.toNat n = true) :
    exec (.collapseFault va) s = .next (s.collapse x.id va.toNat) := by
  show execCollapseFault va s = _
  simp [execCollapseFault, hx, hw, h1, h3, hva, hc]

end

/-! ## Requests and times (R91, R146) -/

/-- R146 item 1: every operation but the two that exchange merges. -/
theorem AOp.merges_iff {a : AOp} : a.merges = true ↔ a ≠ .xchg ∧ a ≠ .cas := by
  cases a <;> simp [AOp.merges]

/-- R146: an atomic that merges is forwarded with the partners found. -/
theorem exec_flueWaitExpiry_forwards {s : State} {n : Nat} {r : Req} {a : AOp} {ret : Bool} (hp : s.phase ≠ .dusk) (hr : s.me.reqs[n]? = some r)
    (ho : r.op = .atomic a ret) (hm : a.merges = true) :
    exec (.flueWaitExpiry n) s = .next (s.performMerged ((s.cur, r) ::
      allCores.filterMap fun d => ((s.core d).reqs.find? fun q => s.mergeable s.cur d r q).map fun q => (d, q))) := by
  show execFlueWaitExpiry n s = _
  simp [execFlueWaitExpiry, hr, ho, hm, hp]

/-- A core's times are what is set. -/
@[simp] theorem State.lt_setLt (s : State) (c : CoreId) (lt : Vector Nat 4) : ((s.setLt c lt).core c).lt = lt := by simp [State.setLt]

/-- A change of a core that keeps its scratchpad, and of nothing else, keeps every byte. -/
theorem State.sameBytes_modCore (s : State) (c : CoreId) {f : Core → Core} (hf : (f (s.core c)).sp = (s.core c).sp) : sameBytes s (s.modCore c f) := by
  refine ⟨fun l => ?_, fun _ => rfl, fun _ => rfl⟩
  cases l with
  | pa a => rfl
  | sp d off =>
    by_cases hd : d = c
    · subst hd; simp [State.byteAt, hf]
    · simp [State.byteAt, State.core_modCore_ne s f hd]

/-- A change of a core that keeps its pipeline keeps what of it is architectural. -/
theorem State.sameArch_modCore (s : State) (c : CoreId) {f : Core → Core} (hf : (f (s.core c)).pipe = (s.core c).pipe) : sameArch s (s.modCore c f) c := by
  simp [sameArch, hf]

/-! ## Banks and sync words (R112, R123) -/

/-- Within bounds the two ways of setting an entry agree. -/
theorem setIfInBounds_eq_set {α : Type} {n i : Nat} (v : Vector α n) (x : α) (h : i < n) : v.setIfInBounds i x = v.set i x h := by
  ext j hj
  simp [Vector.getElem_setIfInBounds, Vector.getElem_set]

section
variable {s : State} {b : Nat} (h : b < 48)

/-- R112: a bank that is idle begins its entry, if a re-encoder is free. -/
theorem exec_bankIdleExpiry_enters (hi : s.bankIdle b = true) (hc : s.me.converting < 4) (hb : s.me.banks[b] = .active) :
    exec (.bankIdleExpiry b) s = .next (s.modMe fun k => { k with banks := k.banks.set b (.entering 0) h }) := by
  show execBankIdleExpiry b s = _
  simp [execBankIdleExpiry, hi, Nat.not_le.2 hc, hb, h, setIfInBounds_eq_set]

/-- R112: an entry ends in RETAIN. -/
theorem exec_bankEntryComplete_retains {r : Nat} (hb : s.me.banks[b] = .entering r) :
    exec (.bankEntryComplete b) s = .next (s.modMe fun k => { k with banks := k.banks.set b .retain h }) := by
  show execBankEntryComplete b s = _
  simp [execBankEntryComplete, hb, h, setIfInBounds_eq_set]

/-- R112: an exit ends in ACTIVE, and what waited for the bank goes. -/
theorem exec_bankExitComplete_activates {r : Nat} (hb : s.me.banks[b] = .exiting r) :
    exec (.bankExitComplete b) s = .next (s.modMe fun k => { k with banks := k.banks.set b .active h }).endOwed := by
  show execBankExitComplete b s = _
  simp [execBankExitComplete, hb, h, setIfInBounds_eq_set]

end

/-- R112, Table 5.1: with BKIDLE set, a bank is idle without a task, or after BKIDLE cycles. -/
theorem State.bankIdle_iff {s : State} {b : Nat} : s.bankIdle b = true ↔
    s.fw.cfg.bkidle ≠ 0 ∧ (s.me.task.st = .none ∨ s.fw.cfg.bkidle.toNat ≤ (s.pipe.cyc - s.me.bankUse.getD b 0).toNat) := by
  simp only [State.bankIdle, Bool.and_eq_true, Bool.or_eq_true, decide_eq_true_eq, beq_iff_eq]

/-- R123: an arrival reaches an aligned word of a core of the package whose bank is ready. -/
theorem exec_syncArrival_arrives {s : State} {c : CoreId} {off : Nat} (w : W32) (hc : s.hasCore c = true) (ha : off % 16 = 0) (ho : off + 16 ≤ 0x600000)
    (hp : s.phase ≠ .dusk) (hb : s.banksReady c off 16 = true) : exec (.syncArrival c off w) s = .next (s.syncArrive c off w.toNat 0).2 := by
  show execSyncArrival c off w s = _
  simp [execSyncArrival, hc, ha, hp, hb, Nat.not_lt.2 ho]

/-! ## Services (R326) -/

/-- R326: the pending service of the number asked for is performed. -/
theorem State.serve_pending {s : State} {v : Svc} {n : Nat} (hv : s.pipe.svc = some v) (hp : s.phase ≠ .dusk) (hn : v.num.toNat = n) :
    s.serve n = s.completeSvc s.cur := by
  simp [State.serve, hv, hp, hn]

/-! ## The obligation -/

/-- Settles O55: the cases of each step are the lemmas above. -/
theorem coreStepResults : Obligations.CoreStepResults := by
  unfold Obligations.CoreStepResults
  intro s
  refine ⟨fun hi hp => ⟨exec_bundleDecode_dispatches hi hp, fun a ha => ⟨?consumes, fun ht hs => ?entryWaits, fun ht hs => ?unwindWaits⟩,
      fun d cause slot a hg hd hm => ⟨fun hs => ?taken, fun hs => ?waits⟩⟩,
    fun va hva => ⟨exec_pageWalk_canonical hva s, fun acc => exec_translationFault_offered hva,
      fun x a n e hx hw h1 h3 hc => exec_collapseFault_collapses hva hx hw h1 h3 hc⟩,
    fun n r a ret hp hr ho h1 h2 => exec_flueWaitExpiry_forwards hp hr ho (AOp.merges_iff.2 ⟨h1, h2⟩),
    fun k => ⟨_, rfl, s.lt_setLt s.cur _, s.sameBytes_modCore s.cur rfl, s.sameArch_modCore s.cur rfl⟩,
    fun b h => ⟨fun h0 hi hc hb => exec_bankIdleExpiry_enters h (State.bankIdle_iff.2 ⟨h0, hi⟩) hc hb, fun r => exec_bankEntryComplete_retains h,
      fun r => exec_bankExitComplete_activates h⟩,
    fun c off w hc ha ho hp hb => exec_syncArrival_arrives w hc ha ho hp hb, fun v hv hp => ?services⟩
  case consumes =>
    intro he hu
    by_cases ht : s.pipe.trap.regions.length ≤ s.pipe.trap.entryDepth
    · simp [exec_containmentUnwind_traps hi hp ha ht, he ht]
    · simp [exec_containmentUnwind_unwinds hi hp ha ht, hu ht]
  case entryWaits => simp [exec_containmentUnwind_traps hi hp ha ht, hs]
  case unwindWaits => simp [exec_containmentUnwind_unwinds hi hp ha ht, hs]
  case taken => simp [exec_trapEntry_at_marker hi hp hg hd hm, hs]
  case waits => simp [exec_trapEntry_at_marker hi hp hg hd hm, hs]
  case services =>
    have served (n : Nat) (hn : v.num.toNat = n) : Host.Outcome.next (s.serve n) = (.next (s.completeSvc s.cur) : Out) := by rw [s.serve_pending hv hp hn]
    exact ⟨fun h => served 1 (by simp [h]), fun h => served 2 (by simp [h]), fun h => served 3 (by simp [h]), fun h => served 4 (by simp [h]),
      fun h => served 5 (by simp [h])⟩

end Sys2Proof.Machine
end

section
/-! PROOFS. What an access keeps of the state, and the changes beside bytes and requests: times, caches, write-back, logs, waits. -/
namespace Sys2Proof.Machine

/-! ## What an access keeps -/

/-- What no access changes of a core: its architectural state, the writes its bundle defers, its task. -/
structure Core.Kept (k k' : Core) : Prop where
  regs : k'.pipe.regs = k.pipe.regs
  units : k'.pipe.units = k.pipe.units
  sys : k'.pipe.sys = k.pipe.sys
  sys2 : k'.pipe.sys2 = k.pipe.sys2
  trap : k'.pipe.trap = k.pipe.trap
  wq : k'.pipe.wq = k.pipe.wq
  task : k'.task = k.task

/-- What no write of memory changes of the machine. -/
structure State.Frame (s t : State) : Prop where
  core : ∀ c, (s.core c).Kept (t.core c)
  cur : t.cur = s.cur
  phase : t.phase = s.phase
  product : t.product = s.product
  host : t.m.host = s.m.host
  pmem : t.m.pmem = s.m.pmem
  saved : t.fw.saved = s.fw.saved
  live : ∀ d, (t.die d).live = (s.die d).live

/-- Only times, caches, dirty lines, trackers and waits differ: neither a byte nor an outstanding request nor a replicated page does. -/
structure State.Quiet (s t : State) : Prop extends State.Frame s t where
  reqs : ∀ c, (t.core c).reqs = (s.core c).reqs
  sp : ∀ c, (t.core c).sp = (s.core c).sp
  mem : t.m.mem = s.m.mem
  poi : t.m.poi = s.m.poi
  replicas : t.fw.replicas = s.fw.replicas

theorem Core.Kept.refl (k : Core) : k.Kept k := ⟨rfl, rfl, rfl, rfl, rfl, rfl, rfl⟩
theorem Core.Kept.trans {k l m : Core} (h : k.Kept l) (g : l.Kept m) : k.Kept m :=
  ⟨g.regs.trans h.regs, g.units.trans h.units, g.sys.trans h.sys, g.sys2.trans h.sys2, g.trap.trans h.trap, g.wq.trans h.wq, g.task.trans h.task⟩
theorem State.Frame.refl (s : State) : s.Frame s := ⟨fun _ => .refl _, rfl, rfl, rfl, rfl, rfl, rfl, fun _ => rfl⟩
theorem State.Frame.trans {s t u : State} (h : s.Frame t) (g : t.Frame u) : s.Frame u :=
  ⟨fun c => (h.core c).trans (g.core c), g.cur.trans h.cur, g.phase.trans h.phase, g.product.trans h.product, g.host.trans h.host, g.pmem.trans h.pmem,
    g.saved.trans h.saved, fun d => (g.live d).trans (h.live d)⟩
theorem State.Quiet.refl (s : State) : s.Quiet s := ⟨.refl s, fun _ => rfl, fun _ => rfl, rfl, rfl, rfl⟩
theorem State.Quiet.trans {s t u : State} (h : s.Quiet t) (g : t.Quiet u) : s.Quiet u :=
  ⟨h.toFrame.trans g.toFrame, fun c => (g.reqs c).trans (h.reqs c), fun c => (g.sp c).trans (h.sp c), g.mem.trans h.mem, g.poi.trans h.poi,
    g.replicas.trans h.replicas⟩

/-- Steps that each keep the frame keep it together. -/
theorem State.Frame.foldl {α : Type} {f : State → α → State} (h : ∀ s x, State.Frame s (f s x)) (l : List α) (s : State) : s.Frame (l.foldl f s) :=
  List.foldlRecOn l f (State.Frame.refl s) fun _ hb x _ => hb.trans (h _ x)
/-- Steps that are each quiet are quiet together. -/
theorem State.Quiet.foldl {α : Type} {f : State → α → State} (h : ∀ s x, State.Quiet s (f s x)) (l : List α) (s : State) : s.Quiet (l.foldl f s) :=
  List.foldlRecOn l f (State.Quiet.refl s) fun _ hb x _ => hb.trans (h _ x)

/-- Quiet changes keep every memory canonical. -/
theorem State.Quiet.memWf {s t : State} (h : s.Quiet t) (hs : s.memWf) : t.memWf := by
  obtain ⟨h1, h2, h3, h4, h5⟩ := hs
  exact ⟨h.mem ▸ h1, h.host ▸ h2, h.pmem ▸ h3, fun c => h.sp c ▸ h4 c, h.saved ▸ h5⟩
/-- Quiet changes keep every byte. -/
theorem State.Quiet.byteAt {s t : State} (h : s.Quiet t) (l : Loc) : t.byteAt l = s.byteAt l := by
  cases l with
  | sp c o => simp only [State.byteAt, h.sp]
  | pa a => simp only [State.byteAt, h.mem]
/-- Quiet changes keep which page is replicated. -/
theorem State.Quiet.replicaAt {s t : State} (h : s.Quiet t) (a : Nat) : t.replicaAt a = s.replicaAt a := by
  simp only [State.replicaAt, h.replicas]
/-- What keeps the frame keeps which dies answer. -/
theorem State.Frame.dieLive {s t : State} (h : s.Frame t) (d : DieId) : t.dieLive d = s.dieLive d := by
  rw [State.dieLive, State.dieLive, State.pkgDies, State.pkgDies, h.live, h.product]
/-- What keeps the frame keeps the architectural state of every core. -/
theorem State.Frame.sameArch {s t : State} (h : s.Frame t) (c : CoreId) : sameArch s t c :=
  ⟨(h.core c).regs, (h.core c).units, (h.core c).sys, (h.core c).sys2, (h.core c).trap⟩

/-! ## The arrivals of ended tasks (R306) -/

/-- Where no ended task owes an arrival, none is made. -/
theorem State.endOwed_of_owesNone {s : State} (h : s.owesNone) : s.endOwed = s := by
  have hn : (s.cores.any fun k => k.task.st == .ended && (k.task.card.isSome || k.task.joinw != 0)) = false := by
    rw [Vector.any_eq_false]
    intro i hi
    have := h ⟨i, hi⟩
    by_cases he : s.cores[i].task.st = .ended
    · obtain ⟨hc, hj⟩ := this he
      simp only [State.core] at hc hj
      simp [hc, hj]
    · simp [he]
  rw [State.endOwed, hn]
  simp
/-- What keeps every task keeps that none owes an arrival. -/
theorem State.owesNone_of_task {s t : State} (h : ∀ c, (t.core c).task = (s.core c).task) (hs : s.owesNone) : t.owesNone := by
  intro c
  rw [h c]
  exact hs c
/-- An access that keeps the frame makes none due. -/
theorem State.Frame.endOwed {s t : State} (h : s.Frame t) (hs : s.owesNone) : t.endOwed = t :=
  State.endOwed_of_owesNone (State.owesNone_of_task (fun c => (h.core c).task) hs)

/-! ## Changes of one part -/

/-- A core replaced by one that keeps what no access changes. -/
theorem State.Frame.setCore (s : State) (c : CoreId) {k : Core} (hk : (s.core c).Kept k) : s.Frame (s.setCore c k) := by
  refine { State.Frame.refl s with core := fun d => ?_ }
  by_cases hd : d = c
  · subst hd
    rw [State.core_setCore_self]
    exact hk
  · rw [State.core_setCore_ne s k hd]
    exact .refl _
/-- A core replaced by one that keeps its scratchpad and its requests besides. -/
theorem State.Quiet.setCore (s : State) (c : CoreId) {k : Core} (hk : (s.core c).Kept k) (hr : k.reqs = (s.core c).reqs) (hs : k.sp = (s.core c).sp) :
    s.Quiet (s.setCore c k) := by
  refine ⟨.setCore s c hk, fun d => ?_, fun d => ?_, rfl, rfl, rfl⟩ <;>
    by_cases hd : d = c
  · subst hd; rw [State.core_setCore_self, hr]
  · rw [State.core_setCore_ne s k hd]
  · subst hd; rw [State.core_setCore_self, hs]
  · rw [State.core_setCore_ne s k hd]
/-- A change of a core that keeps all those. -/
theorem State.Quiet.modCore (s : State) (c : CoreId) {f : Core → Core} (hf : (s.core c).Kept (f (s.core c))) (hr : (f (s.core c)).reqs = (s.core c).reqs)
    (hs : (f (s.core c)).sp = (s.core c).sp) : s.Quiet (s.modCore c f) := .setCore s c hf hr hs
/-- A change of a die that keeps it in or out of service. -/
theorem State.Quiet.modDie (s : State) (d : DieId) {f : Die → Die} (hf : (f (s.die d)).live = (s.die d).live) : s.Quiet (s.modDie d f) := by
  refine { State.Quiet.refl s with live := fun e => ?_ }
  by_cases he : e = d
  · subst he; rw [State.die_modDie_self, hf]
  · rw [State.die_modDie_ne s f he]
/-- A change of every die that keeps each in or out of service. -/
theorem State.Quiet.modDies (s : State) {f : Die → Die} (hf : ∀ x, (f x).live = x.live) : s.Quiet (s.modDies f) :=
  { State.Quiet.refl s with live := fun e => by simp [State.die, State.modDies, hf] }
/-- A change of memory's records beside its bytes. -/
theorem State.Quiet.modMem (s : State) (m : MemState) (hm : m.mem = s.m.mem) (hp : m.poi = s.m.poi) (hh : m.host = s.m.host) (hq : m.pmem = s.m.pmem) :
    s.Quiet { s with m := m } := { State.Quiet.refl s with mem := hm, poi := hp, host := hh, pmem := hq }
/-- A change of a context. -/
theorem State.Quiet.modCtx (s : State) (x : BitVec 16) (f : Ctx → Ctx) : s.Quiet (s.modCtx x f) := { State.Quiet.refl s with }

/-! ## Times, caches and write-back (R75, R90, R91, R279, R280, R283) -/

theorem State.Quiet.setTimes (s : State) (l : Loc) (t : Times) : s.Quiet (s.setTimes l t) := .modMem s _ rfl rfl rfl rfl
theorem State.Quiet.setLt (s : State) (c : CoreId) (lt : Vector Nat 4) : s.Quiet (s.setLt c lt) := .modCore s c ⟨rfl, rfl, rfl, rfl, rfl, rfl, rfl⟩ rfl rfl
theorem State.Quiet.touch (s : State) (c : CoreId) (o n : Nat) : s.Quiet (s.modCore c fun k => k.touch o n) :=
  .modCore s c ⟨rfl, rfl, rfl, rfl, rfl, rfl, rfl⟩ rfl rfl
theorem State.Quiet.heat (s : State) (d : DieId) (a : Nat) : s.Quiet (s.heat d a) := by
  unfold State.heat
  extract_lets stale
  split
  · exact .modDie s d rfl
  · exact .refl s
theorem State.Quiet.writeBack (s : State) (a : Nat) : s.Quiet (s.writeBack a) := by
  unfold State.writeBack
  split
  · refine .trans ?_ (.heat _ _ _)
    exact .modMem s _ rfl rfl rfl rfl
  · split
    · refine .trans ?_ (.heat _ _ _)
      exact .modMem s _ rfl rfl rfl rfl
    · exact .refl s
theorem State.Quiet.evictLine (s : State) (d : DieId) (a : Nat) : s.Quiet (s.evictLine d a) := by
  unfold State.evictLine
  split
  · exact .refl s
  · extract_lets l ys
    split
    · exact (State.Quiet.writeBack s _).trans (.modDie _ d rfl)
    · exact .modDie s d rfl
    · exact (State.Quiet.writeBack s _).trans (.modDie _ d rfl)
    · exact .refl s
theorem State.Quiet.bringLine (s : State) (count : Option DieId) (a : Nat) : s.Quiet (s.bringLine count a) := by
  unfold State.bringLine
  extract_lets line h u
  split
  · exact .refl s
  · have hu : s.Quiet u := (State.Quiet.evictLine s h line).trans (.modDie _ h rfl)
    split
    · exact hu.trans (.heat _ _ _)
    · exact hu
theorem State.Quiet.markDirty (s : State) (a : Nat) : s.Quiet (s.markDirty a) := by
  unfold State.markDirty
  extract_lets line d mine u
  split
  · exact .refl s
  · have hu : s.Quiet u := by
      unfold u
      split
      · split
        · exact .writeBack s _
        · exact .refl s
      · exact .refl s
    exact hu.trans (.modMem u _ rfl rfl rfl rfl)
theorem State.Quiet.dirtied (s : State) (a : Nat) : s.Quiet (s.dirtied a) := by
  unfold State.dirtied
  split
  · exact .markDirty s a
  · split
    · exact .refl s
    · exact .modMem s _ rfl rfl rfl rfl
theorem State.Quiet.track (s : State) (c : CoreId) (l : Loc) : s.Quiet (s.track c l) := by
  cases l with
  | sp h o => exact .refl s
  | pa a =>
    unfold State.track
    dsimp only
    split
    · exact .modCore s c ⟨rfl, rfl, rfl, rfl, rfl, rfl, rfl⟩ rfl rfl
    · exact .refl s
theorem State.Quiet.dropCopies (s : State) (a n : Nat) : s.Quiet (s.dropCopies a n) := by
  refine .modDies s fun x => ?_
  split <;> rfl

/-! ## Waits on a sync word (R124, R126) -/

theorem State.Quiet.readWord (s : State) (c h : CoreId) (off : Nat) : s.Quiet (s.readWord c h off) := (State.Quiet.setTimes s _ _).trans (.setLt _ _ _)
theorem State.Quiet.bindWait (s : State) (c : CoreId) (a : W64) (g : W32) : s.Quiet (s.bindWait c a g).2 := by
  unfold State.bindWait
  split
  extract_lets x
  split
  · exact .readWord s _ _ _
  · split
    · exact .readWord s _ _ _
    · exact .refl s
theorem State.Quiet.bindWaits (s : State) (h : CoreId) (hit : Nat → Bool) : s.Quiet (s.bindWaits h hit) := by
  refine State.Quiet.foldl (fun s i => State.Quiet.foldl (fun s w => ?_) _ _) _ _
  split
  · split
    · rename_i a g _ _
      have hb := State.Quiet.bindWait s (CoreId.mk' h.die i) a g
      split
      · rename_i hw
        rw [hw] at hb
        exact hb.trans (.modCore _ _ ⟨rfl, rfl, rfl, rfl, rfl, rfl, rfl⟩ rfl rfl)
      · rename_i hw
        rw [hw] at hb
        exact hb
    · exact .refl s
  · exact .refl s

end Sys2Proof.Machine
end

section
/-! PROOFS. Accesses at their homes: which bytes a store changes, in its location and in the copies of a replicated page, and what a load delivers. -/
namespace Sys2Proof.Machine

/-! ## Bytes of a location (R4, R81, R93) -/

theorem length_bytesOfNat (n v : Nat) : (bytesOfNat n v).length = n := by
  induction n generalizing v with
  | zero => rfl
  | succ n ih => rw [bytesOfNat, List.length_cons, ih]
/-- R4: byte `i` of a number. -/
theorem getElem_bytesOfNat {n v i : Nat} (hi : i < (bytesOfNat n v).length) : (bytesOfNat n v)[i] = BitVec.ofNat 8 (v / 256 ^ i) := by
  induction n generalizing v i with
  | zero => cases hi
  | succ n ih =>
    simp only [bytesOfNat] at hi ⊢
    cases i with
    | zero => simp
    | succ i => rw [List.getElem_cons_succ, ih, Nat.div_div_eq_div_mul, Nat.pow_succ']
/-- The bytes read are those of each address. -/
theorem Memory.bytes_eq_map (m : Memory) (a n : Nat) : Memory.bytes m a n = (List.range n).map fun i => Memory.read m (a + i) := by
  induction n generalizing a with
  | zero => rfl
  | succ n ih =>
    rw [Memory.bytes, ih, List.range_succ_eq_map, List.map_cons, List.map_map]
    simp only [Function.comp_def, Nat.add_zero, Nat.succ_eq_add_one, Nat.add_assoc, Nat.add_comm 1]
/-- R93: the home copy of `n` bytes is the bytes of the locations from the first up. -/
theorem State.homeBytes_eq (s : State) (l : Loc) (n : Nat) : (s.homeBytes l n).1 = (List.range n).map fun i => s.byteAt (l.plus i) := by
  cases l <;> exact Memory.bytes_eq_map _ _ _
/-- A write at a home copy leaves its bytes there. -/
theorem State.byteAt_homeWrite_in {s : State} (h : s.memWf) (l : Loc) (bs : List Byte) (bad : Bool) {i : Nat} (hi : i < bs.length) :
    (s.homeWrite l bs bad).byteAt (l.plus i) = bs[i] := by
  obtain ⟨hm, -, -, hs, -⟩ := h
  cases l with
  | pa a => exact Memory.read_writeBytes_in hm a bs hi
  | sp c o =>
    simp only [State.homeWrite, Loc.plus, State.byteAt, State.core_modCore_self]
    exact Memory.read_writeBytes_in (hs c) o bs hi
/-- A write at a home copy keeps every other byte. -/
theorem State.byteAt_homeWrite_out {s : State} (h : s.memWf) (l : Loc) (bs : List Byte) (bad : Bool) {x : Loc} (hx : ∀ i, i < bs.length → x ≠ l.plus i) :
    (s.homeWrite l bs bad).byteAt x = s.byteAt x := by
  cases l with
  | pa a => exact State.byteAt_homeWrite_pa h a bs bad x hx
  | sp c o =>
    cases x with
    | pa a => rfl
    | sp d y =>
      simp only [State.homeWrite, State.byteAt]
      by_cases hd : d = c
      · subst hd
        rw [State.core_modCore_self]
        refine Memory.read_writeBytes_out (h.2.2.2.1 d) o bs ?_
        by_contra hy
        exact hx (y - o) (by omega) (by rw [Loc.plus, Nat.add_sub_cancel' (by omega)])
      · rw [State.core_modCore_ne s _ hd]
/-- A write at a home copy keeps the frame. -/
theorem State.Frame.homeWrite (s : State) (l : Loc) (bs : List Byte) (bad : Bool) : s.Frame (s.homeWrite l bs bad) := by
  cases l with
  | pa a => exact { State.Frame.refl s with }
  | sp c o => exact .setCore s c ⟨rfl, rfl, rfl, rfl, rfl, rfl, rfl⟩
/-- A write at a home copy keeps every outstanding request. -/
theorem State.reqs_homeWrite (s : State) (l : Loc) (bs : List Byte) (bad : Bool) (c : CoreId) : ((s.homeWrite l bs bad).core c).reqs = (s.core c).reqs := by
  cases l with
  | pa a => rfl
  | sp d o =>
    by_cases hc : c = d
    · subst hc; rw [State.homeWrite, State.core_modCore_self]; rfl
    · rw [State.homeWrite, State.core_modCore_ne s _ hc]

/-! ## Loads at their homes (R93) -/

/-- R93: a load whose home answers, on the home's own die or with no copy of the line on its own, reads the home copy, and changes no byte. -/
theorem State.loadBy_home {s : State} {d : DieId} {l : Loc} (hu : s.homeUp l = true)
    (hh : s.locDie l = d ∨ ∀ a, l = .pa a → ∀ x ∈ (s.die d).copies, x.line ≠ a / 128 * 128) (count : Option DieId) (lt n : Nat) :
    ∃ lt' t, s.loadBy count d lt l n = (((s.homeBytes l n).1, (s.homeBytes l n).2, lt'), t) ∧ s.Quiet t := by
  unfold State.loadBy
  by_cases hd : s.locDie l = d
  · simp only [hu, Bool.not_true, Bool.false_eq_true, if_false, hd, if_true]
    refine ⟨_, _, rfl, .trans ?_ (.setTimes _ _ _)⟩
    cases l with
    | sp c o => exact .touch s c o n
    | pa a => exact .bringLine s count a
  · simp only [hu, Bool.not_true, Bool.false_eq_true, if_false, hd]
    cases l with
    | sp c o => exact ⟨_, _, rfl, (State.Quiet.setTimes s _ _).trans (.touch _ _ _ _)⟩
    | pa a =>
      have hc := (hh.resolve_left hd) a rfl
      have hf (p : Copy → Bool) : (s.die d).copies.find? (fun x => x.line = a / 128 * 128 && p x) = none := by
        rw [List.find?_eq_none]
        intro x hx
        simp [hc x hx]
      simp only [Bool.and_assoc, hf]
      generalize hv : State.bringLine _ count a = v
      have hq : s.Quiet v := hv ▸ (State.Quiet.evictLine s d _).trans (.trans (.setTimes _ _ _) (.trans (.modDie _ d rfl) (.bringLine _ _ _)))
      refine ⟨max lt (s.times (.pa a)).wts, v, ?_, hq⟩
      simp only [State.homeBytes, hq.mem, hq.poi]

/-! ## Replicated pages (R80, R81) -/

theorem State.Quiet.applyLog (s : State) (c : CoreId) (all : Bool) : s.Quiet (s.applyLog c all) := by
  unfold State.applyLog
  refine .trans ?_ (.modDie _ _ rfl)
  exact .setCore s c ⟨rfl, rfl, rfl, rfl, rfl, rfl, rfl⟩ rfl rfl
theorem State.Quiet.forceLog (s : State) : s.Quiet s.forceLog := State.Quiet.foldl (fun s c => .applyLog s c true) _ s
theorem State.Quiet.makeRoom (s : State) (d : DieId) : s.Quiet (s.makeRoom d) := by
  unfold State.makeRoom
  extract_lets mine due
  split
  · exact State.Quiet.foldl (fun s c => .applyLog s c true) _ s
  · exact .refl s
theorem State.Quiet.appendLog (s : State) (va size kind : Nat) (ctx : BitVec 16) : s.Quiet (s.appendLog va size kind ctx) :=
  (State.Quiet.foldl State.Quiet.makeRoom _ s).trans (.modDies _ fun _ => rfl)
/-- A page-table entry is written like 8 bytes at its home. -/
theorem State.writeLeaf_cases (s : State) (a size : Nat) (e : W64) :
    ∃ u, s.Quiet u ∧ (u.homeWrite (.pa (s.normPa a)) (bytesOfNat 8 e.toNat) false).Quiet (s.writeLeaf a size e) :=
  ⟨_, .dropCopies s _ _, .modMem _ _ rfl rfl rfl rfl⟩

/-- R80: what a write at the frame leaves in the copy of die `d`. -/
def State.mirrorTo (a : Nat) (bs : List Byte) (bad : Bool) (s : State) (d : DieId) : State :=
  let b := d.val * 0x2000000000 + a % 0x2000000000
  if b = a || !s.dieLive d then s
  else
    let s := s.dropCopies (b / 128 * 128) 128
    { s with m := { s.m with mem := Memory.writeBytes s.m.mem b bs, poi := poisonWrite s.m.poi b bs.length bad } }
theorem State.mirror_of_unshared {s : State} {a : Nat} (h : s.replicaAt a = none) (bs : List Byte) (bad : Bool) : s.mirror a bs bad = s := by
  rw [State.mirror, h]
theorem State.mirror_of_replica {s : State} {a : Nat} {q : Replica} (h : s.replicaAt a = some q) (bs : List Byte) (bad : Bool) :
    s.mirror a bs bad = (List.finRange 8).foldl (State.mirrorTo a bs bad) s := by
  rw [State.mirror, h]
  rfl
/-- R81: a collapse writes one page-table entry; past that, it changes only where accesses go and what is cached. -/
theorem State.unreplicate_keeps (s : State) (ctx : BitVec 16) (va a size : Nat) (e : W64) (frame : Nat) :
    s.Frame (s.unreplicate ctx va a size e frame) ∧ (s.memWf → (s.unreplicate ctx va a size e frame).memWf) := by
  unfold State.unreplicate
  extract_lets keep page u v off
  obtain ⟨w, hw, hl⟩ := s.writeLeaf_cases a size keep
  have hv : (w.homeWrite (.pa (s.normPa a)) (bytesOfNat 8 keep.toNat) false).Quiet v := by
    have hu : (s.writeLeaf a size keep).Quiet u := (State.Quiet.appendLog _ va size 2 ctx).trans (.forceLog _)
    refine hl.trans (hu.trans ?_)
    unfold v
    split
    · exact .refl _
    · exact .modCtx _ _ _
  have hf : s.Frame v := (hw.toFrame.trans (.homeWrite w _ _ _)).trans hv.toFrame
  refine ⟨hf.trans { State.Frame.refl v with core := fun c => ?_ }, fun hs => ?_⟩
  · simp only [State.core, Vector.getElem_map]
    split
    · exact .refl _
    · exact ⟨rfl, rfl, rfl, rfl, rfl, rfl, rfl⟩
  · obtain ⟨h1, h2, h3, h4, h5⟩ := hv.memWf (State.memWf_homeWrite (hw.memWf hs) _ _ _)
    refine ⟨h1, h2, h3, fun c => ?_, h5⟩
    simp only [State.core, Vector.getElem_map]
    split
    · exact h4 c
    · exact h4 c
/-- R81: so does one made for a write at a frame, where a page is replicated there. -/
theorem State.collapseAt_keeps (s : State) (a : Nat) : s.Frame (s.collapseAt a) ∧ (s.memWf → (s.collapseAt a).memWf) := by
  have same : s.Frame s ∧ (s.memWf → s.memWf) := ⟨.refl s, id⟩
  unfold State.collapseAt State.collapse
  split
  · split
    · split
      · exact same
      · split
        · split
          · exact s.unreplicate_keeps _ _ _ _ _ _
          · exact same
        · exact same
    · exact same
  · exact same
theorem State.collapseAt_of_unshared {s : State} {a : Nat} (h : s.replicaAt a = none) : s.collapseAt a = s := by
  rw [State.collapseAt, h]
/-- Where no page is replicated, none is at a frame. -/
theorem State.replicaAt_of_unshared {s : State} {a : Nat} (h : s.unshared (.pa a)) : s.replicaAt a = none := by
  rw [State.replicaAt, List.find?_eq_none]
  intro q hq hp
  exact h a rfl q hq (by simpa using hp)

/-- R80: the copy of a die in service other than the frame's own is written like the frame itself. -/
theorem State.mirrorTo_of_live {s : State} {a : Nat} {d : DieId} (hb : d.val * 0x2000000000 + a % 0x2000000000 ≠ a) (hd : s.dieLive d = true) (bs : List Byte) (bad : Bool) :
    ∃ u, s.Quiet u ∧ State.mirrorTo a bs bad s d = u.homeWrite (.pa (d.val * 0x2000000000 + a % 0x2000000000)) bs bad := by
  simp only [State.mirrorTo, hb, hd, Bool.not_true, decide_false, Bool.or_self, Bool.false_eq_true, if_false]
  exact ⟨_, .dropCopies s _ _, rfl⟩
/-- R80: a die's copy is written like the frame itself, or not at all. -/
theorem State.mirrorTo_cases (a : Nat) (bs : List Byte) (bad : Bool) (s : State) (d : DieId) :
    State.mirrorTo a bs bad s d = s ∨ d.val * 0x2000000000 + a % 0x2000000000 ≠ a ∧
      ∃ u, s.Quiet u ∧ State.mirrorTo a bs bad s d = u.homeWrite (.pa (d.val * 0x2000000000 + a % 0x2000000000)) bs bad := by
  by_cases hb : d.val * 0x2000000000 + a % 0x2000000000 = a
  · exact .inl (by simp [State.mirrorTo, hb])
  · cases hd : s.dieLive d with
    | true => exact .inr ⟨hb, State.mirrorTo_of_live hb hd bs bad⟩
    | false => exact .inl (by simp [State.mirrorTo, hd])
theorem State.Frame.mirrorTo (a : Nat) (bs : List Byte) (bad : Bool) (s : State) (d : DieId) : s.Frame (State.mirrorTo a bs bad s d) := by
  obtain he | ⟨-, u, hu, he⟩ := State.mirrorTo_cases a bs bad s d
  · rw [he]; exact .refl s
  · rw [he]; exact hu.toFrame.trans (.homeWrite u _ _ _)
theorem State.memWf_mirrorTo {s : State} (hs : s.memWf) (a : Nat) (bs : List Byte) (bad : Bool) (d : DieId) : (State.mirrorTo a bs bad s d).memWf := by
  obtain he | ⟨-, u, hu, he⟩ := State.mirrorTo_cases a bs bad s d
  · rw [he]; exact hs
  · rw [he]; exact State.memWf_homeWrite (hu.memWf hs) _ _ _
/-- R80: the writes of the other dies' copies keep the frame. -/
theorem State.Frame.mirror (s : State) (a : Nat) (bs : List Byte) (bad : Bool) : s.Frame (s.mirror a bs bad) := by
  cases h : s.replicaAt a with
  | none => rw [State.mirror_of_unshared h]; exact .refl s
  | some q => rw [State.mirror_of_replica h]; exact State.Frame.foldl (.mirrorTo a bs bad) _ s
/-- A byte that the copies written do not take in is kept. -/
theorem State.byteAt_mirrorTo_foldl {s : State} (hs : s.memWf) {a : Nat} {bs : List Byte} {bad : Bool} {x : Loc} {ds : List DieId}
    (hx : ∀ d ∈ ds, d.val * 0x2000000000 + a % 0x2000000000 ≠ a → ∀ i, i < bs.length → x ≠ .pa (d.val * 0x2000000000 + a % 0x2000000000 + i)) :
    (ds.foldl (State.mirrorTo a bs bad) s).byteAt x = s.byteAt x := by
  induction ds generalizing s with
  | nil => rfl
  | cons d ds ih =>
    rw [List.foldl_cons]
    obtain he | ⟨hb, u, hu, he⟩ := State.mirrorTo_cases a bs bad s d
    · rw [he]
      exact ih hs fun e hm => hx e (List.mem_cons_of_mem _ hm)
    · rw [he, ih (State.memWf_homeWrite (hu.memWf hs) _ _ _) fun e hm => hx e (List.mem_cons_of_mem _ hm),
        State.byteAt_homeWrite_out (hu.memWf hs) _ _ _ (hx d List.mem_cons_self hb), hu.byteAt]
/-- R80: the copies of a write no wider than a die's slot lie outside it. -/
theorem State.byteAt_mirror_in {s : State} (hs : s.memWf) {a : Nat} {bs : List Byte} (bad : Bool) (hn : bs.length ≤ 0x2000000000) {i : Nat} (hi : i < bs.length) :
    (s.mirror a bs bad).byteAt (.pa (a + i)) = s.byteAt (.pa (a + i)) := by
  cases h : s.replicaAt a with
  | none => rw [State.mirror_of_unshared h]
  | some q =>
    rw [State.mirror_of_replica h]
    refine State.byteAt_mirrorTo_foldl hs fun d _ hb j hj he => ?_
    simp only [Loc.pa.injEq] at he
    omega
/-- R80: what the copy on the last die holds, where that die is in service and is not the frame's own. -/
theorem State.byteAt_mirror_last {s : State} (hs : s.memWf) {a : Nat} {q : Replica} (h : s.replicaAt a = some q) (hd : s.dieLive 7 = true)
    (hb : 7 * 0x2000000000 + a % 0x2000000000 ≠ a) {bs : List Byte} (bad : Bool) {i : Nat} (hi : i < bs.length) :
    (s.mirror a bs bad).byteAt (.pa (7 * 0x2000000000 + a % 0x2000000000 + i)) = bs[i] := by
  have hl : List.finRange 8 = [0, 1, 2, 3, 4, 5, 6] ++ [7] := by decide
  rw [State.mirror_of_replica h, hl, List.foldl_append, List.foldl_cons, List.foldl_nil]
  generalize hu : List.foldl (State.mirrorTo a bs bad) s [0, 1, 2, 3, 4, 5, 6] = u
  have hf : s.Frame u := hu ▸ State.Frame.foldl (.mirrorTo a bs bad) _ s
  have hw : u.memWf := hu ▸ List.foldlRecOn _ _ hs fun _ h d _ => State.memWf_mirrorTo h a bs bad d
  obtain ⟨v, hv, he⟩ := State.mirrorTo_of_live (d := 7) hb (hf.dieLive 7 ▸ hd) bs bad
  rw [he]
  exact State.byteAt_homeWrite_in (hv.memWf hw) (.pa _) bs bad hi

/-! ## Stores at their homes (R81, R93, R126) -/

/-- R81: what a write to a location first makes of a replicated page there. -/
def State.collapseFor (s : State) : Loc → State
  | .pa a => s.collapseAt a
  | .sp _ _ => s
/-- R80: what a write to a location leaves in the copies of a page that stays replicated. -/
def State.mirrorFor (s : State) (l : Loc) (bs : List Byte) (bad : Bool) : State :=
  match l with
  | .pa a => s.mirror a bs bad
  | .sp _ _ => s

theorem State.collapseFor_keeps (s : State) (l : Loc) : s.Frame (s.collapseFor l) ∧ (s.memWf → (s.collapseFor l).memWf) := by
  cases l with
  | pa a => exact s.collapseAt_keeps a
  | sp c o => exact ⟨.refl s, id⟩
theorem State.collapseFor_of_unshared {s : State} {l : Loc} (h : s.unshared l) : s.collapseFor l = s := by
  cases l with
  | pa a => exact State.collapseAt_of_unshared (State.replicaAt_of_unshared h)
  | sp c o => rfl
theorem State.Frame.mirrorFor (s : State) (l : Loc) (bs : List Byte) (bad : Bool) : s.Frame (s.mirrorFor l bs bad) := by
  cases l with
  | pa a => exact .mirror s a bs bad
  | sp c o => exact .refl s
theorem State.mirrorFor_of_unshared {s : State} {l : Loc} (h : s.unshared l) (bs : List Byte) (bad : Bool) : s.mirrorFor l bs bad = s := by
  cases l with
  | pa a => exact State.mirror_of_unshared (State.replicaAt_of_unshared h) bs bad
  | sp c o => rfl
theorem State.byteAt_mirrorFor_in {s : State} (hs : s.memWf) (l : Loc) {bs : List Byte} (bad : Bool) (hn : bs.length ≤ 0x2000000000) {i : Nat} (hi : i < bs.length) :
    (s.mirrorFor l bs bad).byteAt (l.plus i) = s.byteAt (l.plus i) := by
  cases l with
  | pa a => exact State.byteAt_mirror_in hs bad hn hi
  | sp c o => rfl

/-- R78, R279: what is noted of a write of memory: its line in a migration's bitmap, and among the dirty ones. -/
def State.noteWritten (s : State) (a : Nat) : State := ({ s with m := { s.m with migs := migMark s.m.migs a } } : State).dirtied a
theorem State.Quiet.noteWritten (s : State) (a : Nat) : s.Quiet (s.noteWritten a) := by
  unfold State.noteWritten
  refine .trans ?_ (.dirtied _ a)
  exact .modMem s _ rfl rfl rfl rfl
/-- R93: a store whose home answers: a replicated page collapses, the home copy is written, the copies of a page that stays replicated are, and all else
is quiet. -/
theorem State.storeAt_parts {s : State} {l : Loc} (hu : s.homeUp l = true) (d : DieId) (ctx : BitVec 16) (lt : Nat) (bs : List Byte) (bad : Bool) :
    ∃ u v, (s.collapseFor l).Quiet u ∧ (u.homeWrite l bs bad).Quiet v ∧ (v.mirrorFor l bs bad).Quiet (s.storeAt d ctx lt l bs bad).2 := by
  cases l with
  | sp c o =>
    simp only [State.storeAt, State.storeRaw, hu, Bool.not_true, Bool.false_eq_true, if_false]
    exact ⟨_, _, .setTimes s _ _, .modCtx _ _ _, .bindWaits _ _ _⟩
  | pa a =>
    let c := (s.collapseAt a).cacheLine d a
    let ts := max lt ((c.times (.pa a)).rts + 1)
    let u := c.setTimes (.pa a) ⟨ts, ts⟩
    have he : (s.storeAt d ctx lt (.pa a) bs bad).2 = (((u.homeWrite (.pa a) bs bad).noteWritten a).mirror a bs bad).modCtx ctx fun x => { x with wd := 0 } := by
      rw [State.storeAt_pa, State.storeRaw, hu]
      rfl
    rw [he]
    exact ⟨u, _, .trans (.bringLine _ (some d) a) (.setTimes c _ _), .noteWritten _ a, .modCtx _ _ _⟩

section
variable {s : State} {l : Loc} (hu : s.homeUp l = true) (d : DieId) (ctx : BitVec 16) (lt : Nat) (bs : List Byte) (bad : Bool)
include hu

/-- A store keeps the frame. -/
theorem State.Frame.storeAt : s.Frame (s.storeAt d ctx lt l bs bad).2 := by
  obtain ⟨u, v, h1, h2, h3⟩ := State.storeAt_parts hu d ctx lt bs bad
  exact (s.collapseFor_keeps l).1.trans <| h1.toFrame.trans <| (State.Frame.homeWrite u l bs bad).trans <| h2.toFrame.trans <|
    (State.Frame.mirrorFor v l bs bad).trans h3.toFrame
/-- A store no wider than a die's slot leaves its bytes at its location. -/
theorem State.byteAt_storeAt_in (hs : s.memWf) (hn : bs.length ≤ 0x2000000000) {i : Nat} (hi : i < bs.length) :
    (s.storeAt d ctx lt l bs bad).2.byteAt (l.plus i) = bs[i] := by
  obtain ⟨u, v, h1, h2, h3⟩ := State.storeAt_parts hu d ctx lt bs bad
  have hw : u.memWf := h1.memWf ((s.collapseFor_keeps l).2 hs)
  have hv : v.memWf := h2.memWf (State.memWf_homeWrite hw l bs bad)
  rw [h3.byteAt, State.byteAt_mirrorFor_in hv l bad hn hi, h2.byteAt, State.byteAt_homeWrite_in hw l bs bad hi]
/-- Outside every replicated page a store is one write of the home copy, and all else is quiet. -/
theorem State.storeAt_unshared (h : s.unshared l) : ∃ u, s.Quiet u ∧ (u.homeWrite l bs bad).Quiet (s.storeAt d ctx lt l bs bad).2 := by
  obtain ⟨u, v, h1, h2, h3⟩ := State.storeAt_parts hu d ctx lt bs bad
  rw [State.collapseFor_of_unshared h] at h1
  have hr : v.fw.replicas = s.fw.replicas := by
    refine h2.replicas.trans (.trans ?_ h1.replicas)
    cases l <;> rfl
  have hv : v.unshared l := by
    intro a e
    rw [hr]
    exact h a e
  rw [State.mirrorFor_of_unshared hv] at h3
  exact ⟨u, h1, h2.trans h3⟩
/-- R80: a store to a page that stays replicated leaves its bytes in the copy on the last die too, where that die is in service and is not the frame's own. -/
theorem State.byteAt_storeAt_mirrored {a : Nat} (hl : l = .pa a) (hs : s.memWf) {q : Replica} (hr : s.replicaAt a = some q) (hc : s.collapseAt a = s)
    (h7 : s.dieLive 7 = true) (hb : 7 * 0x2000000000 + a % 0x2000000000 ≠ a) {i : Nat} (hi : i < bs.length) :
    (s.storeAt d ctx lt l bs bad).2.byteAt (.pa (7 * 0x2000000000 + a % 0x2000000000 + i)) = bs[i] := by
  obtain ⟨u, v, h1, h2, h3⟩ := State.storeAt_parts hu d ctx lt bs bad
  subst hl
  simp only [State.collapseFor, hc] at h1
  have hv : v.memWf := h2.memWf (State.memWf_homeWrite (h1.memWf hs) _ bs bad)
  have hf : s.Frame v := (h1.toFrame.trans (.homeWrite u _ bs bad)).trans h2.toFrame
  have hrv : v.replicaAt a = some q := (h2.replicaAt a).trans ((h1.replicaAt a).trans hr)
  rw [h3.byteAt]
  exact State.byteAt_mirror_last hv hrv ((hf.dieLive 7).trans h7) hb bad hi

end

/-! ## Requests performed (R93, R97) -/

/-- R93: the request that is performed leaves the list of its core. -/
theorem State.Frame.dropReq (s : State) (c : CoreId) (q : Nat) : s.Frame (s.dropReq c q) := .setCore s c ⟨rfl, rfl, rfl, rfl, rfl, rfl, rfl⟩
theorem State.byteAt_dropReq (s : State) (c : CoreId) (q : Nat) (l : Loc) : (s.dropReq c q).byteAt l = s.byteAt l := (s.sameBytes_modCore c rfl).1 l
theorem State.poison_dropReq (s : State) (c : CoreId) (q : Nat) (l : Loc) (n : Nat) : ((s.dropReq c q).homeBytes l n).2 = (s.homeBytes l n).2 := by
  cases l with
  | pa a => rfl
  | sp d o =>
    by_cases hd : d = c
    · subst hd; simp [State.homeBytes, State.dropReq]
    · simp [State.homeBytes, State.dropReq, State.core_modCore_ne s _ hd]

/-- The list of the core's requests, once one is performed. -/
theorem State.reqs_dropReq (s : State) (q : Nat) : ((s.dropReq s.cur q).core s.cur).reqs = s.me.reqs.filter fun r => decide (r.seq ≠ q) :=
  congrArg Core.reqs (s.core_modCore_self s.cur _)

/-- R112, R283: a request that is ready is performed; while no switch holds a write, none is released with it. -/
theorem State.performThere_of_ready {s : State} {c : CoreId} {r : Req} {l : Loc} (hh : s.m.held = []) (hr : s.reqReady c r l = true) :
    s.performThere c r l = (s.dropReq c r.seq).performAt c r l := by
  have hn : s.m.held.filter (fun h => !(h.core = c && h.req.seq = r.seq)) = s.m.held := by rw [hh]; rfl
  simp only [State.performThere, hr, if_true, hn]
/-- R93, R97: a request that nothing stands before is performed at its location. -/
theorem State.performReq_of_performs {s : State} {n : Nat} {r : Req} {l : Loc} (h : s.performs n r l) :
    s.performReq s.cur r.seq = (s.dropReq s.cur r.seq).performAt s.cur r l := by
  obtain ⟨-, hfind, hafter, hclass, hheld, hfilter, hready, -, -⟩ := h
  have hc : ((r.cls == 0 || r.op.isAtomic) && (s.me.pipe.owesBefore 0 r.pos || s.me.drainBefore r || s.me.getBefore r.pos r.seq)) = false := by
    cases hk : r.cls == 0 || r.op.isAtomic with
    | false => rfl
    | true => obtain ⟨h1, h2, h3⟩ := hclass hk; rw [h1, h2, h3]; rfl
  simp only [State.me] at hfind hafter hc
  simp only [State.performReq, hheld, List.isEmpty_nil, if_true, hfind, hafter, hc, Bool.false_eq_true, if_false, hfilter]
  exact State.performThere_of_ready hheld hready
/-- R93: HOME_ACCESS performs the request of a place in the list. -/
theorem exec_homeAccess_of_performs {s : State} {n : Nat} {r : Req} {l : Loc} (h : s.performs n r l) :
    exec (.homeAccess n) s = .next ((s.dropReq s.cur r.seq).performAt s.cur r l).endOwed := by
  rw [← State.performReq_of_performs h]
  obtain ⟨hr, -, -, -, -, -, -, -, hphase⟩ := h
  show execHomeAccess n s = _
  simp [execHomeAccess, hr, hphase]

/-! ## A load of the current core (R93, R180) -/

section
variable {s : State} (f : BitVec 10)

/-- A completion while nothing is deferred writes its register at once. -/
theorem State.pipe_complete_of_none (h : s.pipe.wq = none) (v : Val) : (s.complete s.cur f v).pipe = { s.pipe with regs := s.pipe.regs.put f v, wq := none } := by
  refine (State.pipe_modPipe s _).trans ?_
  rw [h]
/-- One among deferred writes joins them. -/
theorem State.pipe_complete_of_some {w : List (Nat × RegWrite)} (h : s.pipe.wq = some w) (v : Val) :
    (s.complete s.cur f v).pipe = { s.pipe with wq := some (putCompletion f v w) } := by
  refine (State.pipe_modPipe s _).trans ?_
  rw [h]
/-- A timestamp noted while nothing is deferred stands beside the registers. -/
theorem State.pipe_noteFill_of_none (h : s.pipe.wq = none) (ts : Nat) : (s.noteFill s.cur f ts).pipe = s.pipe.apply (.fill f ts) := by
  refine (State.pipe_modPipe s _).trans ?_
  rw [h]
/-- One among deferred writes joins them. -/
theorem State.pipe_noteFill_of_some {w : List (Nat × RegWrite)} (h : s.pipe.wq = some w) (ts : Nat) :
    (s.noteFill s.cur f ts).pipe = { s.pipe with wq := some (putFill f ts w) } := by
  refine (State.pipe_modPipe s _).trans ?_
  rw [h]
/-- A value brought from outside the bundles reaches its register, beside the timestamp of its access. -/
theorem State.receives_complete (v : Val) (ts : Nat) : s.receives ((s.complete s.cur f v).noteFill s.cur f ts) f v := by
  unfold State.receives
  cases hq : s.pipe.wq with
  | none =>
    have hc := State.pipe_complete_of_none f hq v
    have hn := State.pipe_noteFill_of_none (s := s.complete s.cur f v) f (by rw [hc]) ts
    rw [State.complete_cur, hc] at hn
    rw [hn]
    exact ⟨rfl, rfl⟩
  | some w =>
    have hc := State.pipe_complete_of_some f hq v
    have hn := State.pipe_noteFill_of_some (s := s.complete s.cur f v) f (by rw [hc]) ts
    rw [State.complete_cur, hc] at hn
    rw [hn]
    exact ⟨rfl, .inr ⟨ts, rfl⟩⟩

end

/-- What the current core receives does not depend on what an access keeps. -/
theorem State.Frame.receives {s t u : State} (h : s.Frame t) {f : BitVec 10} {v : Val} (ht : t.receives u f v) : s.receives u f v := by
  have hr : t.pipe.regs = s.pipe.regs := by rw [State.pipe, State.me, h.cur]; exact (h.core _).regs
  have hw : t.pipe.wq = s.pipe.wq := by rw [State.pipe, State.me, h.cur]; exact (h.core _).wq
  simpa only [State.receives, hr, hw] using ht
/-- A register received, and its timestamp, are all of the pipeline that change: each core's scratchpad, requests and task stay. -/
theorem State.core_complete (s : State) (c d : CoreId) (f : BitVec 10) (v : Val) (ts : Nat) :
    ∃ p, ((s.complete c f v).noteFill c f ts).core d = { s.core d with pipe := p } := by
  by_cases hd : d = c
  · subst hd
    exact ⟨_, (State.core_modCore_self _ _ _).trans (by rw [State.complete, State.modPipeOf, State.core_modCore_self])⟩
  · exact ⟨_, (State.core_modCore_ne _ _ hd).trans (State.core_modCore_ne s _ hd)⟩
/-- No byte changes with it. -/
theorem State.byteAt_complete (s : State) (c : CoreId) (f : BitVec 10) (v : Val) (ts : Nat) (x : Loc) :
    ((s.complete c f v).noteFill c f ts).byteAt x = s.byteAt x := by
  cases x with
  | pa a => rfl
  | sp d o =>
    obtain ⟨p, hc⟩ := s.core_complete c d f v ts
    simp only [State.byteAt, hc]

/-! ## What HOME_ACCESS does (R93, R306) -/

/-- R93: a load performed at its home delivers the home copy, and is quiet besides. -/
theorem State.performAt_load {s : State} {c : CoreId} {r : Req} {l : Loc} {sg : Bool} (ho : r.op = .load sg) (hu : s.homeUp l = true)
    (hh : s.locDie l = c.die ∨ ∀ a, l = .pa a → ∀ x ∈ (s.die c.die).copies, x.line ≠ a / 128 * 128) :
    ∃ t ts, s.Quiet t ∧ s.performAt c r l =
      (t.complete c r.dsel (.sc ⟨extend r.size sg (natOfBytes (s.homeBytes l r.size).1), (s.homeBytes l r.size).2⟩)).noteFill c r.dsel ts := by
  obtain ⟨lt, t, hl, ht⟩ := State.loadBy_home hu hh (some c.die) ((s.core c).lt[r.cls.toNat]'(by omega)) r.size
  refine ⟨_, lt, ht.trans (.setLt t c ((s.core c).lt.set r.cls.toNat lt (by omega))), ?_⟩
  simp only [State.performAt, ho, State.loadAt, hl]
/-- R93: a store performed at its home is the store of its bytes, and quiet besides. -/
theorem State.performAt_store {s : State} {c : CoreId} {r : Req} {l : Loc} (ho : r.op = .store) :
    ∃ lt, (s.storeAt c.die (s.core c).task.ctx lt l (bytesOfNat r.size r.data.val.toNat) r.data.poi).2.Quiet (s.performAt c r l) := by
  refine ⟨(s.core c).lt[r.cls.toNat]'(by omega), ?_⟩
  simp only [State.performAt, ho]
  exact (State.Quiet.setLt _ _ _).trans (.track _ _ _)

/-- R93: so HOME_ACCESS of a store is the store of its bytes, once the request has left the list, and quiet besides. -/
theorem exec_homeAccess_store {s : State} {n : Nat} {r : Req} {l : Loc} (hp : s.performs n r l) (ho : r.op = .store) :
    ∃ lt t, let u := s.dropReq s.cur r.seq
      exec (.homeAccess n) s = .next t.endOwed ∧ s.Frame t
      ∧ (u.storeAt s.cur.die (u.core s.cur).task.ctx lt l (bytesOfNat r.size r.data.val.toNat) r.data.poi).2.Quiet t := by
  have hx := exec_homeAccess_of_performs hp
  obtain ⟨-, -, -, -, -, -, -, hu, -⟩ := hp
  have hu' : (s.dropReq s.cur r.seq).homeUp l = true := hu
  obtain ⟨lt, hq⟩ := (s.dropReq s.cur r.seq).performAt_store (c := s.cur) (l := l) ho
  exact ⟨lt, _, hx, ((State.Frame.dropReq s s.cur r.seq).trans (.storeAt hu' _ _ _ _ _)).trans hq.toFrame, hq⟩

/-! ## The obligations -/

/-- Settles O23: nothing but times, caches and bank use changes before the register receives what the home copy holds. -/
theorem homeLoadReturnsBytes : Obligations.HomeLoadReturnsBytes := by
  unfold Obligations.HomeLoadReturnsBytes
  intro s n r l sg hp ho hh
  have hx := exec_homeAccess_of_performs hp
  obtain ⟨-, -, -, -, -, -, -, hu, -⟩ := hp
  have hd : s.Frame (s.dropReq s.cur r.seq) := .dropReq s s.cur r.seq
  obtain ⟨u, ts, hq, he⟩ := State.performAt_load (s := s.dropReq s.cur r.seq) (c := s.cur) ho hu hh
  have hf : s.Frame u := hd.trans hq.toFrame
  have hb (x : Loc) : (s.dropReq s.cur r.seq).byteAt x = s.byteAt x := s.byteAt_dropReq s.cur r.seq x
  have hpoi : ((s.dropReq s.cur r.seq).homeBytes l r.size).2 = (s.homeBytes l r.size).2 := s.poison_dropReq s.cur r.seq l r.size
  simp only [State.homeBytes_eq, hb, hpoi] at he
  rw [he] at hx
  refine ⟨_, hx, fun h => State.endOwed_of_owesNone (State.owesNone_of_task (fun c => ?tasks) h), ?bytes, hf.receives ?received, ?requests⟩
  case tasks =>
    obtain ⟨p, hc⟩ := u.core_complete s.cur c r.dsel _ ts
    rw [hc]
    exact (hf.core c).task
  case bytes =>
    refine ⟨fun x => ?_, fun a => by rw [← hf.host]; rfl, fun a => by rw [← hf.pmem]; rfl⟩
    rw [State.byteAt_complete, hq.byteAt, hb]
  case received =>
    rw [← hf.cur]
    exact u.receives_complete _ _ _
  case requests =>
    obtain ⟨p, hc⟩ := u.core_complete s.cur s.cur r.dsel _ ts
    rw [State.me, State.noteFill_cur, State.complete_cur, hf.cur, hc, ← State.reqs_dropReq]
    exact hq.reqs s.cur

/-- A store performed at its home does what the obligation HomeStoreWritesBytes says where it is no wider than a die's slot of memory (R61), as every access that a move requests is
(R180): then the copies of a page that stays replicated lie outside its location. -/
theorem homeStoreWritesBytes_of_size_le {s : State} {n : Nat} {r : Req} {l : Loc} (hs : s.memWf) (hp : s.performs n r l) (ho : r.op = .store)
    (hn : r.size ≤ 0x2000000000) :
    ∃ t, exec (.homeAccess n) s = .next t.endOwed ∧ (s.owesNone → t.endOwed = t)
      ∧ (∀ i, i < r.size → t.byteAt (l.plus i) = BitVec.ofNat 8 (r.data.val.toNat / 256 ^ i))
      ∧ (∀ a, Memory.read t.m.host a = Memory.read s.m.host a) ∧ (∀ a, Memory.read t.m.pmem a = Memory.read s.m.pmem a) ∧ (∀ c, sameArch s t c)
      ∧ (s.unshared l → (∀ x, (∀ i, i < r.size → x ≠ l.plus i) → t.byteAt x = s.byteAt x)
        ∧ t.me.reqs = s.me.reqs.filter fun q => decide (q.seq ≠ r.seq)) := by
  obtain ⟨lt, t, hx, hf, hq⟩ := exec_homeAccess_store hp ho
  obtain ⟨-, -, -, -, -, -, -, hu, -⟩ := hp
  have hu' : (s.dropReq s.cur r.seq).homeUp l = true := hu
  have hw : (s.dropReq s.cur r.seq).memWf := State.memWf_modCore hs s.cur _ rfl
  have hlen := length_bytesOfNat r.size r.data.val.toNat
  refine ⟨t, hx, hf.endOwed, fun i hi => ?written, fun a => by rw [hf.host], fun a => by rw [hf.pmem], hf.sameArch, fun hsh => ?others⟩
  case written =>
    rw [hq.byteAt, State.byteAt_storeAt_in hu' _ _ _ _ _ hw (hlen.le.trans hn) (by rwa [hlen]), getElem_bytesOfNat]
  case others =>
    obtain ⟨u, hsu, hut⟩ := State.storeAt_unshared hu' _ _ _ _ _ hsh
    refine ⟨fun x hx => ?_, ?_⟩
    · rw [hq.byteAt, hut.byteAt, State.byteAt_homeWrite_out (hsu.memWf hw) l _ _ (by rwa [hlen]), hsu.byteAt, State.byteAt_dropReq]
    · rw [State.me, hf.cur, hq.reqs, hut.reqs, State.reqs_homeWrite, hsu.reqs, State.reqs_dropReq]

/-- A store of the value 1 to the first `k` bytes of die 6's slot of memory. -/
def slotStore (k : Nat) : Req := ⟨0, 0, .store, .pa 0xC000000000, k, ⟨1, false⟩, ⟨0, false⟩, 0, none⟩
/-- The machine after reset with a replicated page at that slot's first byte, of a context that does not exist, so that nothing collapses it. -/
def slotReplicated : State := { State.reset with fw := { State.reset.fw with replicas := [⟨1, 0, 0, 0xC000000000⟩] } }
/-- That machine with the store outstanding on core 0. -/
def slotStored (k : Nat) : State := slotReplicated.modMe fun c => { c with reqs := [slotStore k] }

theorem slotStored_memWf (k : Nat) : (slotStored k).memWf := by
  have h : slotReplicated.memWf := by
    unfold State.memWf
    and_intros <;> decide +kernel
  exact State.memWf_modCore h _ _ rfl
theorem slotStored_owesNone (k : Nat) : (slotStored k).owesNone := by
  have h : slotReplicated.owesNone := by
    unfold State.owesNone
    decide +kernel
  have hf : slotReplicated.Frame (slotStored k) := .setCore _ _ ⟨rfl, rfl, rfl, rfl, rfl, rfl, rfl⟩
  exact State.owesNone_of_task (fun c => (hf.core c).task) h
theorem slotStored_performs (k : Nat) : (slotStored k).performs 0 (slotStore k) (.pa 0xC000000000) :=
  ⟨by rfl, by rfl, by rfl, fun _ => ⟨by rfl, by rfl, by rfl⟩, by rfl, by rfl, by rfl, by rfl, (by decide : Phase.bringUp ≠ .dusk)⟩

/-- Of 8 bytes, that store leaves its bytes at its location. -/
theorem slotStored_eight_written : ∃ t, exec (.homeAccess 0) (slotStored 8) = .next t ∧ ∀ i, i < 8 → t.byteAt (.pa (0xC000000000 + i)) = BitVec.ofNat 8 (1 / 256 ^ i) := by
  obtain ⟨t, ht, howes, hbytes, -⟩ := homeStoreWritesBytes_of_size_le (slotStored_memWf 8) (slotStored_performs 8) rfl (by decide)
  exact ⟨t, by rw [ht, howes (slotStored_owesNone 8)], hbytes⟩

/-- Refutes O22: no bound is put on the size of a request. A store to a page that stays replicated is repeated in the other dies' copies (R80), `2^37` bytes
apart, so a store of `2^37 + 1` bytes at die 6's copy has its byte `2^37` overwritten by its own first byte, at die 7's. -/
theorem not_homeStoreWritesBytes : ¬ Obligations.HomeStoreWritesBytes := by
  unfold Obligations.HomeStoreWritesBytes
  intro h
  obtain ⟨k, hk⟩ : ∃ k, k = 0x2000000000 := ⟨_, rfl⟩
  have hw := slotStored_memWf (k + 1)
  have ho := slotStored_owesNone (k + 1)
  have hr := slotStored_performs (k + 1)
  obtain ⟨t, ht, howes, hbytes, -⟩ := h _ _ _ _ hw hr rfl
  obtain ⟨lt, p, hp, hf, hq⟩ := exec_homeAccess_store hr rfl
  have htp : t = p := by
    rw [ht, Host.Outcome.next.injEq, howes ho, hf.endOwed ho] at hp
    exact hp
  have hn : 0 < (bytesOfNat (slotStore (k + 1)).size 1).length := by
    rw [length_bytesOfNat]
    exact Nat.succ_pos k
  have hcopy : t.byteAt (.pa (7 * 0x2000000000 + 0xC000000000 % 0x2000000000 + 0)) = BitVec.ofNat 8 (1 / 256 ^ 0) := by
    rw [htp, hq.byteAt]
    refine (State.byteAt_storeAt_mirrored (by rfl) _ _ _ _ _ rfl (State.memWf_modCore hw _ _ rfl) (by rfl) (by rfl) (by rfl) (by decide) hn).trans ?_
    exact getElem_bytesOfNat hn
  have hown : t.byteAt (.pa (0xC000000000 + k)) = BitVec.ofNat 8 (1 / 256 ^ k) := hbytes k (Nat.lt_succ_self k)
  rw [Nat.div_eq_of_lt (Nat.one_lt_pow (by omega) (by decide)), hk] at hown
  exact absurd (hown.symm.trans hcopy) (by decide)

end Sys2Proof.Machine
end

section
/-! PROOFS. Sync words: what an arrival makes of one, and how one is written and read. -/
namespace Sys2Proof.Machine

/-! ## Arrivals at a word (R122, R123) -/

section
variable {x : SyncWord} {w : Nat}

/-- R123: weight 0 changes a word that has not overflowed in nothing. -/
theorem SyncWord.arrive_zero (ho : x.ovf = false) : x.arrive 0 = x := by
  simp [SyncWord.arrive, ho]
/-- R123: at a word that has overflowed only COUNT changes. -/
theorem SyncWord.arrive_overflowed (ho : x.ovf = true) : x.arrive w = { x with count := min (x.count + w) 0xFFFFFFFF } := by
  simp [SyncWord.arrive, ho]
/-- R123: below TARGET the weight joins COUNT. -/
theorem SyncWord.arrive_below (ho : x.ovf = false) (hw : w ≠ 0) (hc : x.count + w < x.target) : x.arrive w = { x with count := x.count + w } := by
  simp [SyncWord.arrive, ho, hw, hc.ne, Nat.not_lt.2 hc.le]
/-- R123: at TARGET the generation completes. -/
theorem SyncWord.arrive_reaches (ho : x.ovf = false) (hw : w ≠ 0) (hc : x.count + w = x.target) :
    x.arrive w = { x with gen := (x.gen + 1) % 2 ^ 32, count := if x.arm then 0 else x.target } := by
  simp [SyncWord.arrive, ho, hw, hc]
/-- R123: past TARGET the word overflows. -/
theorem SyncWord.arrive_passes (ho : x.ovf = false) (hw : w ≠ 0) (hc : x.target < x.count + w) :
    x.arrive w = { x with flags := x.flags ||| 2, count := min (x.count + w) 0xFFFFFFFF } := by
  simp [SyncWord.arrive, ho, hw, hc, hc.ne']
/-- OVF set is read as set. -/
theorem SyncWord.ovf_setOvf (n : Nat) : ({ x with flags := x.flags ||| 2, count := n } : SyncWord).ovf = true := by
  simp [SyncWord.ovf]

/-- The fields of a word as Table 5.6 has room for them, with every reserved bit 0. -/
structure SyncWord.Fits (x : SyncWord) : Prop where
  target : x.target < 2 ^ 32
  count : x.count < 2 ^ 32
  gen : x.gen < 2 ^ 32
  flags : x.flags.toNat < 16

/-- An arrival keeps the fields within their room. -/
theorem SyncWord.Fits.arrive (h : x.Fits) (w : Nat) : (x.arrive w).Fits := by
  obtain ⟨ht, hc, hg, hf⟩ := h
  have hsat : min (x.count + w) 0xFFFFFFFF < 2 ^ 32 := by omega
  cases ho : x.ovf with
  | true => rw [arrive_overflowed ho]; exact ⟨ht, hsat, hg, hf⟩
  | false =>
    rcases Nat.eq_zero_or_pos w with rfl | hw
    · rw [arrive_zero ho]; exact ⟨ht, hc, hg, hf⟩
    rcases Nat.lt_trichotomy (x.count + w) x.target with hlt | heq | hgt
    · rw [arrive_below ho hw.ne' hlt]; exact ⟨ht, hlt.trans ht, hg, hf⟩
    · rw [arrive_reaches ho hw.ne' heq]
      refine ⟨ht, ?_, Nat.mod_lt _ (by decide), hf⟩
      dsimp only
      split
      · decide
      · exact ht
    · rw [arrive_passes ho hw.ne' hgt]
      refine ⟨ht, hsat, hg, ?_⟩
      rw [BitVec.toNat_or]
      exact Nat.or_lt_two_pow (n := 4) hf (by decide)

end

/-! ## Words in memory (R4, Table 5.6) -/

/-- R4: the bytes of a number are that number, as far as they hold it. -/
theorem natOfBytes_bytesOfNat (n v : Nat) : natOfBytes (bytesOfNat n v) = v % 256 ^ n := by
  induction n generalizing v with
  | zero => simp [bytesOfNat, natOfBytes, Nat.mod_one]
  | succ n ih =>
    rw [bytesOfNat, natOfBytes, ih, BitVec.toNat_ofNat, Nat.pow_succ' (m := 256)]
    exact Nat.mod_mul.symm
/-- R4: `n` bytes make a number below `256 ^ n`. -/
theorem natOfBytes_lt (bs : List Byte) : natOfBytes bs < 256 ^ bs.length := by
  induction bs with
  | nil => exact Nat.one_pos
  | cons b r ih =>
    have hb := b.isLt
    rw [natOfBytes, List.length_cons, Nat.pow_succ']
    omega
theorem Memory.readN_lt (m : Memory) (a n : Nat) : Memory.readN m a n < 256 ^ n := by
  have h := natOfBytes_lt (Memory.bytes m a n)
  rwa [Memory.bytes_eq_map, List.length_map, List.length_range, ← Memory.bytes_eq_map] at h
/-- Bytes written one list behind the other are written together. -/
theorem Memory.writeBytes_append (m : Memory) (a : Nat) (bs cs : List Byte) :
    Memory.writeBytes m a (bs ++ cs) = Memory.writeBytes (Memory.writeBytes m a bs) (a + bs.length) cs := by
  induction bs generalizing m a with
  | nil => rfl
  | cons b r ih => rw [List.cons_append, Memory.writeBytes, Memory.writeBytes, ih, List.length_cons, Nat.add_right_comm, Nat.add_assoc]

section
variable {m : Memory} (hm : Memory.wf m = true) (a n v : Nat)
include hm

/-- A number is read where it was written. -/
theorem Memory.readN_writeN_same : Memory.readN (Memory.writeN m a n v) a n = v % 256 ^ n := by
  rw [← natOfBytes_bytesOfNat, Memory.readN]
  congr 1
  refine List.ext_getElem (by simp [Memory.bytes_eq_map, length_bytesOfNat]) fun i _ hi => ?_
  simp only [Memory.bytes_eq_map, List.getElem_map, List.getElem_range]
  exact Memory.read_writeBytes_in hm a _ hi
/-- A number is read past another that was written beside it. -/
theorem Memory.readN_writeN_out {b k : Nat} (hb : b + k ≤ a ∨ a + n ≤ b) : Memory.readN (Memory.writeN m a n v) b k = Memory.readN m b k := by
  rw [Memory.readN, Memory.readN, Memory.bytes_eq_map, Memory.bytes_eq_map]
  congr 1
  refine List.map_congr_left fun i hi => Memory.read_writeBytes_out hm a _ ?_
  rw [length_bytesOfNat]
  have := List.mem_range.1 hi
  omega

end

/-- A word of memory has fields in their room. -/
theorem State.syncGet_fits (s : State) (c : CoreId) (off : Nat) : (s.syncGet c off).Fits := by
  refine ⟨Memory.readN_lt _ _ 4, Memory.readN_lt _ _ 4, Memory.readN_lt _ _ 4, ?_⟩
  simp only [State.syncGet, BitVec.toNat_ofNat]
  omega
/-- The scratchpad after a word is written: its four fields one behind the other. -/
theorem State.sp_syncPut (s : State) (c : CoreId) (off : Nat) (w : SyncWord) : ((s.syncPut c off w).core c).sp =
    Memory.writeN (Memory.writeN (Memory.writeN (Memory.writeN (s.core c).sp off 4 w.target) (off + 4) 4 w.count) (off + 8) 4 w.gen) (off + 12) 4 w.flags.toNat := by
  simp only [State.syncPut, State.homeWrite, State.core_modCore_self, Memory.writeBytes_append, length_bytesOfNat, Nat.add_assoc]
  rfl
/-- A word that is written is read again. -/
theorem State.syncGet_syncPut {s : State} (hs : s.memWf) {w : SyncWord} (hw : w.Fits) (c : CoreId) (off : Nat) : (s.syncPut c off w).syncGet c off = w := by
  obtain ⟨ht, hc, hg, hf⟩ := hw
  obtain ⟨-, -, -, hsp, -⟩ := hs
  have h1 := Memory.wf_writeN (hsp c) off 4 w.target
  have h2 := Memory.wf_writeN h1 (off + 4) 4 w.count
  have h3 := Memory.wf_writeN h2 (off + 8) 4 w.gen
  have hflags : BitVec.ofNat 32 (w.flags.toNat % 256 ^ 4 % 16) = w.flags := by
    rw [Nat.mod_eq_of_lt (a := w.flags.toNat) (by omega), Nat.mod_eq_of_lt hf, BitVec.ofNat_toNat, BitVec.setWidth_eq]
  rw [State.syncGet, State.sp_syncPut, Memory.readN_writeN_same h3, hflags]
  rw [Memory.readN_writeN_out h3 _ _ _ (by omega), Memory.readN_writeN_out h2 _ _ _ (by omega), Memory.readN_writeN_out h1 _ _ _ (by omega),
    Memory.readN_writeN_same (hsp c), Nat.mod_eq_of_lt (b := 256 ^ 4) ht]
  rw [Memory.readN_writeN_out h3 _ _ _ (by omega), Memory.readN_writeN_out h2 _ _ _ (by omega), Memory.readN_writeN_same h1, Nat.mod_eq_of_lt (b := 256 ^ 4) hc]
  rw [Memory.readN_writeN_out h3 _ _ _ (by omega), Memory.readN_writeN_same h2, Nat.mod_eq_of_lt (b := 256 ^ 4) hg]

/-- A word that is written leaves every other byte. -/
theorem State.byteAt_syncPut_out {s : State} (hs : s.memWf) (c : CoreId) (off : Nat) (w : SyncWord) {l : Loc} (hl : ∀ i, i < 16 → l ≠ .sp c (off + i)) :
    (s.syncPut c off w).byteAt l = s.byteAt l := by
  have hlen (a b : Nat) : (bytesOfNat 4 a ++ bytesOfNat 4 b).length = 8 := by rw [List.length_append, length_bytesOfNat, length_bytesOfNat]
  rw [State.syncPut, State.byteAt_homeWrite_out (State.memWf_homeWrite hs _ _ _) _ _ _ fun i hi => ?high,
    State.byteAt_homeWrite_out hs _ _ _ fun i hi => ?low]
  case high =>
    rw [hlen] at hi
    rw [Loc.plus, Nat.add_assoc]
    exact hl (8 + i) (by omega)
  case low =>
    rw [hlen] at hi
    exact hl i (by omega)
theorem State.Frame.syncPut (s : State) (c : CoreId) (off : Nat) (w : SyncWord) : s.Frame (s.syncPut c off w) :=
  (State.Frame.homeWrite s (.sp c off) _ _).trans (.homeWrite _ (.sp c (off + 8)) _ _)
/-- A write at a home copy keeps every pipeline. -/
theorem State.pipe_homeWrite (s : State) (l : Loc) (bs : List Byte) (bad : Bool) (c : CoreId) : ((s.homeWrite l bs bad).core c).pipe = (s.core c).pipe := by
  cases l with
  | pa a => rfl
  | sp d o =>
    by_cases hc : c = d
    · subst hc; rw [State.homeWrite, State.core_modCore_self]; rfl
    · rw [State.homeWrite, State.core_modCore_ne s _ hc]
theorem State.pipe_syncPut (s : State) (c : CoreId) (off : Nat) (w : SyncWord) (d : CoreId) : ((s.syncPut c off w).core d).pipe = (s.core d).pipe := by
  rw [State.syncPut, State.pipe_homeWrite, State.pipe_homeWrite]

end Sys2Proof.Machine
end

section
/-! PROOFS. The step SYNC_ARRIVAL: the arrival at a word, and what the waits of its die become where none is on it. -/
namespace Sys2Proof.Machine

/-! ## Waits that a word does not end (R126) -/

/-- The pending waits of a core. -/
def State.waitsOf (s : State) (c : CoreId) : List Wait := (s.core c).pipe.waits
/-- Waits of one number are one wait. -/
def oneOfSeq (l : List Wait) : Prop := ∀ x ∈ l, ∀ y ∈ l, x.seq = y.seq → x = y
/-- The waits of a number `n` are all the first of them. -/
def unifySeq (l : List Wait) (n : Nat) : List Wait :=
  match l.find? fun w => w.seq = n with
  | some w => l.map fun x => if x.seq = w.seq then w else x
  | none => l

/-- What is left is of the list, and of the number only the first is. -/
theorem mem_unifySeq {l : List Wait} {n : Nat} {x : Wait} (hx : x ∈ unifySeq l n) : x ∈ l ∧ (x.seq = n → l.find? (fun w => w.seq = n) = some x) := by
  unfold unifySeq at hx
  split at hx
  case h_1 w hw =>
    have hn : w.seq = n := by simpa using List.find?_some hw
    obtain ⟨y, hy, rfl⟩ := List.mem_map.1 hx
    by_cases h : y.seq = w.seq
    · rw [if_pos h]
      exact ⟨List.mem_of_find?_eq_some hw, fun _ => hw⟩
    · rw [if_neg h]
      exact ⟨hy, fun hs => absurd (hs.trans hn.symm) h⟩
  case h_2 hw => exact ⟨hx, fun hs => absurd hs (by simpa using List.find?_eq_none.1 hw x hx)⟩
/-- Where waits of one number are one wait, nothing is to be made one. -/
theorem unifySeq_of_oneOfSeq {l : List Wait} (h : oneOfSeq l) (n : Nat) : unifySeq l n = l := by
  unfold unifySeq
  split
  case h_1 w hw =>
    have hn : w.seq = n := by simpa using List.find?_some hw
    refine (List.map_congr_left fun x hx => ?_).trans (List.map_id l)
    split
    · rename_i hs
      exact h w (List.mem_of_find?_eq_some hw) x hx hs.symm
    · rfl
  case h_2 => rfl
theorem unifySeq_foldl_subset (ns : List Nat) (l : List Wait) : ns.foldl unifySeq l ⊆ l :=
  List.foldlRecOn (motive := (· ⊆ l)) ns unifySeq (List.Subset.refl l) fun _ hb _ _ _ hx => hb (mem_unifySeq hx).1
/-- Once that has been done for each number of a list, waits of such a number are one wait. -/
theorem eq_of_mem_unifySeq_foldl {ns : List Nat} {l : List Wait} {x y : Wait} (hn : x.seq ∈ ns) (hx : x ∈ ns.foldl unifySeq l) (hy : y ∈ ns.foldl unifySeq l)
    (h : x.seq = y.seq) : x = y := by
  induction ns generalizing l with
  | nil => cases hn
  | cons n ns ih =>
    rcases List.mem_cons.1 hn with rfl | hn
    · have hx1 := (mem_unifySeq (unifySeq_foldl_subset ns _ hx)).2 rfl
      have hy1 := (mem_unifySeq (unifySeq_foldl_subset ns _ hy)).2 h.symm
      exact Option.some.inj (hx1.symm.trans hy1)
    · exact ih hn hx hy
theorem oneOfSeq_unifySeq_foldl (l : List Wait) : oneOfSeq ((l.map (·.seq)).foldl unifySeq l) :=
  fun _ hx _ hy h => eq_of_mem_unifySeq_foldl (List.mem_map_of_mem (unifySeq_foldl_subset _ _ hx)) hx hy h

/-- A core replaced by itself is no change. -/
theorem State.setCore_core (s : State) (c : CoreId) : s.setCore c (s.core c) = s := by simp [State.setCore, State.core]
/-- The later of two replacements of a core stands. -/
theorem State.setCore_setCore (s : State) (c : CoreId) (k l : Core) : (s.setCore c k).setCore c l = s.setCore c l := by simp [State.setCore]

/-- A core with its pending waits replaced. -/
def State.withWaits (s : State) (c : CoreId) (l : List Wait) : State := s.modPipeOf c fun p => { p with waits := l }
theorem State.withWaits_self (s : State) (c : CoreId) : s.withWaits c (s.waitsOf c) = s := s.setCore_core c
theorem State.waitsOf_withWaits_self (s : State) (c : CoreId) (l : List Wait) : (s.withWaits c l).waitsOf c = l := by
  simp [State.withWaits, State.modPipeOf, State.waitsOf]
theorem State.waitsOf_withWaits_ne (s : State) {c d : CoreId} (h : d ≠ c) (l : List Wait) : (s.withWaits c l).waitsOf d = s.waitsOf d := by
  rw [State.withWaits, State.modPipeOf, State.waitsOf, State.core_modCore_ne s _ h, State.waitsOf]
theorem State.withWaits_withWaits (s : State) (c : CoreId) (k l : List Wait) : (s.withWaits c k).withWaits c l = s.withWaits c l := by
  simp only [State.withWaits, State.modPipeOf, State.modCore, State.core_setCore_self, State.setCore_setCore]
theorem State.Quiet.withWaits (s : State) (c : CoreId) (l : List Wait) : s.Quiet (s.withWaits c l) :=
  State.Quiet.modCore s c (f := fun k => { k with pipe := { k.pipe with waits := l } }) ⟨rfl, rfl, rfl, rfl, rfl, rfl, rfl⟩ rfl rfl

/-- Where each of a core's waits goes on, trying them changes no more than that waits of one number become one. -/
theorem State.eachWait_of_goesOn {s : State} {c : CoreId} {f : State → Wait → Option Wait × State} (hf : ∀ w ∈ s.waitsOf c, ∀ t, f t w = (some w, t)) :
    s.eachWait c f = s.withWaits c (((s.waitsOf c).map (·.seq)).foldl unifySeq (s.waitsOf c)) := by
  unfold State.eachWait
  rw [← State.waitsOf]
  generalize (s.waitsOf c).map (·.seq) = ns
  induction ns generalizing s with
  | nil => exact (s.withWaits_self c).symm
  | cons n ns ih =>
    have hrest := @ih (s.withWaits c (unifySeq (s.waitsOf c) n)) fun w hw => hf w (mem_unifySeq (State.waitsOf_withWaits_self s c _ ▸ hw)).1
    rw [State.waitsOf_withWaits_self, State.withWaits_withWaits] at hrest
    refine Eq.trans (congrArg (fun u => List.foldl _ u ns) ?step) hrest
    case step =>
      simp only [unifySeq, State.waitsOf]
      cases hw : (s.core c).pipe.waits.find? fun w => w.seq = n with
      | none => exact (s.withWaits_self c).symm
      | some w =>
        simp only [hf w (List.mem_of_find?_eq_some hw)]
        rfl

/-- What the change of the word at `off` of core `h` makes of a pending wait of core `c`. -/
def State.wakeWait (h : CoreId) (off : Nat) (c : CoreId) (s : State) (w : Wait) : Option Wait × State :=
  match w.kind with
  | .sw a g => if syncAddr c a = (h, off) then s.trySw c w a g else (some w, s)
  | _ => (some w, s)
/-- What it makes of the waits of core `i` of the die. -/
def State.wakeCore (h : CoreId) (off : Nat) (s : State) (i : Nat) : State := s.eachWait (CoreId.mk' h.die i) (State.wakeWait h off (CoreId.mk' h.die i))
/-- A core without waits has none to try: the change of a word tries the waits of every core of its die. -/
theorem State.wakeSync_eq (s : State) (h : CoreId) (off : Nat) :
    s.wakeSync h off = (List.range 32).foldl (State.wakeCore h off) s := by
  unfold State.wakeSync
  congr 1
  funext s i
  dsimp only
  split
  · rename_i he
    rw [State.wakeCore, State.eachWait, List.isEmpty_iff.1 he]
    rfl
  · rfl

section
variable {h : CoreId} {off : Nat}

/-- With none on the word each wait goes on. -/
theorem State.noWaiter.wakeWait {s : State} (hs : s.noWaiter h off) (c : CoreId) : ∀ w ∈ s.waitsOf c, ∀ t, State.wakeWait h off c t w = (some w, t) := by
  intro w hw t
  unfold State.wakeWait
  split
  · rename_i a g hk
    exact if_neg (hs c w hw a g hk)
  · rfl

/-- No waits but those from before, and beside them neither a byte nor a register changes. -/
structure State.FewerWaits (s t : State) : Prop extends State.Quiet s t where
  waits : ∀ c, t.waitsOf c ⊆ s.waitsOf c

theorem State.FewerWaits.refl (s : State) : s.FewerWaits s := ⟨.refl s, fun _ => List.Subset.refl _⟩
theorem State.FewerWaits.trans {s t u : State} (g : s.FewerWaits t) (k : t.FewerWaits u) : s.FewerWaits u :=
  ⟨g.toQuiet.trans k.toQuiet, fun c => List.Subset.trans (k.waits c) (g.waits c)⟩
theorem State.FewerWaits.noWaiter {s t : State} (g : s.FewerWaits t) (hs : s.noWaiter h off) : t.noWaiter h off :=
  fun c w hw => hs c w (g.waits c hw)
theorem State.FewerWaits.oneOfSeq {s t : State} (g : s.FewerWaits t) {c : CoreId} (hs : oneOfSeq (s.waitsOf c)) : oneOfSeq (t.waitsOf c) :=
  fun x hx y hy => hs x (g.waits c hx) y (g.waits c hy)
theorem State.FewerWaits.withWaits (s : State) (c : CoreId) {l : List Wait} (hl : l ⊆ s.waitsOf c) : s.FewerWaits (s.withWaits c l) := by
  refine ⟨.withWaits s c l, fun d => ?_⟩
  by_cases hd : d = c
  · subst hd
    rw [State.waitsOf_withWaits_self]
    exact hl
  · rw [State.waitsOf_withWaits_ne s hd]
    exact List.Subset.refl _

/-- Trying a core's waits, none of them on the word, adds none and leaves one of each number. -/
theorem State.FewerWaits.wakeCore {s : State} (hs : s.noWaiter h off) (i : Nat) :
    s.FewerWaits (s.wakeCore h off i) ∧ Machine.oneOfSeq ((s.wakeCore h off i).waitsOf (CoreId.mk' h.die i)) := by
  rw [State.wakeCore, State.eachWait_of_goesOn (hs.wakeWait _), State.waitsOf_withWaits_self]
  exact ⟨.withWaits s _ (unifySeq_foldl_subset _ _), oneOfSeq_unifySeq_foldl _⟩
/-- So it does for the cores of a list. -/
theorem State.FewerWaits.wakeCore_foldl {s : State} (hs : s.noWaiter h off) (is : List Nat) :
    s.FewerWaits (is.foldl (State.wakeCore h off) s) ∧ ∀ i ∈ is, Machine.oneOfSeq ((is.foldl (State.wakeCore h off) s).waitsOf (CoreId.mk' h.die i)) := by
  induction is generalizing s with
  | nil => exact ⟨.refl s, fun _ hi => nomatch hi⟩
  | cons i is ih =>
    obtain ⟨hone, huni⟩ := State.FewerWaits.wakeCore hs i
    obtain ⟨hall, hrest⟩ := ih (hone.noWaiter hs)
    refine ⟨hone.trans hall, fun j hj => ?_⟩
    rcases List.mem_cons.1 hj with rfl | hj
    · exact hall.oneOfSeq huni
    · exact hrest j hj

/-- R126: with no wait on a word and one wait of each number, its change ends and changes none. -/
theorem State.wakeSync_of_oneOfSeq {s : State} (hs : s.noWaiter h off) (ho : ∀ i ∈ List.range 32, oneOfSeq (s.waitsOf (CoreId.mk' h.die i))) :
    s.wakeSync h off = s := by
  rw [State.wakeSync_eq]
  refine List.foldlRecOn (motive := (· = s)) _ _ rfl fun t ht i hi => ?_
  subst ht
  rw [State.wakeCore, State.eachWait_of_goesOn (hs.wakeWait _), List.foldl_fixed' (unifySeq_of_oneOfSeq (ho i hi)), State.withWaits_self]
/-- R126: with no wait on a word its change adds none, and makes no further change after that. -/
theorem State.FewerWaits.wakeSync {s : State} (hs : s.noWaiter h off) : s.FewerWaits (s.wakeSync h off) ∧ (s.wakeSync h off).wakeSync h off = s.wakeSync h off := by
  obtain ⟨hall, huni⟩ := State.FewerWaits.wakeCore_foldl hs (List.range 32)
  rw [← State.wakeSync_eq] at hall huni
  exact ⟨hall, State.wakeSync_of_oneOfSeq (hall.noWaiter hs) huni⟩

end

/-! ## The step SYNC_ARRIVAL (R112, R123, R126) -/

/-- A change of the times of a location changes no core. -/
theorem State.core_setTimes (s : State) (l : Loc) (t : Times) (c : CoreId) : (s.setTimes l t).core c = s.core c := rfl
/-- The word at `off` of core `h` after an arrival of weight `w` by a path at time `lt`, before the waits on it end. -/
def State.arrived (s : State) (h : CoreId) (off w lt : Nat) : State :=
  let ts := max lt ((s.times (.sp h off)).rts + 1)
  (s.setTimes (.sp h off) ⟨ts, ts⟩).syncPut h off ((s.syncGet h off).arrive w)

section
variable {s : State} {h : CoreId} {off : Nat} (w lt : Nat)

/-- R123, R126: an arrival at a word that stands for itself changes the word, and then the waits on it end. -/
theorem State.syncArrive_own (hc : s.syncCopies h off = [(h, off)]) : (s.syncArrive h off w lt).2 = (s.arrived h off w lt).wakeSync h off := by
  simp only [State.syncArrive, hc, List.foldl_cons, List.foldl_nil, State.arrived]
theorem State.Frame.arrived : s.Frame (s.arrived h off w lt) := (State.Quiet.setTimes s _ _).toFrame.trans (.syncPut _ _ _ _)
theorem State.waitsOf_arrived (c : CoreId) : (s.arrived h off w lt).waitsOf c = s.waitsOf c := by
  rw [State.waitsOf, State.arrived, State.pipe_syncPut, State.core_setTimes, State.waitsOf]
theorem State.syncGet_arrived (hs : s.memWf) : (s.arrived h off w lt).syncGet h off = (s.syncGet h off).arrive w :=
  State.syncGet_syncPut ((State.Quiet.setTimes s _ _).memWf hs) ((s.syncGet_fits h off).arrive w) h off
theorem State.byteAt_arrived (hs : s.memWf) {l : Loc} (hl : ∀ i, i < 16 → l ≠ .sp h (off + i)) : (s.arrived h off w lt).byteAt l = s.byteAt l := by
  have hq := State.Quiet.setTimes s (.sp h off) ⟨max lt ((s.times (.sp h off)).rts + 1), max lt ((s.times (.sp h off)).rts + 1)⟩
  rw [State.arrived, State.byteAt_syncPut_out (hq.memWf hs) h off _ hl, hq.byteAt]

end

/-- Quiet changes keep every sync word. -/
theorem State.Quiet.syncGet {s t : State} (h : s.Quiet t) (c : CoreId) (off : Nat) : t.syncGet c off = s.syncGet c off := by
  simp only [State.syncGet, h.sp]

/-- R112: an arrival at a word whose bank is not ACTIVE begins the bank's exit. -/
theorem exec_syncArrival_wakes {s : State} {c : CoreId} {off : Nat} (w : W32) (hc : s.hasCore c = true) (ha : off % 16 = 0) (ho : off + 16 ≤ 0x600000)
    (hp : s.phase ≠ .dusk) (hb : s.banksReady c off 16 = false) : exec (.syncArrival c off w) s = .next (s.wakeBanks c off 16) := by
  show execSyncArrival c off w s = _
  simp [execSyncArrival, hc, ha, hp, hb, Nat.not_lt.2 ho]

/-- Settles O40: the word after an arrival case by case, and the step as that arrival followed by the end of the waits. No clause says that waits of one core have different
numbers, and where two have one, trying them makes them one: so with no waiter on the word the state named is the one after the waits have been tried. -/
theorem syncArrivalCounts : Obligations.SyncArrivalCounts := by
  unfold Obligations.SyncArrivalCounts
  refine ⟨fun x w _ _ => ⟨fun ho hw => ?zero, SyncWord.arrive_below, fun ho hw hc => ?reaches, fun ho hw hc => ?passes, fun ho => ?overflowed⟩,
    fun s h off w hs hcore ha hoff hp hcopies => ⟨exec_syncArrival_wakes w hcore ha hoff hp, fun hb => ?arrives⟩⟩
  case zero => rw [hw, SyncWord.arrive_zero ho]
  case reaches =>
    rw [SyncWord.arrive_reaches ho hw hc]
    exact ⟨rfl, rfl, rfl, rfl⟩
  case passes =>
    rw [SyncWord.arrive_passes ho hw hc]
    exact ⟨SyncWord.ovf_setOvf _, rfl, rfl⟩
  case overflowed =>
    rw [SyncWord.arrive_overflowed ho]
    exact ⟨ho, rfl, rfl⟩
  case arrives =>
    have hf : s.Frame (s.arrived h off w.toNat 0) := .arrived _ _
    rw [exec_syncArrival_arrives w hcore ha hoff hp hb, State.syncArrive_own _ _ hcopies]
    by_cases hn : s.noWaiter h off
    · have hn' : (s.arrived h off w.toNat 0).noWaiter h off := fun c v hv => hn c v (by rwa [← State.waitsOf, State.waitsOf_arrived] at hv)
      obtain ⟨hq, hid⟩ := State.FewerWaits.wakeSync hn'
      refine ⟨_, by rw [hid], fun _ => hid, ?_, fun l hl => ?_, (hf.trans hq.toFrame).sameArch⟩
      · rw [hq.syncGet, State.syncGet_arrived _ _ hs]
      · rw [hq.byteAt, State.byteAt_arrived _ _ hs hl]
    · exact ⟨_, rfl, fun hw => absurd hw hn, State.syncGet_arrived _ _ hs, fun l hl => State.byteAt_arrived _ _ hs hl, hf.sameArch⟩

end Sys2Proof.Machine
end

section
/-! PROOFS. The scalar unit: what each short operation lands. -/
namespace Sys2Proof.Machine

/-! ## Issue of a short operation (R168, R177) -/

section
variable {s : State} {g : BitVec 4} {e : Bool} {f : BitVec 10} {v : Val}

/-- R177: a short operation that is ready lands its value at the S unit's latency, with no flag. -/
theorem scalarOp_ready (h : s.ready .s g e f v = true) (op : State → SVal → SVal → SVal → SVal) :
    scalarOp g e f op s = .next (s.short .s (.sc (op s s.pipe.units.s.x s.pipe.units.s.y v.toS)) 0 none) := by
  rw [scalarOp, State.issueMove_ready h]

/-- An operation on X and F lands its value, poisoned by both. -/
theorem exec_onXF_ready (h : s.ready .s g e f v = true) {i : Instr} {op : W64 → W64 → W64} {u : W64}
    (hi : exec i s = scalarOp g e f (onXF op) s) (hu : op s.pipe.units.s.x.val v.toS.val = u) :
    exec i s = .next (s.short .s (.sc ⟨u, s.pipe.units.s.x.poi || v.toS.poi⟩) 0 none) := by
  rw [hi, scalarOp_ready h, onXF, hu]

/-- An operation on F alone lands its value, poisoned by F. -/
theorem exec_onF_ready (h : s.ready .s g e f v = true) {i : Instr} {op : W64 → W64} {u : W64}
    (hi : exec i s = scalarOp g e f (onF op) s) (hu : op v.toS.val = u) :
    exec i s = .next (s.short .s (.sc ⟨u, v.toS.poi⟩) 0 none) := by
  rw [hi, scalarOp_ready h, onF, hu]

end

/-! ## The values of Table 7.7 -/

/-- The low `n` bits as a number are the remainder by `2^n`: the count of a shift and the scale of LEA. -/
theorem toNat_mod_two_pow (w : W64) (n : Nat) : w.toNat % 2 ^ n = (w.extractLsb' 0 n).toNat := by
  rw [BitVec.extractLsb'_toNat, Nat.shiftRight_zero]

/-- MULHU: the high half of the product of numbers is that of the 128-bit product. -/
theorem mulhu_eq_extractLsb' (x w : W64) :
    BitVec.ofNat 64 (x.toNat * w.toNat / 2 ^ 64) = (x.setWidth 128 * w.setWidth 128).extractLsb' 64 64 := by
  have hx := x.isLt
  have hw := w.isLt
  have hp : x.toNat * w.toNat < 2 ^ 128 := (Nat.mul_lt_mul'' hx hw).trans_eq (by norm_num)
  apply BitVec.eq_of_toNat_eq
  simp only [BitVec.extractLsb'_toNat, BitVec.toNat_mul, BitVec.toNat_setWidth, BitVec.toNat_ofNat, Nat.shiftRight_eq_div_pow]
  rw [Nat.mod_eq_of_lt (by omega : x.toNat < 2 ^ 128), Nat.mod_eq_of_lt (by omega : w.toNat < 2 ^ 128), Nat.mod_eq_of_lt hp]

/-- MIN and MINU: F where it is less is X where F is not less. -/
theorem ite_lt_eq_ite_le {α : Type} [LinearOrder α] (a b : α) (x w : W64) : (if b < a then w else x) = if a ≤ b then x else w := by
  simp only [← not_lt, ite_not]

/-- CTZ: the count from bit `k` over `n` bits is the first bit set among them. -/
theorem ctzFrom_eq_find? (w : W64) (n k : Nat) : ctzFrom w n k = ((List.range' k n).find? fun i => w.getLsbD i).getD (k + n) := by
  induction n generalizing k with
  | zero => rfl
  | succ n ih =>
    rw [ctzFrom, List.range'_succ, List.find?_cons, ih]
    cases w.getLsbD k with
    | true => rfl
    | false => simp [Nat.add_comm, Nat.add_left_comm]

/-- CTZ counts to the first bit set of 64. -/
theorem ctz64_eq_find? (w : W64) : ctz64 w = BitVec.ofNat 64 (((List.range 64).find? fun i => w.getLsbD i).getD 64) := by
  rw [ctz64, ctzFrom_eq_find?, List.range_eq_range', Nat.zero_add]

/-- The ZEXT forms: a field extended by zeros is the word under a mask of its width. -/
theorem setWidth_setWidth_eq_and (w : W64) (n : Nat) : (w.setWidth n).setWidth 64 = w &&& (BitVec.allOnes n).setWidth 64 := by
  ext i hi
  simp [hi, Bool.and_comm]

/-- The .W forms: the low 32 bits of a result, sign-extended. -/
theorem sx32_eq (u : W64) : sx32 u = (u.extractLsb' 0 32).signExtend 64 := by
  rw [sx32, BitVec.setWidth_eq_extractLsb' (by decide)]

/-- The three low bits of Y are the number of the predicate SEL reads. -/
theorem val_selIx_setWidth (y : W64) : (selIx 3 (y.setWidth 10)).val = y.toNat % 8 := by
  show (y.setWidth 10).toNat % 2 ^ 3 = _
  rw [BitVec.toNat_setWidth]
  exact Nat.mod_mod_of_dvd _ (by decide)

/-- SEL takes X where Y names a predicate that is set. -/
theorem selOp_eq_ite (s : State) (x y w : SVal) :
    selOp s x y w = if y.val.toNat % 8 ≠ 0 ∧ s.pipe.regs.p.getD (y.val.toNat % 8) false = true then ⟨x.val, x.poi || y.poi⟩ else ⟨w.val, w.poi || y.poi⟩ := by
  have hp : s.pipe.regs.p[selIx 3 (y.val.setWidth 10)] = s.pipe.regs.p.getD (y.val.toNat % 8) false := by
    simp [← val_selIx_setWidth, Vector.getD]
  simp only [selOp, hp, val_selIx_setWidth, Bool.and_eq_true, bne_iff_ne]
  split <;> rfl

/-- SEL that is ready lands X or F by the predicate Y names. -/
theorem exec_sel_ready {s : State} {g : BitVec 4} {e : Bool} {f : BitVec 10} {v : Val} (h : s.ready .s g e f v = true) :
    let q := s.pipe.units.s
    exec (.sel g e f) s = if q.y.val.toNat % 8 ≠ 0 ∧ s.pipe.regs.p.getD (q.y.val.toNat % 8) false = true
      then .next (s.short .s (.sc ⟨q.x.val, q.x.poi || q.y.poi⟩) 0 none) else .next (s.short .s (.sc ⟨v.toS.val, v.toS.poi || q.y.poi⟩) 0 none) := by
  intro q
  show scalarOp g e f selOp s = _
  rw [scalarOp_ready h, selOp_eq_ite]
  split <;> rfl

/-- LEA that is ready lands X plus F scaled by the two low bits of Y. -/
theorem exec_lea_ready {s : State} {g : BitVec 4} {e : Bool} {f : BitVec 10} {v : Val} (h : s.ready .s g e f v = true) :
    let q := s.pipe.units.s
    exec (.lea g e f) s
      = .next (s.short .s (.sc ⟨q.x.val + (v.toS.val <<< (q.y.val.extractLsb' 0 2).toNat), q.x.poi || q.y.poi || v.toS.poi⟩) 0 none) := by
  intro q
  show scalarOp g e f leaOp s = _
  rw [scalarOp_ready h, leaOp, ← toNat_mod_two_pow]
  rfl

/-! ## The obligation -/

/-- Settles O14: each operation runs its function of X, Y and F, whose value the lemmas above give in the words of Table 7.7. -/
theorem scalarShortResults : Obligations.ScalarShortResults := by
  unfold Obligations.ScalarShortResults
  intro s g e f v h x y w px py pf r
  have count := toNat_mod_two_pow w 6
  have field (n : Nat) (hn : n ≤ 64) : w.setWidth n = w.extractLsb' 0 n := BitVec.setWidth_eq_extractLsb' hn
  have bin {i : Instr} {op : W64 → W64 → W64} {u : W64} (hi : exec i s = scalarOp g e f (onXF op) s) (hu : op x w = u) :
      exec i s = r u (px || pf) := exec_onXF_ready h hi hu
  have un {i : Instr} {op : W64 → W64} {u : W64} (hi : exec i s = scalarOp g e f (onF op) s) (hu : op w = u) :
      exec i s = r u pf := exec_onF_ready h hi hu
  exact ⟨
    -- ADD to MULHU
    bin rfl rfl, bin rfl rfl, bin rfl rfl, bin rfl rfl, bin rfl (mulhu_eq_extractLsb' x w),
    -- AND to ANDN
    bin rfl rfl, bin rfl rfl, bin rfl rfl, bin rfl rfl,
    -- SHL to ROTL
    bin rfl (congrArg (x <<< ·) count), bin rfl (congrArg (x >>> ·) count), bin rfl (congrArg x.sshiftRight count), bin rfl (congrArg x.rotateLeft count),
    -- MIN to MAXU
    bin rfl (ite_lt_eq_ite_le _ _ x w), bin rfl rfl, bin rfl (ite_lt_eq_ite_le _ _ x w), bin rfl rfl,
    -- CLZ to POPC
    un rfl rfl, un rfl (ctz64_eq_find? w), un rfl rfl,
    -- the SEXT and ZEXT forms
    un rfl (congrArg (·.signExtend 64) (field 8 (by decide))), un rfl (congrArg (·.signExtend 64) (field 16 (by decide))),
    un rfl (congrArg (·.signExtend 64) (field 32 (by decide))),
    un rfl (setWidth_setWidth_eq_and w 8), un rfl (setWidth_setWidth_eq_and w 16), un rfl (setWidth_setWidth_eq_and w 32),
    -- SEL, the .W forms, LEA
    exec_sel_ready h, bin rfl (sx32_eq (x + w)), bin rfl (sx32_eq (x - w)), bin rfl (sx32_eq (x * w)),
    exec_lea_ready h⟩

end Sys2Proof.Machine
end

section
/-! PROOFS. The steps of the matrix sequencer: the operation whose turn it is, the group, and the loads of operand slots. -/
namespace Sys2Proof.Machine

/-! ## The operation whose turn it is (R236, R237, R239, R247) -/

/-- Whether a queued operation is a tile. -/
def SeqOp.isTile : SeqOp → Bool
  | .tile _ _ _ _ => true
  | _ => false
/-- Whether a queued operation is a drain. -/
def SeqOp.isDrain : SeqOp → Bool
  | .drain _ => true
  | _ => false

section
variable {s : State} (hs : s.me.sequences = true) (hp : s.phase ≠ .dusk)
include hs hp

/-- R237: the tile that may run runs its next beat. -/
theorem exec_tileExecution_steps {i n : Nat} {t : TileSnap} {mpc : W32} {f : Flags} (hi : runnable s.me.mx.queue SeqOp.isTile = some i)
    (hq : s.me.mx.queue[i]? = some (.tile t n mpc f)) : exec .tileExecution s = .next (s.stepTile s.cur i t n mpc f) := by
  show execTileExecution s = _
  unfold execTileExecution
  rw [if_neg (by simp [hs, hp])]
  split
  case h_1 h => cases h.symm.trans hi
  case h_2 j h =>
    cases h.symm.trans hi
    simp only [hq]
/-- R247: the drain that may run writes its next row, once no earlier access is still to be performed. -/
theorem exec_drainExecution_steps {i : Nat} {d : Drain} (hd : s.me.drainMay d = true) (hi : runnable s.me.mx.queue SeqOp.isDrain = some i)
    (hq : s.me.mx.queue[i]? = some (.drain d)) : exec .drainExecution s = .next (s.stepDrain s.cur i d) := by
  show execDrainExecution s = _
  unfold execDrainExecution
  rw [if_neg (by simp [hs, hp])]
  split
  case h_1 h => cases h.symm.trans hi
  case h_2 j h =>
    cases h.symm.trans hi
    simp only [hq, hd, if_true]
/-- R239: an MZERO at the head of the queue zeroes its bank on every member and leaves. -/
theorem exec_mzeroExecution_zeroes {b both : Bool} {r : List SeqOp} (hq : s.me.mx.queue = .zero b both :: r) :
    exec .mzeroExecution s = .next ((s.modMembers s.cur fun m => m.zeroBank b both).modMx fun m => m.leave 0) := by
  show execMzeroExecution s = _
  simp [execMzeroExecution, hs, hp, hq]
/-- R239: an MBANK at the head of the queue leaves. -/
theorem exec_mbankExecution_leaves {b : Bool} {r : List SeqOp} (hq : s.me.mx.queue = .bank b :: r) : exec .mbankExecution s = .next (s.modMx fun m => m.leave 0) := by
  show execMbankExecution s = _
  simp [execMbankExecution, hs, hp, hq]

end

/-! ## The group and the loads (R233, R253) -/

/-- R253: the leader forms its group where nothing stops it. -/
theorem exec_groupFormation_forms {s : State} (hq : s.me.atQueued = true) (hr : s.me.regroups = true) (hf : s.formStop s.cur = none) (ht : s.pipe.trap.tl = 0) :
    exec .groupFormation s = .next (s.formGroup s.cur) := by
  have ht : s.me.pipe.trap.tl = 0 := ht
  show execGroupFormation s = _
  simp [execGroupFormation, hq, hr, hf, ht]
/-- R233: the oldest pending MOPLD of a slot completes in the slots it acts on. -/
theorem exec_mopldComplete_oldest {s : State} {n : BitVec 5} {last pair : Bool} {r : List (Bool × Bool)} (hl : (s.me.mx.slot n.toNat).loads = (last, pair) :: r) :
    exec (.mopldComplete n) s = .next (s.modMx fun m => (loadSlots n.toNat pair).foldl (fun m i => m.setSlot i ((m.slot i).complete last pair)) m) := by
  show execMopldComplete n s = _
  simp only [execMopldComplete, hl]

end Sys2Proof.Machine
end

section
/-! PROOFS. Engine commands: the part that a started command does next, its end, and the reservation of KV.APP. -/
namespace Sys2Proof.Machine

/-! ## A command that has started (R129, R134) -/

/-- A command that has started stands in its queue, and starting it has not changed its kind. -/
theorem State.engStart_queue {s t : State} {c : CoreId} {k : KUnit} {n : Nat} {e : EngCmd} (h : s.engStart c k n = (some e, t)) :
    ∃ q, ((s.core c).kslot k).queue[n]? = some q ∧ q.kind = e.kind := by
  unfold State.engStart at h
  extract_lets m q at h
  split at h
  · cases h
  case h_2 x hx =>
    refine ⟨x, hx, ?_⟩
    split at h
    · cases h; rfl
    · split at h
      · cases h; rfl
      · cases h
/-- R134: a step of a command of the resident task's queue is made in the state as it stands. -/
theorem State.onCommand_of_engStart {s t : State} {k : KUnit} {n : Nat} {e : EngCmd} (h : s.engStart s.cur k n = (some e, t)) (f : Nat → State → Out) :
    s.onCommand k n f = f n s := by
  obtain ⟨q, hq, -⟩ := State.engStart_queue h
  obtain ⟨hn, -⟩ := List.getElem?_eq_some_iff.1 hq
  exact if_pos hn

/-! ## The next part of a command (R131 to R133, R157 to R159, R234, R262) -/

/-- What a started command whose completion word is ready does next. -/
def State.nextPart (s : State) (c : CoreId) (k : KUnit) (e : EngCmd) : State :=
  match e.kind with
  | .xcopy src dst => s.transfer c k e src.walker dst.walker e.total 1 fun i _ bs => vaPut c dst.walker i bs
  | .xlist scat list next rowb first ntok mem =>
    match e.extents with
    | none => s.stepList c k e list next (first + ntok)
    | some x =>
      let l := listWalker x rowb first
      let into := if scat then l else mem.walker
      s.transfer c k e (if scat then mem.walker else l) into e.total 1 fun i _ bs => vaPut c into i bs
  | .xmcast src dst dies core rsw => if e.pos < e.total then s.stepMcast c k e src dst dies core rsw else s
  | .xred _ _ nocont len src dst _ _ => s.stepXred c k e nocont len src dst
  | .xhalo slabs rsw eb => s.stepHalo c k e slabs rsw eb
  | .xresh _ _ _ _ _ => s
  | .mopldT ctrl reg off _ src _ => if e.pos < e.total then s.stepMopld c k e ctrl reg off src else s
  | .kvapp _ rec rowb src p0 =>
    match p0 with
    | some p => if e.pos < e.total then s.stepApp c k e rec rowb p src else s
    | none => s

/-- R112, R131: a started command does its next part once the banks of its completion word are ACTIVE, and starts their exit before that. -/
theorem exec_engineWritePerformed_eq {s t : State} {k : KUnit} {n : Nat} {e : EngCmd} (hp : s.phase ≠ .dusk) (hs : s.engStart s.cur k n = (some e, t))
    (hr : (s.me.kslot k).isResh n = false) :
    exec (.engineWritePerformed k n) s = .next (if t.wordReady s.cur e then t.nextPart s.cur k e else t.wakeWord s.cur e) := by
  have hr : ((s.core s.cur).kslot k).isResh n = false := hr
  show s.onCommand k n _ = _
  rw [State.onCommand_of_engStart hs]
  simp only [engineWriteStep, hr, hs, beq_iff_eq, hp, Bool.or_false, if_false]
  cases hw : t.wordReady s.cur e with
  | false => rfl
  | true =>
    simp only [Bool.not_true, Bool.false_eq_true, if_false, if_true, State.nextPart]
    cases e.kind with
    | xlist => cases e.extents <;> rfl
    | kvapp _ _ _ _ p => cases p <;> rfl
    | _ => rfl

/-! ## Parts that depend on more than the kind (R133, R158, R159) -/

/-- R133: an extent list that is not 8-aligned ends the command with STATUS 3. -/
theorem State.stepList_misaligned {list : W64} (h : list.toNat % 8 ≠ 0) (s : State) (c : CoreId) (k : KUnit) (e : EngCmd) (next need : Nat) :
    s.stepList c k e list next need = s.engFail c k e 3 := if_pos h
/-- R133: an unpoisoned list is kept with the command, or ends it with STATUS 7 where it has too few tokens. -/
theorem State.stepList_reads {s t : State} {c : CoreId} {e e' : EngCmd} {list : W64} {next : Nat} {bs : List Byte} (h : list.toNat % 8 = 0)
    (hr : s.engRead c e list (16 * next) = (.ok (bs, false, e'), t)) (k : KUnit) (need : Nat) :
    let exts := (List.range next).map fun i => (f64 bs (16 * i), fld bs (16 * i + 8) 4, fld bs (16 * i + 12) 4)
    s.stepList c k e list next need = if (exts.map fun x => x.2.1).foldl (· + ·) 0 < need then t.engFail c k e' 7 else t.putCmd c k { e' with extents := some exts } := by
  simp only [State.stepList, h, ne_eq, not_true_eq_false, if_false, hr, Bool.false_eq_true]
/-- R159: the part of a halo stays within the slab that its place lies in. -/
theorem State.stepHalo_of_slab {slabs : List Slab} {e : EngCmd} {eb : Nat} {d : DieId} {l : List (W64 × W64)} (h : slabAt slabs (e.pos / eb) = some (d, l)) (s : State) (c : CoreId)
    (k : KUnit) (rsw : W64) :
    let base := e.pos / eb * eb
    let dst := elemWalker (l.map (·.2)).toArray base eb
    s.stepHalo c k e slabs rsw eb = s.transfer c k e (elemWalker (l.map (·.1)).toArray base eb) dst (base + l.length * eb) 1 fun i _ bs =>
      State.targetPut c (CoreId.mk' d c.num) ((((dst i).1).getD 0).toNat % 0x800000) rsw bs := by
  simp only [State.stepHalo, h]

section
variable {s : State} {c : CoreId} {e : EngCmd} {i rank : Nat} {x : Coll} (hc : s.collOf c e.id = some (i, x, rank)) (hx : x.status = 0)
include hc hx

/-- R158 item 5: the root writes the result once its partial is there. -/
theorem State.stepXred_result {r : List (W32 × Bool)} (hg : x.gov = c) (hm : x.cmd = e.id) (hr : ranked x.partials rank = some r) (he : e.pos < e.total) (k : KUnit) (nocont : Bool)
    (len : Nat) (src dst : W64) : s.stepXred c k e nocont len src dst = s.stepResult c k e r dst := by
  simp [State.stepXred, hc, hx, hg, hm, hr, he]
/-- R158 item 3: until then it contributes, as every member does. -/
theorem State.stepXred_contribute (h : x.gov ≠ c ∨ x.cmd ≠ e.id ∨ ranked x.partials rank = none) (k : KUnit) (nocont : Bool) (len : Nat) (src dst : W64) :
    s.stepXred c k e nocont len src dst = s.stepContribute c k e i x rank nocont len src := by
  simp only [State.stepXred, hc, hx, ne_eq, not_true_eq_false, if_false]
  split
  case isTrue hr =>
    simp only [Bool.and_eq_true, decide_eq_true_eq] at hr
    obtain ⟨hg, hm⟩ := hr
    simp only [(h.resolve_left (not_not_intro hg)).resolve_left (not_not_intro hm)]
  case isFalse => rfl

end

/-! ## Completion (R100, R112, R130) -/

/-- What ENGINE_COMPLETION does with a command whose work is over: its load bound waits for a bank, or its release for durable lines, or it ends. -/
theorem exec_engineCompletion_eq {s t t' : State} {k : KUnit} {n x : Nat} {e e' : EngCmd} (hp : s.phase ≠ .dusk) (hs : s.engStart s.cur k n = (some e, t))
    (hr : (s.me.kslot k).isResh n = false) (hd : t.engDone s.cur e = some (x, e', t')) :
    exec (.engineCompletion k n) s = .next (if x = bankWait then t' else if (x = 0 || x = 4) && t.durWaits e then t.m.dirty.foldl (fun s l => s.writeBack l) t
      else if t.endReady s.cur e then t'.engineEnd s.cur k e' x else t.wakeEnd s.cur e) := by
  have hr : ((s.core s.cur).kslot k).isResh n = false := hr
  show s.onCommand k n _ = _
  rw [State.onCommand_of_engStart hs]
  simp only [engineCompleteStep, hr, hs, hd, beq_iff_eq, hp, Bool.false_eq_true, if_false]
  split_ifs <;> rfl

/-! ## The reservation of KV.APP (R262) -/

/-- R262: positions that the record has room for, or any of a window, are reserved at the record's home, and the place reserved is written to the command's block. -/
theorem exec_kvReservation_reserves {s t u t1 t2 : State} {k : KUnit} {n ntok rowb : Nat} {e : EngCmd} {rec : W64} {src : Side} {l0 l : Loc} (hp : s.phase ≠ .dusk)
    (hs : s.engStart s.cur k n = (some e, t)) (hk : e.kind = .kvapp ntok rec rowb src none) (he : t.endReady s.cur e = true) (hr : t.engLoc s.cur rec 64 .write = (.ok (), u))
    (hl : t.locate s.cur rec .write = (.ok l0, t1)) (hf : t1.forWrite l0 = (l, t2)) (hb : (t2.homeBytes l 64).2 = false) :
    let r := SeqRec.ofBytes (t2.homeBytes l 64).1
    (r.win ≠ 0 ∨ r.len + ntok ≤ r.cap) →
    let w := t2.storeAt s.cur.die (t2.core s.cur).task.ctx (max e.lt (t2.times l).wts) l (bytesOfNat 8 (r.len + ntok)) false
    let b := w.2.engBlock s.cur { e with lt := w.1 } 32 (bytesOfNat 8 r.len)
    exec (.kvReservation k n) s = .next (b.2.putCmd s.cur k { b.1 with kind := .kvapp ntok rec rowb src (some r.len) }) := by
  intro r hn
  have ha : ((s.core s.cur).kslot k).isApp n = true := by
    obtain ⟨q, hq, hqk⟩ := State.engStart_queue hs
    simp only [KSlot.isApp, hq, hqk, hk]
  have hfull : (r.win = 0 && r.cap < r.len + ntok) = false := by
    simp only [Bool.and_eq_false_iff, decide_eq_false_iff_not, Nat.not_lt]
    exact hn
  show s.onCommand k n _ = _
  rw [State.onCommand_of_engStart hs]
  simp only [kvReserveStep, ha, hs, hk, he, hr, hl, hf, hb, beq_iff_eq, hp, Bool.not_true, Bool.or_false, Bool.false_eq_true, if_false]
  rw [if_neg (by simpa [r] using hfull)]

end Sys2Proof.Machine
end

section
/-! PROOFS. Collectives: the call that pairs a rank, the combination of a reduction's contributions, and the phases and the switch of an XRESH. -/
namespace Sys2Proof.Machine

/-! ## Calls (R155) -/

/-- The only command that may answer a call is the oldest. -/
theorem State.oldestAnswer_of_filter {s : State} {c : CoreId} {x : Coll} {e : EngCmd} (h : ((s.core c).ka.queue ++ (s.core c).kb.queue).filter (fun e => s.answers c x e) = [e]) :
    s.oldestAnswer c x = some e.id := by
  rw [State.oldestAnswer, h]
  rfl

section
variable {s : State} {n : Nat} {x : Coll} (hx : s.link.colls[n]? = some x)
include hx

/-- R134: a step of a collective none of whose tasks is saved is made in the state as it stands. -/
theorem State.onColl_of_resident (hv : s.fw.saved.any (fun v => v.job = x.job) = false) (f : State → Out) : s.onColl n f = f s := by
  simp only [State.onColl, hx, hv, Bool.false_eq_true, if_false]

/-- R155: a call that no earlier one of its root and tag holds back pairs its rank with the command that may answer it. -/
theorem exec_collectiveCall_pairs {j : Job} {rank : Nat} {d : DieId} {e : EngCmd} (hv : s.fw.saved.any (fun v => v.job = x.job) = false) (hj : s.job x.job = some j)
    (hd : j.dies[rank]? = some d) (hm : x.parts.contains rank = true) (hn : x.paired.any (fun p => p.1 = rank) = false) (ht : (s.core (CoreId.mk' d x.corenum)).task.job = x.job)
    (hf : (s.link.colls.take n).any (fun y => y.job = x.job && y.resh == x.resh &&
      (x.resh || (y.rtag == x.rtag && y.gov = x.gov && y.parts.contains rank && !(y.paired.any fun p => p.1 = rank)))) = false)
    (ha : s.oldestAnswer (CoreId.mk' d x.corenum) x = some e.id) :
    exec (.collectiveCall n rank) s = .next (s.modColl n fun y => { y with paired := y.paired ++ [(rank, CoreId.mk' d x.corenum, e.id)] }) := by
  show s.onColl n _ = _
  rw [State.onColl_of_resident hx hv]
  simp only [callStep, hx, hj, hd, hm, hn, ht, hf, ha, Bool.not_true, Bool.not_false, ne_eq, not_true_eq_false, decide_false, Bool.or_self, Bool.false_eq_true, if_false]

end

/-! ## The combination of contributions (R148, R150) -/

/-- R150: contributions combined from the first on, with the flags of every combination. -/
def redAll (op : Nat) (l : List (List (W32 × Bool))) : List (W32 × Bool) × BitVec 2 :=
  (l.drop 1).foldl (fun a y => ((redCombine op a.1 y).1, a.2 ||| (redCombine op a.1 y).2)) (l.headD [], 0)
/-- R150: the ranks of the dies that send to the die of a rank, in the order of its ports. -/
def Coll.kidRanks (x : Coll) (j : Job) (rank : Nat) : List Nat :=
  (redKids (x.parts.map fun r => (j.dies.getD r 0).val) (j.dies.getD rank 0).val x.gov.die.val).map fun y => (j.dies.map (·.val)).idxOf y
/-- R150: that a list is what the router of a rank's die combines beside what its ports bring: the rank's contribution, all of which is there, where the rank takes part, and
nothing where it does not; some port then sends to its die. -/
def Coll.ownInput (x : Coll) (j : Job) (rank len : Nat) : List (List (W32 × Bool)) → Prop
  | [w] => x.parts.contains rank = true ∧ ranked x.contribs rank = some w ∧ w.length = len / 4
  | [] => x.parts.contains rank = false ∧ x.kidRanks j rank ≠ []
  | _ => False

/-- R150: the router of a rank's die combines what is its own, then what has come in on its ports, in their order. -/
theorem exec_reductionCombine_combines {s : State} {n rank op len : Nat} {x : Coll} {j : Job} {own ps : List (List (W32 × Bool))} (hx : s.link.colls[n]? = some x)
    (hv : s.fw.saved.any (fun v => v.job = x.job) = false) (hj : s.job x.job = some j) (hr : x.resh = false) (ho : s.rootOf x = some (op, len)) (hl : rank < j.dies.length)
    (hn : ranked x.partials rank = none) (hps : (x.kidRanks j rank).map (ranked x.partials) = ps.map some) (hown : x.ownInput j rank len own) :
    exec (.reductionCombine n rank) s =
      .next (s.modColl n fun y => { y with partials := y.partials ++ [(rank, (redAll op (own ++ ps)).1)], flags := y.flags ||| (redAll op (own ++ ps)).2 }) := by
  have hval : (ps.map some).filterMap id = ps := by simp
  show s.onColl n _ = _
  rw [State.onColl_of_resident hx hv]
  unfold Coll.kidRanks at hps
  match own, hown with
  | [w], ⟨hm, hw, hlen⟩ =>
    simp only [reduceStep, hx, ho, hj, hps, hval, hm, hw, if_true]
    rw [if_neg (by simp [hr, hn, hl, hlen])]
    rfl
  | [], ⟨hm, hk⟩ =>
    have hk : List.isEmpty _ = false := List.isEmpty_eq_false_iff.2 hk
    unfold Coll.kidRanks at hk
    simp only [reduceStep, hx, ho, hj, hps, hval, hm, hk, Bool.false_eq_true, if_false]
    rw [if_neg (by simp [hr, hn, hl])]
    rfl

/-! ## XRESH (R155, R160) -/

section
variable {s : State} {n : Nat} {x : Coll} (hx : s.link.colls[n]? = some x) (hv : s.fw.saved.any (fun v => v.job = x.job) = false) (hp : s.phase ≠ .dusk) (hr : x.resh = true)
  (h0 : x.status = 0) {om nm : Nat} {ob nb : W64} {dim : BitVec 24}
include hx hv hp hr h0

/-- R160 item 4: a phase, once every die's command has started and no earlier XRESH of the span goes on. -/
theorem exec_xreshPhase_moves (hph : x.phase < 2 * x.parts.length - 1) (hf : (s.link.colls.take n).any (fun y => y.resh && y.job = x.job) = false)
    (ha : (s.startAll x).allStarted x = true) (hm : (s.startAll x).reshMaps x = some (om, ob, dim, nm, nb)) :
    let t := s.startAll x
    let send (y : State) (r : Nat) : State := y.reshSend n x r ((r + x.phase) % x.parts.length) (om, ob) (nm, nb) dim
    let r := t.orBanks (if x.phase < x.parts.length then x.parts.foldl send t else t) n
    exec (.xreshPhase n) s = .next (if r.2 then r.1.modColl n fun y => { y with phase := y.phase + 1 } else r.1) := by
  have hp : (s.phase != .dusk) = true := by simpa using hp
  show s.onColl n _ = _
  rw [State.onColl_of_resident hx hv]
  simp only [reshPhaseStep, hx, hr, hp, hf, Bool.not_false, Bool.and_self, if_true, hm]
  rw [if_neg (by simp only [ha, h0, Nat.not_le.2 hph]; decide)]

/-- R160 item 3: after the last phase every rank zeroes what no element has reached. -/
theorem exec_xreshSwitch_zeroes (hm : s.reshMaps x = some (om, ob, dim, nm, nb)) (hph : x.phase = 2 * x.parts.length - 1) :
    let r := s.orBanks (x.parts.foldl (fun t r => t.zeroUnreached n x om ob dim nm nb r) s) n
    exec (.xreshSwitch n) s = .next (if r.2 then r.1.modColl n fun y => { y with phase := y.phase + 1 } else r.1) := by
  show s.onColl n _ = _
  rw [State.onColl_of_resident hx hv]
  simp only [reshSwitchStep, hx, hm]
  rw [if_neg (by simp [hr, hp, h0, hph]), if_pos hph]

/-- The end of a rank's command at the switch: STATUS 4 where it sent what is poisoned. -/
def State.endRank (x : Coll) (s : State) (r : Nat) : State :=
  match s.collCmd x r with
  | some (h, k, e) => s.engineEnd h k e (if e.poi then 4 else 0)
  | none => s

/-- R160 item 5: then the shard registers switch on every die together, and every command ends. -/
theorem exec_xreshSwitch_ends (hm : s.reshMaps x = some (om, ob, dim, nm, nb)) (hph : 2 * x.parts.length - 1 < x.phase)
    (hw : (x.parts.filterMap fun r => s.collCmd x r).any (fun y => s.durWaits y.2.2) = false)
    (he : (x.parts.filterMap fun r => s.collCmd x r).all (fun y => s.endReady y.1 y.2.2) = true) :
    exec (.xreshSwitch n) s = .next (x.parts.foldl (State.endRank x) (s.setShard x.job (BitVec.ofNat 64 nm) nb)) := by
  have he : (x.parts.filterMap fun r => s.collCmd x r).any (fun y => !s.endReady y.1 y.2.2) = false := by
    rw [List.any_eq_not_all_not]
    simpa using he
  show s.onColl n _ = _
  rw [State.onColl_of_resident hx hv]
  simp only [reshSwitchStep, hx, hm, hw, he, Bool.false_eq_true, if_false]
  rw [if_neg (by simp [hr, hp, h0, hph.le]), if_neg hph.ne']
  rfl

end

end Sys2Proof.Machine
end

section
/-! PROOFS. What one part of a command does to memory: the writes of its pieces, and nothing else. -/
namespace Sys2Proof.Machine

/-! ## A store outside every replicated page (R93) -/

/-- Outside every replicated page a store leaves its bytes at its location and keeps every other byte. -/
theorem State.byteAt_storeAt_unshared {s : State} {l : Loc} (hu : s.homeUp l = true) (hs : s.memWf) (h : s.unshared l) (d : DieId) (ctx : BitVec 16) (lt : Nat) (bs : List Byte)
    (bad : Bool) :
    (∀ i (hi : i < bs.length), (s.storeAt d ctx lt l bs bad).2.byteAt (l.plus i) = bs[i])
    ∧ ∀ x, (∀ i, i < bs.length → x ≠ l.plus i) → (s.storeAt d ctx lt l bs bad).2.byteAt x = s.byteAt x := by
  obtain ⟨u, h1, h2⟩ := State.storeAt_unshared hu d ctx lt bs bad h
  have hw : u.memWf := h1.memWf hs
  refine ⟨fun i hi => ?_, fun x hx => ?_⟩
  · rw [h2.byteAt, State.byteAt_homeWrite_in hw l bs bad hi]
  · rw [h2.byteAt, State.byteAt_homeWrite_out hw l bs bad hx, h1.byteAt]
/-- So does the store of a piece, whose bytes come with their poison. -/
theorem State.byteAt_storeAt_piece {s : State} {l : Loc} (hu : s.homeUp l = true) (hs : s.memWf) (h : s.unshared l) (d : DieId) (ctx : BitVec 16) (lt : Nat)
    (bs : List (Byte × Bool)) :
    let t := (s.storeAt d ctx lt l (bs.map (·.1)) (bs.any (·.2))).2
    (∀ i (hi : i < bs.length), t.byteAt (l.plus i) = (bs[i]).1) ∧ ∀ x, (∀ i, i < bs.length → x ≠ l.plus i) → t.byteAt x = s.byteAt x := by
  obtain ⟨hin, hout⟩ := State.byteAt_storeAt_unshared hu hs h d ctx lt (bs.map (·.1)) (bs.any (·.2))
  rw [List.length_map] at hout
  refine ⟨fun i hi => ?_, hout⟩
  rw [hin i (by rwa [List.length_map]), List.getElem_map]

/-! ## A write of a command within a line (R107) -/

/-- Where no page moves, a write reaches the location it names. -/
theorem State.forWrite_of_migs_nil {s : State} (h : s.m.migs = []) (l : Loc) : s.forWrite l = (l, s) := by
  cases l <;> simp [State.forWrite, State.filter, h, migTarget]

section
variable {s t u : State} {c : CoreId} {a : W64} {l : Loc} {bs : List Byte}

/-- A write within a line is one store at its location. -/
theorem State.writeVa_of_line (hn : 0 < bs.length) (ha : a.toNat % 64 + bs.length ≤ 64) (hl : s.locate c a .write = (.ok l, u)) (hm : u.m.migs = []) (lt : Nat) (bad : Bool)
    (fuel : Nat) : s.writeVa c lt a bs bad (fuel + 2) =
      (.ok (u.storeAt c.die (u.core c).task.ctx lt l bs bad).1, (u.storeAt c.die (u.core c).task.ctx lt l bs bad).2) := by
  have hk : min bs.length (64 - a.toNat % 64) = bs.length := by omega
  have he : bs.isEmpty = false := by simpa [List.isEmpty_eq_false_iff, ← List.length_pos_iff] using hn
  simp [State.writeVa, he, hk, hl, State.forWrite_of_migs_nil hm]
/-- So is one of a command's path, where the access can be made. -/
theorem State.engWrite_of_line (hn : 0 < bs.length) (ha : a.toNat % 64 + bs.length ≤ 64) (hr : s.engLoc c a bs.length .write = (.ok (), t)) (hl : t.locate c a .write = (.ok l, u))
    (hm : u.m.migs = []) (e : EngCmd) (bad : Bool) :
    let w := u.storeAt c.die (u.core c).task.ctx e.lt l bs bad
    s.engWrite c e a bs bad = (.ok { e with lt := max e.lt w.1 }, w.2) := by
  simp only [State.engWrite, hr, State.writeVa_of_line hn ha hl hm]

end

/-! ## The pieces of a part (R131, R132, R157, R159) -/

/-- R131 item 1: what a command has counted after more bytes. -/
theorem EngCmd.counted_count (e : EngCmd) (n : Nat) : (e.count n).counted = if e.flg.getLsbD 1 then e.counted else e.counted + n := by
  unfold EngCmd.count
  split <;> rfl

/-- R132: a piece without an address is dropped. -/
theorem vaPut_of_none {dst : Walker} {i : Nat} (h : (dst i).1 = none) (c : CoreId) (bs : List (Byte × Bool)) (p : Part) : vaPut c dst i bs p = p := by
  simp only [vaPut, h]
/-- R132: a piece that an access can be made for is one store at its location, and counts. -/
theorem vaPut_of_line {c : CoreId} {dst : Walker} {i : Nat} {bs : List (Byte × Bool)} {p : Part} {a : W64} {t u : State} {l : Loc} (hd : (dst i).1 = some a) (hn : 0 < bs.length)
    (ha : a.toNat % 64 + bs.length ≤ 64) (hr : p.s.engLoc c a bs.length .write = (.ok (), t)) (hl : t.locate c a .write = (.ok l, u)) (hm : u.m.migs = []) :
    let w := u.storeAt c.die (u.core c).task.ctx p.e.lt l (bs.map (·.1)) (bs.any (·.2))
    vaPut c dst i bs p = ⟨0, ({ p.e with lt := max p.e.lt w.1 } : EngCmd).count bs.length, w.2⟩ := by
  rw [← List.length_map (f := (·.1))] at hn ha hr
  simp only [vaPut, hd, State.engWrite_of_line hn ha hr hl hm]
/-- R157 item 4: a piece to another core's scratchpad, with no receive word, is one store there. -/
theorem State.targetPut_of_ready {c h : CoreId} {off : Nat} {bs : List (Byte × Bool)} {p : Part} (hc : p.s.sameCtx c h = true) (hr : p.s.targetReady h off bs.length 0 = true) :
    let w := p.s.storeAt c.die (p.s.core c).task.ctx p.e.lt (.sp h off) (bs.map (·.1)) (bs.any (·.2))
    State.targetPut c h off 0 bs p = ⟨0, ({ p.e with lt := max p.e.lt w.1 } : EngCmd).count bs.length, w.2⟩ := by
  simp only [State.targetPut, hc, hr, Bool.not_true, ne_eq, not_true_eq_false, decide_false, Bool.false_and, Bool.false_eq_true, if_false, if_true]

/-! ## The writes of a part (R107, R131) -/

/-- What the next access keeps of a state, a part keeps with it. -/
theorem Part.then_keeps {kept : State → Prop} {p : Part} {f : Part → Part} (hp : kept p.s) (hf : kept (f p).s) : kept (p.then f).s := by
  unfold Part.then
  extract_lets q
  split_ifs
  · exact hp
  · exact hf
  · exact hf
/-- What each piece written keeps of a state, the writes of a part keep. -/
theorem engWrites_keeps {kept : State → Prop} {dst : Walker} {total copies : Nat} {bytes : EngCmd → Nat → Nat → Option (List (Byte × Bool))}
    {put : Nat → Nat → List (Byte × Bool) → Part → Part} {p : Part}
    (h : ∀ i d z e bs y, i < total → d < copies → bytes e i z = some bs → kept y.s → kept (put i d bs y).s) (hp : kept p.s) : kept (engWrites dst total copies bytes put p).s := by
  unfold engWrites
  extract_lets write q done pos
  show kept q.s
  refine List.foldlRecOn (motive := fun q => kept q.s) _ write hp fun y hy x hx => Part.then_keeps hy ?_
  obtain ⟨hi, hd⟩ := State.window_mem hx
  split
  · exact hy
  · split
    · exact hy
    case h_2 bs hb => exact h _ _ _ _ _ _ hi hd hb hy

/-- What is recorded of a command changes no byte. -/
theorem State.sameBytes_putCmd (s : State) (c : CoreId) (k : KUnit) (e : EngCmd) : sameBytes s (s.putCmd c k e) := s.sameBytes_modCore c (by cases k <;> rfl)
/-- R131: where nothing is counted on a word and nothing failed, a part does no more than its pieces: it is recorded. -/
theorem State.engPart_of_uncounted {p : Part} (hw : p.e.sw = 0) (h0 : p.status = 0) (c : CoreId) (k : KUnit) (old : EngCmd) : ∃ e, State.engPart c k old p = p.s.putCmd c k e := by
  unfold State.engPart
  extract_lets _ e w spoilt e' s t _
  have he : e.sw = 0 := by
    unfold e
    split <;> exact hw
  have hs : spoilt = false := by simp [spoilt, State.wordPoisoned, he]
  have he' : e' = e := by simp [e', hs]
  have ht : t = s := by simp [t, he', he]
  exact ⟨e', by simp only [hs, Bool.false_eq_true, if_false, h0, if_true, ht, s]⟩

end Sys2Proof.Machine
end

section
/-! PROOFS. The steps of the matrix sequencer and of the engines, and what the pieces of a part write. -/
namespace Sys2Proof.Machine

/-- Settles O57: the cases of each step are the lemmas on the sequencer, on the parts of a command and on collectives; what a part writes is the stores of its pieces. -/
theorem sequencerAndEngineStepResults : Obligations.SequencerAndEngineStepResults := by
  unfold Obligations.SequencerAndEngineStepResults
  intro s hp
  refine ⟨fun hs => ⟨fun i t n mpc f => exec_tileExecution_steps hs hp, fun b both r => exec_mzeroExecution_zeroes hs hp, fun b r => exec_mbankExecution_leaves hs hp,
      fun i d => exec_drainExecution_steps hs hp⟩,
    exec_groupFormation_forms, fun n last pair r => exec_mopldComplete_oldest, fun k n e t hs hr => ?commands, fun n x j hx hj hv => ⟨?call, ?reduction, fun hr h0 => ?xresh⟩,
    fun dst i bs p hn => ⟨fun hd => vaPut_of_none hd _ bs p, fun a t u l hd ha he hl hs hm hu hsh => ?piece, fun h off hc ht hs hu => ?target⟩,
    fun kept dst total copies bytes put p => engWrites_keeps, fun k old p hw h0 => ?recorded⟩
  case commands =>
    have part (hw : t.wordReady s.cur e = true) : exec (.engineWritePerformed k n) s = .next (t.nextPart s.cur k e) := by
      rw [exec_engineWritePerformed_eq hp hs hr, if_pos hw]
    refine ⟨fun hw => ?waits, fun src dst hk hw => ?copy, fun src dst dies core rsw hk hl hw => ?multicast, fun ntok rec rowb src p hk hl hw => ?append,
      fun scat list nx rowb first ntok mem hk hw => ⟨fun x hx => ?listed, fun hx ha => ?misaligned, fun hx ha bs e1 t1 hb => ?extents⟩,
      fun slabs rsw eb d l hk hsl hw => ?halo, fun ctrl reg off nu src btab hk hl hw => ⟨fun hb => ?busy, fun hb => ?load⟩,
      fun rtag op nocont len src dst root ranks i x rank hk hw hc h0 => ⟨fun r hg hm hr hl => ?result, fun h => ?contribute⟩,
      fun x e' t' hd => ⟨fun hx => ?bank, fun hx hdur => ?ends⟩, fun ntok rec rowb src u l0 t1 hk he hl hc => ?reserve⟩
    case waits => simp [exec_engineWritePerformed_eq hp hs hr, hw]
    case copy => simp only [part hw, State.nextPart, hk]
    case multicast => simp only [part hw, State.nextPart, hk, hl, if_true]
    case append => simp only [part hw, State.nextPart, hk, hl, if_true]
    case listed => simp only [part hw, State.nextPart, hk, hx]
    case misaligned => simp only [part hw, State.nextPart, hk, hx, State.stepList_misaligned ha]
    case extents => simp only [part hw, State.nextPart, hk, hx, State.stepList_reads ha hb]
    case halo => simp only [part hw, State.nextPart, hk, State.stepHalo_of_slab hsl]
    case busy => simp only [part hw, State.nextPart, hk, hl, if_true, State.stepMopld, hb]
    case load => simp only [part hw, State.nextPart, hk, hl, if_true, State.stepMopld, hb, Bool.false_eq_true, if_false]
    case result => simp only [part hw, State.nextPart, hk, State.stepXred_result hc h0 hg hm hr hl]
    case contribute => simp only [part hw, State.nextPart, hk, State.stepXred_contribute hc h0 h]
    case bank => rw [exec_engineCompletion_eq hp hs hr hd, if_pos hx]
    case ends => rw [exec_engineCompletion_eq hp hs hr hd, if_neg hx, if_neg (by simpa using hdur)]
    case reserve =>
      rcases hf : t1.forWrite l0 with ⟨l, t2⟩
      exact exec_kvReservation_reserves hp hs hk he hl hc hf
  case call => exact fun rank d hd hm hn ht hf e ha => exec_collectiveCall_pairs hx hv hj hd hm hn ht hf (State.oldestAnswer_of_filter ha)
  case reduction =>
    exact fun rank op len hr ho hl hn ps hps => ⟨fun w hm hw hlen => exec_reductionCombine_combines (own := [w]) hx hv hj hr ho hl hn hps ⟨hm, hw, hlen⟩,
      fun hm hk => exec_reductionCombine_combines (own := []) hx hv hj hr ho hl hn hps ⟨hm, hk⟩⟩
  case xresh =>
    refine ⟨fun hph hf ha om ob dim nm nb => exec_xreshPhase_moves hx hv hp hr h0 hph hf ha, fun om ob dim nm nb hm => ⟨exec_xreshSwitch_zeroes hx hv hp hr h0 hm, ?_⟩⟩
    exact fun hph hw he => exec_xreshSwitch_ends hx hv hp hr h0 hm hph hw he
  case piece =>
    rw [vaPut_of_line hd hn ha he hl hm]
    exact ⟨rfl, EngCmd.counted_count _ _, State.byteAt_storeAt_piece hu hs hsh _ _ _ bs⟩
  case target =>
    rw [State.targetPut_of_ready hc ht]
    refine ⟨rfl, ?_⟩
    have hsh : p.s.unshared (.sp h off) := fun a e => nomatch e
    simpa only [Loc.plus] using State.byteAt_storeAt_piece hu hs hsh s.cur.die (p.s.core s.cur).task.ctx p.e.lt bs
  case recorded =>
    obtain ⟨e, he⟩ := State.engPart_of_uncounted hw h0 s.cur k old
    rw [he]
    exact p.s.sameBytes_putCmd s.cur k e

end Sys2Proof.Machine
end

section
/-! PROOFS. Write-back: the lines that leave, the granules that become durable, and the frames whose lines a migration copies. -/
namespace Sys2Proof.Machine

/-! ## Lines and granules (R279, R281 to R283, R286) -/

/-- R75: what a line transfer counts is kept in a die. -/
@[simp] theorem State.heat_m (s : State) (d : DieId) (a : Nat) : (s.heat d a).m = s.m := by
  unfold State.heat
  extract_lets stale
  split <;> rfl

section
variable {s : State} {line : Nat} (h : line ∈ s.m.dirty)
include h

/-- R279: a line written back is dirty no more. -/
theorem State.not_mem_dirty_writeBack : line ∉ (s.writeBack line).m.dirty := by
  simp [State.writeBack, h]
/-- R282: a dirty tier-3 line leaves as two granules, each with its bytes and the poison of its words. -/
theorem State.granules_writeBack : (s.writeBack line).m.granules = s.m.granules ++ [s.granuleOf line, s.granuleOf (line + 64)] := by
  simp only [State.writeBack, List.contains_iff_mem.2 h, if_true, State.heat_m]
/-- R279, R286: a dirty tier-3 line is written back in every phase, and counted in dusk. -/
theorem exec_lineWriteback_dirty : let u := s.writeBack line
    exec (.lineWriteback line) s = .next (if s.phase = .dusk
      then { u with fw := { u.fw with duskLines := u.fw.duskLines + 1, duskPLines := u.fw.duskPLines + (if poisonAt s.m.poi line 128 then 1 else 0) } } else u) := by
  show execLineWriteback line s = _
  simp [execLineWriteback, h, (State.Quiet.writeBack s line).phase]

end

/-- R279: a line of another tier goes to its device, before dusk. -/
theorem exec_lineWriteback_clean {s : State} {line : Nat} (h : line ∉ s.m.dirty) (hp : s.phase ≠ .dusk) :
    exec (.lineWriteback line) s = .next (s.writeBack line) := by
  show execLineWriteback line s = _
  simp [execLineWriteback, h, hp]

/-- R283: a tracker of more than 128 lines has its oldest dirty line written back; without one it is cleaned of what is durable. -/
theorem exec_persistTrackerWriteback_over {s : State} (h : 128 < s.me.tracker.length) (hp : s.phase ≠ .dusk) :
    exec .persistTrackerWriteback s = .next (match s.me.tracker.find? fun l => s.m.dirty.contains l with
      | some l => s.writeBack l | none => s.trackersClean) := by
  show execPersistTrackerWriteback s = _
  rw [execPersistTrackerWriteback, if_neg (by simp [h, hp])]
  cases s.me.tracker.find? fun l => s.m.dirty.contains l <;> rfl

/-- R283: what leaves the trackers is no more than a record. -/
theorem State.Quiet.trackersClean (s : State) : s.Quiet s.trackersClean := by
  have core (c : CoreId) : ∃ l, s.trackersClean.core c = { s.core c with tracker := l } := by
    simp only [State.trackersClean, State.core, Vector.getElem_map]
    split
    · exact ⟨_, rfl⟩
    · exact ⟨_, rfl⟩
  choose l hl using core
  exact { State.Quiet.refl s with
    core := fun c => hl c ▸ ⟨rfl, rfl, rfl, rfl, rfl, rfl, rfl⟩
    reqs := fun c => by rw [hl c]
    sp := fun c => by rw [hl c] }

/-- Reading at an address that is none of those a list write covers. -/
theorem Memory.read_writeBytes_ne {m : Memory} (h : Memory.wf m = true) (a : Nat) (bs : List Byte) {x : Nat} (hx : ∀ i, i < bs.length → x ≠ a + i) :
    Memory.read (Memory.writeBytes m a bs) x = Memory.read m x := by
  refine Memory.read_writeBytes_out h a bs ?_
  by_contra hn
  exact hx (x - a) (by omega) (by omega)

/-- R281: a granule write that is made durable changes the device alone. -/
theorem State.byteAt_granuleDone (s : State) (g : Granule) (l : Loc) : (s.granuleDone g).byteAt l = s.byteAt l := by
  cases l <;> rfl

/-- R281: the first granule write of its granule completes. -/
theorem exec_durableCompletion_first {s : State} {n : Nat} {g : Granule} (hg : s.m.granules[n]? = some g)
    (hf : (s.m.granules.take n).any (fun h => h.addr = g.addr) = false) :
    exec (.durableCompletion n) s = .next (({ s with m := { s.m with granules := s.m.granules.eraseIdx n } } : State).granuleDone g).trackersClean := by
  show execDurableCompletion n s = _
  simp only [execDurableCompletion, hg, hf, Bool.false_eq_true, if_false]

/-! ## Lines that a migration copies (R78, R280) -/

/-- R280: a line that is copied is dirty then, and no more than that. -/
theorem State.Quiet.moveLine (s : State) (a b : Nat) : (s.copyLine a b).Quiet (s.moveLine a b) := by
  unfold State.moveLine
  exact .dirtied _ b
/-- A change of device memory alone keeps the frame. -/
theorem State.Frame.modMem (s : State) (m : MemState) (hh : m.host = s.m.host) (hp : m.pmem = s.m.pmem) : s.Frame { s with m := m } :=
  { State.Frame.refl s with host := hh, pmem := hp }
/-- R78: a copied line is written to memory alone. -/
theorem State.Frame.moveLine (s : State) (a b : Nat) : s.Frame (s.moveLine a b) := by
  refine .trans ?_ (State.Quiet.moveLine s a b).toFrame
  unfold State.copyLine
  extract_lets u
  exact (State.Quiet.dropCopies s b 128).toFrame.trans (.modMem u _ rfl rfl)
/-- R78: what memory holds once a line is copied. -/
theorem State.mem_copyLine (s : State) (a b : Nat) : (s.copyLine a b).m.mem = Memory.writeBytes s.m.mem b (Memory.bytes s.m.mem a 128) := by
  simp only [State.copyLine, State.dropCopies, State.modDies_m]
theorem State.mem_moveLine (s : State) (a b : Nat) : (s.moveLine a b).m.mem = Memory.writeBytes s.m.mem b (Memory.bytes s.m.mem a 128) :=
  (State.Quiet.moveLine s a b).mem.trans (s.mem_copyLine a b)
theorem State.sp_moveLine (s : State) (a b : Nat) (c : CoreId) : ((s.moveLine a b).core c).sp = (s.core c).sp := by
  rw [(State.Quiet.moveLine s a b).sp]
  simp only [State.copyLine]
  rfl

section
variable {s : State} (hs : s.memWf) (a b : Nat)
include hs

/-- R78: a copied line of the new frame holds the bytes of the old one's, as they stood before. -/
theorem State.byteAt_moveLine_in {i : Nat} (hi : i < 128) : (s.moveLine a b).byteAt (.pa (b + i)) = s.byteAt (.pa (a + i)) := by
  have hl : (Memory.bytes s.m.mem a 128).length = 128 := by simp [Memory.bytes_eq_map]
  rw [State.byteAt, State.mem_moveLine, Memory.read_writeBytes_in hs.1 b _ (hl.symm ▸ hi)]
  simp only [Memory.bytes_eq_map, List.getElem_map, List.getElem_range, State.byteAt]
/-- R78: the copy of a line changes no byte beside it. -/
theorem State.byteAt_moveLine_out {l : Loc} (hl : ∀ i, i < 128 → l ≠ .pa (b + i)) : (s.moveLine a b).byteAt l = s.byteAt l := by
  cases l with
  | sp c o => rw [State.byteAt, State.sp_moveLine, State.byteAt]
  | pa x =>
    rw [State.byteAt, State.mem_moveLine, State.byteAt]
    refine Memory.read_writeBytes_ne hs.1 b _ fun i hi => ?_
    rw [Memory.bytes_eq_map, List.length_map, List.length_range] at hi
    exact fun hx => hl i hi (congrArg Loc.pa hx)

end

end Sys2Proof.Machine
end

section
/-! PROOFS. Migrations: their passes, the switch and what it leaves in the page's leaf, the logs and the filter. -/
namespace Sys2Proof.Machine

/-! ## Passes and ends (R78, R79, R289) -/

section
variable {s : State} {n : Nat} {g : Migration} (hg : s.m.migs[n]? = some g)
include hg

/-- R78: a pass copies the lines it names, and the next one those marked from then on. -/
theorem exec_migrationCopyPass_copies (hp : s.phase ≠ .dusk) {l : List Nat}
    (h : g.phase = 1 ∧ l = List.range (pageBytes g.size.toNat / 128) ∨ g.phase = 2 ∧ g.pass < 4 ∧ 64 < g.dirty.length ∧ l = g.dirty) :
    exec (.migrationCopyPass n) s = .next (State.modMig (l.foldl (fun s i => s.moveLine (g.old + 128 * i) (g.new + 128 * i)) s) n
      fun g => { g with phase := 2, dirty := [], pass := g.pass + 1 }) := by
  show execMigrationCopyPass n s = _
  obtain ⟨h1, rfl⟩ | ⟨h2, h4, h64, rfl⟩ := h
  · simp [execMigrationCopyPass, hg, hp, h1]
  · simp [execMigrationCopyPass, hg, hp, h2, h4, h64]

/-- R78 phase 3: after the passes the switch begins, in the journal too. -/
theorem exec_migrationSwitch_begins (hp : s.phase ≠ .dusk) (h2 : g.phase = 2) (h : g.dirty.length ≤ 64 ∨ 4 ≤ g.pass) :
    exec (.migrationSwitch n) s = .next ((s.journal g 1).modMig n fun g => { g with phase := 3 }) := by
  show execMigrationSwitch n s = _
  simp [execMigrationSwitch, hg, hp, h2, h]

/-- R78, R79: the switch ends, and the writes it held are performed. -/
theorem exec_migrationSwitch_ends (hp : s.phase ≠ .dusk) (h3 : g.phase = 3) : exec (.migrationSwitch n) s = .next (s.finishSwitch g).releaseHeld.endOwed := by
  show execMigrationSwitch n s = _
  simp [execMigrationSwitch, hg, hp, h3]

/-- R78 phase 4: with the entry applied everywhere and no access left at the old frame, the redirection ends. -/
theorem exec_migrationRedirectEnd_releases (h4 : g.phase = 4) (ha : s.cores.all (fun k => k.applied g.seq) = true)
    (hu : s.underWay g.old (pageBytes g.size.toNat) = false) :
    exec (.migrationRedirectEnd n) s = .next (({ s with m := { s.m with migs := s.m.migs.eraseIdx n } } : State).startQueued.retireDone) := by
  show execMigrationRedirectEnd n s = _
  simp [execMigrationRedirectEnd, hg, h4, State.released, ha, hu]

end

/-! ## Walks beside a change of the dies (R67 to R70) -/

section
variable (s : State) {f : Die → Die} (hf : ∀ x, (f x).live = x.live)
include hf

theorem State.backed_modDies (pa : Nat) : (s.modDies f).backed pa = s.backed pa := by
  have live (d : DieId) : (s.modDies f).dieLive d = s.dieLive d := (State.Quiet.modDies s hf).dieLive d
  simp only [State.backed, live]
  rfl
theorem State.entryMeans_modDies (a level : Nat) (e : W64) (bad : Bool) : (s.modDies f).entryMeans a level e bad = s.entryMeans a level e bad := by
  simp only [State.entryMeans, State.leafBad, State.tableBad, s.backed_modDies hf]
  rfl
theorem State.walkFrom_modDies (va fuel table level : Nat) : (s.modDies f).walkFrom va fuel table level = s.walkFrom va fuel table level := by
  induction fuel generalizing table level with
  | zero => rfl
  | succ fuel ih =>
    rw [State.walkFrom, State.walkFrom]
    simp only [s.entryMeans_modDies hf, ih]
    rfl
/-- Firmware's walk sees of a die only whether it is in service. -/
theorem State.walk_modDies (root va : Nat) : (s.modDies f).walk root va = s.walk root va := s.walkFrom_modDies hf va 4 root 0

end

/-! ## The end of a switch (R75, R78, R82, R85) -/

@[simp] theorem State.die_modCtx (s : State) (x : BitVec 16) (f : Ctx → Ctx) (d : DieId) : (s.modCtx x f).die d = s.die d := rfl
/-- R82: an entry that is appended stands last in every die's log. -/
theorem State.getLast_log_appendLog (s : State) (va : Nat) {size : Nat} (hn : size < 3) (kind : Nat) (ctx : BitVec 16) (d : DieId) :
    ∃ q, ((s.appendLog va size kind ctx).die d).log.getLast? =
      some ⟨BitVec.ofNat 64 (va / pageBytes size * pageBytes size / 0x10000 * 0x10000 % 2 ^ 56), BitVec.ofNat 2 size, q, BitVec.ofNat 16 kind, ctx⟩ := by
  simp only [State.appendLog, hn, if_true, State.die, State.modDies, Vector.getElem_map]
  rw [List.getLast?_drop, if_neg (by simp), List.getLast?_concat]
  exact ⟨_, rfl⟩

/-- R78: the switch of a migration between frames outside tier 3 copies the lines still marked, and then the page goes over. -/
theorem State.finishSwitch_of_tier {g : Migration} (hn : tierOf g.new ≠ 3) (ho : tierOf g.old ≠ 3) (s : State) :
    s.finishSwitch g = (g.dirty.foldl (fun y l => y.moveLine (g.old + 128 * l) (g.new + 128 * l)) s).migSwitch { g with dirty := [] } := by
  simp only [State.finishSwitch, hn, if_false, State.journal, ho, decide_false, Bool.false_and, Bool.false_eq_true]

/-- R75: the new frame's heat starts at zero. -/
def Migration.cool (g : Migration) (d : Die) : Die :=
  if d.heat.isEmpty then d else { d with heat := d.heat.filter fun h => h.1 < g.new / 0x10000 || (g.new + pageBytes g.size.toNat) / 0x10000 ≤ h.1 }
theorem Migration.live_cool (g : Migration) (d : Die) : (g.cool d).live = d.live := by
  unfold Migration.cool
  split <;> rfl

/-- R78: the page of a migration as its leaf names it after the switch. -/
def Migration.leafAfter (g : Migration) (e : W64) : W64 :=
  let tier : Nat := match tierOf g.new with | 4 => 0 | t => t
  (e &&& ~~~(BitVec.ofNat 64 0x000FFFFFFFFF0310)) ||| BitVec.ofNat 64 (g.new + tier * 256)
theorem Migration.leafAfter_eq (g : Migration) (e : W64) : g.leafAfter e =
    ((e &&& ~~~(BitVec.ofNat 64 0x000FFFFFFFFF0310)) ||| BitVec.ofNat 64 (g.new + (if tierOf g.new = 4 then 0 else tierOf g.new) * 256)) := by
  unfold Migration.leafAfter
  split
  · next h => rw [if_pos h]
  · next h => rw [if_neg h]
/-- R78: the leaf of a migration's page, where the walk finds it, names the new frame. -/
def State.switchLeaf (s : State) (g : Migration) : State :=
  match s.ctx g.ctx with
  | none => s
  | some x =>
    match s.walk x.root g.va.toNat with
    | .leaf a _ e => s.writeLeaf a g.size.toNat (g.leafAfter e)
    | _ => s
/-- R78 phase 4: the filter sends what reaches the old frame to the new one, until the log's newest entry is applied. -/
def State.redirect (s : State) (g : Migration) : State :=
  { s with m := { s.m with migs := s.m.migs.map fun h => if h.old = g.old then { h with phase := 4, dirty := [], seq := (s.die 0).seq } else h } }
@[simp] theorem State.die_redirect (s : State) (g : Migration) (d : DieId) : (s.redirect g).die d = s.die d := rfl
theorem State.Quiet.redirect (s : State) (g : Migration) : s.Quiet (s.redirect g) := .modMem s _ rfl rfl rfl rfl
/-- R75, R78: what a switch does, in its order. -/
theorem State.migSwitch_eq (s : State) (g : Migration) : ∃ f,
    s.migSwitch g = ((((s.modDies g.cool).switchLeaf g).appendLog g.va.toNat g.size.toNat 1 g.ctx).modCtx g.ctx f).redirect g := by
  unfold State.migSwitch
  extract_lets lo hi s1 tier s2 s3 s4
  have h1 : s1 = s.modDies g.cool := rfl
  have h2 : s2 = s1.switchLeaf g := rfl
  rw [← h1, ← h2]
  exact ⟨_, rfl⟩

/-- R78: of the migrations of the old frame, each is a redirection to the log's newest entry. -/
theorem State.migs_migSwitch (s : State) (g : Migration) {h : Migration} (hm : h ∈ (s.migSwitch g).m.migs) (ho : h.old = g.old) :
    h.phase = 4 ∧ h.dirty = [] ∧ h.seq = ((s.migSwitch g).die 0).seq := by
  obtain ⟨f, hf⟩ := s.migSwitch_eq g
  rw [hf] at hm ⊢
  generalize (State.appendLog _ _ _ _ _).modCtx _ f = v at hm ⊢
  obtain ⟨q, -, rfl⟩ := List.mem_map.1 hm
  by_cases hq : q.old = g.old
  · simp only [hq, if_true, true_and]
    rfl
  · rw [if_neg hq] at ho
    exact absurd ho hq

/-- R82: the switch is in every die's log, as an entry of kind 1. -/
theorem State.log_migSwitch (s : State) {g : Migration} (hn : g.size.toNat < 3) (d : DieId) :
    ∃ q, ((s.migSwitch g).die d).log.getLast? =
      some ⟨BitVec.ofNat 64 (g.va.toNat / pageBytes g.size.toNat * pageBytes g.size.toNat / 0x10000 * 0x10000 % 2 ^ 56), BitVec.ofNat 2 g.size.toNat, q, 1, g.ctx⟩ := by
  obtain ⟨f, hf⟩ := s.migSwitch_eq g
  rw [hf, State.die_redirect, State.die_modCtx]
  exact State.getLast_log_appendLog _ g.va.toNat hn 1 g.ctx d

/-- R78: a switch writes the leaf of its page; past that it changes no byte. -/
theorem State.migSwitch_leaf {s : State} {g : Migration} {x : Ctx} {a z : Nat} {e : W64} (hx : s.ctx g.ctx = some x)
    (hw : s.walk x.root g.va.toNat = .leaf a z e) :
    ∃ u, s.Quiet u ∧ (u.homeWrite (.pa (s.normPa a)) (bytesOfNat 8 (g.leafAfter e).toNat) false).Quiet (s.migSwitch g) := by
  have hl : (s.modDies g.cool).switchLeaf g = (s.modDies g.cool).writeLeaf a g.size.toNat (g.leafAfter e) := by
    have hx' : (s.modDies g.cool).ctx g.ctx = some x := hx
    have hw' : (s.modDies g.cool).walk x.root g.va.toNat = .leaf a z e := (s.walk_modDies g.live_cool _ _).trans hw
    simp only [State.switchLeaf, hx', hw']
  obtain ⟨u, hu, hv⟩ := (s.modDies g.cool).writeLeaf_cases a g.size.toNat (g.leafAfter e)
  obtain ⟨f, hf⟩ := s.migSwitch_eq g
  refine ⟨u, .trans (.modDies s g.live_cool) hu, ?_⟩
  rw [hf, hl]
  exact hv.trans (.trans (.appendLog _ _ _ _ _) (.trans (.modCtx _ _ _) (.redirect _ g)))

section
variable {s : State} (hs : s.memWf) {g : Migration} {x : Ctx} {a z : Nat} {e : W64} (hx : s.ctx g.ctx = some x) (hw : s.walk x.root g.va.toNat = .leaf a z e)
include hs hx hw

/-- R78: after a switch the entry of the page names the new frame. -/
theorem State.readN_migSwitch : Memory.readN (s.migSwitch g).m.mem (s.normPa a) 8 = (g.leafAfter e).toNat := by
  obtain ⟨u, hu, hq⟩ := State.migSwitch_leaf hx hw
  rw [hq.mem]
  exact (Memory.readN_writeN_same (hu.memWf hs).1 _ 8 _).trans (Nat.mod_eq_of_lt (g.leafAfter e).isLt)
/-- R78: a switch changes no byte beside that entry. -/
theorem State.byteAt_migSwitch_out {l : Loc} (hl : ∀ i, i < 8 → l ≠ .pa (s.normPa a + i)) : (s.migSwitch g).byteAt l = s.byteAt l := by
  obtain ⟨u, hu, hq⟩ := State.migSwitch_leaf hx hw
  rw [hq.byteAt, State.byteAt_homeWrite_pa (hu.memWf hs) _ _ _ _ (by rwa [length_bytesOfNat]), hu.byteAt]

end

end Sys2Proof.Machine
end

section
/-! PROOFS. Errors of HBM, packets on their way, links and channels. -/
namespace Sys2Proof.Machine

/-! ## Errors of HBM (R86, R334) -/

section
variable {s : State} {pa : Nat} (hb : s.backed pa = true) (ht : tierOf (s.normPa pa) ≤ 1)
include hb ht

/-- R86: what cannot be corrected poisons its line and retires its row. -/
theorem State.readError_uncorrectable : let a := s.normPa pa
    let p : State := { s with m := { s.m with poi := poisonWrite s.m.poi (a / 128 * 128) 128 true } }
    s.readError pa true = (p.rasEvent 6 (s.homeDie a).val a).retireRow (s.homeDie a) (s.rowOf a) := by
  unfold State.readError
  rw [if_neg (by simp [hb, ht])]
  rfl
/-- R86: a corrected error is counted, and the third of its row in a day retires it. -/
theorem State.readError_corrected : let a := s.normPa pa
    let d := s.homeDie a
    let u := ((s.rasEvent 5 d.val a).countSoft s.me.task.ctx).modDie d fun x =>
      { x with rowErrs := (x.rowErrs.filter fun q => s.t.dcyc < q.2 + 86400 * 1250000000) ++ [(s.rowOf a, s.t.dcyc)] }
    s.readError pa false = if 3 ≤ (u.die d).rowErrs.countP (fun q => q.1 = s.rowOf a) then u.retireRow d (s.rowOf a) else u := by
  unfold State.readError
  rw [if_neg (by simp [hb, ht])]
  rfl

end

/-- R334: the scrub of a die handles an error of its own HBM as a read does. -/
theorem exec_patrolScrub_own (s : State) (pa : Nat) (b : Bool) :
    exec (.patrolScrub (s.homeDie (s.normPa pa)) [(pa, b)]) s = exec (.hbmReadError pa b) s := by
  show execPatrolScrub _ _ s = execHbmReadError pa b s
  simp [execPatrolScrub, execHbmReadError]

/-! ## Packets (R135, R141 to R143) -/

section
variable {s : State} {n : Nat} {p : Packet} (hn : s.link.net[n]? = some p)
include hn

/-- R141: a reserved header is dropped, with a RAS event. -/
theorem exec_packetHop_reserved (hr : p.reserved = true) : exec (.packetHop n) s = .next ((s.dropPacket n).rasEvent 3 p.atDie.val p.kind.toNat) := by
  show execPacketHop n s = _
  simp [execPacketHop, hn, hr]

section
variable (hr : p.reserved = false)
include hr

/-- R141: an older kill generation is dropped without one. -/
theorem exec_packetHop_oldGen (ho : s.oldGen p = true) : exec (.packetHop n) s = .next (s.dropPacket n) := by
  show execPacketHop n s = _
  simp [execPacketHop, hn, hr, ho]

variable (ho : s.oldGen p = false) (hp : s.phase ≠ .dusk)
include ho hp

/-- R142, R143: another packet goes one hop on its route, on the channel of that hop. -/
theorem exec_packetHop_hops {k : Nat} {r : List Nat} (hd : p.atDie ≠ p.dst.die) (hk : s.route p.atDie p.dst.die = some (k :: r)) :
    let wrap := !s.linkUp p.atDie k false
    let q := { p with atDie := hopDie p.atDie k, vc := hopVc (wrap || (k :: r) != hops p.atDie p.dst.die [0, 1, 2]) wrap }
    exec (.packetHop n) s = .next { s with link := { s.link with net := s.link.net.set n q } } := by
  show execPacketHop n s = _
  simp [execPacketHop, hn, hr, ho, hp, hd, hk]

/-- R135, R144: the first of its pair of cores enters its channel at its die. -/
theorem exec_channelDelivery_enters (hd : p.atDie = p.dst.die) (hf : (s.link.net.take n).any (fun q => q.src = p.src && q.dst = p.dst) = false) :
    exec (.channelDelivery n) s = .next (((s.dropPacket n).modChan p.dst p.ch fun q => { q with msgs := q.msgs ++ [p.msg] }).retryWaits p.dst) := by
  show execChannelDelivery n s = _
  simp only [execChannelDelivery, hn]
  rw [if_neg (by simp only [hr, ho, hd, hf]; simp [hp])]

end

end

/-! ## Links (R140, R334) -/

section
variable {s : State} {d : DieId} {port : Nat} (h : s.hasPort d port = true)
include h

/-- R334: a failed check counts for the die, and towards the context of the oldest packet at it. -/
theorem exec_flitCrcFailure_packet {p : Packet} (hf : s.link.net.find? (fun q => q.atDie = d) = some p) :
    exec (.flitCrcFailure d port) s = .next ((s.countSoft p.ctx).rasEvent 2 d.val port) := by
  show execFlitCrcFailure d port s = _
  simp [execFlitCrcFailure, h, hf]
/-- R334: without a packet at the die it counts for the die alone. -/
theorem exec_flitCrcFailure_idle (hf : s.link.net.find? (fun q => q.atDie = d) = none) :
    exec (.flitCrcFailure d port) s = .next (s.rasEvent 2 d.val port) := by
  show execFlitCrcFailure d port s = _
  simp only [execFlitCrcFailure, h, hf, Bool.not_true, Bool.false_eq_true, if_false]

/-- R140: a link that is up goes down. -/
theorem exec_linkDown_downs (hl : port ∉ (s.die d).links) :
    exec (.linkDown d port) s = .next ((s.modDie d fun x => { x with links := x.links ++ [port] }).rasEvent 8 d.val port) := by
  show execLinkDown d port s = _
  rw [execLinkDown, if_neg (by simp [h, hl])]

end

/-- R1, R17: a port that carries no traffic has no errors. -/
theorem exec_flitCrcFailure_noPort {s : State} {d : DieId} {port : Nat} (h : s.hasPort d port = false) : exec (.flitCrcFailure d port) s = .next s := by
  show execFlitCrcFailure d port s = _
  rw [execFlitCrcFailure, if_pos (by simp [h])]

/-! ## Channels (R138, R139) -/

/-- R139: the oldest spilled message enters its channel where it has room and none is under way to it. -/
theorem exec_ashpitRefill_refills {s : State} {ch : BitVec 3} {m : Msg} {r : List Msg} (hr : (s.chan s.cur ch).ring = m :: r)
    (hc : (s.chan s.cur ch).msgs.length < (s.chan s.cur ch).cap) (hf : s.inFlight s.cur ch = 0) (hp : s.phase ≠ .dusk) :
    let u := s.modChan s.cur ch fun q => { q with msgs := q.msgs ++ [m], ring := r }
    exec (.ashpitRefill ch) s = .next ((u.modCtx u.me.task.ctx fun x => { x with quota := x.quota + 64 }).retryWaits u.cur) := by
  show execAshpitRefill ch s = _
  simp only [execAshpitRefill, hr]
  rw [if_neg (by simp [hc, hf, hp])]

/-- R138: a die in service checks each context. -/
theorem exec_growCheck_checks {s : State} {d : DieId} (hp : s.phase ≠ .dusk) (hd : s.dieLive d = true) :
    exec (.growCheck d) s = .next (s.fw.ctxs.foldl (fun u x => u.growOne d x) s) := by
  show execGrowCheck d s = _
  rw [execGrowCheck, if_neg (by simp [hp, hd])]

end Sys2Proof.Machine
end

section
/-! PROOFS. The steps of memory and of the fabric. -/
namespace Sys2Proof.Machine

/-- Settles O56: the cases of each step are the lemmas on write-back, on migrations, and on HBM, packets, links and channels. -/
theorem memoryStepResults : Obligations.MemoryStepResults := by
  unfold Obligations.MemoryStepResults
  intro s
  refine ⟨fun line h => ⟨exec_lineWriteback_dirty h, State.not_mem_dirty_writeBack h, State.granules_writeBack h⟩, fun line => exec_lineWriteback_clean,
    exec_persistTrackerWriteback_over, fun n g hg hf hs => ⟨_, exec_durableCompletion_first hg hf, rfl, fun l => ?durableBytes, fun a => rfl,
      fun i hi => ?device, fun a ha => ?deviceElse⟩,
    fun n g hg => ⟨fun hp => ⟨fun h1 => ?firstPass, fun h2 h4 hl => ?laterPass, exec_migrationSwitch_begins hg hp, exec_migrationSwitch_ends hg hp⟩,
      exec_migrationRedirectEnd_releases hg⟩,
    fun pa hb ht => ⟨?uncorrectable, ?corrected, exec_patrolScrub_own s pa⟩,
    fun n p hn => ⟨exec_packetHop_reserved hn, exec_packetHop_oldGen hn, fun hr ho hp =>
      ⟨fun k r hd hk => exec_packetHop_hops hn hr ho hp hd hk, exec_channelDelivery_enters hn hr ho hp⟩⟩,
    fun d port => ⟨exec_flitCrcFailure_noPort, fun h => ⟨fun p => exec_flitCrcFailure_packet h, exec_flitCrcFailure_idle h⟩, exec_linkDown_downs⟩,
    fun ch m r => exec_ashpitRefill_refills, fun d => exec_growCheck_checks,
    fun a b hs => ⟨fun i => State.byteAt_moveLine_in hs a b, fun l => State.byteAt_moveLine_out hs a b, fun x => ?copyHost, fun x => ?copyDevice⟩,
    fun g hg hn ht ho => ?switch⟩
  case durableBytes => rw [(State.Quiet.trackersClean _).byteAt, State.byteAt_granuleDone]; cases l <;> rfl
  case device =>
    obtain ⟨-, -, hd, -⟩ := hs
    exact Memory.read_writeBytes_in hd g.addr g.data hi
  case deviceElse =>
    obtain ⟨-, -, hd, -⟩ := hs
    exact Memory.read_writeBytes_ne hd g.addr g.data ha
  case firstPass => exact exec_migrationCopyPass_copies hg hp (.inl ⟨h1, rfl⟩)
  case laterPass => exact exec_migrationCopyPass_copies hg hp (.inr ⟨h2, h4, hl, rfl⟩)
  case uncorrectable => exact congrArg Host.Outcome.next (State.readError_uncorrectable hb ht)
  case corrected => exact congrArg Host.Outcome.next (State.readError_corrected hb ht)
  case copyHost => rw [(State.Frame.moveLine s a b).host]
  case copyDevice => rw [(State.Frame.moveLine s a b).pmem]
  case switch =>
    rw [State.finishSwitch_of_tier ht ho]
    refine ⟨fun h => State.migs_migSwitch _ _, fun d => ?log, fun x a z e hs hx hw => ⟨?leaf, fun l =>
      State.byteAt_migSwitch_out (g := { g with dirty := [] }) hs hx hw⟩⟩
    case log =>
      obtain ⟨q, hq⟩ := State.log_migSwitch _ (g := { g with dirty := [] }) hn d
      refine ⟨_, hq, rfl, rfl, ?size, ?page⟩
      case size => exact Nat.mod_eq_of_lt g.size.isLt
      case page => exact Nat.mod_eq_of_lt (Nat.lt_trans (Nat.mod_lt _ (by decide)) (by decide))
    case leaf => rw [State.readN_migSwitch (g := { g with dirty := [] }) hs hx hw, Migration.leafAfter_eq]

end Sys2Proof.Machine
end

section
/-! PROOFS. Containment regions: what opening and closing one does to the region stack, and where each traps. -/
namespace Sys2Proof.Machine

/-! ## Issue of a control operation (R35, Table 14.5) -/

section
variable {s : State} {g : BitVec 4} {e : Bool} {f : BitVec 10} {v : Val} (h : s.ready .c g e f v = true)
include h

/-- A control operation that is ready runs its action on F. -/
theorem controlOp_ready (act : SVal → State → State) : controlOp g e f act s = .next (act v.toS s) := by
  rw [controlOp, State.issueMove_ready h]
/-- One that consumes poison runs its action on a clean F. -/
theorem controlClean_ready (hc : v.toS.poi = false) (act : W64 → State → State) : controlClean g e f act s = .next (act v.toS.val s) := by
  rw [controlClean, State.issueMove_ready h, Val.poiS, hc, State.needClean_clean]

/-! ## Regions (R329, R330) -/

/-- R330: below depth 4 an OPEN makes F the innermost handler. -/
theorem exec_crgnOpen_opens (hc : v.toS.poi = false) (hd : s.pipe.trap.regions.length < 4) :
    exec (.crgnOpen g e f) s = .next (s.modPipe fun p =>
      { p with trap := { p.trap with regions := ⟨v.toS.val.setWidth 32, s.me.engSeq⟩ :: p.trap.regions } }).issued := by
  show execCrgnOpen g e f s = _
  rw [execCrgnOpen, controlClean_ready h hc, if_neg (Nat.not_le.2 hd)]
/-- R330: an OPEN at depth 4 raises cause 0x02 with F. -/
theorem exec_crgnOpen_full (hc : v.toS.poi = false) (hd : ¬s.pipe.trap.regions.length < 4) :
    exec (.crgnOpen g e f) s = .next (s.trapAt .c 0x02 v.toS.val) := by
  show execCrgnOpen g e f s = _
  rw [execCrgnOpen, controlClean_ready h hc, if_pos (Nat.not_lt.1 hd)]
/-- R330: above the depth at entry to the level, a CLOSE removes the innermost region. -/
theorem exec_crgnClose_closes (hd : s.pipe.trap.entryDepth < s.pipe.trap.regions.length) :
    exec (.crgnClose g e f) s = .next (s.modPipe fun p => { p with trap := { p.trap with regions := p.trap.regions.drop 1 } }).issued := by
  show execCrgnClose g e f s = _
  rw [execCrgnClose, controlOp_ready h, if_neg (Nat.not_le.2 hd)]
/-- R330: a CLOSE at the depth at entry to the level raises cause 0x02 with the current depth. -/
theorem exec_crgnClose_atEntryDepth (hd : ¬s.pipe.trap.entryDepth < s.pipe.trap.regions.length) :
    exec (.crgnClose g e f) s = .next (s.trapAt .c 0x02 (BitVec.ofNat 64 s.pipe.trap.regions.length)) := by
  show execCrgnClose g e f s = _
  rw [execCrgnClose, controlOp_ready h, if_pos (Nat.not_lt.1 hd)]

end

/-- Settles O43: each operation splits on whether its depth allows it, and the four cases are the lemmas above. -/
theorem containmentRegionResults : Obligations.ContainmentRegionResults := by
  unfold Obligations.ContainmentRegionResults
  intro s g e f v h hc t
  constructor
  · split
    case isTrue hd => exact exec_crgnOpen_opens h hc hd
    case isFalse hd => exact exec_crgnOpen_full h hc hd
  · split
    case isTrue hd => exact exec_crgnClose_closes h hd
    case isFalse hd => exact exec_crgnClose_atEntryDepth h hd

end Sys2Proof.Machine
end

section
/-! PROOFS. The decoder and the encoder read the same tables: what a port decodes to has the fields it was decoded from, and every instruction's port decodes to it. -/
namespace Sys2Proof

/-! ## Rows of a port table (Tables 2.14 to 2.18) -/

/-- The operation of each port of a row encodes in slot `sl` to that port, with the guard, the mode and the source that it was made with. -/
def RowEncodes (sl : Slot) (base n : Nat) (mk : Nat → BitVec 4 → Bool → BitVec 10 → Instr) : Prop :=
  ∀ k < n, ∀ g e f, (mk k g e f).fields = some ⟨sl, g, BitVec.ofNat 9 (base + k), e, f⟩ ∧ (mk k g e f).operandWf = true
/-- Every row of a table does. -/
def TableEncodes (sl : Slot) (rows : List (Nat × Nat × (Nat → BitVec 4 → Bool → BitVec 10 → Instr))) : Prop :=
  ∀ r ∈ rows, RowEncodes sl r.1 r.2.1 r.2.2

/-- The row that is found is one of the table's, and holds the port. -/
theorem findPort_eq_some {α : Type} {rows : List (Nat × Nat × α)} {q k : Nat} {mk : α} (h : findPort rows q = some (k, mk)) :
    ∃ base n, (base, n, mk) ∈ rows ∧ k < n ∧ q = base + k := by
  induction rows with
  | nil => cases h
  | cons r rest ih =>
    obtain ⟨base, n, mk'⟩ := r
    simp only [findPort] at h
    split at h
    case isTrue hq =>
      simp only [Bool.and_eq_true, decide_eq_true_eq] at hq
      cases h
      exact ⟨base, n, by simp, by omega, by omega⟩
    case isFalse =>
      obtain ⟨b, m, hm, hk⟩ := ih h
      exact ⟨b, m, by simp [hm], hk⟩
/-- A row of a unit's own table is the row of the shared table, for that unit. -/
theorem findPort_map {α β : Type} (u : α → β) (rows : List (Nat × Nat × α)) (q : Nat) :
    findPort (rows.map fun r => (r.1, r.2.1, u r.2.2)) q = (findPort rows q).map fun r => (r.1, u r.2) := by
  induction rows with
  | nil => rfl
  | cons r rest ih =>
    simp only [List.map_cons, findPort, ih]
    split <;> rfl
/-- What a port decodes to in a table that encodes its rows has the fields it was decoded from. -/
theorem TableEncodes.fields {sl : Slot} {rows : List (Nat × Nat × (Nat → BitVec 4 → Bool → BitVec 10 → Instr))} (h : TableEncodes sl rows) {g : BitVec 4} {port : BitVec 9}
    {e : Bool} {f : BitVec 10} {i : Instr} (hi : (findPort rows port.toNat).map (fun r => r.2 r.1 g e f) = some i) :
    i.fields = some ⟨sl, g, port, e, f⟩ ∧ i.operandWf = true := by
  obtain ⟨⟨k, mk⟩, hf, rfl⟩ := Option.map_eq_some_iff.1 hi
  obtain ⟨base, n, hm, hk, hp⟩ := findPort_eq_some hf
  have hr := h _ hm k hk g e f
  rwa [← hp, BitVec.ofNat_toNat, BitVec.setWidth_eq] at hr
/-- The same, of a table that two units share. -/
theorem TableEncodes.fields_unit {α : Type} {sl : Slot} {u : α} {rows : List (Nat × Nat × (α → Nat → BitVec 4 → Bool → BitVec 10 → Instr))}
    (h : TableEncodes sl (rows.map fun r => (r.1, r.2.1, r.2.2 u))) {g : BitVec 4} {port : BitVec 9} {e : Bool} {f : BitVec 10} {i : Instr}
    (hi : (findPort rows port.toNat).map (fun r => r.2 u r.1 g e f) = some i) : i.fields = some ⟨sl, g, port, e, f⟩ ∧ i.operandWf = true := by
  have hr := findPort_map (fun mk => mk u) rows port.toNat
  refine h.fields ?_
  rw [hr, Option.map_map]
  exact hi

/-! ## The tables of the slots -/

theorem controlPorts_encode : TableEncodes .c controlPorts := by
  rw [TableEncodes, controlPorts, controlPorts1, controlPorts2]
  simp only [List.forall_mem_cons, List.not_mem_nil, false_imp_iff, implies_true, and_true, List.cons_append, List.nil_append]
  and_intros <;> intro k hk g e f <;> interval_cases k <;> exact ⟨rfl, rfl⟩
theorem scalarPorts_encode : TableEncodes .s scalarPorts := by
  rw [TableEncodes, scalarPorts, scalarPorts1, scalarPorts2, scalarPorts3]
  simp only [List.forall_mem_cons, List.not_mem_nil, false_imp_iff, implies_true, and_true, List.cons_append, List.nil_append]
  and_intros <;> intro k hk g e f <;> interval_cases k <;> exact ⟨rfl, rfl⟩
theorem vectorPorts_encode (u : VUnit) : TableEncodes u.slot (vectorPorts.map fun r => (r.1, r.2.1, r.2.2 u)) := by
  rw [TableEncodes, vectorPorts, vectorPorts1, vectorPorts2, vectorPorts3]
  simp only [List.forall_mem_cons, List.not_mem_nil, false_imp_iff, implies_true, and_true, List.cons_append, List.nil_append, List.map_cons, List.map_nil]
  and_intros <;> intro k hk g e f <;> interval_cases k <;> exact ⟨rfl, rfl⟩
theorem matrixPorts_encode : TableEncodes .m matrixPorts := by
  rw [TableEncodes, matrixPorts, matrixPorts1]
  simp only [List.forall_mem_cons, List.not_mem_nil, false_imp_iff, implies_true, and_true]
  and_intros <;> intro k hk g e f <;> interval_cases k <;> exact ⟨rfl, rfl⟩
theorem copyPorts_encode (k : KUnit) : TableEncodes k.slot (copyPorts.map fun r => (r.1, r.2.1, r.2.2 k)) := by
  rw [TableEncodes, copyPorts, copyPorts1, copyPorts2]
  simp only [List.forall_mem_cons, List.not_mem_nil, false_imp_iff, implies_true, and_true, List.cons_append, List.nil_append, List.map_cons, List.map_nil]
  and_intros <;> intro k hk g e f <;> interval_cases k <;> exact ⟨rfl, rfl⟩

/-- What a port decodes to has the fields it was decoded from, and operands that its row admits. -/
theorem fields_of_decodePort {m : MoveFields} {i : Instr} (h : decodePort m = some i) : i.fields = some m ∧ i.operandWf = true := by
  obtain ⟨sl, g, port, e, f⟩ := m
  cases sl with
  | c => exact controlPorts_encode.fields h
  | s => exact scalarPorts_encode.fields h
  | va => exact (vectorPorts_encode .va).fields_unit h
  | vb => exact (vectorPorts_encode .vb).fields_unit h
  | m => exact matrixPorts_encode.fields h
  | ka => exact (copyPorts_encode .ka).fields_unit h
  | kb => exact (copyPorts_encode .kb).fields_unit h

/-! ## Every instruction's port -/

/-- A port of a slot that decodes to an instruction and stands for no register. -/
def PortDecodes (m : MoveFields) (i : Instr) : Prop := toRegister m.port = false ∧ portListed m.slot m.port = true ∧ decodePort m = some i

theorem bitVec1_cases (x : BitVec 1) : x = 0 ∨ x = 1 := by revert x; decide
theorem bitVec2_cases (x : BitVec 2) : x = 0 ∨ x = 1 ∨ x = 2 ∨ x = 3 := by revert x; decide
theorem bitVec3_cases (x : BitVec 3) : x = 0 ∨ x = 1 ∨ x = 2 ∨ x = 3 ∨ x = 4 ∨ x = 5 ∨ x = 6 ∨ x = 7 := by revert x; decide

theorem PortDecodes.vector {u : VUnit} {g : BitVec 4} {port : BitVec 9} {e : Bool} {f : BitVec 10} {i : Instr} (hr : toRegister port = false)
    (hp : portListed .va port = true) (hd : (findPort vectorPorts port.toNat).map (fun r => r.2 u r.1 g e f) = some i) : PortDecodes ⟨u.slot, g, port, e, f⟩ i := by
  cases u <;> exact ⟨hr, hp, hd⟩
theorem PortDecodes.copy {k : KUnit} {g : BitVec 4} {port : BitVec 9} {e : Bool} {f : BitVec 10} {i : Instr} (hr : toRegister port = false)
    (hp : portListed .ka port = true) (hd : (findPort copyPorts port.toNat).map (fun r => r.2 k r.1 g e f) = some i) : PortDecodes ⟨k.slot, g, port, e, f⟩ i := by
  cases k <;> exact ⟨hr, hp, hd⟩
@[simp] theorem VUnit.slot_group (u : VUnit) : u.slot.group = .vector := by cases u <;> rfl
@[simp] theorem KUnit.slot_group (k : KUnit) : k.slot.group = .copy := by cases k <;> rfl
@[simp] theorem Slot.group_c : Slot.c.group = .control := rfl
@[simp] theorem Slot.group_s : Slot.s.group = .control := rfl
@[simp] theorem Slot.group_m : Slot.m.group = .matrix := rfl
@[simp] theorem VUnit.slot_ne_s (u : VUnit) : u.slot ≠ .s := by cases u <;> simp [VUnit.slot]
@[simp] theorem VUnit.slot_ne_c (u : VUnit) : u.slot ≠ .c := by cases u <;> simp [VUnit.slot]
@[simp] theorem KUnit.slot_ne_s (k : KUnit) : k.slot ≠ .s := by cases k <;> simp [KUnit.slot]
@[simp] theorem KUnit.slot_ne_c (k : KUnit) : k.slot ≠ .c := by cases k <;> simp [KUnit.slot]

set_option maxRecDepth 4000 in
/-- Table 2.14: every operation of the C slot. The cases go by what stands in the port beside G, E and FROM: nothing, or a number of 1, 2 or 3 bits. -/
theorem controlPort_decodes {i : Instr} {m : MoveFields} (h : i.fields = some m) (hw : i.operandWf = true) (hs : m.slot = .c) (hm : ∀ sl g d e f, i ≠ .move sl g d e f) : PortDecodes m i := by
  cases i
  case move sl g d e f => exact absurd rfl (hm sl g d e f)
  all_goals cases h
  all_goals try (simp at hs; done)
  case br g e f | bri g e f | call g e f | calli g e f | ret g e f | setrm g e f | xfence g e f | pbar g e f | bara g e f | baraRlx g e f |
    barw g e f | bart g e f | fork g e f | join g e f | yield g e f | endTask g e f | tickw g e f | launch g e f | trap g e f | tret g e f |
    crgnOpen g e f | crgnClose g e f | svc g e f | abort g e f | srrd g e f | srwr g e f =>
    exact ⟨rfl, rfl, rfl⟩
  case loop g x e f | endl g x e f =>
    rcases bitVec1_cases x with rfl | rfl <;> exact ⟨rfl, rfl, rfl⟩
  case fenceAcq g x e f | fenceRel g x e f | fenceAr g x e f =>
    rcases bitVec2_cases x with rfl | rfl | rfl | rfl <;> exact ⟨rfl, rfl, rfl⟩
  case setf g x e f =>
    rcases bitVec3_cases x with rfl | rfl | rfl | rfl | rfl | rfl | rfl | rfl <;> exact ⟨rfl, rfl, rfl⟩
set_option maxRecDepth 4000 in
/-- Table 2.15: every operation of the S slot. -/
theorem scalarPort_decodes {i : Instr} {m : MoveFields} (h : i.fields = some m) (hw : i.operandWf = true) (hs : m.slot = .s) (hm : ∀ sl g d e f, i ≠ .move sl g d e f) : PortDecodes m i := by
  cases i
  case move sl g d e f => exact absurd rfl (hm sl g d e f)
  all_goals cases h
  all_goals try (simp at hs; done)
  case add g e f | sub g e f | mul g e f | mulh g e f | mulhu g e f | and g e f | or g e f | xor g e f | andn g e f | shl g e f | shr g e f |
    sar g e f | rotl g e f | minS g e f | maxS g e f | minu g e f | maxu g e f | clz g e f | ctz g e f | popc g e f | sextB g e f | sextH g e f |
    sextW g e f | zextB g e f | zextH g e f | zextW g e f | sel g e f | addW g e f | subW g e f | mulW g e f | lea g e f | cmpEq g e f |
    cmpNe g e f | cmpLt g e f | cmpLe g e f | cmpLtu g e f | cmpLeu g e f | div g e f | divu g e f | rem g e f | remu g e f | divW g e f |
    divuW g e f | remW g e f | remuW g e f =>
    exact ⟨rfl, rfl, rfl⟩
  case aadd g x e f | amin g x e f | amax g x e f | aminu g x e f | amaxu g x e f | aand g x e f | aor g x e f | axor g x e f | axchg g x e f |
    acas g x e f | aaddN g x e f | aminN g x e f | amaxN g x e f | aminuN g x e f | amaxuN g x e f | aandN g x e f | aorN g x e f | axorN g x e f =>
    rcases bitVec1_cases x with rfl | rfl <;> exact ⟨rfl, rfl, rfl⟩
  case ldB g x e f | ldH g x e f | ldW g x e f | ldD g x e f | lduB g x e f | lduH g x e f | lduW g x e f | stB g x e f | stH g x e f | stW g x e f |
    stD g x e f =>
    rcases bitVec2_cases x with rfl | rfl | rfl | rfl <;> exact ⟨rfl, rfl, rfl⟩
  case pwldW g x e f | pwldD g x e f =>
    rcases bitVec3_cases x with rfl | rfl | rfl | rfl | rfl | rfl | rfl | rfl <;> exact ⟨rfl, rfl, rfl⟩
set_option maxRecDepth 4000 in
/-- Table 2.16: every operation of the VA and VB slots, of the floating family those of types 0 to 2 (R213). -/
theorem vectorPort_decodes {i : Instr} {m : MoveFields} (h : i.fields = some m) (hw : i.operandWf = true) (hs : m.slot.group = .vector) (hm : ∀ sl g d e f, i ≠ .move sl g d e f) : PortDecodes m i := by
  cases i
  case move sl g d e f => exact absurd rfl (hm sl g d e f)
  all_goals cases h
  all_goals try (simp at hs; done)
  case msel u g e f | fcmpEq u g e f | fcmpNe u g e f | fcmpLt u g e f | fcmpLe u g e f | fcmpUn u g e f | vsel u g e f | iadd u g e f |
    isub u g e f | imul u g e f | imulh u g e f | imulhu u g e f | iand u g e f | ior u g e f | ixor u g e f | iandn u g e f | ishl u g e f |
    ishr u g e f | isar u g e f | imin u g e f | imax u g e f | iminu u g e f | imaxu u g e f | iabs u g e f | iaddSat u g e f | isubSat u g e f |
    icmpEq u g e f | icmpNe u g e f | icmpLt u g e f | icmpLe u g e f | icmpLtu u g e f | icmpLeu u g e f | cvtFH u g e f | cvtFHh u g e f |
    cvtFB u g e f | cvtFBh u g e f | cvtHF u g e f | cvtBF u g e f | cvtIF u g e f | cvtFI u g e f | cvtI8I u g e f | cvtII8 u g e f |
    vbcast u g e f | vperm u g e f | vrot u g e f | vslup u g e f | vsldn u g e f | vextl u g e f | mand u g e f | mor u g e f | mxor u g e f |
    mnot u g e f | mpop u g e f | mfirst u g e f | frcp u g e f | frsq u g e f | fsqrt u g e f | fexp2 u g e f | flog2 u g e f | fdiv u g e f |
    rsumF u g e f | rmaxF u g e f | rminF u g e f | rsumI u g e f | rmaxI u g e f | rminI u g e f | smx u g e f | smxf u g e f =>
    exact .vector rfl rfl rfl
  case qnt u g x e f | dqnt u g x e f =>
    rcases bitVec3_cases x with rfl | rfl | rfl | rfl | rfl | rfl | rfl | rfl <;> exact .vector rfl rfl rfl
  case fadd u g t e f | fsub u g t e f | fmul u g t e f | ffma u g t e f | ffms u g t e f | fnma u g t e f | fmin u g t e f | fmax u g t e f |
    fabs u g t e f | fneg u g t e f | fcpys u g t e f =>
    rcases bitVec2_cases t with rfl | rfl | rfl | rfl
    case inr.inr.inr => cases hw
    all_goals exact .vector rfl rfl rfl
set_option maxRecDepth 4000 in
/-- Table 2.17: every operation of the M slot. -/
theorem matrixPort_decodes {i : Instr} {m : MoveFields} (h : i.fields = some m) (hw : i.operandWf = true) (hs : m.slot.group = .matrix) (hm : ∀ sl g d e f, i ≠ .move sl g d e f) : PortDecodes m i := by
  cases i
  case move sl g d e f => exact absurd rfl (hm sl g d e f)
  all_goals cases h
  all_goals try (simp at hs; done)
  case mcfg g e f | msla g e f | mslb g e f | mklen g e f | mbthr g e f | mchk g e f | mdtm g e f | mgrp g e f | mbPa g e f | mbP g e f | mbS g e f |
    mbA g e f | mbD g e f | mtile g e f | mtileW g e f | mzero g e f | mbank g e f | mdrnSt g e f | mdrnCvt g e f | mdrnAdd g e f | mdrnAddc g e f |
    mclaimA g e f | mclaimB g e f | mrel g e f | mbndRd g e f | mbndWr g e f | mchkNow g e f | mwait g e f | mstat g e f =>
    exact ⟨rfl, rfl, rfl⟩
set_option maxRecDepth 4000 in
/-- Table 2.18: every operation of the KA and KB slots. -/
theorem copyPort_decodes {i : Instr} {m : MoveFields} (h : i.fields = some m) (hw : i.operandWf = true) (hs : m.slot.group = .copy) (hm : ∀ sl g d e f, i ≠ .move sl g d e f) : PortDecodes m i := by
  cases i
  case move sl g d e f => exact absurd rfl (hm sl g d e f)
  all_goals cases h
  all_goals try (simp at hs; done)
  case kflg u g e f | ksw u g e f | spld u g e f | spldH u g e f | spldBc u g e f | spldG u g e f | spst u g e f | spstM u g e f | spstS u g e f |
    mopld u g e f | mopldT u g e f | xcopy u g e f | xgath u g e f | xscat u g e f | xmcast u g e f | xred u g e f | xhalo u g e f | xresh u g e f |
    swInit u g e f | swAdd u g e f | swWait u g e f | swTest u g e f | swRd u g e f | qput u g e f | qget u g e f | ingPop u g e f | kvApp u g e f |
    kvExt u g e f | pfxHash u g e f | pfxLook u g e f | pfxIns u g e f | pfxPin u g e f | pfxUnpin u g e f =>
    exact .copy rfl rfl rfl
  case spldAg u g x e f | spstAg u g x e f | agSet u g x e f | agPos u g x e f =>
    rcases bitVec2_cases x with rfl | rfl | rfl | rfl <;> exact .copy rfl rfl rfl

/-- Every instruction with fields is a move or the operation of its port. -/
theorem portDecodes_of_fields {i : Instr} {m : MoveFields} (h : i.fields = some m) (hw : i.operandWf = true) (hm : ∀ sl g d e f, i ≠ .move sl g d e f) : PortDecodes m i := by
  cases hs : m.slot with
  | c => exact controlPort_decodes h hw hs hm
  | s => exact scalarPort_decodes h hw hs hm
  | va | vb => exact vectorPort_decodes h hw (by rw [hs]; rfl) hm
  | m => exact matrixPort_decodes h hw (by rw [hs]; rfl) hm
  | ka | kb => exact copyPort_decodes h hw (by rw [hs]; rfl) hm

/-! ## The obligations -/

/-- Table 2.12: a parcel has no fault where its guard and source are well formed, its literal is there, and TO names a register or a port. -/
theorem moveFault_eq_none {sl : Slot} {lit : Bool} {p : Parcel} {m : MoveFields} (hm : MoveFields.ofParcel sl p = m) : moveFault sl lit p = none ↔
    guardWf m.g = true ∧ sourceWf m.e m.f = true ∧ (isLit m.f = true → lit = true) ∧ (toRegister m.port || portListed sl m.port) = true := by
  have ite_none (c : Prop) [Decidable c] (r : Reject) (x : Option Reject) : (if c then some r else x) = none ↔ ¬c ∧ x = none := by split <;> simp [*]
  subst hm
  simp only [moveFault, guardWf, sourceWf, ite_none]
  cases (MoveFields.ofParcel sl p).e <;> cases toRegister (MoveFields.ofParcel sl p).port <;> simp [and_assoc]
/-- A parcel without a fault decodes to a move of the register that TO names, else to the operation of its port. -/
theorem decodeMove_eq_ok {sl : Slot} {lit : Bool} {p : Parcel} {m : MoveFields} {i : Instr} (hm : MoveFields.ofParcel sl p = m) : decodeMove sl lit p = .ok i ↔
    moveFault sl lit p = none ∧ (toRegister m.port = true ∧ i = .move sl m.g m.port m.e m.f ∨ toRegister m.port = false ∧ decodePort m = some i) := by
  simp only [decodeMove, hm]
  cases moveFault sl lit p with
  | some r => simp
  | none => cases toRegister m.port <;> cases decodePort m <;> simp [@eq_comm _ i]
theorem ofParcel_slot (sl : Slot) (p : Parcel) : (MoveFields.ofParcel sl p).slot = sl := rfl
/-- The parcel of a parcel's fields is the parcel (Table 2.3). -/
theorem parcel_ofParcel (sl : Slot) (p : Parcel) : (MoveFields.ofParcel sl p).parcel = p := by
  have he : BitVec.ofBool (p.getLsbD 10) = p.extractLsb' 10 1 := by
    ext i hi
    obtain rfl : i = 0 := by omega
    simp
  have join {a b n k : Nat} (h : a = b + k) : p.extractLsb' a n ++ p.extractLsb' b k = p.extractLsb' b (n + k) := BitVec.extractLsb'_append_extractLsb'_eq_extractLsb' h
  calc (MoveFields.ofParcel sl p).parcel
      = p.extractLsb' 20 4 ++ p.extractLsb' 11 9 ++ BitVec.ofBool (p.getLsbD 10) ++ p.extractLsb' 0 10 := rfl
    _ = p.extractLsb' 0 24 := by rw [he, join (show 20 = 11 + 9 from rfl), join (show 11 = 10 + 1 from rfl), join (show 10 = 0 + 10 from rfl)]
    _ = p := BitVec.extractLsb'_eq_self

/-- Settles O3: TO of an encoded move is a register, and every other instruction's port decodes to it (`portDecodes_of_fields`). -/
theorem decodeOfEncode : Obligations.DecodeOfEncode := by
  intro i sl p lit hw he hl
  obtain ⟨m, hf, hp⟩ := Option.map_eq_some_iff.1 he
  obtain ⟨rfl, rfl⟩ := Prod.mk.inj hp
  rw [Machine.ofParcel_parcel] at hl
  simp only [Instr.wf, hf, Bool.and_eq_true] at hw
  obtain ⟨⟨hg, hs⟩, ho⟩ := hw
  rw [decodeMove_eq_ok (Machine.ofParcel_parcel m), moveFault_eq_none (Machine.ofParcel_parcel m)]
  by_cases hm : ∀ sl g d e f, i ≠ .move sl g d e f
  · obtain ⟨hr, hpl, hd⟩ := portDecodes_of_fields hf ho hm
    exact ⟨⟨hg, hs, hl, by rw [hpl, Bool.or_true]⟩, .inr ⟨hr, hd⟩⟩
  · push Not at hm
    obtain ⟨sl, g, d, e, f, rfl⟩ := hm
    cases hf
    exact ⟨⟨hg, hs, hl, by rw [show toRegister d = true from ho, Bool.true_or]⟩, .inl ⟨ho, rfl⟩⟩

/-- Settles O4: a register's move keeps its fields, and what a port decodes to has the fields of its parcel (`fields_of_decodePort`). -/
theorem encodeOfDecode : Obligations.EncodeOfDecode := by
  intro i sl p lit h
  obtain ⟨hn, hd⟩ := (decodeMove_eq_ok rfl).1 h
  obtain ⟨hg, hs, -, -⟩ := (moveFault_eq_none rfl).1 hn
  have hf : i.fields = some (MoveFields.ofParcel sl p) ∧ i.operandWf = true := by
    rcases hd with ⟨hr, rfl⟩ | ⟨-, hd⟩
    · exact ⟨rfl, hr⟩
    · exact fields_of_decodePort hd
  obtain ⟨hf, ho⟩ := hf
  refine ⟨?_, ?_⟩
  · rw [encode, hf, Option.map_some, parcel_ofParcel, ofParcel_slot]
  · simp only [Instr.wf, hf, hg, hs, ho, Bool.and_true]

/-- Settles O2: the decoder evaluates each word. -/
theorem wordsDecode : Obligations.WordsDecode := by
  unfold Obligations.WordsDecode
  decide

end Sys2Proof
end

section
/-! PROOFS. The scalar unit: compares, division, and the requests of loads, stores, windows and atomics. -/
namespace Sys2Proof.Machine

/-! ## Compares (R178) -/

theorem boolWord_eq (n : Nat) (b : Bool) : boolWord n b = if b then 1 else 0 := by cases b <;> rfl

section
variable {s : State} {g : BitVec 4} {e : Bool} {f : BitVec 10} {v : Val} (h : s.ready .s g e f v = true)
include h

/-- A compare lands the truth of its condition where D names a register, else it traps or consumes the poison of D. -/
theorem scalarCmp_ready (cond : W64 → W64 → Bool) {b : Bool} (hb : cond s.pipe.units.s.x.val v.toS.val = b) :
    scalarCmp g e f cond s = if s.dNamed .s then .next (s.short .s (.sc ⟨if b then 1 else 0, s.pipe.units.s.x.poi || v.toS.poi⟩) 0 (some (s.dOf .s)))
      else if s.pipe.units.bad.getLsbD Slot.s.index then .next (s.consume .s ((s.dOf .s).setWidth 64)) else .next (s.trapAt .s 0x02 (s.moveAddr .s)) := by
  rw [scalarCmp, State.issueMove_ready h]
  split
  case isTrue hd =>
    rw [State.needD_named hd]
    subst hb
    show Host.Outcome.next (s.short .s (.sc ⟨boolWord 64 (cond s.pipe.units.s.x.val v.toS.val), _⟩) 0 _) = _
    rw [boolWord_eq]
  case isFalse hd =>
    split
    case isTrue hp => rw [State.needD_poisoned hp]
    case isFalse hp => rw [State.needD_none (by simpa using hp) (by simpa using hd)]

end

/-- Settles O15: each compare decides its condition on X and F. -/
theorem scalarCompareResults : Obligations.ScalarCompareResults := by
  unfold Obligations.ScalarCompareResults
  intro s g e f v h x w r
  refine ⟨?_, ?_, ?_, ?_, ?_, ?_⟩
  · exact scalarCmp_ready h (fun x f => x == f) rfl
  · exact scalarCmp_ready h (fun x f => x != f) (by simp [bne, Bool.beq_eq_decide_eq, x, w])
  · show execCmpLt g e f s = _
    exact scalarCmp_ready h _ rfl
  · show execCmpLe g e f s = _
    exact scalarCmp_ready h _ rfl
  · show execCmpLtu g e f s = _
    exact scalarCmp_ready h _ rfl
  · show execCmpLeu g e f s = _
    exact scalarCmp_ready h _ rfl

/-! ## Division (R179) -/

section
variable {s : State} {g : BitVec 4} {e : Bool} {f : BitVec 10} {v : Val} (h : s.ready .s g e f v = true)
include h

/-- R41: a division whose D names no register raises cause 0x02. -/
theorem scalarDiv_unnamed (hd : s.dNamed .s = false) (hb : s.pipe.units.bad.getLsbD Slot.s.index = false) (sg rm w : Bool) :
    scalarDiv sg rm w g e f s = .next (s.trapAt .s 0x02 (s.moveAddr .s)) := by
  rw [scalarDiv, State.issueMove_ready h, State.needD_none hb hd]

variable (hd : s.dNamed .s = true) (hp : s.pipe.dividing = false)
include hd hp

/-- With no division pending one that does not trap is a long operation. -/
theorem scalarDiv_runs (sg rm w : Bool) (hz : s.pipe.sys.dze = false ∨ (if w then v.toS.val.setWidth 32 == (0 : W32) else v.toS.val == 0) = false) :
    scalarDiv sg rm w g e f s = .next (s.long .s (.sc ⟨divResult sg rm w s.pipe.units.s.x.val v.toS.val, s.pipe.units.s.x.poi || v.toS.poi⟩) 0 (s.dOf .s)
      (if w then 24 else 40)) := by
  rw [scalarDiv, State.issueMove_ready h, State.needD_named hd, hp]
  simp only [Bool.false_eq_true, if_false, Bool.and_eq_true]
  rw [if_neg]
  rcases hz with hz | hz
  · simp [hz]
  · exact fun hc => absurd hc.2 (by simp only [hz]; decide)
/-- A divisor of 0 under DZE raises cause 0x04 with the D selector, the bundle issued. -/
theorem scalarDiv_traps (sg rm w : Bool) (hz : s.pipe.sys.dze = true) (h0 : (if w then v.toS.val.setWidth 32 == (0 : W32) else v.toS.val == 0) = true) :
    scalarDiv sg rm w g e f s = .next (s.trapIssued .s 0x04 ((s.dOf .s).setWidth 64)) := by
  rw [scalarDiv, State.issueMove_ready h, State.needD_named hd, hp, hz]
  simp only [Bool.false_eq_true, if_false, Bool.true_and, h0, if_true]

end

/-- The results of a division: a divisor of 0 gives all ones and X, and else signed or unsigned quotient and remainder. -/
theorem divide_eq (n : Nat) (sg : Bool) (x f : BitVec n) :
    (divide n sg x f).1 = (if f = 0 then BitVec.allOnes n else if sg then BitVec.ofInt n (x.toInt.tdiv f.toInt) else x / f)
    ∧ (divide n sg x f).2 = (if f = 0 then x else if sg then BitVec.ofInt n (x.toInt.tmod f.toInt) else x % f) := by
  have hq : BitVec.ofNat n (x.toNat / f.toNat) = x / f := by
    apply BitVec.eq_of_toNat_eq
    rw [BitVec.toNat_ofNat, BitVec.toNat_udiv, Nat.mod_eq_of_lt (Nat.lt_of_le_of_lt (Nat.div_le_self _ _) x.isLt)]
  have hr : BitVec.ofNat n (x.toNat % f.toNat) = x % f := by
    apply BitVec.eq_of_toNat_eq
    rw [BitVec.toNat_ofNat, BitVec.toNat_umod, Nat.mod_eq_of_lt (Nat.lt_of_le_of_lt (Nat.mod_le _ _) x.isLt)]
  by_cases hf : f = 0
  · simp only [divide, if_pos hf, and_self]
  · cases sg <;> simp only [divide, if_neg hf, hq, hr, Bool.false_eq_true, if_false, if_true, and_self]

/-- Settles O16: a division is a long operation of the value that `divide_eq` gives. -/
theorem divisionResults : Obligations.DivisionResults := by
  unfold Obligations.DivisionResults
  intro s g e f v h
  refine ⟨fun hd hb i hi => ?_, fun hd hp => ?_⟩
  · simp only [List.mem_cons, List.not_mem_nil, or_false] at hi
    rcases hi with rfl | rfl | rfl | rfl | rfl | rfl | rfl | rfl <;> exact scalarDiv_unnamed h hd hb _ _ _
  intro x w x4 w4 d r sdiv srem udiv urem
  have wide (sg rm : Bool) (u : W64) (hz : s.pipe.sys.dze = false ∨ w ≠ 0) (hu : divResult sg rm false x w = u) : scalarDiv sg rm false g e f s = r u 40 := by
    rw [scalarDiv_runs h hd hp sg rm false (hz.imp_right fun hw => by simpa using hw)]
    exact congrArg (r · 40) hu
  have word (sg rm : Bool) (u : W64) (hz : s.pipe.sys.dze = false ∨ w4 ≠ 0) (hu : divResult sg rm true x w = u) : scalarDiv sg rm true g e f s = r u 24 := by
    rw [scalarDiv_runs h hd hp sg rm true (hz.imp_right fun hw => by simpa using hw)]
    exact congrArg (r · 24) hu
  refine ⟨fun hz => ⟨?_, ?_, ?_, ?_⟩, fun hz => ⟨?_, ?_, ?_, ?_⟩, fun hz => ?_⟩
  · exact wide true false _ hz (divide_eq 64 true x w).1
  · exact wide false false _ hz (divide_eq 64 false x w).1
  · exact wide true true _ hz (divide_eq 64 true x w).2
  · exact wide false true _ hz (divide_eq 64 false x w).2
  · exact word true false _ hz (congrArg (·.signExtend 64) (divide_eq 32 true x4 w4).1)
  · exact word false false _ hz (congrArg (·.signExtend 64) (divide_eq 32 false x4 w4).1)
  · exact word true true _ hz (congrArg (·.signExtend 64) (divide_eq 32 true x4 w4).2)
  · exact word false true _ hz (congrArg (·.signExtend 64) (divide_eq 32 false x4 w4).2)
  intro t
  refine ⟨fun h0 => ?_, fun h0 => ?_⟩
  · have ht (sg rm : Bool) : scalarDiv sg rm false g e f s = t := scalarDiv_traps h hd hp sg rm false hz (by simpa using h0)
    exact ⟨ht _ _, ht _ _, ht _ _, ht _ _⟩
  · have ht (sg rm : Bool) : scalarDiv sg rm true g e f s = t := scalarDiv_traps h hd hp sg rm true hz (by simpa using h0)
    exact ⟨ht _ _, ht _ _, ht _ _, ht _ _⟩

/-! ## Requests (R97, R106, R173) -/

/-- Two changes of the current core in turn are one. -/
theorem State.modMe_unrefuse (s : State) (f : Core → Core) :
    (s.modMe f).unrefuse (s.modMe f).cur = s.modMe fun k => { f k with task := { (f k).task with refused := false } } := by
  show (s.modCore s.cur f).unrefuse s.cur = s.modCore s.cur _
  simp only [State.unrefuse, State.modCore, State.core_setCore_self, State.setCore_setCore]

section
variable {t : State} {op : ReqOp} {l : Loc} (h : t.roomFor op l = true)
include h

/-- Where the S slot has room a request is the task's next; one that returns a value empties its register. -/
theorem State.request_room (cls : BitVec 2) (n : Nat) (y x : SVal) (d : BitVec 10) (fills : Bool) :
    t.request cls op l n y x d fills =
      let u := t.modMe fun k => { k with reqs := k.reqs ++ [⟨k.seq, cls, op, l, n, y, x, d, some k.pipe.ib.idx⟩], seq := k.seq + 1 }
      let u := if op.writes then u.unrefuse u.cur else u
      (if fills then u.regWrite (.empty d) else u).issued := by
  simp only [State.roomFor, Bool.and_eq_true, Bool.not_eq_true'] at h
  rw [State.request, h.1, h.2]
  rfl
/-- R138: a request that writes clears the refused mark. -/
theorem State.request_room_write (hw : op.writes = true) (cls : BitVec 2) (n : Nat) (y x : SVal) (d : BitVec 10) (fills : Bool) :
    t.request cls op l n y x d fills =
      let u := t.modMe fun k => { k with
        reqs := k.reqs ++ [⟨k.seq, cls, op, l, n, y, x, d, some k.pipe.ib.idx⟩], seq := k.seq + 1, task := { k.task with refused := false } }
      (if fills then u.regWrite (.empty d) else u).issued := by
  simp only [State.request_room h, hw, if_true, State.modMe_unrefuse]

end

/-- An address of no form raises its form's cause. -/
theorem State.locating_form_error {s : State} {a : W64} {c : BitVec 8} {d : W64} (h : s.form s.cur a = .error (c, d)) (sl : Slot) (n : Nat) (acc : Access)
    (act : Loc → State → State) : s.locating sl a n acc act = s.trapAt sl c d := by
  simp only [State.locating, h]
/-- One that is misaligned raises cause 0x07. -/
theorem State.locating_misaligned {s : State} {a : W64} {n : Nat} (h : ∃ x, s.form s.cur a = .ok x) (ha : a.toNat % n ≠ 0) (sl : Slot) (acc : Access)
    (act : Loc → State → State) : s.locating sl a n acc act = s.trapAt sl 0x07 a := by
  obtain ⟨x, hx⟩ := h
  simp only [State.locating, hx, if_pos ha]

section
variable {s : State} {g : BitVec 4} {e : Bool} {f : BitVec 10} {v : Val} (h : s.ready .s g e f v = true)
include h

/-! ## Loads and stores (R180) -/

/-- A load whose address is clean looks for its location. -/
theorem scalarLoad_locates (hd : s.dNamed .s = true) (hx : s.pipe.units.s.x.poi = false) (hv : v.toS.poi = false) (n : Nat) (sg : Bool) (cl : BitVec 2) :
    scalarLoad n sg g cl e f s = .next (s.locating .s (s.pipe.units.s.x.val + v.toS.val) n .read fun l t =>
      t.request cl (.load sg) l n SVal.zero SVal.zero (s.dOf .s) true) := by
  rw [scalarLoad, State.issueMove_ready h, State.needD_named hd]
  simp only [hx, hv, Bool.or_self, State.needClean_clean]
/-- So does a store. -/
theorem scalarStore_locates (hx : s.pipe.units.s.x.poi = false) (hv : v.toS.poi = false) (n : Nat) (cl : BitVec 2) :
    scalarStore n g cl e f s = .next (s.locating .s (s.pipe.units.s.x.val + v.toS.val) n .write fun l s =>
      s.request cl .store l n s.pipe.units.s.y SVal.zero 0 false) := by
  rw [scalarStore, State.issueMove_ready h]
  simp only [hx, hv, Bool.or_self, State.needClean_clean]

/-! ## Atomics (R182) -/

/-- A returning atomic whose address is clean looks for its location. -/
theorem scalarAtomic_ret_locates (hd : s.dNamed .s = true) (hv : v.toS.poi = false) (op : AOp) (w : BitVec 1) :
    scalarAtomic op true g w e f s = .next (s.locating .s v.toS.val (if w = 1 then 8 else 4) .write fun l t =>
      t.request 0 (.atomic op true) l (if w = 1 then 8 else 4) t.pipe.units.s.y t.pipe.units.s.x (s.dOf .s) true) := by
  rw [scalarAtomic, State.issueMove_ready h]
  simp only [if_true, State.needD_named hd, Val.poiS, hv, State.needClean_clean]
/-- So does one that returns nothing. -/
theorem scalarAtomic_silent_locates (hv : v.toS.poi = false) (op : AOp) (w : BitVec 1) :
    scalarAtomic op false g w e f s = .next (s.locating .s v.toS.val (if w = 1 then 8 else 4) .write fun l t =>
      t.request 0 (.atomic op false) l (if w = 1 then 8 else 4) t.pipe.units.s.y t.pipe.units.s.x 0 false) := by
  rw [scalarAtomic, State.issueMove_ready h]
  simp only [Bool.false_eq_true, if_false, Val.poiS, hv, State.needClean_clean]

/-! ## Windows (R181) -/

/-- A window read whose offset is clean checks the window's length, the offset, its end and the sum, in this order. -/
theorem windowLoad_checks (hd : s.dNamed .s = true) (hv : v.toS.poi = false) (k : Nat) (n : BitVec 3) :
    let o := v.toS.val
    let len := (s.pipe.sys.pws[n.toNat]'(by omega)).toNat
    let a := (s.pipe.sys.pwb[n.toNat]'(by omega)) + o
    windowLoad k g n e f s = .next (if len = 0 then s.trapAt .s 0x09 (n.setWidth 64)
      else if o.toNat % k ≠ 0 then s.trapAt .s 0x07 o
      else if len < o.toNat + k then ((s.modPipe fun p => { p with longs := p.longs ++ [⟨.s, .w64 0, 0, s.dOf .s, 1, .window n⟩] }).regWrite (.empty (s.dOf .s))).issued
      else if a.toNat % k ≠ 0 then s.trapAt .s 0x07 a
      else s.locating .s a k .read fun l t => t.request 0 (.load false) l k SVal.zero SVal.zero (s.dOf .s) true) := by
  rw [windowLoad, State.issueMove_ready h, State.needD_named hd]
  simp only [Val.poiS, hv, State.needClean_clean]

/-! ## D names no register (R41) -/

variable (hd : s.dNamed .s = false) (hb : s.pipe.units.bad.getLsbD Slot.s.index = false)
include hd hb

theorem scalarLoad_unnamed (n : Nat) (sg : Bool) (cl : BitVec 2) : scalarLoad n sg g cl e f s = .next (s.trapAt .s 0x02 (s.moveAddr .s)) := by
  rw [scalarLoad, State.issueMove_ready h, State.needD_none hb hd]
theorem scalarAtomic_unnamed (op : AOp) (w : BitVec 1) : scalarAtomic op true g w e f s = .next (s.trapAt .s 0x02 (s.moveAddr .s)) := by
  rw [scalarAtomic, State.issueMove_ready h]
  simp only [if_true, State.needD_none hb hd]
theorem windowLoad_unnamed (k : Nat) (n : BitVec 3) : windowLoad k g n e f s = .next (s.trapAt .s 0x02 (s.moveAddr .s)) := by
  rw [windowLoad, State.issueMove_ready h, State.needD_none hb hd]

end

/-! ## The obligations -/

/-- Settles O17: a load that reaches its location makes the request of its form. -/
theorem loadsIssueRequests : Obligations.LoadsIssueRequests := by
  unfold Obligations.LoadsIssueRequests
  intro s t g cl e f v l h hd hx hv a d ok r
  have load (n : Nat) (sg : Bool) (hok : ok n sg) : scalarLoad n sg g cl e f s = r n sg := by
    rw [scalarLoad_locates h hd hx hv, State.locating_reaches hok.1, State.request_room hok.2]
    rfl
  exact ⟨load 1 true, load 2 true, load 4 true, load 8 false, load 1 false, load 2 false, load 4 false⟩

/-- Settles O18: a store that reaches its location makes the request of its form. -/
theorem storesIssueRequests : Obligations.StoresIssueRequests := by
  unfold Obligations.StoresIssueRequests
  intro s t g cl e f v l h hx hv hr a r
  have store (n : Nat) (hl : s.reaches a n .write l t) : scalarStore n g cl e f s = r n := by
    rw [scalarStore_locates h hx hv, State.locating_reaches hl, State.request_room_write hr rfl]
    rfl
  exact ⟨store 1, store 2, store 4, store 8⟩

/-- Settles O21: an atomic that reaches its location makes the request of its operation. -/
theorem atomicsIssueRequests : Obligations.AtomicsIssueRequests := by
  unfold Obligations.AtomicsIssueRequests
  intro s t g w e f v l h hv n hl hr q ret no
  have returning (hd : s.dNamed .s = true) (op : AOp) : scalarAtomic op true g w e f s = ret op := by
    rw [scalarAtomic_ret_locates h hd hv, State.locating_reaches hl, State.request_room_write (hr op true) rfl]
    rfl
  have silent (op : AOp) : scalarAtomic op false g w e f s = no op := by
    rw [scalarAtomic_silent_locates h hv, State.locating_reaches hl, State.request_room_write (hr op false) rfl]
    rfl
  refine ⟨fun hd => ⟨?_, ?_, ?_, ?_, ?_, ?_, ?_, ?_, ?_, ?_⟩, ?_, ?_, ?_, ?_, ?_, ?_, ?_, ?_⟩
  · exact returning hd .add
  · exact returning hd .min
  · exact returning hd .max
  · exact returning hd .minu
  · exact returning hd .maxu
  · exact returning hd .and
  · exact returning hd .or
  · exact returning hd .xor
  · exact returning hd .xchg
  · exact returning hd .cas
  · exact silent .add
  · exact silent .min
  · exact silent .max
  · exact silent .minu
  · exact silent .maxu
  · exact silent .and
  · exact silent .or
  · exact silent .xor

/-- Settles O20: a window read splits on the checks of `windowLoad_checks`. -/
theorem windowReads : Obligations.WindowReads := by
  unfold Obligations.WindowReads
  intro s t g n e f v l h hd hv o len a d r
  have window (k : Nat) : r k (windowLoad k g n e f s) := by
    have hw := windowLoad_checks h hd hv k n
    refine ⟨fun h0 ho hle hl hr => ?_, fun h0 ho hlt => ?_, fun h0 => ?_⟩
    · rw [hw, if_neg h0, if_neg (not_not.2 ho), if_neg (Nat.not_lt.2 hle), if_neg (not_not.2 hl.2.1), State.locating_reaches hl, State.request_room hr]
      rfl
    · rw [hw, if_neg h0, if_neg (not_not.2 ho), if_pos hlt]
    · rw [hw, if_pos h0]
  exact ⟨window 4, window 8⟩

/-- What an access raises before it looks for its location: its form's cause, and then cause 0x07. -/
def State.Refuses (s : State) (k : Nat) (b : W64) (t : Out) : Prop :=
  ((∃ x, s.form s.cur b = .ok x) → b.toNat % k ≠ 0 → t = .next (s.trapAt .s 0x07 b)) ∧ (∀ c d, s.form s.cur b = .error (c, d) → t = .next (s.trapAt .s c d))
theorem State.refuses_locating (s : State) (k : Nat) (b : W64) (acc : Access) (act : Loc → State → State) : s.Refuses k b (.next (s.locating .s b k acc act)) :=
  ⟨fun h ha => by rw [State.locating_misaligned h ha], fun _ _ h => by rw [State.locating_form_error h]⟩

/-- Settles O19: what each form does before it looks for its location is said of the form's function, and each list of the statement is one function at several widths or operations. -/
theorem misalignedAccessTraps : Obligations.MisalignedAccessTraps := by
  unfold Obligations.MisalignedAccessTraps
  intro s g cl w n e f v h o a r loads stores returning silent windows len b
  constructor
  · intro hv
    refine ⟨fun hx => ⟨?_, fun hd => ?_⟩, ?_, fun hd => ?_, fun hd h0 => ?_⟩
    · have store (k : Nat) : s.Refuses k a (scalarStore k g cl e f s) := scalarStore_locates h hx hv k cl ▸ s.refuses_locating k a .write _
      simp only [stores, List.forall_mem_cons, List.not_mem_nil, false_imp_iff, implies_true, and_true]
      exact ⟨store 1, store 2, store 4, store 8⟩
    · have load (k : Nat) (sg : Bool) : s.Refuses k a (scalarLoad k sg g cl e f s) := scalarLoad_locates h hd hx hv k sg cl ▸ s.refuses_locating k a .read _
      simp only [loads, List.forall_mem_cons, List.not_mem_nil, false_imp_iff, implies_true, and_true]
      exact ⟨load 1 true, load 2 true, load 4 true, load 8 false, load 1 false, load 2 false, load 4 false⟩
    · have at' (op : AOp) : s.Refuses (if w = 1 then 8 else 4) o (scalarAtomic op false g w e f s) :=
        scalarAtomic_silent_locates h hv op w ▸ s.refuses_locating _ o .write _
      simp only [silent, List.forall_mem_cons, List.not_mem_nil, false_imp_iff, implies_true, and_true]
      exact ⟨at' .add, at' .min, at' .max, at' .minu, at' .maxu, at' .and, at' .or, at' .xor⟩
    · have at' (op : AOp) : s.Refuses (if w = 1 then 8 else 4) o (scalarAtomic op true g w e f s) :=
        scalarAtomic_ret_locates h hd hv op w ▸ s.refuses_locating _ o .write _
      simp only [returning, List.forall_mem_cons, List.not_mem_nil, false_imp_iff, implies_true, and_true]
      exact ⟨at' .add, at' .min, at' .max, at' .minu, at' .maxu, at' .and, at' .or, at' .xor, at' .xchg, at' .cas⟩
    · have window (k : Nat) : (o.toNat % k ≠ 0 → windowLoad k g n e f s = .next (s.trapAt .s 0x07 o))
          ∧ (o.toNat % k = 0 → o.toNat + k ≤ len → (b.toNat % k ≠ 0 → windowLoad k g n e f s = .next (s.trapAt .s 0x07 b))
            ∧ (b.toNat % k = 0 → ∀ c d, s.form s.cur b = .error (c, d) → windowLoad k g n e f s = .next (s.trapAt .s c d))) := by
        have hw := windowLoad_checks h hd hv k n
        refine ⟨fun ho => ?_, fun ho hle => ⟨fun hb => ?_, fun hb c d hf => ?_⟩⟩
        · rw [hw, if_neg h0, if_pos ho]
        · rw [hw, if_neg h0, if_neg (not_not.2 ho), if_neg (Nat.not_lt.2 hle), if_pos hb]
        · rw [hw, if_neg h0, if_neg (not_not.2 ho), if_neg (Nat.not_lt.2 hle), if_neg (not_not.2 hb), State.locating_form_error hf]
      simp only [windows, List.forall_mem_cons, List.not_mem_nil, false_imp_iff, implies_true, and_true]
      exact ⟨window 4, window 8⟩
  · intro hd hb
    simp only [loads, returning, windows, List.map_cons, List.map_nil, List.cons_append, List.nil_append, List.forall_mem_cons, List.not_mem_nil, false_imp_iff, implies_true, and_true]
    have load (k : Nat) (sg : Bool) := scalarLoad_unnamed h hd hb k sg cl
    have at' (op : AOp) := scalarAtomic_unnamed h hd hb op w
    have window (k : Nat) := windowLoad_unnamed h hd hb k n
    exact ⟨load 1 true, load 2 true, load 4 true, load 8 false, load 1 false, load 2 false, load 4 false,
      at' .add, at' .min, at' .max, at' .minu, at' .maxu, at' .and, at' .or, at' .xor, at' .xchg, at' .cas, window 4, window 8⟩

end Sys2Proof.Machine
end

section
/-! PROOFS. The vector units: integer and floating operations, compares, conversions, permutes and mask operations, and what runs long. -/
namespace Sys2Proof.Machine

/-! ## Operands (R197, R207, R208) -/

section
variable (s : State) (u : VUnit) (v : Val) (n : Nat)

/-- A draw changes only the streams. -/
theorem State.draw_pipe (k : Fin 5) : ∃ r, (s.draw k n).2 = s ∨ (s.draw k n).2 = s.modPipe fun p => { p with sys2 := { p.sys2 with rng := r } } := by
  unfold State.draw
  split
  · exact ⟨_, .inr rfl⟩
  · exact ⟨s.pipe.sys2.rng, .inl rfl⟩
/-- Without draws nothing changes. -/
@[simp] theorem State.vin_zero : (s.vin u v 0).2 = s := by simp [State.vin, State.draw]
@[simp] theorem State.vin_x : (s.vin u v n).1.x = (s.pipe.units.vec u).x := by
  obtain ⟨r, h | h⟩ := s.draw_pipe n (vStream u) <;> simp [State.vin, h]
@[simp] theorem State.vin_y : (s.vin u v n).1.y = (s.pipe.units.vec u).y := by
  obtain ⟨r, h | h⟩ := s.draw_pipe n (vStream u) <;> simp [State.vin, h]
@[simp] theorem State.vin_f : (s.vin u v n).1.f = v.toV := rfl
@[simp] theorem State.vin_act : (s.vin u v n).1.act = s.pipe.maskFor u := by
  obtain ⟨r, h | h⟩ := s.draw_pipe n (vStream u) <;> simp [State.vin, h, Pipe.maskFor]
@[simp] theorem State.vin_rm : (s.vin u v n).1.rm = s.pipe.rmode := by
  obtain ⟨r, h | h⟩ := s.draw_pipe n (vStream u) <;> simp [State.vin, h, Pipe.rmode]
@[simp] theorem State.vin_bad : (s.vin u v n).1.bad = s.pipe.maskBad u := by
  obtain ⟨r, h | h⟩ := s.draw_pipe n (vStream u) <;> simp [State.vin, h, Pipe.maskBad]

end

/-- Flags of lanes that have none. -/
theorem orFlags_zero {α : Type} {l : List α} {h : α → Flags} (hh : ∀ a ∈ l, h a = 0) : orFlags (l.map h) = 0 := by
  rw [orFlags, List.foldl_map]
  induction l with
  | nil => rfl
  | cons a r ih =>
    rw [List.foldl_cons, hh a (by simp)]
    exact ih fun b hb => hh b (by simp [hb])
@[simp] theorem Vec.lane_val (x : Vec) (i : Fin 256) : Vec.lane x i.val = x[i] := by simp [Vec.lane, Nat.mod_eq_of_lt i.isLt]

/-! ## Short operations (R208, R209) -/

section
variable {s : State} {u : VUnit} {g : BitVec 4} {e : Bool} {f : BitVec 10} {v : Val} (hr : s.ready u.slot g e f v = true)
include hr

/-- Table 9.1: what a masked operation that is ready lands: its value and its poison in an active lane, X in another, and the flags of the active lanes. -/
theorem vecShort_ready (n : Nat) (op : LaneOp) :
    let i := s.vin u v n
    vecShort u g e f n op s = .next (i.2.short u.slot.unit (.vec
      ⟨Vec.tab fun k => if i.1.act.getLsbD k.val then (op i.1 k).1 else i.1.xl k, maskOf fun k => i.1.bad || if i.1.act.getLsbD k.val then (op i.1 k).2.2 else i.1.px k.val⟩)
      (orFlags (lanes.map fun k => if i.1.act.getLsbD k.val then (op i.1 k).2.1 else 0)) none) := by
  rw [vecShort, State.issueMove_ready hr]
  rfl
/-- An operation without draws and flags. -/
theorem vecShort_plain {op : LaneOp} {h : Fin 256 → W32} {bad : Fin 256 → Bool} (ho : ∀ k, op (s.vin u v 0).1 k = (h k, 0, bad k)) :
    vecShort u g e f 0 op s = .next (s.short u.slot.unit (.vec
      ⟨Vec.tab fun k => if (s.pipe.maskFor u).getLsbD k.val then h k else (s.pipe.units.vec u).x.val[k],
       maskOf fun k => s.pipe.maskBad u || if (s.pipe.maskFor u).getLsbD k.val then bad k else (s.pipe.units.vec u).x.poi.getLsbD k.val⟩) 0 none) := by
  rw [vecShort_ready hr]
  simp only [ho, VIn.xl, VIn.px, State.vin_zero, State.vin_x, State.vin_act, State.vin_bad, ite_self, orFlags_zero (fun _ _ => rfl)]
/-- One that ignores the mask. -/
theorem vecWhole_ready (n : Nat) (op : VIn → VVal × Flags) :
    vecWhole u g e f n op s = .next ((s.vin u v n).2.short u.slot.unit (.vec (op (s.vin u v n).1).1) (op (s.vin u v n).1).2 none) := by
  rw [vecWhole, State.issueMove_ready hr]

/-! ## Integer operations (R217) -/

/-- A lane-wise integer operation. -/
theorem vecInt_ready {op : W32 → W32 → W32} {h : Fin 256 → W32} (ho : ∀ k : Fin 256, op (s.pipe.units.vec u).x.val[k] v.toV.val[k] = h k) :
    let X := (s.pipe.units.vec u).x
    vecInt op u g e f s = .next (s.short u.slot.unit (.vec ⟨Vec.tab fun k => if (s.pipe.maskFor u).getLsbD k.val then h k else X.val[k],
       maskOf fun k => s.pipe.maskBad u || if (s.pipe.maskFor u).getLsbD k.val then X.poi.getLsbD k.val || v.toV.poi.getLsbD k.val else X.poi.getLsbD k.val⟩) 0 none) :=
  vecShort_plain hr fun k => by simp only [VIn.xl, VIn.fl, VIn.px, VIn.pf, State.vin_x, State.vin_f, ho]

end

/-- The low bits as a number are the remainder: the count of a shift. -/
theorem toNat_mod_32 (w : W32) : w.toNat % 32 = (w.extractLsb' 0 5).toNat := by
  rw [BitVec.extractLsb'_toNat, Nat.shiftRight_zero]
/-- IMULHU: the high half of the product of numbers is that of the 64-bit product. -/
theorem imulhu_eq_extractLsb' (x w : W32) :
    BitVec.ofNat 32 (x.toNat * w.toNat / 2 ^ 32) = (x.setWidth 64 * w.setWidth 64).extractLsb' 32 32 := by
  have hx := x.isLt
  have hw := w.isLt
  have hp : x.toNat * w.toNat < 2 ^ 64 := (Nat.mul_lt_mul'' hx hw).trans_eq (by norm_num)
  apply BitVec.eq_of_toNat_eq
  simp only [BitVec.extractLsb'_toNat, BitVec.toNat_mul, BitVec.toNat_setWidth, BitVec.toNat_ofNat, Nat.shiftRight_eq_div_pow]
  rw [Nat.mod_eq_of_lt (by omega : x.toNat < 2 ^ 64), Nat.mod_eq_of_lt (by omega : w.toNat < 2 ^ 64), Nat.mod_eq_of_lt hp]
/-- R6: saturation to 32 bits is the nearest number in range. -/
theorem sat32_eq (x : Int) : sat32 x = BitVec.ofInt 32 (max (-(2 ^ 31)) (min (2 ^ 31 - 1) x)) := by
  rw [sat32]
  congr 1
  omega
/-- IABS: the sign bit is set in the negative numbers. -/
theorem abs_eq (x : W32) : (if x.msb then -x else x) = if x.toInt < 0 then 0 - x else x := by
  rw [show (0 : W32) - x = -x from BitVec.zero_sub x, BitVec.msb_eq_toInt]
  simp only [decide_eq_true_eq]

/-- The comparisons of words are those of their numbers. -/
theorem ite_slt (a b x y : W32) : (if a.slt b then x else y) = if a.toInt < b.toInt then x else y := by simp only [BitVec.slt, decide_eq_true_eq]
theorem ite_ult (a b x y : W32) : (if a.ult b then x else y) = if a.toNat < b.toNat then x else y := by simp only [BitVec.ult, decide_eq_true_eq]

/-- Settles O25: each operation is its function of X and F in the lanes of `vecShort_plain`. -/
theorem vectorIntegerResults : Obligations.VectorIntegerResults := by
  unfold Obligations.VectorIntegerResults
  intro s u g e f v hr X Y F act out r
  refine ⟨?_, ?_, ?_, ?_, ?_, ?_, ?_, ?_, ?_, ?_, ?_, ?_, ?_, ?_, ?_, ?_, ?_, ?_, ?_, ?_⟩
  · show execIadd u g e f s = _
    rw [execIadd]
    exact vecInt_ready hr fun _ => rfl
  · show execIsub u g e f s = _
    rw [execIsub]
    exact vecInt_ready hr fun _ => rfl
  · show execImul u g e f s = _
    rw [execImul]
    exact vecInt_ready hr fun _ => rfl
  · show execImulh u g e f s = _
    rw [execImulh]
    exact vecInt_ready hr fun _ => rfl
  · show execImulhu u g e f s = _
    rw [execImulhu]
    exact vecInt_ready hr fun _ => imulhu_eq_extractLsb' _ _
  · show execIand u g e f s = _
    rw [execIand]
    exact vecInt_ready hr fun _ => rfl
  · show execIor u g e f s = _
    rw [execIor]
    exact vecInt_ready hr fun _ => rfl
  · show execIxor u g e f s = _
    rw [execIxor]
    exact vecInt_ready hr fun _ => rfl
  · show execIandn u g e f s = _
    rw [execIandn]
    exact vecInt_ready hr fun _ => rfl
  · show execIshl u g e f s = _
    rw [execIshl]
    exact vecInt_ready hr fun _ => by rw [toNat_mod_32]
  · show execIshr u g e f s = _
    rw [execIshr]
    exact vecInt_ready hr fun _ => by rw [toNat_mod_32]
  · show execIsar u g e f s = _
    rw [execIsar]
    exact vecInt_ready hr fun _ => by rw [toNat_mod_32]
  · show execImin u g e f s = _
    rw [execImin]
    exact vecInt_ready hr fun _ => ite_slt _ _ _ _
  · show execImax u g e f s = _
    rw [execImax]
    exact vecInt_ready hr fun _ => ite_slt _ _ _ _
  · show execIminu u g e f s = _
    rw [execIminu]
    exact vecInt_ready hr fun _ => ite_ult _ _ _ _
  · show execImaxu u g e f s = _
    rw [execImaxu]
    exact vecInt_ready hr fun _ => ite_ult _ _ _ _
  · show execIabs u g e f s = _
    rw [execIabs]
    exact vecShort_plain hr fun k => Prod.ext (abs_eq F.val[k]) rfl
  · show execIaddSat u g e f s = _
    rw [execIaddSat]
    exact vecInt_ready hr fun _ => sat32_eq _
  · show execIsubSat u g e f s = _
    rw [execIsubSat]
    exact vecInt_ready hr fun _ => sat32_eq _
  · show execVsel u g e f s = _
    rw [execVsel]
    refine vecShort_plain hr fun k => ?_
    simp only [VIn.fl, VIn.pf, VIn.xl, VIn.px, VIn.yl, VIn.py, State.vin_x, State.vin_y, State.vin_f, Vec.lane_val, Y]
    by_cases hy : (s.pipe.units.vec u).y.val[k] = 0
    · simp only [hy, bne_self_eq_false, Bool.false_eq_true, if_false, if_true]
      rfl
    · simp only [hy, bne_iff_ne, ne_eq, not_false_eq_true, if_true, if_false]
      rfl

/-! ## Floating operations (R213, R214) -/

/-- The code and the flags of a floating operation under a rounding mode. -/
theorem FpOp.code_eq (op : FpOp) (F : Fmt) (m : BitVec 3) (d a b f : Nat) :
    op.code F m.toNat d a b f = (((op.exact (decide (m = 3)) (F.decode a) (F.decode b) (F.decode f)).code F m.toNat d).1,
      ((op.exact (decide (m = 3)) (F.decode a) (F.decode b) (F.decode f)).code F m.toNat d).2.1) := by
  have hm : decide (m.toNat = 3) = decide (m = 3) := decide_eq_decide.2 ⟨fun h => BitVec.eq_of_toNat_eq h, fun h => h ▸ rfl⟩
  rw [FpOp.code, hm]
/-- Only the operations that round take draws. -/
theorem FpOp.draws_eq (op : FpOp) (n : Nat) : (if op.rounds then n else 0) = if op = .min ∨ op = .max ∨ op = .abs ∨ op = .neg ∨ op = .cpys then 0 else n := by
  cases op <;> rfl

/-- Settles O26: `vecShort_ready` with the lanes of `FpOp.lane`, whose code is `FpOp.code_eq`. -/
theorem vectorFloatResults : Obligations.VectorFloatResults := by
  unfold Obligations.VectorFloatResults
  intro s u g t e f v hr r
  have fp (op : FpOp) : vecFp op u g t e f s = r op := by
    by_cases ht : t = 3
    · rw [vecFp, if_pos ht]
      exact (if_pos ht).symm
    · rw [vecFp, if_neg ht, vecShort_ready hr, FpOp.draws_eq]
      refine Eq.trans ?_ (if_neg ht).symm
      by_cases h0 : t = 0
      · simp only [FpOp.lane, h0, if_true, VIn.mode, FpOp.code_eq]
      · simp only [FpOp.lane, h0, if_false, VIn.mode, FpOp.code_eq]
  exact ⟨fp .add, fp .sub, fp .mul, fp .fma, fp .fms, fp .nma, fp .min, fp .max, fp .abs, fp .neg, fp .cpys⟩

/-! ## Compares (R215) -/

theorem bne_eq_decide (a b : W32) : (a != b) = decide (a ≠ b) := by simp [bne, Bool.beq_eq_decide_eq]

section
variable {s : State} {u : VUnit} {g : BitVec 4} {e : Bool} {f : BitVec 10} {v : Val} (hr : s.ready u.slot g e f v = true)
include hr

/-- A compare whose D names no register traps, or consumes D's poison. -/
theorem vecCmp_unnamed (hd : s.dNamed u.slot = false) (c : W32 → W32 → Bool) :
    vecCmp u g e f c s = .next (if s.pipe.units.bad.getLsbD u.slot.index then s.consume u.slot ((s.dOf u.slot).setWidth 64) else s.trapAt u.slot 0x02 (s.moveAddr u.slot)) := by
  rw [vecCmp, State.issueMove_ready hr]
  split
  case isTrue hp => rw [State.needD_poisoned hp]
  case isFalse hp => rw [State.needD_none (by simpa using hp) hd]
/-- One whose D names a register lands its lanes in q0 and through D. -/
theorem vecCmp_ready (hd : s.dNamed u.slot = true) {op : W32 → W32 → Bool} {c : Fin 256 → Bool} (ho : ∀ k : Fin 256, op (s.pipe.units.vec u).x.val[k] v.toV.val[k] = c k) :
    vecCmp u g e f op s = .next (s.short u.slot.unit (.vec
      ⟨Vec.tab fun k => if (s.pipe.maskFor u).getLsbD k.val ∧ c k = true then 1 else 0,
       maskOf fun k => s.pipe.maskBad u || (s.pipe.maskFor u).getLsbD k.val && ((s.pipe.units.vec u).x.poi.getLsbD k.val || v.toV.poi.getLsbD k.val)⟩) 0 (some (s.dOf u.slot))) := by
  rw [vecCmp, State.issueMove_ready hr, State.needD_named hd]
  have idle (b p : Bool) : (if b then p else false) = (b && p) := by cases b <;> rfl
  simp only [masked, State.vin_zero, State.vin_x, State.vin_f, State.vin_act, State.vin_bad, VIn.xl, VIn.fl, VIn.px, VIn.pf, ho, boolWord_eq, ite_and, idle]

end

/-- Settles O27: each compare decides its condition lane by lane. -/
theorem vectorCompareResults : Obligations.VectorCompareResults := by
  unfold Obligations.VectorCompareResults
  intro s u g e f v hr
  refine ⟨fun hd i hi => ?_, fun hd => ?_⟩
  · simp only [List.mem_cons, List.not_mem_nil, or_false] at hi
    rcases hi with rfl | rfl | rfl | rfl | rfl | rfl | rfl | rfl | rfl | rfl | rfl
    · show execFcmpEq u g e f s = _
      rw [execFcmpEq, vecCmp_unnamed hr hd]
    · show execFcmpNe u g e f s = _
      rw [execFcmpNe, vecCmp_unnamed hr hd]
    · show execFcmpLt u g e f s = _
      rw [execFcmpLt, vecCmp_unnamed hr hd]
    · show execFcmpLe u g e f s = _
      rw [execFcmpLe, vecCmp_unnamed hr hd]
    · show execFcmpUn u g e f s = _
      rw [execFcmpUn, vecCmp_unnamed hr hd]
    · show execIcmpEq u g e f s = _
      rw [execIcmpEq, vecCmp_unnamed hr hd]
    · show execIcmpNe u g e f s = _
      rw [execIcmpNe, vecCmp_unnamed hr hd]
    · show execIcmpLt u g e f s = _
      rw [execIcmpLt, vecCmp_unnamed hr hd]
    · show execIcmpLe u g e f s = _
      rw [execIcmpLe, vecCmp_unnamed hr hd]
    · show execIcmpLtu u g e f s = _
      rw [execIcmpLtu, vecCmp_unnamed hr hd]
    · show execIcmpLeu u g e f s = _
      rw [execIcmpLeu, vecCmp_unnamed hr hd]
  · intro X F act r
    refine ⟨?_, ?_, ?_, ?_, ?_, ?_, ?_, ?_, ?_, ?_, ?_⟩
    · show execFcmpEq u g e f s = _
      rw [execFcmpEq]
      exact vecCmp_ready hr hd fun _ => rfl
    · show execFcmpNe u g e f s = _
      rw [execFcmpNe]
      exact vecCmp_ready hr hd fun _ => rfl
    · show execFcmpLt u g e f s = _
      rw [execFcmpLt]
      exact vecCmp_ready hr hd fun _ => rfl
    · show execFcmpLe u g e f s = _
      rw [execFcmpLe]
      exact vecCmp_ready hr hd fun _ => rfl
    · show execFcmpUn u g e f s = _
      rw [execFcmpUn]
      exact vecCmp_ready hr hd fun _ => rfl
    · show execIcmpEq u g e f s = _
      rw [execIcmpEq]
      exact vecCmp_ready hr hd fun _ => rfl
    · show execIcmpNe u g e f s = _
      rw [execIcmpNe]
      exact vecCmp_ready hr hd fun _ => bne_eq_decide _ _
    · show execIcmpLt u g e f s = _
      rw [execIcmpLt]
      exact vecCmp_ready hr hd fun _ => rfl
    · show execIcmpLe u g e f s = _
      rw [execIcmpLe]
      exact vecCmp_ready hr hd fun _ => rfl
    · show execIcmpLtu u g e f s = _
      rw [execIcmpLtu]
      exact vecCmp_ready hr hd fun _ => rfl
    · show execIcmpLeu u g e f s = _
      rw [execIcmpLeu]
      exact vecCmp_ready hr hd fun _ => rfl

/-! ## Conversions (R199, R218) -/

/-- Settles O28: the masked conversions are `vecShort_ready`, the others `vecWhole_ready`, of their lanes. -/
theorem vectorConvertResults : Obligations.VectorConvertResults := by
  unfold Obligations.VectorConvertResults
  intro s u g e f v hr m wide slim
  have hw (F : Fmt) (b : Nat) : vecShort u g e f 0 (widen F b) s = wide F b := by
    rw [vecShort_ready hr]
    rfl
  have hn (F : Fmt) : vecWhole u g e f 512 (narrow F) s = slim F := by
    rw [vecWhole_ready hr]
    simp only [narrow, VIn.mode, slim]
  refine ⟨hw fp16 0, hw fp16 256, hw bf16 0, hw bf16 256, hn fp16, hn bf16, ?_, ?_, ?_, ?_⟩
  · show execCvtIF u g e f s = _
    rw [execCvtIF, vecShort_ready hr]
    simp only [VIn.mode, m]
  · show execCvtFI u g e f s = _
    rw [execCvtFI, vecShort_ready hr]
    rfl
  · show execCvtI8I u g e f s = _
    rw [execCvtI8I, vecWhole_ready hr]
    simp only [State.vin_zero, State.vin_rm, State.vin_f, VIn.pf]
  · show execCvtII8 u g e f s = _
    rw [execCvtII8, vecShort_ready hr]

/-! ## Permutes and mask operations (R208, R219, R220) -/

/-- A lane of F or of X, with its poison and that of the control lane. -/
def movedLane (X F : VVal) (control : Bool) (src : Bool × Nat) : W32 × Bool :=
  let v := if src.1 then F else X
  (Vec.lane v.val src.2, v.poi.getLsbD src.2 || control)

/-- Poison of any lane that an operation reads poisons every lane of its result. -/
theorem maskAll_eq (b : Bool) (m : Mask) : maskAll (b || m != 0) = if b = false ∧ m = 0 then 0 else BitVec.allOnes 256 := by
  by_cases hm : m = 0 <;> cases b <;> simp [maskAll, hm]
/-- MFIRST's lane: the first of the list, 256 for none. -/
theorem head_getD (l : List (Fin 256)) : (match l with | i :: _ => i.val | [] => 256) = (l.head?.map Fin.val).getD 256 := by
  cases l <;> rfl

section
variable {s : State} {u : VUnit} {g : BitVec 4} {e : Bool} {f : BitVec 10} {v : Val} (hr : s.ready u.slot g e f v = true)
include hr

/-- R40: MSEL takes the three low bits of a clean F, and makes a poisoned latch good again. -/
theorem exec_msel_clean (hc : v.poiS = false) : exec (.msel u g e f) s = .next (s.modPipe fun p => { p with
    units := (p.units.mend (8 + u.slot.index)).setV u.slot { p.units.vec u with msel := v.toS.val.extractLsb' 0 3 } }).issued := by
  show execMsel u g e f s = _
  rw [execMsel, State.issueMove_ready hr, hc, State.needClean_clean, ← BitVec.setWidth_eq_extractLsb' (by decide)]
/-- A poisoned F is consumed. -/
theorem exec_msel_poisoned (hp : v.poiS = true) : exec (.msel u g e f) s = .next (s.consume u.slot (f.setWidth 64)) := by
  show execMsel u g e f s = _
  rw [execMsel, State.issueMove_ready hr, hp, State.needClean_poison]

/-- A permute moves the lane that its table gives, with its poison and that of the control lane. -/
theorem vecPerm_ready {src : Nat → Nat → Bool × Nat} {h : Fin 256 → W32 × Bool}
    (hs : ∀ i : Fin 256, movedLane (s.pipe.units.vec u).x v.toV ((s.pipe.units.vec u).y.poi.getLsbD 0) (src ((s.pipe.units.vec u).y.val[0].toNat % 256) i.val) = h i) :
    vecPerm src u g e f s = .next (s.short u.slot.unit (.vec
      ⟨Vec.tab fun i => if (s.pipe.maskFor u).getLsbD i.val then (h i).1 else (s.pipe.units.vec u).x.val[i],
       maskOf fun i => s.pipe.maskBad u || if (s.pipe.maskFor u).getLsbD i.val then (h i).2 else (s.pipe.units.vec u).x.poi.getLsbD i.val⟩) 0 none) := by
  refine vecShort_plain hr fun i => ?_
  rw [← hs i, movedLane]
  simp only [VIn.yl, VIn.pf, VIn.px, VIn.py, State.vin_x, State.vin_y, State.vin_f]
  split <;> simp_all

/-- R220: a truth operation gives 1 or 0. -/
theorem vecMask_ready (h : Bool → Bool → Bool) :
    let X := (s.pipe.units.vec u).x
    vecMask h u g e f s = .next (s.short u.slot.unit (.vec
      ⟨Vec.tab fun i => if (s.pipe.maskFor u).getLsbD i.val then (if h (decide (X.val[i] ≠ 0)) (decide (v.toV.val[i] ≠ 0)) then 1 else 0) else X.val[i],
       maskOf fun i => s.pipe.maskBad u || if (s.pipe.maskFor u).getLsbD i.val then X.poi.getLsbD i.val || v.toV.poi.getLsbD i.val else X.poi.getLsbD i.val⟩) 0 none) :=
  vecShort_plain hr fun i => by simp only [VIn.xl, VIn.fl, VIn.px, VIn.pf, State.vin_x, State.vin_f, boolWord_eq, bne_eq_decide]
/-- R220: a count over the active lanes that are true, in every lane. -/
theorem vecCount_ready {h : List (Fin 256) → Nat} {n : Nat}
    (hn : h ((List.finRange 256).filter fun i : Fin 256 => (s.pipe.maskFor u).getLsbD i.val && decide (v.toV.val[i] ≠ 0)) = n) :
    vecCount h u g e f s = .next (s.short u.slot.unit (.vec ⟨Vec.splat (BitVec.ofNat 32 n),
      if s.pipe.maskBad u = false ∧ s.pipe.maskFor u &&& v.toV.poi = 0 then 0 else BitVec.allOnes 256⟩) 0 none) := by
  rw [vecCount, vecWhole_ready hr, ← maskAll_eq, ← hn]
  simp only [State.vin_zero, State.vin_act, State.vin_bad, State.vin_f, VIn.fl, lanes, bne_eq_decide]

end

/-- Settles O29: each permute's table is `vecPerm_ready`'s, and a count's list of lanes `vecCount_ready`'s. -/
theorem vectorPermuteMaskResults : Obligations.VectorPermuteMaskResults := by
  unfold Obligations.VectorPermuteMaskResults
  intro s u g e f v hr X Y F act out k ofF ofX truth on count
  refine ⟨exec_msel_clean hr, exec_msel_poisoned hr, ?_, ?_, ?_, ?_, ?_, ?_, ?_, ?_, ?_, ?_, ?_, ?_⟩
  · show execVbcast u g e f s = _
    rw [execVbcast]
    exact vecPerm_ready hr fun _ => rfl
  · show execVrot u g e f s = _
    rw [execVrot]
    exact vecPerm_ready hr fun _ => rfl
  · show execVperm u g e f s = _
    rw [execVperm]
    refine vecShort_plain hr fun i => ?_
    simp only [VIn.yl, VIn.pf, VIn.py, State.vin_y, State.vin_f]
    rfl
  · show execVslup u g e f s = _
    rw [execVslup]
    refine vecPerm_ready hr fun i => ?_
    by_cases hi : i.val < k
    · exact (congrArg (movedLane X F _) (if_neg (Nat.not_le.2 hi))).trans (if_pos hi).symm
    · exact (congrArg (movedLane X F _) (if_pos (Nat.not_lt.1 hi))).trans (if_neg hi).symm
  · show execVsldn u g e f s = _
    rw [execVsldn]
    refine vecPerm_ready hr fun i => ?_
    by_cases hi : i.val + k < 256
    · exact (congrArg (movedLane X F _) (if_pos (Nat.le_of_lt_succ hi))).trans (if_pos hi).symm
    · exact (congrArg (movedLane X F _) (if_neg fun h => hi (Nat.lt_succ_of_le h))).trans (if_neg hi).symm
  · show execVextl u g e f s = _
    rw [execVextl]
    refine vecPerm_ready hr fun i => ?_
    by_cases hi : i.val + k < 256
    · exact (congrArg (movedLane X F _) (if_pos (Nat.le_of_lt_succ hi))).trans (if_pos hi).symm
    · exact (congrArg (movedLane X F _) (if_neg fun h => hi (Nat.lt_succ_of_le h))).trans (if_neg hi).symm
  · show execMand u g e f s = _
    rw [execMand]
    exact vecMask_ready hr _
  · show execMor u g e f s = _
    rw [execMor]
    exact vecMask_ready hr _
  · show execMxor u g e f s = _
    rw [execMxor]
    exact vecMask_ready hr _
  · show execMnot u g e f s = _
    rw [execMnot]
    refine vecShort_plain hr fun i => ?_
    simp only [VIn.fl, VIn.pf, State.vin_f, boolWord_eq, beq_iff_eq]
    rfl
  · show execMpop u g e f s = _
    rw [execMpop]
    exact vecCount_ready hr rfl
  · show execMfirst u g e f s = _
    rw [execMfirst]
    exact vecCount_ready hr (head_getD _)

end Sys2Proof.Machine
end

section
/-! PROOFS. The vector operations that run long: special functions, reductions, triples, quantise and dequantise. -/
namespace Sys2Proof.Machine

section
variable {s : State} {u : VUnit} {g : BitVec 4} {e : Bool} {f : BitVec 10} {v : Val} (hr : s.ready u.slot g e f v = true)
include hr

/-! ## What runs long (R41, R210) -/

/-- A move that needs D traps where D names no register, and consumes what a poisoned D holds. -/
theorem State.issueMove_needD_unnamed (hd : s.dNamed u.slot = false) (act : Val → BitVec 10 → State → State) :
    s.issueMove u.slot g e f false (fun v s => s.needD u.slot (act v)) =
      if s.pipe.units.bad.getLsbD u.slot.index then s.consume u.slot ((s.dOf u.slot).setWidth 64) else s.trapAt u.slot 0x02 (s.moveAddr u.slot) := by
  rw [State.issueMove_ready hr]
  split
  case isTrue hp => rw [State.needD_poisoned hp]
  case isFalse hp => rw [State.needD_none (by simpa using hp) hd]
theorem vecLong_unnamed (hd : s.dNamed u.slot = false) (n c : Nat) (op : VIn → VVal × Flags) :
    vecLong u g e f n c op s = .next (if s.pipe.units.bad.getLsbD u.slot.index then s.consume u.slot ((s.dOf u.slot).setWidth 64) else s.trapAt u.slot 0x02 (s.moveAddr u.slot)) := by
  rw [vecLong, State.issueMove_needD_unnamed hr hd]
/-- R210: one whose D names a register, with fewer than eight in flight, is on its way. -/
theorem vecLong_ready (hd : s.dNamed u.slot = true) (hl : s.pipe.longs.countP (fun l => l.unit == u.slot.unit) < 8) (n c : Nat) (op : VIn → VVal × Flags) :
    vecLong u g e f n c op s = .next ((s.vin u v n).2.long u.slot.unit (.vec (op (s.vin u v n).1).1) (op (s.vin u v n).1).2 (s.dOf u.slot) c) := by
  rw [vecLong, State.issueMove_ready hr, State.needD_named hd]
  exact congrArg _ (if_neg (Nat.not_le.2 hl))

/-! ## Special functions (R221) -/

/-- A special function of F's lane (and X's). -/
theorem vecFn_ready (hd : s.dNamed u.slot = true) (hl : s.pipe.longs.countP (fun l => l.unit == u.slot.unit) < 8) (n c : Nat) (x : Bool) (h : VIn → Fin 256 → W32 × Flags) :
    let i := s.vin u v n
    vecFn n c x h u g e f s = .next (i.2.long u.slot.unit (.vec ⟨Vec.tab fun k => if i.1.act.getLsbD k.val then (h i.1 k).1 else i.1.xl k,
        maskOf fun k => i.1.bad || if i.1.act.getLsbD k.val then (x && i.1.px k.val) || i.1.pf k.val else i.1.px k.val⟩)
      (orFlags (lanes.map fun k => if i.1.act.getLsbD k.val then (h i.1 k).2 else 0)) (s.dOf u.slot) c) := by
  rw [vecFn, vecLong_ready hr hd hl]
  simp only [masked, keepX]

/-! ## Reductions (R205, R222) -/

/-- A reduction: the tree over the active lanes of F, the identity elsewhere. -/
theorem vecReduce_ready (hd : s.dNamed u.slot = true) (hl : s.pipe.longs.countP (fun l => l.unit == u.slot.unit) < 8) (z : W32) (h : W32 → W32 → W32 × Flags) (nan : Bool) :
    let act := s.pipe.maskFor u
    let r := (tree (fun a b : W32 × Flags => ((h a.1 b.1).1, a.2 ||| b.2 ||| (h a.1 b.1).2)) 8
      ((List.finRange 256).map fun i => (if act.getLsbD i.val then v.toV.val[i] else z, 0))).headD (z, 0)
    let isNan := nan && (List.finRange 256).any fun i => act.getLsbD i.val && isNan32 v.toV.val[i]
    vecReduce z h nan u g e f s = .next (s.long u.slot.unit (.vec ⟨Vec.splat (if isNan then nan32 else r.1),
      if s.pipe.maskBad u = false ∧ act &&& v.toV.poi = 0 then 0 else BitVec.allOnes 256⟩) (r.2 ||| flagIf isNan fNAN) (s.dOf u.slot) 10) := by
  rw [vecReduce, vecLong_ready hr hd hl]
  simp only [State.vin_zero, State.vin_act, State.vin_bad, State.vin_f, VIn.fl, lanes, maskAll_eq]
/-- One that looks for no NaN. -/
theorem vecReduce_ready_int (hd : s.dNamed u.slot = true) (hl : s.pipe.longs.countP (fun l => l.unit == u.slot.unit) < 8) (z : W32) {h h' : W32 → W32 → W32}
    (hh : h = h') :
    let act := s.pipe.maskFor u
    let r := (tree (fun a b : W32 × Flags => (h' a.1 b.1, a.2 ||| b.2 ||| 0)) 8
      ((List.finRange 256).map fun i => (if act.getLsbD i.val then v.toV.val[i] else z, 0))).headD (z, 0)
    vecReduce z (fun a b => (h a b, 0)) false u g e f s = .next (s.long u.slot.unit (.vec ⟨Vec.splat r.1,
      if s.pipe.maskBad u = false ∧ act &&& v.toV.poi = 0 then 0 else BitVec.allOnes 256⟩) r.2 (s.dOf u.slot) 10) := by
  subst hh
  rw [vecReduce_ready hr hd hl]
  have orZero (x : Flags) : x ||| 0 = x := BitVec.or_zero
  simp only [Bool.false_and, flagIf, Bool.false_eq_true, if_false, orZero]
/-- One whose result is the canonical NaN where an active lane is a NaN. -/
theorem vecReduce_ready_fp (hd : s.dNamed u.slot = true) (hl : s.pipe.longs.countP (fun l => l.unit == u.slot.unit) < 8) (z : W32) (h : W32 → W32 → W32 × Flags) :
    let act := s.pipe.maskFor u
    let r := (tree (fun a b : W32 × Flags => ((h a.1 b.1).1, a.2 ||| b.2 ||| (h a.1 b.1).2)) 8
      ((List.finRange 256).map fun i => (if act.getLsbD i.val then v.toV.val[i] else z, 0))).headD (z, 0)
    let isNan := (List.finRange 256).any fun i => act.getLsbD i.val && isNan32 v.toV.val[i]
    vecReduce z h true u g e f s = .next (s.long u.slot.unit (.vec ⟨Vec.splat (if isNan then nan32 else r.1),
      if s.pipe.maskBad u = false ∧ act &&& v.toV.poi = 0 then 0 else BitVec.allOnes 256⟩) (r.2 ||| flagIf isNan fNAN) (s.dOf u.slot) 10) := by
  rw [vecReduce_ready hr hd hl]
  simp only [Bool.true_and]

end

section
variable {s : State} {u : VUnit} {n : BitVec 3}
theorem State.needFmt_valid (h : fmtValid (s.pipe.fmt n) = true) (act : BitVec 24 → State → State) : s.needFmt u.slot n act = act (s.pipe.fmt n) s := if_pos h
theorem State.needFmt_invalid (h : fmtValid (s.pipe.fmt n) = false) (act : BitVec 24 → State → State) :
    s.needFmt u.slot n act = s.trapAt u.slot 0x0F (n.setWidth 64) := if_neg (by simp [h])
end

/-- Settles O30: each special function is `vecFn_ready`'s. -/
theorem specialFunctionResults : Obligations.SpecialFunctionResults := by
  unfold Obligations.SpecialFunctionResults
  intro s u g e f v hr
  refine ⟨fun hd => ?_, fun hd hl => ?_⟩
  · simp only [List.forall_mem_cons, List.not_mem_nil, false_imp_iff, implies_true, and_true]
    refine ⟨?_, ?_, ?_, ?_, ?_, ?_⟩
    · show execFrcp u g e f s = _
      rw [execFrcp, vecFn, vecLong_unnamed hr hd]
    · show execFrsq u g e f s = _
      rw [execFrsq, vecFn, vecLong_unnamed hr hd]
    · show execFsqrt u g e f s = _
      rw [execFsqrt, vecFn, vecLong_unnamed hr hd]
    · show execFexp2 u g e f s = _
      rw [execFexp2, vecFn, vecLong_unnamed hr hd]
    · show execFlog2 u g e f s = _
      rw [execFlog2, vecFn, vecLong_unnamed hr hd]
    · show execFdiv u g e f s = _
      rw [execFdiv, vecFn, vecLong_unnamed hr hd]
  · intro r rnd enc
    refine ⟨?_, ?_, ?_, ?_, ?_, ?_⟩
    · show execFrcp u g e f s = _
      rw [execFrcp, vecFn_ready hr hd hl]
      rfl
    · show execFrsq u g e f s = _
      rw [execFrsq, vecFn_ready hr hd hl]
      rfl
    · show execFsqrt u g e f s = _
      rw [execFsqrt, vecFn_ready hr hd hl]
      rfl
    · show execFexp2 u g e f s = _
      rw [execFexp2, vecFn_ready hr hd hl]
      rfl
    · show execFlog2 u g e f s = _
      rw [execFlog2, vecFn_ready hr hd hl]
      rfl
    · show execFdiv u g e f s = _
      rw [execFdiv, vecFn_ready hr hd hl]
      rfl

/-- Settles O31: each reduction is `vecReduce_ready`'s. -/
theorem reductionResults : Obligations.ReductionResults := by
  unfold Obligations.ReductionResults
  intro s u g e f v hr
  refine ⟨fun hd => ?_, fun hd hl => ?_⟩
  · simp only [List.forall_mem_cons, List.not_mem_nil, false_imp_iff, implies_true, and_true]
    refine ⟨?_, ?_, ?_, ?_, ?_, ?_⟩
    · show execRsumI u g e f s = _
      rw [execRsumI, vecReduce, vecLong_unnamed hr hd]
    · show execRmaxI u g e f s = _
      rw [execRmaxI, vecReduce, vecLong_unnamed hr hd]
    · show execRminI u g e f s = _
      rw [execRminI, vecReduce, vecLong_unnamed hr hd]
    · show execRsumF u g e f s = _
      rw [execRsumF, vecReduce, vecLong_unnamed hr hd]
    · show execRmaxF u g e f s = _
      rw [execRmaxF, vecReduce, vecLong_unnamed hr hd]
    · show execRminF u g e f s = _
      rw [execRminF, vecReduce, vecLong_unnamed hr hd]
  · intro F act bad terms fold nan ri rf
    have slt (a b : W32) : (if a.slt b then b else a) = if a.toInt < b.toInt then b else a := by simp [BitVec.slt]
    have sgt (a b : W32) : (if b.slt a then b else a) = if b.toInt < a.toInt then b else a := by simp [BitVec.slt]
    refine ⟨?_, ?_, ?_, ?_, ?_, ?_⟩
    · show execRsumI u g e f s = _
      rw [execRsumI]
      simp only [vecReduce_ready_int hr hd hl _ rfl, ri, fold, terms, bad, act, F]
    · show execRmaxI u g e f s = _
      rw [execRmaxI]
      simp only [vecReduce_ready_int hr hd hl _ (funext fun a => funext fun b => slt a b), ri, fold, terms, bad, act, F]
    · show execRminI u g e f s = _
      rw [execRminI]
      simp only [vecReduce_ready_int hr hd hl _ (funext fun a => funext fun b => sgt a b), ri, fold, terms, bad, act, F]
    · show execRsumF u g e f s = _
      rw [execRsumF]
      simp only [vecReduce_ready_fp hr hd hl, rf, nan, fold, terms, bad, act, F]
    · show execRmaxF u g e f s = _
      rw [execRmaxF]
      simp only [vecReduce_ready_fp hr hd hl, rf, nan, fold, terms, bad, act, F]
    · show execRminF u g e f s = _
      rw [execRminF]
      simp only [vecReduce_ready_fp hr hd hl, rf, nan, fold, terms, bad, act, F]

/-- Settles O32: what runs long is `vecLong_ready`'s; QNT and DQNT look at D, then at their format. -/
theorem tripleQuantResults : Obligations.TripleQuantResults := by
  unfold Obligations.TripleQuantResults
  intro s u g n e f v hr
  refine ⟨fun hd => ?_, fun hd hl => ?_⟩
  · simp only [List.forall_mem_cons, List.not_mem_nil, false_imp_iff, implies_true, and_true]
    refine ⟨?_, ?_, ?_, ?_⟩
    · show execSmx u g e f s = _
      rw [execSmx, vecLong_unnamed hr hd]
    · show execSmxf u g e f s = _
      rw [execSmxf, vecLong_unnamed hr hd]
    · show execQnt u g n e f s = _
      rw [execQnt, State.issueMove_needD_unnamed hr hd]
    · show execDqnt u g n e f s = _
      rw [execDqnt, State.issueMove_needD_unnamed hr hd]
  · intro X F d reg bad q t i ln used
    refine ⟨?_, ?_, fun hv => ?_, fun hv => ?_, fun hv => ⟨?_, ?_⟩⟩
    · show execSmx u g e f s = _
      rw [execSmx, vecLong_ready hr hd hl]
      simp only [State.vin_zero, State.vin_x, State.vin_f]
      rfl
    · show execSmxf u g e f s = _
      rw [execSmxf, vecLong_ready hr hd hl]
      simp only [State.vin_zero, State.vin_f]
      rfl
    · show execQnt u g n e f s = _
      rw [execQnt, State.issueMove_ready hr, State.needD_named hd, State.needFmt_valid hv, if_neg (Nat.not_le.2 hl)]
      rfl
    · show execDqnt u g n e f s = _
      rw [execDqnt, State.issueMove_ready hr, State.needD_named hd, State.needFmt_valid hv, if_neg (Nat.not_le.2 hl)]
      rfl
    · show execQnt u g n e f s = _
      rw [execQnt, State.issueMove_ready hr, State.needD_named hd, State.needFmt_invalid hv]
    · show execDqnt u g n e f s = _
      rw [execDqnt, State.issueMove_ready hr, State.needD_named hd, State.needFmt_invalid hv]

end Sys2Proof.Machine
end

section
/-! PROOFS. Issue of a move: guards, sources, what of the matrix array stands in its way. -/
namespace Sys2Proof.Machine

/-! ## Every move goes through its issue (R35, R37) -/

/-- Whether an instruction is MSTAT, which issues in a handler too (R324). -/
def Instr.isMstat : Instr → Bool
  | .mstat _ _ _ => true
  | _ => false
theorem Instr.isMstat_iff (i : Instr) : Instr.isMstat i = true ↔ ∃ g e f, i = .mstat g e f := by
  refine ⟨fun h => ?_, fun ⟨_, _, _, h⟩ => h ▸ rfl⟩
  unfold Instr.isMstat at h
  split at h
  · exact ⟨_, _, _, rfl⟩
  · cases h
/-- R213: a floating operation of a type that is a port issues as a move does. -/
theorem vecFp_issueMove {t : BitVec 2} (ht : typeWf t = true) (op : FpOp) (u : VUnit) (g : BitVec 4) (e : Bool) (f : BitVec 10) (s : State) :
    ∃ act, vecFp op u g t e f s = .next (s.issueMove u.slot g e f false act) := ⟨_, if_neg (bne_iff_ne.1 ht)⟩
/-- A move with the operands a port admits issues under its guard and its source. -/
theorem exec_eq_issueMove {i : Instr} {m : MoveFields} (h : i.fields = some m) (hw : i.operandWf = true) (s : State) :
    ∃ act, exec i s = .next (s.issueMove m.slot m.g m.e m.f (Instr.isMstat i) act) := by
  cases i with
  | fadd u g t e f => cases h; exact vecFp_issueMove hw .add u g e f s
  | fsub u g t e f => cases h; exact vecFp_issueMove hw .sub u g e f s
  | fmul u g t e f => cases h; exact vecFp_issueMove hw .mul u g e f s
  | ffma u g t e f => cases h; exact vecFp_issueMove hw .fma u g e f s
  | ffms u g t e f => cases h; exact vecFp_issueMove hw .fms u g e f s
  | fnma u g t e f => cases h; exact vecFp_issueMove hw .nma u g e f s
  | fmin u g t e f => cases h; exact vecFp_issueMove hw .min u g e f s
  | fmax u g t e f => cases h; exact vecFp_issueMove hw .max u g e f s
  | fabs u g t e f => cases h; exact vecFp_issueMove hw .abs u g e f s
  | fneg u g t e f => cases h; exact vecFp_issueMove hw .neg u g e f s
  | fcpys u g t e f => cases h; exact vecFp_issueMove hw .cpys u g e f s
  | _ => cases h <;> exact ⟨_, rfl⟩

/-! ## What stands in the way of a move of the M slot (R242, R253, R324) -/

section
variable {s : State} {mstat : Bool} {act : State → State}

/-- A metadata word's cause that is pending comes first. -/
theorem State.matrixGate_pending {x : BitVec 8} {a : W64} (h : s.me.mx.pendMeta = some (x, a)) :
    s.matrixGate mstat act =
      if x = 0x08 then (s.modMx fun y => { y with pendMeta := none }).consume .m a else (s.modMx fun y => { y with pendMeta := none }).trapAt .m x a := by
  rw [State.matrixGate, h]
/-- In a handler cause 0x02 is raised. -/
theorem State.matrixGate_handler (h : s.me.mx.pendMeta = none) (ht : s.pipe.trap.tl ≠ 0) (hm : mstat = false) :
    s.matrixGate mstat act = s.trapAt .m 0x02 (s.moveAddr .m) := by
  rw [State.matrixGate, h]
  exact if_pos (by simpa [hm] using ht)
/-- Out of a handler, and for MSTAT, the leader decides. -/
theorem State.matrixGate_allowed (h : s.me.mx.pendMeta = none) (ht : s.pipe.trap.tl = 0 ∨ mstat = true) :
    s.matrixGate mstat act = match s.me.mx.leader with
      | some l => if l ≠ s.cur then s.trapAt .m 0x0C (BitVec.ofNat 64 l.num) else act s
      | none => act s := by
  rw [State.matrixGate, h]
  refine (if_neg ?_).trans (by rfl)
  obtain h | h := ht <;> simp [h]
/-- A group that another core leads raises cause 0x0C. -/
theorem State.matrixGate_led {l : CoreId} (h : s.me.mx.pendMeta = none) (ht : s.pipe.trap.tl = 0 ∨ mstat = true) (hl : s.me.mx.leader = some l) (hc : l ≠ s.cur) :
    s.matrixGate mstat act = s.trapAt .m 0x0C (BitVec.ofNat 64 l.num) := by
  rw [State.matrixGate_allowed h ht, hl]
  exact if_pos hc
/-- Where nothing stands in the way the move goes on. -/
theorem State.matrixGate_free (h : s.me.mx.pendMeta = none) (ht : s.pipe.trap.tl = 0 ∨ mstat = true)
    (hl : s.me.mx.leader = none ∨ s.me.mx.leader = some s.cur) : s.matrixGate mstat act = act s := by
  rw [State.matrixGate_allowed h ht]
  obtain hl | hl := hl <;> simp [hl]

end

/-- R37: a move whose guard passes, of a slot other than M or with nothing of the matrix in its way, does what its source says. -/
theorem State.issueMove_source {s : State} {sl : Slot} {g : BitVec 4} {mstat : Bool} (hg : g ≠ 8) (hp : s.pipe.guardOf sl g = true)
    (hm : sl = .m → ∀ act, s.matrixGate mstat act = act s) (e : Bool) (f : BitVec 10) (act : Val → State → State) :
    s.issueMove sl g e f mstat act = match s.source s.cur e f with
      | .ok v => act v s
      | .wait => s.hold 1
      | .empty => s.trapAt sl 0x03 (f.setWidth 64)
      | .illegal => s.trapAt sl 0x02 (s.moveAddr sl) := by
  unfold State.issueMove
  rw [if_neg hg, hp]
  by_cases hsl : sl = .m
  · simp only [hsl, if_true, hm hsl]
    rfl
  · simp only [hsl, if_false]
    rfl
/-- Before its source a move of the M slot passes the gate. -/
theorem State.issueMove_m {s : State} {g : BitVec 4} {mstat : Bool} (hg : g ≠ 8) (hp : s.pipe.guardOf .m g = true) {e : Bool} {f : BitVec 10} {act : Val → State → State}
    {t : State} (ht : ∀ go, s.matrixGate mstat go = t) : s.issueMove .m g e f mstat act = t := by
  unfold State.issueMove
  rw [if_neg hg, hp]
  exact (if_neg Bool.false_ne_true).trans ((if_pos rfl).trans (ht _))

/-- Settles O9: every move goes through its issue, which a false guard ends. -/
theorem guardedOffMoveOnlyIssues : Obligations.GuardedOffMoveOnlyIssues := by
  unfold Obligations.GuardedOffMoveOnlyIssues
  intro i m s hf hw hp
  simp only [Instr.wf, hf, Bool.and_eq_true] at hw
  obtain ⟨⟨hg, -⟩, ho⟩ := hw
  obtain ⟨act, h⟩ := exec_eq_issueMove hf ho s
  rw [h, State.issueMove_off (bne_iff_ne.1 hg) hp]

/-- Settles O10: every move goes through its issue; the matrix's gate stands before the source. -/
theorem unreadableMoveWaitsOrTraps : Obligations.UnreadableMoveWaitsOrTraps := by
  unfold Obligations.UnreadableMoveWaitsOrTraps
  intro i m s hf ho mx allowed free
  obtain ⟨act, h⟩ := exec_eq_issueMove hf ho s
  rw [h]
  have hall : allowed → s.pipe.trap.tl = 0 ∨ Instr.isMstat i = true := Or.imp_right (Instr.isMstat_iff i).2
  refine ⟨fun hg => ?_, fun hg hp => ?_⟩
  · rw [hg, State.issueMove_reserved]
  have pass (hfree : free) : m.slot = .m → ∀ act, s.matrixGate (Instr.isMstat i) act = act s := fun hm act =>
    have ⟨hn, ha, hl⟩ := hfree hm
    State.matrixGate_free hn (hall ha) hl
  refine ⟨fun hfree hs => ?_, fun hfree hs => ?_, fun hm => ?_⟩
  · rw [State.issueMove_source hg hp (pass hfree), hs]
  · rw [State.issueMove_source hg hp (pass hfree), hs]
  rw [hm] at hp ⊢
  refine ⟨fun x a hx => ?_, fun hn ha => ?_, fun hn ha l hl hc => ?_⟩
  · rw [State.issueMove_m hg hp fun go => State.matrixGate_pending hx]
  · obtain ⟨htl, hms⟩ := not_or.1 ha
    have hms : Instr.isMstat i = false := Bool.eq_false_iff.2 (mt (Instr.isMstat_iff i).1 hms)
    rw [State.issueMove_m hg hp fun go => State.matrixGate_handler hn htl hms]
  · rw [State.issueMove_m hg hp fun go => State.matrixGate_led hn (hall ha) hl hc]

end Sys2Proof.Machine
end

section
/-! PROOFS. What a change of the current core alone leaves as it was. -/
namespace Sys2Proof.Machine

/-! ## Frames follow one another -/

theorem sameElsewhere_refl (s : State) : sameElsewhere s s := ⟨fun _ _ => rfl, rfl, rfl, rfl, rfl, rfl, rfl, rfl, rfl, rfl, rfl⟩
theorem sameElsewhere_trans {s t u : State} (h : sameElsewhere s t) (g : sameElsewhere t u) : sameElsewhere s u := by
  obtain ⟨h0, h1, h2, h3, h4, h5, h6, h7, h8, h9, h10⟩ := h
  obtain ⟨g0, g1, g2, g3, g4, g5, g6, g7, g8, g9, g10⟩ := g
  exact ⟨fun c hc => (g0 c (h8 ▸ hc)).trans (h0 c hc), g1.trans h1, g2.trans h2, g3.trans h3, g4.trans h4, g5.trans h5, g6.trans h6, g7.trans h7, g8.trans h8, g9.trans h9, g10.trans h10⟩
theorem sameBytes_refl (s : State) : sameBytes s s := ⟨fun _ => rfl, fun _ => rfl, fun _ => rfl⟩
theorem sameBytes_trans {s t u : State} (h : sameBytes s t) (g : sameBytes t u) : sameBytes s u :=
  ⟨fun l => (g.1 l).trans (h.1 l), fun a => (g.2.1 a).trans (h.2.1 a), fun a => (g.2.2 a).trans (h.2.2 a)⟩
theorem sameArch_trans {s t u : State} {c : CoreId} (h : sameArch s t c) (g : sameArch t u c) : sameArch s u c :=
  ⟨g.1.trans h.1, g.2.1.trans h.2.1, g.2.2.1.trans h.2.2.1, g.2.2.2.1.trans h.2.2.2.1, g.2.2.2.2.trans h.2.2.2.2⟩

/-! ## A change of the current core -/

section
variable (s : State)

theorem State.sameElsewhere_modMe (f : Core → Core) : sameElsewhere s (s.modMe f) :=
  ⟨fun _ hc => State.core_modCore_ne s f hc, rfl, rfl, rfl, rfl, rfl, rfl, rfl, rfl, rfl, rfl⟩
theorem State.sameElsewhere_modPipe (f : Pipe → Pipe) : sameElsewhere s (s.modPipe f) := s.sameElsewhere_modMe _
theorem State.sameBytes_modPipe (f : Pipe → Pipe) : sameBytes s (s.modPipe f) := s.sameBytes_modCore s.cur rfl
/-- Two changes of the pipeline are one. -/
theorem State.modPipe_modPipe (f g : Pipe → Pipe) : (s.modPipe f).modPipe g = s.modPipe fun p => g (f p) := by
  simp only [State.modPipe, State.modPipeOf, State.modCore, State.setCore_cur, State.setCore_setCore, State.core_setCore_self]
/-- A short result on its way, as one change of the pipeline. -/
theorem State.short_eq (u : Unit7) (v : Val) (fl : Flags) (d : Option (BitVec 10)) :
    s.short u v fl d = s.modPipe fun p => { p with shorts := p.shorts ++ [⟨u, v, fl, d, u.latency⟩], disp := .issued } := by
  rw [State.short, State.issued, State.setDisp, State.modPipe_modPipe]
/-- A register write that issues, outside a bundle. -/
theorem State.regWrite_issued_eq (h : s.pipe.wq = none) (w : RegWrite) : (s.regWrite w).issued = s.modPipe fun p => { p.apply w with disp := .issued } := by
  rw [State.issued, State.setDisp, State.regWrite, State.modPipe_modPipe]
  simp only [State.modPipe, State.modPipeOf, State.modCore]
  simp only [State.pipe, State.me] at h
  rw [h]

end

/-! ## The frame of operations on registers -/

/-- A short operation leaves one more result on its way. -/
theorem State.short_frame (s : State) (u : Unit7) (v : Val) (fl : Flags) (d : Option (BitVec 10)) :
    (s.short u v fl d).pipe.shorts = s.pipe.shorts ++ [⟨u, v, fl, d, u.latency⟩] ∧ (s.short u v fl d).pipe.disp = .issued
    ∧ sameArch s (s.short u v fl d) s.cur ∧ sameBytes s (s.short u v fl d) ∧ sameElsewhere s (s.short u v fl d) := by
  refine ⟨by simp [State.short_eq], by simp [State.short_eq], ?_, ?_, ?_⟩
  · have hc : ((s.short u v fl d).core s.cur).pipe = (s.short u v fl d).pipe := rfl
    rw [sameArch, hc, State.short_eq, State.pipe_modPipe]
    exact ⟨rfl, rfl, rfl, rfl, rfl⟩
  · rw [State.short_eq]
    exact s.sameBytes_modPipe _
  · rw [State.short_eq]
    exact s.sameElsewhere_modPipe _
/-- A register write that issues changes the registers alone. -/
theorem State.regWrite_frame {s : State} (h : s.pipe.wq = none) {w : RegWrite} {r : RegFile} {l : List (BitVec 10 × Nat)} (hw : s.pipe.apply w = { s.pipe with regs := r, fills := l }) :
    let x := (s.regWrite w).issued
    x.pipe.regs = r ∧ x.pipe.units = s.pipe.units ∧ x.pipe.sys = s.pipe.sys ∧ x.pipe.sys2 = s.pipe.sys2 ∧ x.pipe.trap = s.pipe.trap ∧ x.pipe.shorts = s.pipe.shorts
      ∧ x.pipe.longs = s.pipe.longs ∧ x.pipe.disp = .issued ∧ x.me.mx = s.me.mx ∧ sameBytes s x ∧ sameElsewhere s x := by
  intro x
  have hx : x = s.modPipe fun p => { p.apply w with disp := .issued } := s.regWrite_issued_eq h w
  have hp : x.pipe = { s.pipe with regs := r, fills := l, disp := .issued } := by rw [hx, State.pipe_modPipe, hw]
  rw [hp]
  refine ⟨rfl, rfl, rfl, rfl, rfl, rfl, rfl, rfl, ?_, ?_, ?_⟩
  · rw [hx, State.me_modPipe]
  · rw [hx]
    exact s.sameBytes_modPipe _
  · rw [hx]
    exact s.sameElsewhere_modPipe _

/-- Settles O13: `State.short_frame` and `State.regWrite_frame`. -/
theorem registerOperationFrame : Obligations.RegisterOperationFrame := by
  unfold Obligations.RegisterOperationFrame
  refine ⟨State.short_frame, fun s f v h => ?_⟩
  intro t e
  have ht := State.regWrite_frame h (w := .put f v) rfl
  have he := State.regWrite_frame h (w := .empty f) rfl
  refine ⟨ht.1, he.1, fun x hx => ?_⟩
  simp only [List.mem_cons, List.not_mem_nil, or_false] at hx
  obtain rfl | rfl := hx
  · exact ht.2
  · exact he.2

end Sys2Proof.Machine
end

section
/-! PROOFS. The registers by selector: what a write through a selector leaves in every register (R36, R42). -/
namespace Sys2Proof.Machine

section
variable {f h : BitVec 10}

/-! ## The kinds of selector (Table 2.5) -/

theorem selV_kinds (hf : selV f = true) : selS f = false := by simp [selS, selV] at *; omega
theorem selP_kinds (hf : selP f = true) : selS f = false ∧ selV f = false := by simp [selS, selV, selP] at *; omega
theorem selM_kinds (hf : selM f = true) : selS f = false ∧ selV f = false ∧ selP f = false := by simp [selS, selV, selP, selM] at *; omega
theorem selO_kinds (hf : selO f = true) : selS f = false ∧ selV f = false ∧ selP f = false ∧ selM f = false := by simp [selS, selV, selP, selM, selO] at *; omega
/-- A valid D is of one of the kinds. -/
theorem dValid_kinds (hf : dValid f = true) : selS f = true ∨ selV f = true ∨ selP f = true ∨ selM f = true ∨ selO f = true := by
  simp [dValid, selS, selV, selP, selM, selO] at *; omega
/-- Two selectors of a kind name two registers. -/
theorem selIx_ne_iff {k : Nat} : selIx k f ≠ selIx k h ↔ f.toNat % 2 ^ k ≠ h.toNat % 2 ^ k := by simp [selIx, Fin.ext_iff]
theorem selS_ix_ne (hf : selS f = true) (hh : selS h = true) (hn : f.toNat ≠ h.toNat) : selIx 6 f ≠ selIx 6 h := by
  rw [selIx_ne_iff]; simp [selS] at *; omega
theorem selV_ix_ne (hf : selV f = true) (hh : selV h = true) (hn : f.toNat ≠ h.toNat) : selIx 6 f ≠ selIx 6 h := by
  rw [selIx_ne_iff]; simp [selV] at *; omega
theorem selP_ix_ne (hf : selP f = true) (hh : selP h = true) (hn : f.toNat ≠ h.toNat) : selIx 3 f ≠ selIx 3 h := by
  rw [selIx_ne_iff]; simp [selP] at *; omega
theorem selM_ix_ne (hf : selM f = true) (hh : selM h = true) (hn : f.toNat ≠ h.toNat) : selIx 3 f ≠ selIx 3 h := by
  rw [selIx_ne_iff]; simp [selM] at *; omega
theorem selO_ix_ne (hf : selO f = true) (hh : selO h = true) (hn : f.toNat ≠ h.toNat) : selIx 4 f ≠ selIx 4 h := by
  rw [selIx_ne_iff]; simp [selO] at *; omega

/-! ## A write through a selector of each kind -/

variable {r : RegFile} {v : Val}

theorem RegFile.put_s (hf : selS f = true) (h0 : f ≠ 0) : r.put f v = { r with s := r.s.set (selIx 6 f) ⟨v.toS, true⟩ } := by
  simp only [RegFile.put, hf, h0, if_true, if_false]
theorem RegFile.put_v (hf : selV f = true) : r.put f v = { r with v := r.v.set (selIx 6 f) ⟨v.toV, true⟩ } := by
  simp [RegFile.put, hf, selV_kinds hf]
theorem RegFile.put_p (hf : selP f = true) : r.put f v = { r with p := r.p.set (selIx 3 f) v.toP } := by
  simp [RegFile.put, hf, selP_kinds hf]
theorem RegFile.put_m (hf : selM f = true) (h0 : f ≠ 0x88) : r.put f v = { r with m := r.m.set (selIx 3 f) v.toM } := by
  simp only [RegFile.put, hf, selM_kinds hf, h0, if_true, if_false, Bool.false_eq_true]
theorem RegFile.put_o (hf : selO f = true) : r.put f v = { r with o := r.o.set (selIx 4 f) ⟨v.toV, true⟩ } := by
  simp [RegFile.put, hf, selO_kinds hf]

/-! ## What it leaves -/

/-- A write through a selector leaves the register of every other selector. -/
theorem RegFile.put_other (hn : f ≠ h) (hf : dValid f = true) : (r.put f v).get h = r.get h ∧ (r.put f v).full h = r.full h := by
  have hn' : f.toNat ≠ h.toNat := fun hh => hn (BitVec.eq_of_toNat_eq hh)
  obtain k | k | k | k | k := dValid_kinds hf
  · by_cases h0 : f = 0
    · rw [h0, RegFile.put_s0]; exact ⟨rfl, rfl⟩
    · have := fun hh => selS_ix_ne k hh hn'
      rw [RegFile.put_s k h0, RegFile.get, RegFile.get, RegFile.full, RegFile.full]
      grind
  · have := fun hh => selV_ix_ne k hh hn'
    rw [RegFile.put_v k, RegFile.get, RegFile.get, RegFile.full, RegFile.full]
    grind
  · have := fun hh => selP_ix_ne k hh hn'
    rw [RegFile.put_p k, RegFile.get, RegFile.get, RegFile.full, RegFile.full]
    grind
  · by_cases h0 : f = 0x88
    · rw [h0, RegFile.put_m0]; exact ⟨rfl, rfl⟩
    · have := fun hh => selM_ix_ne k hh hn'
      rw [RegFile.put_m k h0, RegFile.get, RegFile.get, RegFile.full, RegFile.full]
      grind
  · have := fun hh => selO_ix_ne k hh hn'
    rw [RegFile.put_o k, RegFile.get, RegFile.get, RegFile.full, RegFile.full]
    grind
/-- The register itself reads what was written, converted. -/
theorem RegFile.get_put_s (hf : selS f = true) (h0 : f ≠ 0) : (r.put f v).get f = .sc v.toS ∧ (r.put f v).full f = true := by
  rw [RegFile.put_s hf h0]
  simp only [RegFile.get, RegFile.full, hf, h0, if_true, if_false, Fin.getElem_fin, Vector.getElem_set_self, and_self]
theorem RegFile.get_put_v (hf : selV f = true) : (r.put f v).get f = .vec v.toV ∧ (r.put f v).full f = true := by
  rw [RegFile.put_v hf]
  simp [RegFile.get, RegFile.full, hf, selV_kinds hf]
theorem RegFile.get_put_o (hf : selO f = true) : (r.put f v).get f = .vec v.toV ∧ (r.put f v).full f = true := by
  rw [RegFile.put_o hf]
  simp [RegFile.get, RegFile.full, hf, selO_kinds hf]
theorem RegFile.get_put_p (hf : selP f = true) : (r.put f v).get f = .w64 (boolWord 64 v.toP) := by
  rw [RegFile.put_p hf]
  simp [RegFile.get, hf, selP_kinds hf]
theorem RegFile.get_put_m (hf : selM f = true) (h0 : f ≠ 0x88) : (r.put f v).get f = .msk v.toM := by
  rw [RegFile.put_m hf h0]
  simp only [RegFile.get, hf, selM_kinds hf, h0, if_true, if_false, Bool.false_eq_true, Fin.getElem_fin, Vector.getElem_set_self]

end

/-- Settles O11: a write through a selector, kind by kind. -/
theorem registersReadWhatWasWritten : Obligations.RegistersReadWhatWasWritten := by
  unfold Obligations.RegistersReadWhatWasWritten
  exact fun r v => ⟨RegFile.put_s0 r v, RegFile.get_s0 r, RegFile.put_m0 r v, RegFile.get_m0 r, fun f hf h0 => RegFile.get_put_s hf h0,
    fun f hf => hf.elim RegFile.get_put_v RegFile.get_put_o, fun f hf => RegFile.get_put_p hf, fun f hf h0 => RegFile.get_put_m hf h0,
    fun f h hn hf _ => RegFile.put_other hn hf⟩

/-! ## MOVE (R42) -/

section
variable {s : State} {sl : Slot} {g : BitVec 4} {d : BitVec 9} {e : Bool} {f : BitVec 10} {v : Val} (hr : s.ready sl g e f v = true) (hd : toRegister d = true)
include hr hd

/-- A move whose value reaches a p, m or D destination with poison consumes it. -/
theorem execMove_spoils (hv : v.spoils d = true) : execMove sl g d e f s = .next (s.consume sl (f.setWidth 64)) := by
  rw [execMove, State.issueMove_ready hr, hd, hv, State.needClean_poison]
  rfl
/-- Any other writes the register, or the latch, that TO names. -/
theorem execMove_clean (hv : v.spoils d = false) : execMove sl g d e f s = .next (if d.toNat < 0xC0 then (s.regWrite (.put (d.setWidth 10) v)).issued
    else (s.modPipe fun p => { p with units := p.units.putLatch sl d v }).issued) := by
  rw [execMove, State.issueMove_ready hr, hd, hv, State.needClean_clean]
  rfl

end

/-- Settles O12: `execMove_clean` and `execMove_spoils`. -/
theorem moveWritesDestination : Obligations.MoveWritesDestination := by
  unfold Obligations.MoveWritesDestination
  intro s sl g d e f v hr hd
  refine ⟨fun hv hn => ?_, fun hv => ?_, fun hv hn => ?_⟩
  · show execMove sl g d e f s = _
    rw [execMove_clean hr hd hv, if_pos hn]
  · show execMove sl g d e f s = _
    rw [execMove_spoils hr hd hv]
  · show execMove sl g d e f s = _
    rw [execMove_clean hr hd hv, if_neg (Nat.not_lt.2 hn)]

end Sys2Proof.Machine
end

section
/-! PROOFS. Atomics at their homes (R81, R106): one that is wider than a die's slot of memory. -/
namespace Sys2Proof.Machine

/-- R93, R106: an atomic without a result performed at its home is the store of its new word, and quiet besides. -/
theorem State.performAt_atomicN {s : State} {c : CoreId} {r : Req} {l : Loc} {op : AOp} (ho : r.op = .atomic op false) (hu : s.homeUp l = true) :
    let new := op.apply r.size (BitVec.ofNat 64 (natOfBytes (s.homeBytes l r.size).1)) r.data.val r.x.val
    ∃ lt bad, (s.storeAt c.die (s.core c).task.ctx lt l (bytesOfNat r.size new.toNat) bad).2.Quiet (s.performAt c r l) := by
  intro new
  refine ⟨max (ltime (s.core c).lt) (s.times l).wts, (s.homeBytes l r.size).2 || r.data.poi || (r.x.poi && op == .cas), ?_⟩
  simp only [State.performAt, ho, hu, if_true, Bool.not_true, Bool.false_or, Bool.false_eq_true, if_false]
  exact (State.Quiet.setLt _ _ _).trans (.track _ _ _)
/-- R93: so HOME_ACCESS of one is, once the request has left the list. -/
theorem exec_homeAccess_atomicN {s : State} {n : Nat} {r : Req} {l : Loc} {op : AOp} (hp : s.performs n r l) (ho : r.op = .atomic op false) :
    let u := s.dropReq s.cur r.seq
    let new := op.apply r.size (BitVec.ofNat 64 (natOfBytes (u.homeBytes l r.size).1)) r.data.val r.x.val
    ∃ lt bad t, exec (.homeAccess n) s = .next t.endOwed ∧ s.Frame t
      ∧ (u.storeAt s.cur.die (u.core s.cur).task.ctx lt l (bytesOfNat r.size new.toNat) bad).2.Quiet t := by
  have hx := exec_homeAccess_of_performs hp
  obtain ⟨-, -, -, -, -, -, -, hu, -⟩ := hp
  have hu' : (s.dropReq s.cur r.seq).homeUp l = true := hu
  obtain ⟨lt, bad, hq⟩ := (s.dropReq s.cur r.seq).performAt_atomicN (c := s.cur) ho hu'
  exact ⟨lt, bad, _, hx, ((State.Frame.dropReq s s.cur r.seq).trans (.storeAt hu' _ _ _ _ _)).trans hq.toFrame, hq⟩
/-- Of 8 bytes or more, an exchange makes the word the whole operand. -/
theorem AOp.apply_xchg {n : Nat} (hn : 8 ≤ n) (old y x : W64) : AOp.xchg.apply n old y x = y := by
  have hm : BitVec.ofNat 64 (2 ^ (8 * n) - 1) = BitVec.allOnes 64 := by
    obtain ⟨k, hk⟩ : 2 ^ 64 ∣ 2 ^ (8 * n) := Nat.pow_dvd_pow 2 (by omega)
    have hpos : 0 < 2 ^ (8 * n) := Nat.two_pow_pos _
    rw [hk] at hpos ⊢
    apply BitVec.eq_of_toNat_eq
    rw [BitVec.toNat_ofNat, BitVec.toNat_allOnes]
    omega
  show y &&& BitVec.ofNat 64 (2 ^ (8 * n) - 1) = y
  rw [hm, BitVec.and_allOnes]

/-- An exchange of the first `k` bytes of die 6's slot of memory with the value 1. -/
def slotSwap (k : Nat) : Req := ⟨0, 0, .atomic .xchg false, .pa 0xC000000000, k, ⟨1, false⟩, ⟨0, false⟩, 0, none⟩
/-- The machine whose first page of that slot stays replicated, with the exchange outstanding on core 0. -/
def slotSwapped (k : Nat) : State := slotReplicated.modMe fun c => { c with reqs := [slotSwap k] }

/-- It is the machine of the store with another request in its place. -/
theorem slotSwapped_eq (k : Nat) : slotSwapped k = (slotStored 0).modMe fun c => { c with reqs := [slotSwap k] } := by
  simp only [slotSwapped, slotStored, State.modMe, State.modCore, State.setCore_cur, State.setCore_setCore, State.core_setCore_self]
theorem slotSwapped_memWf (k : Nat) : (slotSwapped k).memWf := by
  rw [slotSwapped_eq]
  exact State.memWf_modCore (slotStored_memWf 0) _ _ rfl
theorem slotSwapped_owesNone (k : Nat) : (slotSwapped k).owesNone := by
  have hf : (slotStored 0).Frame ((slotStored 0).modMe fun c => { c with reqs := [slotSwap k] }) := .setCore _ _ ⟨rfl, rfl, rfl, rfl, rfl, rfl, rfl⟩
  rw [slotSwapped_eq]
  exact State.owesNone_of_task (fun c => (hf.core c).task) (slotStored_owesNone 0)
theorem slotSwapped_performs (k : Nat) : (slotSwapped k).performs 0 (slotSwap k) (.pa 0xC000000000) :=
  ⟨by rfl, by rfl, by rfl, fun _ => ⟨by rfl, by rfl, by rfl⟩, by rfl, by rfl, by rfl, by rfl, (by decide : Phase.bringUp ≠ .dusk)⟩

/-- Refutes O24: no bound is put on the size of a request. An atomic on a page that stays replicated is repeated in the other dies' copies (R80), `2^37` bytes
apart, so an exchange of `2^37 + 1` bytes at die 6's copy has its byte `2^37` overwritten by its own first byte, at die 7's. -/
theorem not_homeAtomicUpdatesWord : ¬ Obligations.HomeAtomicUpdatesWord := by
  unfold Obligations.HomeAtomicUpdatesWord
  intro h
  obtain ⟨k, hk⟩ : ∃ k, k = 0x2000000000 := ⟨_, rfl⟩
  have hw := slotSwapped_memWf (k + 1)
  have ho := slotSwapped_owesNone (k + 1)
  have hr := slotSwapped_performs (k + 1)
  have hnew (old : W64) : AOp.xchg.apply (slotSwap (k + 1)).size old (slotSwap (k + 1)).data.val (slotSwap (k + 1)).x.val = 1 :=
    AOp.apply_xchg (by simp only [slotSwap, hk]; decide) old 1 0
  obtain ⟨t, ht, -, howes, hbytes, -⟩ := h.1 _ _ _ _ _ _ hw hr rfl
  obtain ⟨lt, bad, p, hp, hf, hq⟩ := exec_homeAccess_atomicN hr rfl
  rw [hnew] at hq hbytes
  have htp : t = p := by
    rw [ht, Host.Outcome.next.injEq, howes ho, hf.endOwed ho] at hp
    exact hp
  have hn : 0 < (bytesOfNat (slotSwap (k + 1)).size 1).length := by
    rw [length_bytesOfNat]
    exact Nat.succ_pos k
  have hcopy : t.byteAt (.pa (7 * 0x2000000000 + 0xC000000000 % 0x2000000000 + 0)) = BitVec.ofNat 8 (1 / 256 ^ 0) := by
    rw [htp, hq.byteAt]
    refine (State.byteAt_storeAt_mirrored (by rfl) _ _ _ _ _ rfl (State.memWf_modCore hw _ _ rfl) (by rfl) (by rfl) (by rfl) (by decide) hn).trans ?_
    exact getElem_bytesOfNat hn
  have hown : t.byteAt (.pa (0xC000000000 + k)) = BitVec.ofNat 8 (1 / 256 ^ k) := hbytes k (Nat.lt_succ_self k)
  rw [Nat.div_eq_of_lt (Nat.one_lt_pow (by omega) (by decide)), hk] at hown
  exact absurd (hown.symm.trans hcopy) (by decide)

end Sys2Proof.Machine
end

section
/-! PROOFS. The system registers: what a write leaves of each, and of everything else (R175, R176). -/
namespace Sys2Proof.Machine

section
variable (p : Pipe) (v : W64)

/-! ## What a write leaves -/

/-- Each field changes by a write of its own register alone. -/
theorem Pipe.writeSys_frame (n : Nat) :
    let q := p.writeSys n v
    (n ≠ 0x000 → q.sys.tstat = p.sys.tstat) ∧ (n ≠ 0x002 → q.sys.thbase = p.sys.thbase)
    ∧ ((n ≠ 0x010 ∧ n ≠ 0x011 ∧ n ≠ 0x012 ∧ n ≠ 0x013) → q.trap.bank1 = p.trap.bank1) ∧ ((n ≠ 0x018 ∧ n ≠ 0x019 ∧ n ≠ 0x01A ∧ n ≠ 0x01B) → q.trap.bank2 = p.trap.bank2)
    ∧ (n ≠ 0x031 → q.sys.rseed = p.sys.rseed) ∧ (n ≠ 0x032 → q.sys.fpstat = p.sys.fpstat) ∧ (n ≠ 0x050 → q.sys.wdti = p.sys.wdti)
    ∧ (n ≠ 0x058 → q.sys.codebase = p.sys.codebase) ∧ (n ≠ 0x059 → q.sys.mdbase = p.sys.mdbase) ∧ (n ≠ 0x070 → q.sys2.tickch = p.sys2.tickch)
    ∧ (n ≠ 0x071 → q.sys2.lateq = p.sys2.lateq ∧ q.sys2.nullq = p.sys2.nullq) ∧ (n ≠ 0x080 → q.sys.pwstat = p.sys.pwstat)
    ∧ (n ≠ 0x090 → q.regs.ls[0] = p.regs.ls[0]) ∧ (n ≠ 0x091 → q.regs.ls[1] = p.regs.ls[1]) ∧ (n ≠ 0x092 → q.regs.lc[0] = p.regs.lc[0]) ∧ (n ≠ 0x093 → q.regs.lc[1] = p.regs.lc[1]) := by
  unfold Pipe.writeSys
  split <;> simp [SysRegs.tstat, SysRegs.qmode, SysRegs2.seed]
/-- What no write of a system register changes. -/
theorem Pipe.writeSys_keeps (n : Nat) :
    let q := p.writeSys n v
    q.trap.tl = p.trap.tl ∧ q.trap.regions = p.trap.regions ∧ q.trap.crgnc = p.trap.crgnc ∧ q.trap.crgna = p.trap.crgna ∧ q.rmode = p.rmode
    ∧ q.sys2.shdmode = p.sys2.shdmode ∧ q.sys2.shddim = p.sys2.shddim ∧ q.sys2.shdblk = p.sys2.shdblk ∧ q.sys2.cbar = p.sys2.cbar ∧ q.sys2.sbar = p.sys2.sbar
    ∧ q.sys2.spuse = p.sys2.spuse ∧ q.sys.pwb = p.sys.pwb ∧ q.sys.pws = p.sys.pws ∧ q.units = p.units ∧ q.shorts = p.shorts ∧ q.regs.s = p.regs.s ∧ q.regs.v = p.regs.v
    ∧ q.regs.o = p.regs.o ∧ q.regs.p = p.regs.p ∧ q.regs.m = p.regs.m := by
  unfold Pipe.writeSys
  split <;> and_intros <;> rfl
/-- A write of one register of a trap bank leaves the others. -/
theorem TrapBank.read_write_ne (b : TrapBank) {j k : Nat} (hj : j < 4) (hk : k < 4) (h : k ≠ j) : (b.write j v).read k = b.read k := by
  match j, k, hj, hk with
  | 0, 1, _, _ | 0, 2, _, _ | 0, 3, _, _ | 1, 0, _, _ | 1, 2, _, _ | 1, 3, _, _ | 2, 0, _, _ | 2, 1, _, _ | 2, 3, _, _ | 3, 0, _, _ | 3, 1, _, _ | 3, 2, _, _ => rfl
  | 0, 0, _, _ | 1, 1, _, _ | 2, 2, _, _ | 3, 3, _, _ => exact absurd rfl h
theorem Pipe.read_bank1_writeSys_ne {n k : Nat} (hk : k < 4) (h : 0x010 + k ≠ n) : (p.writeSys n v).trap.bank1.read k = p.trap.bank1.read k := by
  obtain ⟨-, -, hb, -⟩ := p.writeSys_frame v n
  by_cases hn : 0x010 ≤ n ∧ n < 0x014
  · obtain ⟨j, rfl⟩ := Nat.exists_eq_add_of_le hn.1
    have hj : j < 4 := by omega
    have hw : (p.writeSys (0x010 + j) v).trap.bank1 = p.trap.bank1.write j v := by
      match j, hj with
      | 0, _ | 1, _ | 2, _ | 3, _ => rfl
    rw [hw]
    exact TrapBank.read_write_ne v _ hj hk (by omega)
  · rw [hb (by omega)]
theorem Pipe.read_bank2_writeSys_ne {n k : Nat} (hk : k < 4) (h : 0x018 + k ≠ n) : (p.writeSys n v).trap.bank2.read k = p.trap.bank2.read k := by
  obtain ⟨-, -, -, hb, -⟩ := p.writeSys_frame v n
  by_cases hn : 0x018 ≤ n ∧ n < 0x01C
  · obtain ⟨j, rfl⟩ := Nat.exists_eq_add_of_le hn.1
    have hj : j < 4 := by omega
    have hw : (p.writeSys (0x018 + j) v).trap.bank2 = p.trap.bank2.write j v := by
      match j, hj with
      | 0, _ | 1, _ | 2, _ | 3, _ => rfl
    rw [hw]
    exact TrapBank.read_write_ne v _ hj hk (by omega)
  · rw [hb (by omega)]
/-- A write of one system register leaves what a read of any other gives. -/
theorem Pipe.readSys_writeSys_ne {n k : Nat} (h : k ≠ n) : (p.writeSys n v).readSys k = p.readSys k := by
  obtain ⟨h1, h2, -, -, h5, h6, h7, h8, h9, h10, h11, h12, h13, h14, h15, h16⟩ := p.writeSys_frame v n
  obtain ⟨k1, k2, k3, k4, k5, k6, k7, k8, k9, k10, k11, k12, k13, -⟩ := p.writeSys_keeps v n
  have h' : n ≠ k := h.symm
  unfold Pipe.readSys
  split
  case h_4 => exact p.read_bank1_writeSys_ne v (k := 0) (by decide) h
  case h_5 => exact p.read_bank1_writeSys_ne v (k := 1) (by decide) h
  case h_6 => exact p.read_bank1_writeSys_ne v (k := 2) (by decide) h
  case h_7 => exact p.read_bank1_writeSys_ne v (k := 3) (by decide) h
  case h_8 => exact p.read_bank2_writeSys_ne v (k := 0) (by decide) h
  case h_9 => exact p.read_bank2_writeSys_ne v (k := 1) (by decide) h
  case h_10 => exact p.read_bank2_writeSys_ne v (k := 2) (by decide) h
  case h_11 => exact p.read_bank2_writeSys_ne v (k := 3) (by decide) h
  all_goals simp_all [TrapState.crgnh]

/-! ## What it writes -/

/-- TCAUSE takes bits 13 to 0. -/
theorem TrapBank.causeWord_write (b : TrapBank) (v : W64) : (b.write 1 v).causeWord = v &&& 0x3FFF := by
  have h : v.extractLsb' 11 3 ++ v.extractLsb' 8 3 ++ v.extractLsb' 0 8 = v.setWidth 14 := by
    rw [BitVec.extractLsb'_append_extractLsb'_eq_extractLsb' (by decide), BitVec.extractLsb'_append_extractLsb'_eq_extractLsb' (by decide), BitVec.setWidth_eq_extractLsb' (by decide)]
  simp only [TrapBank.write, TrapBank.causeWord, h]
  exact setWidth_setWidth_eq_and v 14
/-- Of TSNAP a write of DROP changes bit 35. -/
theorem TSnap.word_drop (t : TSnap) (b : Bool) : { t with drop := b }.word = (t.word &&& ~~~(0x800000000 : W64)) ||| ((BitVec.ofBool b).setWidth 64 <<< 35) := by
  have h : (0x800000000 : W64) = BitVec.twoPow 64 35 := by decide
  rw [h]
  apply BitVec.eq_of_getLsbD_eq
  intro i hi
  simp only [TSnap.word, BitVec.getLsbD_setWidth, BitVec.getLsbD_append, BitVec.getLsbD_and, BitVec.getLsbD_or, BitVec.getLsbD_not, BitVec.getLsbD_twoPow, BitVec.getLsbD_shiftLeft]
  by_cases h5 : i = 35
  · subst h5; simp
  · grind
/-- Of TSTAT a write changes the bits of LOCK, BTE, FVE and DZE. -/
theorem SysRegs.tstat_write (r : SysRegs) (v : W64) :
    { r with lock := v.getLsbD 4, bte := v.getLsbD 2, fve := v.getLsbD 1, dze := v.getLsbD 0 }.tstat = (r.tstat &&& 0x68) ||| (v &&& 0x17) := by
  have h6 : (0x68 : W64) = (0x68 : BitVec 7).setWidth 64 := by decide
  have h1 : (0x17 : W64) = (0x17 : BitVec 7).setWidth 64 := by decide
  apply BitVec.eq_of_getLsbD_eq
  intro i hi
  rw [h6, h1]
  simp only [SysRegs.tstat, BitVec.getLsbD_setWidth, BitVec.getLsbD_and, BitVec.getLsbD_or, BitVec.getLsbD_append, BitVec.getLsbD_ofBool]
  by_cases h7 : i < 7
  · interval_cases i <;> simp [SysRegs.qmode]
  · have (x : BitVec 7) : x.getLsbD i = false := BitVec.getLsbD_of_ge _ _ (by omega)
    grind
/-- A flag moved to bit 35. -/
theorem setWidth_ofBool_shiftLeft (w : W64) : (BitVec.ofBool (w.getLsbD 35)).setWidth 64 <<< 35 = w &&& 0x800000000 := by
  have h : (0x800000000 : W64) = BitVec.twoPow 64 35 := by decide
  rw [h, BitVec.and_twoPow]
  cases w.getLsbD 35 <;> decide
end

/-- Settles O37: `Pipe.readSys_writeSys_ne` is the frame, and each register's own bits are by unfolding or one of the lemmas above. -/
theorem systemRegisterValues : Obligations.SystemRegisterValues := by
  unfold Obligations.SystemRegisterValues
  intro p v
  have h7 : v &&& 7 = (v.extractLsb' 0 3).setWidth 64 := by
    rw [← BitVec.setWidth_eq_extractLsb' (by decide)]
    exact (setWidth_setWidth_eq_and v 3).symm
  have hdrop (b : TrapBank) : (b.write 3 v).read 3 = (b.read 3 &&& ~~~(0x800000000 : W64)) ||| (v &&& 0x800000000) :=
    (b.snap.word_drop _).trans (by rw [setWidth_ofBool_shiftLeft]; rfl)
  refine ⟨p.sys.tstat_write v, by rfl, by rfl, by rfl, by rfl, by rfl, ?_, ?_, ?_, by rfl, by rfl, by rfl, by rfl, by rfl, by rfl, by rfl, by rfl,
    by simp [Pipe.writeSys], by simp [Pipe.writeSys], by simp [Pipe.writeSys], by simp [Pipe.writeSys], fun n k h _ => p.readSys_writeSys_ne v h, fun n => ?_⟩
  · simp only [List.forall_mem_cons, List.not_mem_nil, false_imp_iff, implies_true, and_true]
    exact ⟨p.trap.bank1.causeWord_write v, p.trap.bank2.causeWord_write v⟩
  · simp only [List.forall_mem_cons, List.not_mem_nil, false_imp_iff, implies_true, and_true]
    exact ⟨hdrop p.trap.bank1, hdrop p.trap.bank2⟩
  · rw [h7]
    show (if 4 < (v.extractLsb' 0 3).toNat then (0 : BitVec 3) else v.extractLsb' 0 3).setWidth 64 = _
    simp only [BitVec.toNat_setWidth_of_le (by decide : 3 ≤ 64)]
    split <;> rfl
  · obtain ⟨htl, -, -, -, -, -, -, -, -, -, -, -, -, hu, hs, h1, h2, h3, h4, h5⟩ := p.writeSys_keeps v n
    exact ⟨hu, hs, h1, h2, h3, h4, h5, htl⟩

/-! ## Format registers and RMODE (R190, R191, R193) -/

/-- R193: RMODE takes bits 3 to 0, but for a MODE of 5 to 7. -/
theorem rmodeAfter_setWidth (old : BitVec 24) (w : W64) : rmodeAfter old (w.setWidth 24) =
    (BitVec.ofBool (w.getLsbD 3) ++ if 4 < (w.extractLsb' 0 3).toNat then old.extractLsb' 0 3 else w.extractLsb' 0 3).setWidth 24 := by
  have h3 : (w.setWidth 24).extractLsb' 0 3 = w.extractLsb' 0 3 := by
    rw [← BitVec.setWidth_eq_extractLsb' (by decide), ← BitVec.setWidth_eq_extractLsb' (by decide), BitVec.setWidth_setWidth_of_le w (by decide)]
  have hb : (w.setWidth 24).getLsbD 3 = w.getLsbD 3 := by simp
  have h4 : (w.setWidth 24).extractLsb' 0 4 = BitVec.ofBool (w.getLsbD 3) ++ w.extractLsb' 0 3 := by
    apply BitVec.eq_of_getLsbD_eq
    intro i hi
    simp only [BitVec.getLsbD_append, BitVec.getLsbD_extractLsb', BitVec.getLsbD_setWidth, BitVec.getLsbD_ofBool]
    interval_cases i <;> simp
  rw [rmodeAfter, h3, hb, h4]
  split <;> rfl

/-- Settles O35. -/
theorem formatAndSystemReads : Obligations.FormatAndSystemReads := by
  unfold Obligations.FormatAndSystemReads
  intro s g n e f v hr hc w shadow old mode
  refine ⟨fun hw hv => ?_, fun hw => ?_, ?_, fun hn => ?_, fun hn => ?_⟩
  · show execSetf g n e f s = _
    rw [execSetf, controlClean_ready hr hc, if_pos (Bool.and_eq_true_iff.2 ⟨decide_eq_true hw, hv⟩)]
    rfl
  · show execSetf g n e f s = _
    rw [execSetf, controlClean_ready hr hc, if_neg fun h => ?_]
    obtain ⟨h1, h2⟩ := Bool.and_eq_true_iff.1 h
    exact hw.elim (Nat.not_le.2 (of_decide_eq_true h1)) fun h3 => Bool.noConfusion (h2.symm.trans h3)
  · show execSetrm g e f s = _
    rw [execSetrm, controlClean_ready hr hc, State.writeRmode, rmodeAfter_setWidth]
    rfl
  · show execSrrd g e f s = _
    obtain ⟨b, hb⟩ := Option.ne_none_iff_exists'.1 hn
    rw [execSrrd, controlClean_ready hr hc, hb]
    rfl
  · show execSrrd g e f s = _
    rw [execSrrd, controlClean_ready hr hc, hn]

/-- Settles O36: what SRWR does is decided by the access of the register F names. -/
theorem systemRegisterWrites : Obligations.SystemRegisterWrites := by
  unfold Obligations.SystemRegisterWrites
  intro s g e f v hr hc hx w x
  have hs : exec (.srwr g e f) s = .next (match sysAccess w.toNat with
      | some false => if w = 0x030 then (s.writeRmode x).issued else (s.regWrite (.sys w.toNat x)).issued
      | some true => s.trapAt .c 0x06 w
      | none => s.trapAt .c 0x02 w) := by
    show execSrwr g e f s = _
    rw [execSrwr, controlClean_ready hr hc]
    simp only [hx, State.needClean_clean]
    rfl
  refine ⟨fun ha hn => ?_, fun hw => ?_, fun ha => ?_, fun ha => ?_⟩
  · rw [hs, ha]
    exact congrArg _ (if_neg hn)
  · have ha : sysAccess w.toNat = some false := by rw [hw]; rfl
    rw [hs, ha]
    exact congrArg _ (if_pos hw)
  · rw [hs, ha]
  · rw [hs, ha]

end Sys2Proof.Machine
end

section
/-! PROOFS. The control slot: branches and loops, TRAP, fences, barriers. -/
namespace Sys2Proof.Machine

/-! ## Branches and loops (R295, R296) -/

section
variable {s : State} {g : BitVec 4} {n : BitVec 1} {e : Bool} {f : BitVec 10} {v : Val} (hr : s.ready .c g e f v = true)
include hr

/-- RET reads a full s63 that is not poisoned. -/
theorem execRet_full {x : W64} (hx : s.pipe.regs.s[63] = ⟨⟨x, false⟩, true⟩) : execRet g e f s = .next (s.steer (x.setWidth 32)) := by
  have hfull : s.pipe.regs.full linkReg = true := congrArg SReg.full hx
  have hget : s.pipe.regs.get linkReg = .sc ⟨x, false⟩ := congrArg (fun q : SReg => Val.sc q.v) hx
  rw [execRet, controlOp_ready hr, if_neg (by simp [hfull])]
  simp only [hget, Val.toS, State.needClean_clean]
/-- ENDL goes back while its counter is above 1. -/
theorem execEndl_ready : let c := s.pipe.regs.lc[n.toNat]'(by omega)
    let set (a : W32) : State := s.modPipe fun p => { p with regs := { p.regs with lc := p.regs.lc.set n.toNat a (by omega) } }
    execEndl g n e f s = if 1 < c.toNat then .next ((set (c - 1)).steer (s.pipe.regs.ls[n.toNat]'(by omega))) else .next (set 0).issued := by
  intro c set
  rw [execEndl, controlOp_ready hr]
  exact apply_ite Host.Outcome.next _ _ _

end

/-- Settles O34: every one of them steers the stream, or changes a loop's registers. -/
theorem branchResults : Obligations.BranchResults := by
  unfold Obligations.BranchResults
  intro s g n e f v hr hc w b go ln linked lc set
  refine ⟨?_, ?_, ?_, ?_, fun x hx => ?_, ?_, ?_⟩
  · show execBr g e f s = _
    rw [execBr, controlClean_ready hr hc]
    rfl
  · show execBri g e f s = _
    rw [execBri, controlClean_ready hr hc]
    rfl
  · show execCall g e f s = _
    rw [execCall, controlClean_ready hr hc]
    rfl
  · show execCalli g e f s = _
    rw [execCalli, controlClean_ready hr hc]
    rfl
  · show execRet g e f s = _
    rw [execRet_full hr hx]
    rfl
  · show execLoop g n e f s = _
    rw [execLoop, controlClean_ready hr hc]
  · show execEndl g n e f s = _
    rw [execEndl_ready hr]
    rfl

/-- Settles O45: TRAP raises its cause past its bundle, at once where the bundle's moves have issued. -/
theorem trapInstructionRaises : Obligations.TrapInstructionRaises := by
  unfold Obligations.TrapInstructionRaises
  intro s g e f v hr hc
  have ht : exec (.trap g e f) s = .next (s.trapIssued .c 0x0E v.toS.val) := by
    show execTrap g e f s = _
    rw [execTrap, controlClean_ready hr hc]
  refine ⟨fun hm => ?_, fun hm => ?_⟩
  · rw [ht, State.trapIssued, if_pos hm]
  · rw [ht, State.trapIssued, if_neg (by simp [hm])]
    rfl

/-! ## What a fence waits for (R96, R99, R101) -/

section
variable {k : Core}

/-- An access of a later bundle is not earlier. -/
theorem Pipe.precedes_of_later {p : Pipe} {q : Option Nat} (h : ∃ j, q = some j ∧ p.ib.idx < j) (n : Nat) : p.precedes q n = false := by
  obtain ⟨j, rfl, hj⟩ := h
  have h1 : ¬ j < p.ib.idx := by omega
  have h2 : ¬ j = p.ib.idx := by omega
  simp [Pipe.precedes, h1, h2]
/-- One of an earlier bundle is. -/
theorem Pipe.precedes_of_lt {p : Pipe} {j : Nat} (h : j < p.ib.idx) (n : Nat) : p.precedes (some j) n = true := by
  simp [Pipe.precedes, h]
theorem Wait.loads_iff (w : Wait) : w.loads = true ↔ (∃ j, w.pos = some j) ∧ ∃ ch, w.kind = .qget ch := by
  rw [Wait.loads, Bool.and_eq_true, Option.isSome_iff_exists]
  refine and_congr_right fun _ => ?_
  split <;> simp_all
/-- What makes an access wait for earlier ones: a request, a queued drain, or a pending QGET that is earlier. -/
theorem Core.owesEarlier_iff (mine : Req → Bool) (drains : Bool) : k.owesEarlier mine drains = true ↔
    (∃ r ∈ k.reqs, mine r = true ∧ k.pipe.precedes r.pos 1 = true)
    ∨ (drains = true ∧ ∃ d, SeqOp.drain d ∈ k.mx.queue ∧ k.pipe.precedes d.pos 4 = true)
    ∨ ∃ w ∈ k.pipe.waits, w.loads = true ∧ k.pipe.precedes w.pos w.unit.slot.index = true := by
  rw [Core.owesEarlier, Bool.or_eq_true, Bool.or_eq_true, or_assoc]
  refine or_congr (by simp only [List.any_eq_true, Bool.and_eq_true]) (or_congr ?_ (by simp only [List.any_eq_true, Bool.and_eq_true]))
  rw [Bool.and_assoc, Bool.and_eq_true]
  refine and_congr_right fun _ => ?_
  simp only [Bool.and_eq_true, Core.drainsPending, List.any_eq_true]
  refine ⟨fun ⟨_, o, ho, hp⟩ => ?_, fun ⟨d, hd, hp⟩ => ⟨⟨_, hd, rfl⟩, _, hd, hp⟩⟩
  cases o with
  | drain d => exact ⟨d, ho, hp⟩
  | _ => cases hp
theorem Core.acquireWaits_iff : k.acquireWaits = true ↔ (∃ r ∈ k.reqs, r.op ≠ .store ∧ k.pipe.precedes r.pos 1 = true)
    ∨ ∃ w ∈ k.pipe.waits, w.loads = true ∧ k.pipe.precedes w.pos w.unit.slot.index = true := by
  rw [Core.acquireWaits, Core.owesEarlier_iff]
  refine or_congr (exists_congr fun r => and_congr_right fun _ => and_congr_left fun _ => ?_) (by simp only [Bool.false_eq_true, false_and, false_or])
  cases r.op <;> simp
theorem Core.releaseWaits_iff : k.releaseWaits = true ↔ (∃ r ∈ k.reqs, k.pipe.precedes r.pos 1 = true)
    ∨ (∃ d, SeqOp.drain d ∈ k.mx.queue ∧ k.pipe.precedes d.pos 4 = true)
    ∨ ∃ w ∈ k.pipe.waits, w.loads = true ∧ k.pipe.precedes w.pos w.unit.slot.index = true := by
  rw [Core.releaseWaits, Core.owesEarlier_iff]
  simp only [true_and]

end

/-! ## Fences (R95, R99, R101, R284) -/

/-- R99: every class path takes the largest logical time. -/
theorem State.mergeClasses_eq (s : State) :
    let mx := max (max s.me.lt[0] s.me.lt[1]) (max s.me.lt[2] s.me.lt[3])
    s.mergeClasses s.cur = s.setLt s.cur (Vector.ofFn fun i : Fin 4 => max mx s.me.lt[i]) := by
  intro mx
  rw [State.mergeClasses]
  congr 1
  ext i hi
  simp only [ltMerge, Vector.getElem_map, Vector.getElem_ofFn]
  rfl
theorem State.scopeActs_iff (s : State) (sc : BitVec 2) : s.scopeActs sc = true ↔ 2 ≤ sc.toNat ∨ (sc = 1 ∧ s.product = .hv1x) := by
  simp [State.scopeActs]

/-- Settles O38: the fences by what makes them wait, and that by the places of the accesses. -/
theorem fenceResults : Obligations.FenceResults := by
  unfold Obligations.FenceResults
  intro s g sc e f v hr mx m acq i gets later
  have hm : s.mergeClasses s.cur = m := s.mergeClasses_eq
  have hacq : (if m.scopeActs sc then m.acquireAction m.cur else m) = acq := if_congr (m.scopeActs_iff sc) rfl rfl
  have fenceAcq : exec (.fenceAcq g sc e f) s = .next (if s.me.acquireWaits then s.hold 0 else acq.issued) := by
    show execFenceAcq g sc e f s = _
    rw [execFenceAcq, controlOp_ready hr, ← hacq, ← hm]
  have fenceRel : exec (.fenceRel g sc e f) s = .next (if s.me.releaseWaits then s.hold 0 else m.issued) := by
    show execFenceRel g sc e f s = _
    rw [execFenceRel, controlOp_ready hr, hm]
  have fenceAr : exec (.fenceAr g sc e f) s = .next (if s.me.releaseWaits then s.hold 0 else acq.issued) := by
    show execFenceAr g sc e f s = _
    rw [execFenceAr, controlOp_ready hr, ← hacq, ← hm]
  have xfence : exec (.xfence g e f) s = .next (if s.me.releaseWaits then s.hold 0 else s.issued) := by
    show execXfence g e f s = _
    rw [execXfence, controlOp_ready hr]
  have pbar : exec (.pbar g e f) s = .next (if s.me.releaseWaits || s.phase == .dusk then s.hold 0 else if s.me.tracker.isEmpty then m.issued
      else ((s.me.tracker.foldl (fun s l => s.writeBack l) s).trackersClean).hold 0) := by
    show execPbar g e f s = _
    rw [execPbar, controlOp_ready hr, hm]
  have notEarlier {q : Option Nat} (n : Nat) (h : later q) : ¬s.me.pipe.precedes q n = true := Bool.eq_false_iff.1 (Pipe.precedes_of_later h n)
  have early (w : Wait) (hw : w ∈ s.me.pipe.waits) (hl : w.loads = true) (hget : gets fun p => p = none ∨ later p) : ¬s.me.pipe.precedes w.pos w.unit.slot.index = true := by
    obtain ⟨⟨j, hj⟩, hk⟩ := w.loads_iff.1 hl
    exact notEarlier _ ((hget w hw hk).resolve_left (by rw [hj]; exact Option.some_ne_none j))
  refine ⟨fun h => ?_, fun h => ?_, fun h => ⟨?_, ?_, ?_, fun hp => ⟨fun ht => ?_, fun ht => ?_⟩⟩, fun h => ⟨?_, ?_, ?_⟩, fun h => ?_, fun hreq hget => ?_, fun hreq hdr hget => ?_,
    fun j hj => ⟨fun r hm hpos => ?_, fun d hd hpos => ?_, fun x hx ch hk hpos => ?_⟩⟩
  · rw [fenceAcq, h]; rfl
  · rw [fenceAcq, h]; rfl
  · rw [fenceRel, h]; rfl
  · rw [fenceAr, h]; rfl
  · rw [xfence, h]; rfl
  · rw [pbar]; simp [h, hp, ht]
  · rw [pbar]; simp [h, hp, ht]
  · rw [fenceRel, h]; rfl
  · rw [fenceAr, h]; rfl
  · rw [xfence, h]; rfl
  · rw [pbar]
    obtain h | h := h <;> simp [h]
  · refine Bool.eq_false_iff.2 fun hw => ?_
    obtain ⟨r, hm, hs, hp⟩ | ⟨w, hm, hl, hp⟩ := Core.acquireWaits_iff.1 hw
    · exact notEarlier _ ((hreq r hm).resolve_left hs) hp
    · exact early w hm hl hget hp
  · refine Bool.eq_false_iff.2 fun hw => ?_
    obtain ⟨r, hm, hp⟩ | ⟨d, hd, hp⟩ | ⟨w, hm, hl, hp⟩ := Core.releaseWaits_iff.1 hw
    · exact notEarlier _ (hreq r hm) hp
    · exact notEarlier _ (hdr d hd) hp
    · exact early w hm hl hget hp
  · have hp := Pipe.precedes_of_lt hj 1
    rw [← hpos] at hp
    exact ⟨Core.releaseWaits_iff.2 (.inl ⟨r, hm, hp⟩), fun hs => Core.acquireWaits_iff.2 (.inl ⟨r, hm, hs, hp⟩)⟩
  · have hp := Pipe.precedes_of_lt hj 4
    rw [← hpos] at hp
    exact Core.releaseWaits_iff.2 (.inr (.inl ⟨d, hd, hp⟩))
  · have hp := Pipe.precedes_of_lt hj x.unit.slot.index
    rw [← hpos] at hp
    have hl : x.loads = true := x.loads_iff.2 ⟨⟨j, hpos⟩, ch, hk⟩
    exact ⟨Core.releaseWaits_iff.2 (.inr (.inr ⟨x, hx, hl, hp⟩)), Core.acquireWaits_iff.2 (.inr ⟨x, hx, hl, hp⟩)⟩

/-! ## Barriers (R102, R112, R300) -/

section
variable {s : State} {g : BitVec 4} {e : Bool} {f : BitVec 10} {v : Val} {h : CoreId} {off : Nat} (hr : s.ready .c g e f v = true) (hc : v.toS.poi = false)
  (hx : s.pipe.units.c.x.poi = false) (hn : s.namesWord s.pipe.units.c.x.val h off)
include hr hc hx hn

/-- R112: a barrier operation whose bank is not ACTIVE holds, and its bank begins to exit. -/
theorem barrierOp_shut (hb : s.banksReady h off 16 = false) (needsD : Bool) (act : W32 → BitVec 10 → CoreId → Nat → State → State) :
    barrierOp g e f needsD act s = .next ((s.wakeBanks h off 16).hold 0) := by
  rw [barrierOp, State.issueMove_ready hr]
  simp only [hx, Val.poiS, hc, Bool.or_false, State.needClean_clean, State.syncTarget_names hn, State.bankOpen, hb, Bool.false_eq_true, if_false]
/-- Otherwise it acts on the word X names, D looked at where it needs one. -/
theorem barrierOp_open (hb : s.banksReady h off 16 = true) (hu : s.wordUsable h off = true) (hcb : s.cardBarrier h off = false) (needsD : Bool)
    (hd : needsD = true → s.dNamed .c = true) (act : W32 → BitVec 10 → CoreId → Nat → State → State) :
    barrierOp g e f needsD act s = .next (act (v.toS.val.setWidth 32) (if needsD then s.dOf .c else 0) h off s) := by
  rw [barrierOp, State.issueMove_ready hr]
  simp only [hx, Val.poiS, hc, Bool.or_false, State.needClean_clean, State.syncTarget_names hn, State.bankOpen, hb, if_true, State.syncUse_usable hu]
  cases needsD with
  | false => simp only [hcb, Bool.false_eq_true, if_false]
  | true => simp only [if_true, State.needD_named (hd rfl), hcb, Bool.false_eq_true, if_false]

end

/-- Settles O39: what each barrier operation does to the word X names, by `barrierOp_open`. -/
theorem barrierResults : Obligations.BarrierResults := by
  unfold Obligations.BarrierResults
  intro s g e f v h off hr hc hx hn shut
  refine ⟨fun hb => ⟨?_, ?_, ?_, ?_⟩, fun hb hu hcb => ?_⟩
  · show execBara g e f s = _
    rw [execBara, barrierOp_shut hr hc hx hn hb]
  · show execBaraRlx g e f s = _
    rw [execBaraRlx, barrierOp_shut hr hc hx hn hb]
  · show execBarw g e f s = _
    rw [execBarw, barrierOp_shut hr hc hx hn hb]
  · show execBart g e f s = _
    rw [execBart, barrierOp_shut hr hc hx hn hb]
  intro w m a
  have bara : exec (.bara g e f) s = .next (if !s.othersReached || s.me.releaseWaits then s.hold 0 else (a.2.setLt a.2.cur (ltMerge a.2.me.lt a.1)).issued) := by
    show execBara g e f s = _
    rw [execBara, barrierOp_open hr hc hx hn hb hu hcb false (fun h => nomatch h)]
  have barw : exec (.barw g e f) s = .next (if (s.syncGet h off).gen = w.toNat then s.hold 2 else if s.waitStuck then s.hold 0 else (s.waitDone s.cur h off).issued) := by
    show execBarw g e f s = _
    rw [execBarw, barrierOp_open hr hc hx hn hb hu hcb false (fun h => nomatch h)]
  refine ⟨fun ho hw => ?_, fun hw => ?_, ?_, fun hg hw => ?_, fun hg hw => ?_, fun hg => ?_, fun hd => ?_⟩
  · rw [bara, ho, hw]; rfl
  · rw [bara]
    obtain hw | hw := hw <;> simp [hw]
  · intro r
    show execBaraRlx g e f s = _
    rw [execBaraRlx, barrierOp_open hr hc hx hn hb hu hcb false (fun h => nomatch h)]
  · rw [barw, if_neg hg, hw]; rfl
  · rw [barw, if_neg hg, hw]; rfl
  · rw [barw, if_pos hg]
  · show execBart g e f s = _
    rw [execBart, barrierOp_open hr hc hx hn hb hu hcb true (fun _ => hd)]
    rfl

end Sys2Proof.Machine
end

section
/-! PROOFS. Forked work, the end of a task, ticks, launches, services. -/
namespace Sys2Proof.Machine

/-! ## TICKW, LAUNCH, SVC, ABORT (R308, R310, R326, R327) -/

section
variable {s : State} {g : BitVec 4} {e : Bool} {f : BitVec 10} {v : Val} (hr : s.ready .c g e f v = true)
include hr

/-- TICKW, of a channel that has released a step. -/
theorem execTickw_ready (hc : v.toS.poi = false) {k : Nat} (h0 : s.pipe.sys2.tickch ≠ 0) (hk : (s.t.ticks[selIx 2 (s.pipe.sys2.tickch.setWidth 10 - 1)]).last = some k) :
    execTickw g e f s = if (v.toS.val.extractLsb' 0 40).toNat ≤ k then .next (s.unrefuse s.cur).issued else .next (s.hold 5) := by
  rw [execTickw, controlClean_ready hr hc]
  simp only [h0, if_false, hk, ← BitVec.setWidth_eq_extractLsb' (by decide : 40 ≤ 64)]
  exact apply_ite Host.Outcome.next _ _ _
/-- SVC of a service number below 256, with operands that carry no poison and none pending. -/
theorem execSvc_ready (hc : v.toS.poi = false) (hn : v.toS.val.toNat < 256) (hx : s.pipe.units.c.x.poi = false) (hy : s.pipe.units.c.y.poi = false) (hd : s.dNamed .c = true)
    (hs : s.pipe.svc = none) : execSvc g e f s =
      .next (((s.modPipe fun p => { p with svc := some ⟨v.toS.val.setWidth 8, s.pipe.units.c.x.val, s.pipe.units.c.y.val, s.dOf .c⟩ }).regWrite (.empty (s.dOf .c))).issued) := by
  have hn' : ¬ v.toS.val.toNat ≥ 256 := Nat.not_le.2 hn
  rw [execSvc, controlOp_ready hr]
  simp only [hc, hx, hy, Bool.or_self, State.needClean_clean, hn', if_false, State.needD_named hd, hs, Option.isSome_none, Bool.false_eq_true]
theorem execAbort_ready : execAbort g e f s =
    .next (if s.me.releaseWaits then s.hold 0 else (s.killContext s.me.task.ctx 2 0 s.cur s.pipe.ib.pc 0 v.toS.val).setDisp .steered) := by
  rw [execAbort, controlOp_ready hr]

end

/-- R112: a record whose banks are ACTIVE is read. -/
theorem State.recordOpen_ready {s : State} {l : Loc} (h : ∀ c off, l = .sp c off → s.banksReady c off 256 = true) (act : State → State) : s.recordOpen l act = act s := by
  cases l with
  | sp c off => exact if_pos (h c off rfl)
  | pa a => rfl

/-- Settles O42. -/
theorem launchAndServiceResults : Obligations.LaunchAndServiceResults := by
  unfold Obligations.LaunchAndServiceResults
  intro s g e f v hr hc w ch
  refine ⟨fun k h0 hk => ?_, fun l t x bs lt hd hl hw hb hread => ?_, fun h off t hd hl hw hb => ?_, fun hn hx hy hd hs => ?_, fun hw => ?_, fun hw => ?_⟩
  · show execTickw g e f s = _
    exact execTickw_ready hr hc h0 hk
  · intro u hv hbox hcls hstream
    show execLaunch g e f s = _
    rw [execLaunch, controlClean_ready hr hc, State.needD_named hd, State.locating_reaches hl, if_neg (by simp [hw]), State.recordOpen_ready hb]
    have hread' : (t.mergeClasses t.cur).readVa (t.mergeClasses t.cur).cur (t.mergeClasses t.cur).me.lt[0] v.toS.val 256 8 = (.ok (bs, false, lt), x) := hread
    have hcls' : ¬ u.pipe.sys.cls.toNat < (Launch.ofBytes bs).cls.toNat := Nat.not_lt.2 hcls
    simp only [hread', State.needClean_clean, ← show u = x.setLt x.cur (x.me.lt.set 0 lt) from rfl, hv, hbox, hstream, hcls', Bool.not_true, Bool.or_self, decide_false,
      Bool.false_eq_true, if_false]
    exact apply_ite Host.Outcome.next _ _ _
  · show execLaunch g e f s = _
    rw [execLaunch, controlClean_ready hr hc, State.needD_named hd, State.locating_reaches hl, if_neg (by simp [hw])]
    exact congrArg _ (if_neg (by simp [hb]))
  · show execSvc g e f s = _
    exact execSvc_ready hr hc hn hx hy hd hs
  · show execAbort g e f s = _
    rw [execAbort_ready hr, hw]
    rfl
  · show execAbort g e f s = _
    rw [execAbort_ready hr, hw]
    rfl

/-! ## FORK, JOIN, YIELD (R302, R304, R307) -/

section
variable {s : State} {g : BitVec 4} {e : Bool} {f : BitVec 10} {v : Val} (hr : s.ready .c g e f v = true)
include hr

omit hr in
/-- A load of a scratchpad whose home answers leaves the current core current. -/
theorem State.cur_of_loadAt_sp {d : DieId} {lt lt' : Nat} {c : CoreId} {off n : Nat} {bs : List Byte} {u : State}
    (h : s.loadAt d lt (.sp c off) n = ((bs, false, lt'), u)) : u.cur = s.cur := by
  unfold State.loadAt State.loadBy at h
  split at h
  · cases congrArg (fun x => x.1.2.1) h
  · split at h <;> exact (congrArg (fun x => x.2.cur) h).symm
/-- FORK of a record that is read without poison and is valid. -/
theorem execFork_ready (hc : v.toS.poi = false) {off : Nat} (ho : s.ownsRange v.toS.val 64 64 off) (hd : s.dNamed .c = true) (h0 : s.me.class0Waits = false)
    (hb : s.banksReady s.cur off 64 = true) {bs : List Byte} {lt : Nat} {u : State} (hl : s.loadAt s.cur.die s.me.lt[0] (.sp s.cur off) 64 = ((bs, false, lt), u)) :
    let t := u.setLt s.cur (u.me.lt.set 0 lt)
    let jw : W64 := BitVec.ofNat 64 (fld bs 8 8)
    let r : TaskRec := ⟨BitVec.ofNat 32 (fld bs 0 4), peerForm t.cur jw, Vector.ofFn fun i => BitVec.ofNat 64 (fld bs (16 + 8 * i.val) 8), t.me.seq⟩
    zeros bs 4 4 = true → (jw = 0 ∨ t.syncOk jw = true) →
      execFork g e f s = .next (if 64 ≤ t.me.deque.length then t.accept (s.dOf .c) false else (t.modMe fun k => { k with deque := r :: k.deque }).accept (s.dOf .c) true) := by
  intro t jw r hz hj
  have hok : ¬ (!zeros bs 4 4 || (jw != 0 && !t.syncOk jw)) = true := by
    obtain hj | hj := hj <;> simp [hz, hj]
  rw [execFork, controlClean_ready hr hc, State.ownRange_owns ho, State.needD_named hd, State.ownReady, if_neg (by simp [h0]), if_neg (by simp [hb]), hl]
  simp only [State.cur_of_loadAt_sp hl]
  exact congrArg _ (if_neg hok)
/-- JOIN on a usable word without ARM. -/
theorem execJoin_usable (hc : v.toS.poi = false) {h : CoreId} {off : Nat} (hn : s.namesWord v.toS.val h off) (hb : s.banksReady h off 16 = true) (hu : s.wordUsable h off = true)
    (ha : (s.syncGet h off).arm = false) : execJoin g e f s =
      .next (if (s.syncGet h off).count ≠ (s.syncGet h off).target then s.hold 2 else if s.waitStuck then s.hold 0 else (s.waitDone s.cur h off).issued) := by
  simp only [State.wordUsable, Bool.and_eq_true, Bool.not_eq_true'] at hu
  rw [execJoin, controlClean_ready hr hc, State.syncTarget_names hn, State.bankOpen, if_pos hb, hu.1, State.needClean_clean]
  simp only [ha, hu.2, Bool.false_eq_true, if_false]
/-- R112: one whose bank is not ACTIVE holds. -/
theorem execJoin_shut (hc : v.toS.poi = false) {h : CoreId} {off : Nat} (hn : s.namesWord v.toS.val h off) (hb : s.banksReady h off 16 = false) :
    execJoin g e f s = .next ((s.wakeBanks h off 16).hold 0) := by
  rw [execJoin, controlClean_ready hr hc, State.syncTarget_names hn, State.bankOpen, if_neg (by simp [hb])]
theorem execYield_ready : execYield g e f s = .next (if s.pipe.sys.cls = 0 ∧ s.bulkWaitsFor s.me.task.job = true
    then (s.modJob s.me.task.job fun j => { j with deficit := min j.deficit 0 }).issued else s.issued) := by
  rw [execYield, controlOp_ready hr]
  exact congrArg _ (if_congr (by rw [Bool.and_eq_true, decide_eq_true_eq]) rfl rfl)

end

/-- R307: another bulk job waits for cores of a job's span. -/
theorem State.bulkWaitsFor_iff (s : State) (n : Nat) : s.bulkWaitsFor n = true ↔ ∃ j r p, s.job n = some j ∧ r ∈ s.fw.jobs ∧ r.num ≠ n ∧ r.lr.cls = 0 ∧ s.waits r = true
    ∧ s.target r = some p ∧ j.holds p r.clusters = true := by
  rw [State.bulkWaitsFor]
  constructor
  · intro h
    split at h
    case h_2 => cases h
    case h_1 j hj =>
      obtain ⟨r, hr, h⟩ := List.any_eq_true.1 h
      simp only [Bool.and_eq_true, bne_iff_ne, beq_iff_eq] at h
      obtain ⟨⟨⟨h1, h2⟩, h3⟩, h4⟩ := h
      split at h4
      case h_2 => cases h4
      case h_1 p hp => exact ⟨j, r, p, hj, hr, h1, h2, h3, hp, h4⟩
  · rintro ⟨j, r, p, hj, hr, h1, h2, h3, hp, h4⟩
    rw [hj]
    exact List.any_eq_true.2 ⟨r, hr, by simp [h1, h2, h3, hp, h4]⟩

/-! ## The end of a task (R254, R306) -/

section
variable {s : State} {g : BitVec 4} {e : Bool} {f : BitVec 10} {v : Val} (hr : s.ready .c g e f v = true)
include hr

/-- END raises the matrix's pending cause first; a poisoned word would unwind to an open region. -/
theorem execEndTask_pending {c : BitVec 8} {x : W64} {u : State} (hp : s.matrixPending = some (c, x, u)) (hc : c ≠ 0x08 ∨ u.pipe.trap.regions = []) :
    execEndTask g e f s = .next (u.takeTrap 7 2 c x false) := by
  rw [execEndTask, controlOp_ready hr, hp]
  refine congrArg _ ?_
  show u.endCause c x = _
  rw [State.endCause]
  split
  case h_1 r rest hrs =>
    have hc' : c ≠ 0x08 := hc.resolve_right (by simp [hrs])
    exact if_neg (by rw [decide_eq_false hc']; exact Bool.false_ne_true)
  case h_2 => rfl
theorem execEndTask_clean (h1 : s.me.mx.pendMeta = none) (h2 : s.me.mx.pendMis = none) (h3 : s.me.mx.pendNv = false) : execEndTask g e f s = .next (s.endTask s.cur) := by
  rw [execEndTask, controlOp_ready hr]
  simp only [State.matrixPending, h1, h2, h3]

end

section
variable (s : State)

/-- What END leaves of a core before the arrivals of its task. -/
def Core.ended (k : Core) : Core :=
  let k := k.unplace.recordWaits
  { k with pipe := { k.pipe.halt with disp := .steered }, reqs := k.reqs.map fun r => { r with dsel := 0 }, task := { k.task with st := .ended } }
/-- R306: the machine as END leaves it before those arrivals, where they wait for no request. -/
def State.ending (s : State) : State := (s.modMe Core.ended).modCtx s.me.task.ctx fun x => { x with wd := 0 }

/-- With no request outstanding a core is settled. -/
theorem State.settle_of_reqs_nil {c : CoreId} (h : (s.core c).reqs = []) : s.settle c = s := by
  have hp : s.performAll c = s := by rw [State.performAll, h]; rfl
  rw [State.settle, hp, h]
  rfl
theorem State.modCore_modCore (c : CoreId) (f g : Core → Core) : (s.modCore c f).modCore c g = s.modCore c fun k => g (f k) := by
  simp only [State.modCore, State.setCore_setCore, State.core_setCore_self]
/-- The core's own changes and the context's watchdog are apart. -/
theorem State.modCtx_modCore (x : BitVec 16) (f : Ctx → Ctx) (c : CoreId) (g : Core → Core) : (s.modCtx x f).modCore c g = (s.modCore c g).modCtx x f := rfl

variable {s}

theorem Core.reqs_recordWaits (k : Core) : k.recordWaits.reqs = k.reqs := k.recordWaits_pos.2.2.1
theorem Core.task_recordWaits (k : Core) : k.recordWaits.task = k.task := by
  unfold Core.recordWaits
  split <;> rfl
/-- With nothing that an arrival waits for, the task ends and makes its arrivals. -/
theorem State.endTask_eq (h : (s.me.task.card.isSome || s.me.task.joinw ≠ 0) = true → s.me.reqs = []) : s.endTask s.cur = s.ending.endArrivals s.cur := by
  have hs : (if (s.core s.cur).task.card.isSome || (s.core s.cur).task.joinw ≠ 0 then (s.modCore s.cur fun k => k.unplace.recordWaits).settle s.cur
      else s.modCore s.cur fun k => k.unplace.recordWaits) = s.modCore s.cur fun k => k.unplace.recordWaits := by
    split
    case isTrue ho =>
      refine State.settle_of_reqs_nil _ ?_
      rw [State.core_modCore_self, Core.reqs_recordWaits]
      exact congrArg (List.map _) (h ho)
    case isFalse => rfl
  rw [State.endTask]
  dsimp only
  rw [hs, State.modCtx_modCore, State.modCore_modCore, State.core_modCore_self, Core.task_recordWaits]
  rfl
theorem State.cur_ending : s.ending.cur = s.cur := rfl
theorem State.me_ending : s.ending.me = s.me.ended := by
  rw [State.ending, State.me, State.modCtx]
  exact State.core_modCore_self s s.cur _
theorem Core.task_ended (k : Core) : k.ended.task = { k.task with st := .ended } := by
  simp only [Core.ended, Core.task_recordWaits, Core.unplace]
/-- A task that owes nothing ends without more. -/
theorem State.endTask_owesNot (hc : s.me.task.card = none) (hj : s.me.task.joinw = 0) : s.endTask s.cur = s.ending := by
  have he : (s.ending.core s.cur).task = { s.me.task with st := .ended } := by
    rw [← Core.task_ended, ← State.me_ending]; rfl
  rw [State.endTask_eq (by simp [hc, hj]), State.endArrivals, he]
  exact if_pos (by simp [hc, hj])

end

section
variable {s : State}

/-- What the end of a task keeps of its requests. -/
theorem Core.reqs_ended (k : Core) : k.ended.reqs.map (fun r => (r.seq, r.cls, r.op, r.loc)) = k.reqs.map fun r => (r.seq, r.cls, r.op, r.loc) := by
  simp only [Core.ended, Core.reqs_recordWaits, Core.unplace, List.map_map]
  rfl
/-- The rest of a core whose task has ended: its latches, results and waits are gone, its registers and system registers stand. -/
theorem Core.pipe_recordWaits (k : Core) : k.recordWaits.pipe.regs = k.pipe.regs ∧ k.recordWaits.pipe.sys = k.pipe.sys ∧ k.recordWaits.ka = k.ka ∧ k.recordWaits.kb = k.kb
    ∧ k.recordWaits.sp = k.sp := by
  unfold Core.recordWaits
  split <;> exact ⟨rfl, rfl, rfl, rfl, rfl⟩
theorem Core.pipe_unplace (k : Core) : k.unplace.pipe.regs = k.pipe.regs ∧ k.unplace.pipe.sys = k.pipe.sys := by
  unfold Core.unplace
  dsimp only
  split <;> exact ⟨rfl, rfl⟩
theorem Core.sp_ended (k : Core) : k.ended.sp = k.sp := k.unplace.pipe_recordWaits.2.2.2.2
theorem Core.banks_recordWaits (k : Core) : k.recordWaits.banks = k.banks := by
  unfold Core.recordWaits
  split <;> rfl
theorem State.ending_frame : s.ending.me.task = { s.me.task with st := .ended } ∧ s.ending.pipe.regs = s.pipe.regs ∧ s.ending.pipe.sys = s.pipe.sys
    ∧ s.ending.me.ka = s.me.ka ∧ s.ending.me.kb = s.me.kb ∧ sameBytes s s.ending := by
  have hp : s.ending.pipe = s.me.ended.pipe := congrArg Core.pipe s.me_ending
  obtain ⟨hregs, hsys, hka, hkb, -⟩ := s.me.unplace.pipe_recordWaits
  obtain ⟨uregs, usys⟩ := s.me.pipe_unplace
  refine ⟨by rw [State.me_ending, Core.task_ended], ?_, ?_, ?_, ?_, s.sameBytes_modCore s.cur (Core.sp_ended s.me)⟩
  · rw [hp]
    exact hregs.trans uregs
  · rw [hp]
    exact hsys.trans usys
  · rw [State.me_ending]
    exact hka
  · rw [State.me_ending]
    exact hkb

/-! ## The arrival of an ended task (R304, R306) -/

/-- A core that owes nothing owes nothing when its task has ended. -/
theorem Core.drainsPending_iff (k : Core) : k.drainsPending = true ↔ ∃ d, SeqOp.drain d ∈ k.mx.queue := by
  rw [Core.drainsPending, List.any_eq_true]
  refine ⟨fun ⟨o, ho, hd⟩ => ?_, fun ⟨d, hd⟩ => ⟨_, hd, rfl⟩⟩
  cases o with
  | drain d => exact ⟨d, ho⟩
  | _ => cases hd
theorem Core.mem_queue_unplace {k : Core} {d : Drain} (h : SeqOp.drain d ∈ k.unplace.mx.queue) : ∃ d', SeqOp.drain d' ∈ k.mx.queue := by
  unfold Core.unplace at h
  dsimp only at h
  split at h
  · exact ⟨d, h⟩
  · obtain ⟨o, ho, hd⟩ := List.mem_map.1 h
    cases o with
    | drain d' => exact ⟨d', ho⟩
    | _ => cases hd
theorem Core.owesAny_ended {k : Core} (h : k.owesAny = false) : k.ended.owesAny = false := by
  simp only [Core.owesAny, Bool.or_eq_false_iff, Bool.not_eq_false', List.isEmpty_iff] at h ⊢
  obtain ⟨hr, hd⟩ := h
  have hmx : k.ended.mx = k.unplace.mx := k.unplace.recordWaits_pos.2.2.2.2
  refine ⟨?_, ?_⟩
  · simp only [Core.ended, Core.reqs_recordWaits, Core.unplace, hr, List.map_nil]
  · refine Bool.eq_false_iff.2 fun hp => ?_
    obtain ⟨d, hm⟩ := (Core.drainsPending_iff _).1 hp
    rw [hmx] at hm
    exact Bool.false_ne_true (hd.symm.trans ((Core.drainsPending_iff k).2 (Core.mem_queue_unplace hm)))
/-- A word reads as before where its core's scratchpad is as before. -/
theorem State.syncGet_of_sp {t : State} {c : CoreId} (h : (t.core c).sp = (s.core c).sp) (off : Nat) : t.syncGet c off = s.syncGet c off := by
  simp only [State.syncGet, h]
theorem State.sp_ending (c : CoreId) : (s.ending.core c).sp = (s.core c).sp := by
  by_cases hc : c = s.cur
  · subst hc
    exact (congrArg Core.sp s.me_ending).trans (Core.sp_ended s.me)
  · exact congrArg Core.sp (State.core_modCore_ne s _ hc)
theorem State.memWf_ending (h : s.memWf) : s.ending.memWf := State.memWf_modCore h s.cur Core.ended (Core.sp_ended _)
/-- What waits on a word after the end of a task waited on it before. -/
theorem State.noWaiter.ending {h : CoreId} {off : Nat} (hw : s.noWaiter h off) : s.ending.noWaiter h off := by
  intro c w hm
  by_cases hc : c = s.cur
  · subst hc
    rw [show s.ending.core s.cur = s.me.ended from s.me_ending] at hm
    cases hm
  · rw [show s.ending.core c = s.core c from State.core_modCore_ne s _ hc] at hm
    exact hw c w hm
theorem State.banksReady_ending (h : CoreId) (off n : Nat) : s.ending.banksReady h off n = s.banksReady h off n := by
  have hb : (s.ending.core h).banks = (s.core h).banks := by
    by_cases hc : h = s.cur
    · subst hc
      exact (congrArg Core.banks s.me_ending).trans (Core.banks_recordWaits _)
    · exact congrArg Core.banks (State.core_modCore_ne s _ hc)
  simp only [State.banksReady, hb]
/-- The words that an arrival is counted on depend on the job of the core's task. -/
theorem State.syncCopies_of_job {t : State} {h : CoreId} (hc : (t.core h).task.job = (s.core h).task.job) (hj : t.fw.jobs = s.fw.jobs) (off : Nat) :
    t.syncCopies h off = s.syncCopies h off := by
  simp only [State.syncCopies, hc, hj]
theorem State.job_ending (h : CoreId) : (s.ending.core h).task.job = (s.core h).task.job := by
  by_cases hc : h = s.cur
  · subst hc
    rw [show s.ending.core s.cur = s.me.ended from s.me_ending, Core.task_ended]; rfl
  · exact congrArg (fun k => k.task.job) (State.core_modCore_ne s _ hc)
/-- The arrivals of an ended task that has a join word, no card and nothing outstanding. -/
theorem State.endArrivals_join {c : CoreId} {t : State} (ht : (t.core c).task.st = .ended) (hc : (t.core c).task.card = none) (hj : (t.core c).task.joinw ≠ 0)
    (ho : (t.core c).owesAny = false) (hb : t.banksReady (syncAddr c (t.core c).task.joinw).1 (syncAddr c (t.core c).task.joinw).2 16 = true) :
    let w := syncAddr c (t.core c).task.joinw
    let u := t.mergeClasses c
    let a := u.syncArrive w.1 w.2 1 (ltime (u.core c).lt)
    t.endArrivals c = (a.2.setLt c (ltMerge (a.2.core c).lt a.1)).modCore c fun k => { k with task := { k.task with card := none, joinw := 0 } } := by
  intro w u a
  have hj' : ¬(t.core c).task.joinw = 0#64 := hj
  have hw : t.endWords c = [w] := by
    simp [State.endWords, hc, hj', w]
  rw [State.endArrivals, if_neg (by simp [ht, ho, hj']), hw, if_neg (by simpa using hb)]
  simp only [hc, hj, if_false]
  rfl

/-- A task with a join word and nothing outstanding arrives on it. -/
theorem State.endTask_joins (hs : s.memWf) (hc : s.me.task.card = none) (hj : s.me.task.joinw ≠ 0) (ho : s.me.owesAny = false) : 
    let w := syncAddr s.cur s.me.task.joinw
    s.syncCopies w.1 w.2 = [w] → s.banksReady w.1 w.2 16 = true → s.noWaiter w.1 w.2 →
      (s.endTask s.cur).me.task = { s.me.task with st := .ended, joinw := 0 } ∧ (s.endTask s.cur).syncGet w.1 w.2 = (s.syncGet w.1 w.2).arrive 1 := by
  intro w hcop hb hn
  have hreqs : s.me.reqs = [] := by
    simp only [Core.owesAny, Bool.or_eq_false_iff, Bool.not_eq_false', List.isEmpty_iff] at ho
    exact ho.1
  have he : s.ending.core s.cur = s.me.ended := s.me_ending
  have htask : (s.ending.core s.cur).task = { s.me.task with st := .ended } := by rw [he, Core.task_ended]
  have hq : s.ending.Quiet (s.ending.mergeClasses s.cur) := .setLt _ _ _
  have hown : (s.ending.mergeClasses s.cur).syncCopies w.1 w.2 = [w] :=
    (State.syncCopies_of_job (s := s) (t := s.ending.mergeClasses s.cur) ((congrArg (fun t => t.job) (hq.core w.1).task).trans (State.job_ending w.1)) rfl w.2).trans hcop
  have hn' : (s.ending.mergeClasses s.cur).noWaiter w.1 w.2 := by
    intro c x hx
    by_cases hc : c = s.cur
    · subst hc
      rw [State.mergeClasses, State.setLt, State.core_modCore_self] at hx
      exact hn.ending s.cur x hx
    · rw [State.mergeClasses, State.setLt, State.core_modCore_ne _ _ hc] at hx
      exact hn.ending c x hx
  have hn'' (n lt : Nat) : ((s.ending.mergeClasses s.cur).arrived w.1 w.2 n lt).noWaiter w.1 w.2 := fun c v hv =>
    hn' c v (by rwa [← State.waitsOf, State.waitsOf_arrived] at hv)
  rw [State.endTask_eq fun _ => hreqs, State.endArrivals_join (by rw [htask]) (by rw [htask]; exact hc) (by rw [htask]; exact hj) (by rw [he]; exact Core.owesAny_ended ho)
    (by rw [htask, State.banksReady_ending]; exact hb), htask]
  have ha := State.syncArrive_own 1 (ltime ((s.ending.mergeClasses s.cur).core s.cur).lt) hown
  obtain ⟨hquiet, -⟩ := State.FewerWaits.wakeSync (hn'' 1 (ltime ((s.ending.mergeClasses s.cur).core s.cur).lt))
  rw [← ha] at hquiet
  generalize (s.ending.mergeClasses s.cur).syncArrive w.1 w.2 1 (ltime ((s.ending.mergeClasses s.cur).core s.cur).lt) = a at hquiet
  have hf := hquiet.toQuiet.trans (.setLt a.2 s.cur (ltMerge (a.2.core s.cur).lt a.1))
  generalize a.2.setLt s.cur (ltMerge (a.2.core s.cur).lt a.1) = t at hf
  have hall := (hq.toFrame.trans (.arrived (h := w.1) (off := w.2) 1 (ltime ((s.ending.mergeClasses s.cur).core s.cur).lt))).trans hf.toFrame
  have hcur : t.cur = s.cur := hall.cur
  refine ⟨?_, ?_⟩
  · rw [State.me, State.modCore_cur, hcur, State.core_modCore_self, (hall.core s.cur).task, htask, ← hc]
  · have hget := hf.syncGet w.1 w.2
    rw [State.syncGet_arrived _ _ (hq.memWf (State.memWf_ending hs)), hq.syncGet, State.syncGet_of_sp (State.sp_ending w.1)] at hget
    rw [← hget]
    refine State.syncGet_of_sp ?_ _
    by_cases hc : w.1 = s.cur
    · rw [hc, State.core_modCore_self]
    · rw [State.core_modCore_ne _ _ hc]

end

/-- Settles O41. -/
theorem workUnitResults : Obligations.WorkUnitResults := by
  unfold Obligations.WorkUnitResults
  intro s g e f v hr hc a
  refine ⟨fun off ho hd h0 hb => ?_, fun h off hn => ⟨fun hb => ?_, fun hb hu ha => ⟨fun hcnt hst => ?_, fun hcnt => ?_⟩⟩, ?_, fun c x u hp hc => ?_, fun h1 h2 h3 => ⟨?_, ?_, ?_⟩⟩
  · intro l t jw r hp hz hj
    have hl : s.loadAt s.cur.die s.me.lt[0] (.sp s.cur off) 64 = ((l.1.1, false, l.1.2.2), l.2) := by
      rw [← hp]
    have he : exec (.fork g e f) s = _ := execFork_ready hr hc ho hd h0 hb hl hz hj
    refine ⟨fun hn => ?_, fun hn => ?_⟩
    · rw [he, if_neg (Nat.not_le.2 hn)]
    · rw [he, if_pos hn]
  · show execJoin g e f s = _
    exact execJoin_shut hr hc hn hb
  · show execJoin g e f s = _
    rw [execJoin_usable hr hc hn hb hu ha, if_neg (by simp [hcnt]), hst]
    rfl
  · show execJoin g e f s = _
    rw [execJoin_usable hr hc hn hb hu ha, if_pos hcnt]
  · intro wanted
    have hy : exec (.yield g e f) s = _ := execYield_ready hr
    have hb := s.bulkWaitsFor_iff s.me.task.job
    refine ⟨fun hw => ?_, fun hw => ?_⟩
    · rw [hy, if_pos ⟨hw.1, hb.2 hw.2⟩]
    · rw [hy, if_neg fun h => hw ⟨h.1, hb.1 h.2⟩]
  · show execEndTask g e f s = _
    exact execEndTask_pending hr hp hc
  · show execEndTask g e f s = _
    exact execEndTask_clean hr h1 h2 h3
  · intro hcard hj
    obtain ⟨htask, hregs, hsys, hka, hkb, hbytes⟩ := s.ending_frame
    have hp : s.ending.pipe = s.me.ended.pipe := congrArg Core.pipe s.me_ending
    refine ⟨s.ending, ?_, htask, hregs, hsys, ?_, ?_, ?_, ?_, ?_, ?_, ?_, ?_, hka, hkb, hbytes, fun c hc => State.core_modCore_ne s _ hc⟩
    · show execEndTask g e f s = _
      rw [execEndTask_clean hr h1 h2 h3, State.endTask_owesNot hcard hj]
    · rw [hp]; rfl
    · rw [hp]; rfl
    · rw [hp]; rfl
    · rw [hp]; rfl
    · rw [hp]; rfl
    · rw [hp]; rfl
    · rw [hp]; rfl
    · rw [State.me_ending]
      exact Core.reqs_ended s.me
  · intro hs hcard hj ho w hcop hb hw
    have he : exec (.endTask g e f) s = _ := execEndTask_clean hr h1 h2 h3
    exact ⟨_, he, State.endTask_joins hs hcard hj ho hcop hb hw⟩

end Sys2Proof.Machine
end

section
/-! PROOFS. Taking a trap and returning from one. -/
namespace Sys2Proof.Machine

/-- The machine after reset with a write of THBASE still deferred, as another group's SRWR of the same cycle leaves it (R43). -/
def thbaseDeferred : State := State.reset.modPipe fun p => { p with wq := some [(0, .sys 0x002 64)] }

theorem thbaseDeferred_handler : (thbaseDeferred.trapAt .s 0x02 0).pipe.stream = Stream.startAt 64 := by rfl

/-- Refutes O44: a deferred write of THBASE takes effect before the trap is entered, and the handler starts at what it wrote, not at what THBASE held. -/
theorem not_trapEntrySavesState : ¬ Obligations.TrapEntrySavesState := by
  unfold Obligations.TrapEntrySavesState
  intro h
  obtain ⟨-, -, -, -, -, -, -, -, -, -, -, hs, -⟩ := h.1 thbaseDeferred .s 0x02 0 (by rfl) (by rfl) (by rfl) (by decide) (by decide)
  have he := congrArg Stream.fpc (thbaseDeferred_handler.symm.trans hs)
  exact absurd he (by decide)

/-! ## The return from a trap (R322) -/

/-- Two register files that differ at most in the f registers, the loop counters and the loop starts. -/
structure RegFile.Same (r q : RegFile) : Prop where
  s : q.s = r.s
  v : q.v = r.v
  o : q.o = r.o
  p : q.p = r.p
  m : q.m = r.m

/-- Emptying a register changes the bits of s, v and o alone. -/
theorem RegFile.Same.drain {r q : RegFile} (h : r.Same q) (f : BitVec 10) : (r.drain f).Same (q.drain f) := by
  obtain ⟨hs, hv, ho, hp, hm⟩ := h
  unfold RegFile.drain
  split
  · split
    · exact ⟨hs, hv, ho, hp, hm⟩
    · exact ⟨by simp only [hs], hv, ho, hp, hm⟩
  · split
    · exact ⟨hs, by simp only [hv], ho, hp, hm⟩
    · split
      · exact ⟨hs, hv, by simp only [ho], hp, hm⟩
      · exact ⟨hs, hv, ho, hp, hm⟩
theorem RegFile.Same.foldl_drain {r q : RegFile} (h : r.Same q) (l : List Wait) :
    (l.foldl (fun r w => r.drain w.dsel) r).Same (l.foldl (fun r w => r.drain w.dsel) q) := by
  induction l generalizing r q with
  | nil => exact h
  | cons w l ih => exact ih (h.drain w.dsel)
theorem RegFile.foldl_drain_pm (l : List Wait) (r : RegFile) :
    (l.foldl (fun r w => r.drain w.dsel) r).p = r.p ∧ (l.foldl (fun r w => r.drain w.dsel) r).m = r.m := by
  induction l generalizing r with
  | nil => exact ⟨rfl, rfl⟩
  | cons w l ih =>
    obtain ⟨hp, hm⟩ := ih (r.drain w.dsel)
    have hd : (r.drain w.dsel).p = r.p ∧ (r.drain w.dsel).m = r.m := by
      unfold RegFile.drain
      split
      · split <;> exact ⟨rfl, rfl⟩
      · split
        · exact ⟨rfl, rfl⟩
        · split <;> exact ⟨rfl, rfl⟩
    exact ⟨hp.trans hd.1, hm.trans hd.2⟩

/-- What setting closed values of shadowed registers keeps. -/
structure Pipe.Shadowed (p q : Pipe) : Prop where
  regs : p.regs.Same q.regs
  trap : q.trap = p.trap
  waits : q.waits = p.waits
  longs : q.longs = p.longs

theorem Pipe.Shadowed.trans {p q r : Pipe} (h : p.Shadowed q) (g : q.Shadowed r) : p.Shadowed r :=
  ⟨⟨g.regs.s.trans h.regs.s, g.regs.v.trans h.regs.v, g.regs.o.trans h.regs.o, g.regs.p.trans h.regs.p, g.regs.m.trans h.regs.m⟩, g.trap.trans h.trap, g.waits.trans h.waits,
    g.longs.trans h.longs⟩
theorem Pipe.Shadowed.setShadowed (p : Pipe) (r : ShReg) (v : BitVec 24) : p.Shadowed (p.setShadowed r v) := by
  cases r <;> exact ⟨⟨rfl, rfl, rfl, rfl, rfl⟩, rfl, rfl, rfl⟩
theorem Pipe.Shadowed.foldl {f : Shadow → BitVec 24} (l : List Shadow) (p : Pipe) : p.Shadowed (l.foldl (fun p x => p.setShadowed x.reg (f x)) p) := by
  induction l generalizing p with
  | nil => exact ⟨⟨rfl, rfl, rfl, rfl, rfl⟩, rfl, rfl, rfl⟩
  | cons x l ih => exact (Pipe.Shadowed.setShadowed p x.reg (f x)).trans (ih _)
theorem Pipe.Shadowed.closeShadows (p : Pipe) : p.Shadowed p.closeShadows := by
  have h : p.Shadowed { p with shadows := [] } := ⟨⟨rfl, rfl, rfl, rfl, rfl⟩, rfl, rfl, rfl⟩
  rw [Pipe.closeShadows]
  exact h.trans (.foldl (f := Shadow.new) p.shadows _)

/-- R322: what a return leaves of the pipeline. -/
theorem Pipe.leave_keeps (p : Pipe) (b : LateBuf) (n : Nat) (pc : W32) (drop : Bool) :
    let q := p.leave b n pc drop
    let r := b.waits.foldl (fun r w => r.drain w.dsel) p.regs
    q.units = b.units ∧ q.shorts = (if drop then [] else b.shorts) ∧ q.sys.lock = b.lock ∧ q.trap = p.trap.leave n
      ∧ q.stream = (if pc = b.tpc then b.stream else Stream.startAt pc) ∧ q.waits = p.waits.map Wait.past ∧ r.Same q.regs := by
  intro q r
  let shadows := b.restoredShadows (if decide (pc = b.tpc) then none else some 32)
  have hs : p.Shadowed (shadows.foldl (fun p x => p.setShadowed x.reg (b.old x.reg)) p.closeShadows) :=
    (Pipe.Shadowed.closeShadows p).trans (.foldl (f := fun x => b.old x.reg) shadows _)
  refine ⟨rfl, rfl, rfl, congrArg (TrapState.leave · n) hs.trap, ?_, congrArg (List.map Wait.past) hs.waits, hs.regs.foldl_drain b.waits⟩
  show (if decide (pc = b.tpc) = true then b.stream else Stream.startAt pc) = _
  exact if_congr decide_eq_true_iff rfl rfl
/-- R322: the machine after a return. -/
def State.returned (s : State) (b : LateBuf) (n : Nat) (k : TrapBank) : State :=
  (((s.modMe Core.unplace).modPipe fun p => p.leave b n k.tpc k.snap.drop).modMe fun k => k.reissue b.waits).setDisp .steered
theorem State.me_returned (s : State) (b : LateBuf) (n : Nat) (k : TrapBank) : ∃ x : Core, (s.returned b n k).me = x ∧
    x.pipe = { ((s.me.unplace.pipe.leave b n k.tpc k.snap.drop)) with
      waits := (s.me.unplace.pipe.leave b n k.tpc k.snap.drop).waits ++ (b.waits.zip (List.range b.waits.length)).map fun q => { q.1.again with seq := s.me.seq + q.2 }
      disp := .steered } ∧ x.seq = s.me.seq + b.waits.length := by
  refine ⟨_, rfl, ?_, ?_⟩
  · simp only [State.returned, State.setDisp, State.me_modPipe, State.me_modMe, State.pipe]
    rfl
  · simp only [State.returned, State.setDisp, State.me_modPipe, State.me_modMe, State.pipe]
    rfl

theorem State.sameBytes_returned (s : State) (b : LateBuf) (n : Nat) (k : TrapBank) : sameBytes s (s.returned b n k) :=
  sameBytes_trans (s.sameBytes_modCore s.cur rfl) (sameBytes_trans (State.sameBytes_modPipe _ _)
    (sameBytes_trans (State.sameBytes_modCore _ s.cur rfl) (State.sameBytes_modPipe _ _)))
/-- R322: TRET at a level with the region depth of its entry returns, with another it raises cause 0x02. -/
theorem execTret_level {s : State} {g : BitVec 4} {e : Bool} {f : BitVec 10} {v : Val} (hr : s.ready .c g e f v = true) {b : LateBuf} {n : Nat} {k : TrapBank}
    (hn : (n = 1 ∧ s.pipe.trap.tl = 1 ∧ s.pipe.trap.buf1 = some b ∧ k = s.pipe.trap.bank1) ∨ (n = 2 ∧ s.pipe.trap.tl = 2 ∧ s.pipe.trap.buf2 = some b ∧ k = s.pipe.trap.bank2)) :
    execTret g e f s = .next (if s.pipe.trap.regions.length ≠ b.crgnd then s.trapAt .c 0x02 (BitVec.ofNat 64 s.pipe.trap.regions.length) else s.returned b n k) := by
  rw [execTret, controlOp_ready hr]
  obtain ⟨rfl, htl, hb, rfl⟩ | ⟨rfl, htl, hb, rfl⟩ := hn
  · simp only [htl, hb]
    rfl
  · simp only [htl, hb]
    rfl

/-- Settles O46: the return is `Pipe.leave` and the reissue of the recorded waits. -/
theorem tretRestoresState : Obligations.TretRestoresState := by
  unfold Obligations.TretRestoresState
  refine ⟨fun s g e f v hr htl => ?_, fun s g e f v b n k hr hn => ⟨fun hd => ?_, fun hd => ?_⟩⟩
  · show execTret g e f s = _
    rw [execTret, controlOp_ready hr]
    simp only [htl]
    rfl
  · obtain ⟨x, hx, hp, hseq⟩ := s.me_returned b n k
    have hpipe : (s.returned b n k).pipe = x.pipe := congrArg Core.pipe hx
    obtain ⟨hunits, hshorts, hlock, htrap, hstream, hwaits, hregs⟩ := s.me.unplace.pipe.leave_keeps b n k.tpc k.snap.drop
    have hun : s.me.unplace.pipe.regs = s.pipe.regs ∧ s.me.unplace.pipe.trap = s.pipe.trap ∧ s.me.unplace.pipe.waits = s.pipe.waits := by
      unfold Core.unplace
      dsimp only
      split <;> exact ⟨rfl, rfl, rfl⟩
    obtain ⟨uregs, utrap, uwaits⟩ := hun
    rw [uregs] at hregs
    rw [utrap] at htrap
    rw [uwaits] at hwaits
    obtain ⟨hpq, hmq⟩ := RegFile.foldl_drain_pm b.waits s.pipe.regs
    refine ⟨s.returned b n k, ?_, ?_, ?_, ?_, ?_, ?_, ?_, ?_, ?_, ?_, s.sameBytes_returned b n k⟩
    · show execTret g e f s = _
      rw [execTret_level hr hn, if_neg (not_not.2 hd)]
    · rw [hpipe, hp]
      exact hunits
    · rw [hpipe, hp]
      exact hshorts
    · rw [hpipe, hp]
      exact hlock
    · rw [hpipe, hp]
      refine (congrArg (fun t => t.tl.toNat) htrap).trans ?_
      obtain ⟨rfl, -⟩ | ⟨rfl, -⟩ := hn <;> rfl
    · rw [hpipe, hp]
      exact hstream
    · rw [hpipe, hp]
      show (if n = 1 then (s.me.unplace.pipe.leave b n k.tpc k.snap.drop).trap.bank1 else (s.me.unplace.pipe.leave b n k.tpc k.snap.drop).trap.bank2).snap.valid = false
      rw [htrap]
      obtain ⟨rfl, -⟩ | ⟨rfl, -⟩ := hn <;> rfl
    · rw [hpipe, hp, hwaits]
    · rw [hx, hseq]
    · intro r
      rw [hpipe, hp]
      exact ⟨hregs.s, hregs.v, hregs.o, hregs.p.trans hpq, hregs.m.trans hmq⟩
  · show execTret g e f s = _
    rw [execTret_level hr hn, if_pos hd]

end Sys2Proof.Machine
end

section
/-! PROOFS. The machine after reset. -/
namespace Sys2Proof.Machine

theorem State.core_reset (c : CoreId) : State.reset.core c = Core.reset := by simp [State.core, State.reset]

section
variable {f : BitVec 10}

/-- A vector register at task start is full and 0. -/
theorem RegFile.start_v (h : selV f = true) : RegFile.start.full f = true ∧ RegFile.start.get f = .vec ⟨Vec.splat 0, 0⟩ := by
  simp [RegFile.full, RegFile.get, h, selV_kinds h, RegFile.start, VVal.zero, Vec.zero, Vec.splat]
/-- So is an output register. -/
theorem RegFile.start_o (h : selO f = true) : RegFile.start.full f = true ∧ RegFile.start.get f = .vec ⟨Vec.splat 0, 0⟩ := by
  simp [RegFile.full, RegFile.get, h, selO_kinds h, RegFile.start, VVal.zero, Vec.zero, Vec.splat]

end

/-- Settles O1: every core after reset is `Core.reset`. -/
theorem resetLeavesSpecValues : Obligations.ResetLeavesSpecValues := by
  unfold Obligations.ResetLeavesSpecValues
  refine ⟨fun c k hk => ?_, by decide, rfl, rfl, rfl, rfl, rfl, rfl, rfl, rfl, rfl, rfl, rfl, rfl, rfl⟩
  rw [State.core_reset] at hk
  subst hk
  refine ⟨fun i => ?_, fun f hf => hf.elim RegFile.start_v RegFile.start_o, by decide, by decide, by decide, by decide, rfl, rfl, rfl, rfl, rfl, rfl, rfl, rfl, rfl, rfl, rfl, fun b => ?_⟩
  · simp [Core.reset, Pipe.start, RegFile.start, SVal.zero]
  · simp [Core.reset]

/-- Settles O8: every memory after reset is empty. -/
theorem resetMemoryCanonical : Obligations.ResetMemoryCanonical := by
  unfold Obligations.ResetMemoryCanonical
  refine ⟨rfl, rfl, rfl, fun c => ?_, fun v hv => nomatch hv⟩
  rw [State.core_reset]
  rfl

end Sys2Proof.Machine
end

section
/-! PROOFS. Landings of short results and completions of long operations. -/
namespace Sys2Proof.Machine

/-! ## Short results (R43, R168, R212, R328) -/

/-- A short result that consumes is one whose write would bring poison to p or m. -/
theorem Short.consumes_of_dsel {x : Short} {f : BitVec 10} (hf : x.dsel = some f) (h : selP f = true ∧ x.val.poiS = true ∨ selM f = true ∧ x.val.poiAny = true) :
    x.consumes = true := by
  rw [Short.consumes, hf]
  simpa using h
/-- Where flags trap under FVE. -/
theorem fve_and_flags (b : Bool) (fl : Flags) : (b && fl &&& fNV != 0) = false ↔ b = false ∨ fl &&& fNV = 0 := by
  cases b <;> simp

section
variable {s : State} {u : Unit7} {x : Short} (h : s.pipe.shorts.find? (fun y => y.unit = u && y.left = 0) = some x)
include h

/-- The unit of the result that is found. -/
theorem unit_of_find : x.unit = u := by
  have := List.find?_some h
  simp only [Bool.and_eq_true, decide_eq_true_eq] at this
  exact this.1
/-- RESULT_LANDING of a result that consumes nothing. -/
theorem exec_resultLanding_lands (hc : x.consumes = false) :
    exec (.resultLanding u) s = .next ((if s.pipe.sys.fve && x.flags &&& fNV != 0 then Landing.invalid u else .done).take
      (s.modPipe fun p => ({ p with shorts := p.shorts.erase x } : Pipe).landShort x)) := by
  show execResultLanding u s = _
  rw [execResultLanding, h]
  simp only [hc, Bool.false_eq_true, if_false, State.modPipe, State.modPipeOf, State.modCore, Pipe.landUnit]
  simp only [State.pipe, State.me] at h
  rw [h]
/-- RESULT_LANDING of a result that consumes. -/
theorem exec_resultLanding_consumes {f : BitVec 10} (hf : x.dsel = some f) (hc : x.consumes = true) :
    exec (.resultLanding u) s = .next ((s.modPipe fun p => { p with shorts := p.shorts.erase x }).consume u.slot (f.setWidth 64)) := by
  show execResultLanding u s = _
  rw [execResultLanding, h]
  simp only [hc, if_true, hf]
  rfl

end

/-! ## The landings of a bundle (R43, R321) -/

/-- A fault that has been met stands. -/
theorem Pipe.landAll_of_faulted (p : Pipe) (gs : List Nat) (n : Nat) {l : Landing} (h : l ≠ .done) : (p.landAll gs l n).2 = l := by
  have hf : ∀ m : Landing, l.first m = l := fun m => by cases l <;> first | exact absurd rfl h | rfl
  induction n generalizing p with
  | zero => rfl
  | succ n ih =>
    rw [Pipe.landAll]
    split
    · rfl
    · simp only [hf, beq_false_of_ne h, Bool.and_false, Bool.false_eq_true, if_false]
      split <;> exact ih _

section
variable {p : Pipe} {gs : List Nat} {x : Short} (h : p.dueShort gs = some x)
include h

/-- A result that consumes nothing and traps nowhere lands. -/
theorem Pipe.landAll_lands (n : Nat) (hc : x.consumes = false) (hv : p.sys.fve = false ∨ x.flags &&& fNV = 0) (l : Landing) :
    p.landAll gs l (n + 1) = (p.landUnit x.unit).landAll gs l n := by
  rw [Pipe.landAll, h]
  simp only [hc, (fve_and_flags _ _).2 hv, Bool.false_and, Bool.false_eq_true, if_false]
/-- One that consumes does not land. -/
theorem Pipe.landAll_consumes (n : Nat) {f : BitVec 10} (hc : x.consumes = true) (hf : x.dsel = some f) :
    p.landAll gs .done (n + 1) = ({ p with shorts := p.shorts.erase x } : Pipe).landAll gs (.poison x.unit f) n := by
  rw [Pipe.landAll, h]
  simp [hc, hf, Landing.first]
/-- One that is invalid under FVE is the fault met first. -/
theorem Pipe.landAll_invalid (n : Nat) (hc : x.consumes = false) (hv : p.sys.fve = true) (hn : x.flags &&& fNV ≠ 0) :
    (p.landAll gs .done (n + 1)).2 = .invalid x.unit := by
  have hb : (p.sys.fve && x.flags &&& fNV != 0 && Landing.done == .done) = true := by
    rw [hv, bne_iff_ne.2 hn]
    rfl
  rw [Pipe.landAll, h]
  simp only [hc, hb, Bool.false_eq_true, if_false, if_true]
  exact Pipe.landAll_of_faulted _ _ _ nofun

end

/-! ## Long operations (R165, R181, R198, R210, R300) -/

/-- A value brought from outside the bundles to a pipeline (R43 rule 1). -/
def Pipe.deliver (p : Pipe) (f : BitVec 10) (v : Val) : Pipe :=
  match p.wq with
  | some l => { p with wq := some (putCompletion f v l) }
  | none => { p with regs := p.regs.put f v }

theorem State.complete_eq_deliver (s : State) (f : BitVec 10) (v : Val) : s.complete s.cur f v = s.modPipe fun p => p.deliver f v := rfl
/-- It changes nothing else. -/
theorem Pipe.deliver_keeps (p : Pipe) (f : BitVec 10) (v : Val) :
    (p.deliver f v).longs = p.longs ∧ (p.deliver f v).sys = p.sys ∧ (p.deliver f v).fpDue = p.fpDue := by
  unfold Pipe.deliver
  split <;> exact ⟨rfl, rfl, rfl⟩
/-- Where the pipeline has it delivered, the register receives it. -/
theorem State.receives_deliver {s t : State} {f : BitVec 10} {v : Val} (h : t.pipe.regs = (s.pipe.deliver f v).regs) (hw : t.pipe.wq = (s.pipe.deliver f v).wq) :
    s.receives t f v := by
  unfold State.receives
  unfold Pipe.deliver at h hw
  split
  · rename_i hq
    rw [hq] at h hw
    exact ⟨h, hw⟩
  · rename_i w hq
    rw [hq] at h hw
    exact ⟨h, .inl hw⟩

/-- A long operation issues: a change of the pipeline. -/
theorem State.long_frame (s : State) (u : Unit7) (v : Val) (fl : Flags) (d : BitVec 10) (n : Nat) :
    (s.long u v fl d n).pipe.longs = s.pipe.longs ++ [⟨u, v, fl, d, n, .value⟩] ∧ sameBytes s (s.long u v fl d n) ∧ sameElsewhere s (s.long u v fl d n)
      ∧ (s.pipe.wq = none → (s.long u v fl d n).pipe.regs = s.pipe.regs.drain d) := by
  have hl : ∃ g : Pipe → Pipe, s.long u v fl d n = s.modPipe g ∧ (g s.pipe).longs = s.pipe.longs ++ [⟨u, v, fl, d, n, .value⟩]
      ∧ (s.pipe.wq = none → (g s.pipe).regs = s.pipe.regs.drain d) := by
    rw [State.long, State.issued, State.setDisp, State.regWrite, State.modPipe_modPipe, State.modPipe_modPipe]
    refine ⟨_, rfl, ?_, fun hq => ?_⟩
    · dsimp only
      split <;> rfl
    · simp only [hq]
      rfl
  obtain ⟨g, hg, hlongs, hregs⟩ := hl
  rw [hg, State.pipe_modPipe]
  exact ⟨hlongs, s.sameBytes_modPipe g, s.sameElsewhere_modPipe g, hregs⟩

section
variable {s : State} {n : Nat} {l : Long} (h : s.pipe.longs[n]? = some l)
include h

/-- LONG_COMPLETION of an operation whose time is over and that may complete. -/
theorem exec_longCompletion_completes (h0 : l.left = 0) (hx : ∀ x ∈ s.pipe.longs.take n, x.unit = l.unit → x.left ≠ 0) (hm : s.mayComplete s.cur l = true) :
    exec (.longCompletion n) s = .next ((s.modPipe fun p => { p with longs := p.longs.eraseIdx n }).completeLong s.cur l) := by
  have ha : (s.pipe.longs.take n).any (fun x => x.unit = l.unit && x.left = 0) = false := by
    rw [List.any_eq_false]
    intro x hm
    simpa using hx x hm
  show execLongCompletion n s = _
  rw [execLongCompletion, h]
  simp [h0, ha, hm]
/-- Before its time, or behind an older one of its unit, it does not complete. -/
theorem exec_longCompletion_waits (hw : l.left ≠ 0 ∨ (∃ x ∈ s.pipe.longs.take n, x.unit = l.unit ∧ x.left = 0) ∨ s.mayComplete s.cur l = false) :
    exec (.longCompletion n) s = .next s := by
  show execLongCompletion n s = _
  rw [execLongCompletion, h]
  dsimp only
  rw [if_pos]
  simpa [or_assoc] using hw

end

/-- The pipeline after a long operation has completed with a value: its register has it, and the operation is gone. -/
def Pipe.finished (p : Pipe) (n : Nat) (l : Long) (v : Val) : Pipe := ({ p with longs := p.longs.eraseIdx n } : Pipe).deliver l.dsel v

/-- The flags of a value that has completed are entered, and a trap is due where they are invalid under FVE (R198, R212). -/
def Pipe.settled (p : Pipe) (l : Long) : Pipe :=
  let p : Pipe := { p with sys := { p.sys with fpstat := p.sys.fpstat ||| l.flags } }
  if p.sys.fve && l.flags &&& fNV != 0 then { p with fpDue := some (lowerUnit p.fpDue l.unit) } else p
theorem Pipe.settled_keeps (p : Pipe) (l : Long) : (p.settled l).longs = p.longs ∧ (p.settled l).regs = p.regs ∧ (p.settled l).wq = p.wq := by
  unfold Pipe.settled
  dsimp only
  split <;> exact ⟨rfl, rfl, rfl⟩
theorem Pipe.fpstat_settled (p : Pipe) (l : Long) : (p.settled l).sys.fpstat = p.sys.fpstat ||| l.flags := by
  unfold Pipe.settled
  dsimp only
  split <;> rfl
theorem Pipe.fpDue_settled (p : Pipe) (l : Long) :
    (p.settled l).fpDue = if p.sys.fve && l.flags &&& fNV != 0 then some (lowerUnit p.fpDue l.unit) else p.fpDue := by
  unfold Pipe.settled
  dsimp only
  split <;> rfl
/-- A read past its window is entered in PWSTAT (R181). -/
def Pipe.pastWindow (p : Pipe) (w : BitVec 3) : Pipe := { p with sys := { p.sys with pwstat := p.sys.pwstat ||| 0x100 ||| (1 <<< w.toNat) } }
/-- A barrier test completes with whether GEN differs. -/
theorem State.completeLong_test {s : State} {c : CoreId} {l : Long} {h : CoreId} {off : Nat} {g : W32} {p : Option Nat} {m : Nat} (hf : l.fin = .test h off g p m) :
    s.completeLong c l =
      (let b := (s.syncGet h off).gen != g.toNat
       let s := s.complete c l.dsel (.w64 (boolWord 64 b))
       if b then s.waitDone c h off else s.readWord c h off) := by
  rw [State.completeLong, hf]
/-- No change of a pipeline is one of a sync word. -/
theorem State.syncGet_modPipe (s : State) (f : Pipe → Pipe) (h : CoreId) (off : Nat) : (s.modPipe f).syncGet h off = s.syncGet h off := by
  refine State.syncGet_of_sp ?_ off
  by_cases hc : h = s.cur
  · subst hc
    rw [State.modPipe, State.modPipeOf, State.core_modCore_self]
  · rw [State.modPipe, State.modPipeOf, State.core_modCore_ne s _ hc]

theorem State.complete_erased (s : State) (n : Nat) (l : Long) (v : Val) :
    (s.modPipe fun p => { p with longs := p.longs.eraseIdx n }).complete s.cur l.dsel v = s.modPipe fun p => p.finished n l v := State.modPipe_modPipe s _ _

/-- What it shows where nothing of that is changed again. -/
theorem State.finished_shows {s t : State} {n : Nat} {l : Long} {v : Val} {g : Pipe → Pipe} (ht : t = s.modPipe fun p => g (p.finished n l v))
    (hl : ∀ p, (g p).longs = p.longs) (hr : ∀ p, (g p).regs = p.regs) (hw : ∀ p, (g p).wq = p.wq) :
    t.pipe.longs = s.pipe.longs.eraseIdx n ∧ s.receives t l.dsel v ∧ sameBytes s t ∧ sameElsewhere s t := by
  have hd : (s.pipe.finished n l v).regs = (s.pipe.deliver l.dsel v).regs ∧ (s.pipe.finished n l v).wq = (s.pipe.deliver l.dsel v).wq := by
    unfold Pipe.finished Pipe.deliver
    dsimp only
    split <;> exact ⟨rfl, rfl⟩
  subst ht
  refine ⟨?_, State.receives_deliver ?_ ?_, s.sameBytes_modPipe _, s.sameElsewhere_modPipe _⟩
  · rw [State.pipe_modPipe, hl, Pipe.finished, (Pipe.deliver_keeps _ _ _).1]
  · rw [State.pipe_modPipe, hr, hd.1]
  · rw [State.pipe_modPipe, hw, hd.2]

/-- Settles O33. -/
theorem resultsLand : Obligations.ResultsLand := by
  unfold Obligations.ResultsLand
  refine ⟨fun s u x hx => ?short, fun s u hx => ?none, fun p gs n x hx => ⟨Pipe.landAll_lands hx n, fun f => Pipe.landAll_consumes hx n, Pipe.landAll_invalid hx n⟩,
    fun p gs n l => p.landAll_of_faulted gs n, fun s u f => ⟨rfl, rfl, rfl⟩, fun s => s.long_frame, fun s n l hl h0 hx => ?long, fun s n l => exec_longCompletion_waits⟩
  case short =>
    intro due lands
    have hland : s.modPipe (fun p => ({ p with shorts := p.shorts.erase x } : Pipe).landShort x) = lands := by
      have hu := unit_of_find hx
      subst hu
      rfl
    refine ⟨fun hc hv => ?_, fun hc hv hn => ?_, fun f hf hp => exec_resultLanding_consumes hx hf (Short.consumes_of_dsel hf hp)⟩
    · rw [exec_resultLanding_lands hx hc, hland, (fve_and_flags _ _).2 hv]
      rfl
    · rw [exec_resultLanding_lands hx hc, hland, hv, bne_iff_ne.2 hn]
      rfl
  case none =>
    show execResultLanding u s = _
    rw [execResultLanding, hx]
  case long =>
    refine ⟨fun hf => ?value, fun w hf => ?window, fun h off g p m hf hp hg => ?false, fun h off g p m hf hp hg hr => ?true⟩
    case value =>
      have hm : s.mayComplete s.cur l = true := by rw [State.mayComplete, hf]
      have ht : (s.modPipe fun p => { p with longs := p.longs.eraseIdx n }).completeLong s.cur l = s.modPipe fun p => (p.finished n l l.val).settled l := by
        rw [State.completeLong, hf]
        exact (State.modPipe_modPipe _ _ _).trans ((State.modPipe_modPipe _ _ _).trans (State.modPipe_modPipe _ _ _))
      have hk := Pipe.deliver_keeps ({ s.pipe with longs := s.pipe.longs.eraseIdx n } : Pipe) l.dsel l.val
      obtain ⟨hlongs, hrec, hbytes, helse⟩ := State.finished_shows ht (fun p => (p.settled_keeps l).1) (fun p => (p.settled_keeps l).2.1) (fun p => (p.settled_keeps l).2.2)
      refine ⟨_, exec_longCompletion_completes hl h0 hx hm, hlongs, hrec, ?_, hbytes, helse, ?_⟩
      · rw [ht, State.pipe_modPipe, Pipe.fpstat_settled, Pipe.finished, hk.2.1]
      · rw [ht, State.pipe_modPipe, Pipe.fpDue_settled, Pipe.finished, hk.2.1, hk.2.2]
        cases s.pipe.fpDue <;> rfl
    case window =>
      have hm : s.mayComplete s.cur l = true := by rw [State.mayComplete, hf]
      have ht : (s.modPipe fun p => { p with longs := p.longs.eraseIdx n }).completeLong s.cur l
          = s.modPipe fun p => (p.finished n l l.val).pastWindow w := by
        rw [State.completeLong, hf]
        exact (State.modPipe_modPipe _ _ _).trans (State.modPipe_modPipe _ _ _)
      have hk := Pipe.deliver_keeps ({ s.pipe with longs := s.pipe.longs.eraseIdx n } : Pipe) l.dsel l.val
      obtain ⟨hlongs, hrec, hbytes, helse⟩ := State.finished_shows (g := fun p => p.pastWindow w) ht (fun _ => rfl) (fun _ => rfl) (fun _ => rfl)
      refine ⟨_, exec_longCompletion_completes hl h0 hx hm, hlongs, hrec, ?_, hbytes, helse⟩
      rw [ht, State.pipe_modPipe, Pipe.pastWindow, Pipe.finished, hk.2.1]
    case false =>
      have hm : s.mayComplete s.cur l = true := by
        rw [State.mayComplete, hf]
        simp [hp, hg]
      refine ⟨s.modPipe fun p => p.finished n l (.sc ⟨0, false⟩), ?_, State.finished_shows (g := fun p => p) rfl (fun _ => rfl) (fun _ => rfl) (fun _ => rfl)⟩
      rw [exec_longCompletion_completes hl h0 hx hm, State.completeLong_test hf, State.syncGet_modPipe, hg]
      simp only [bne_self_eq_false, Bool.false_eq_true, if_false]
      rw [State.complete_erased]
      rfl
    case true =>
      have hm : s.mayComplete s.cur l = true := by
        rw [State.mayComplete, hf]
        simp [hp, hr]
      refine ⟨s.modPipe fun p => p.finished n l (.sc ⟨1, false⟩), ?_, State.finished_shows (g := fun p => p) rfl (fun _ => rfl) (fun _ => rfl) (fun _ => rfl)⟩
      rw [exec_longCompletion_completes hl h0 hx hm, State.completeLong_test hf, State.syncGet_modPipe, bne_iff_ne.2 hg]
      simp only [if_true]
      rw [State.complete_erased]
      rfl

end Sys2Proof.Machine
end

section
/-! PROOFS. Fetching a parcel, and the step that runs one decoded move. -/
namespace Sys2Proof.Machine

/-- A byte of code below 2^56 whose translation is given, while no migration is open. -/
theorem State.fetchByte_ok {s s' : State} {c : CoreId} {a : W64} {pa : Nat} (ha : a.extractLsb' 56 8 = 0) (ht : s.translateVa c a.toNat .fetch 3 = (.ok pa, s'))
    (hm : s'.m.migs = []) : s.fetchByte c a = (.ok (Memory.read s'.m.mem pa), s'.cacheLine c.die pa) := by
  rw [State.fetchByte, if_neg (not_not.mpr ha), ht]
  simp [hm, migTarget]

/-- Settles O5. -/
theorem fetchReadsParcel : Obligations.FetchReadsParcel := by
  intro s s0 s1 s2 c base n pa0 pa1 pa2 a ha h0 h1 h2 hm0 hm1 hm2
  have e0 : s.fetchByte c a = _ := State.fetchByte_ok (by simpa using ha 0 (by decide)) h0 hm0
  have e1 := State.fetchByte_ok (ha 1 (by decide)) h1 hm1
  have e2 := State.fetchByte_ok (ha 2 (by decide)) h2 hm2
  rw [State.fetchParcel]
  simp only [show parcelAddr base n = a from rfl, e0, e1, e2, parcelOfBytes]

end Sys2Proof.Machine
end

section
/-! PROOFS. The matrix slot: its ports, its status, its bound registers. -/
namespace Sys2Proof.Machine

section
variable {s : State} {g : BitVec 4} {e : Bool} {f : BitVec 10} {v : Val} (h : s.ready .m g e f v = true)
include h

/-- A matrix operation that is ready runs its action on F. -/
theorem matrixOp_ready (act : SVal → State → State) : matrixOp g e f act s = .next (act v.toS s) := by
  rw [matrixOp, State.issueMove_ready h]
/-- A configuration port takes a clean F. -/
theorem matrixPort_ready (hc : v.toS.poi = false) (set : W64 → MPorts → MPorts) :
    matrixPort g e f set s = .next (s.modMx fun m => { m with ports := set v.toS.val m.ports }).issued := by
  rw [matrixPort, matrixOp_ready h, hc, State.needClean_clean]
/-- No metadata cause stands in the way of a matrix operation that is ready (R242). -/
theorem pendMeta_of_ready : s.me.mx.pendMeta = none := by
  simp only [State.ready, State.matrixFree, Bool.and_eq_true, Option.isNone_iff_eq_none, bne_self_eq_false, Bool.false_or] at h
  exact h.2.1.1

end

/-! ## Status (R254, R255) -/

/-- The status word's single bits (Table 10.16). -/
theorem Matrix.status_bits (m : Matrix) :
    m.status.getLsbD 0 = !m.queue.isEmpty ∧ m.status.getLsbD 4 = m.sticky.bex ∧ m.status.getLsbD 5 = m.sticky.rrun ∧ m.status.getLsbD 6 = m.sticky.cmis
      ∧ m.status.getLsbD 7 = m.sticky.cdef ∧ m.status.getLsbD 12 = m.leader.isSome := by
  unfold Matrix.status
  simp only [BitVec.getLsbD_append, BitVec.getLsbD_setWidth, BitVec.getLsbD_ofBool]
  simp
/-- Its wider fields. -/
theorem Matrix.status_fields (m : Matrix) :
    m.status.extractLsb' 1 3 = BitVec.ofNat 3 m.queue.length ∧ m.status.extractLsb' 8 2 = m.bank0.st.code ∧ m.status.extractLsb' 10 2 = m.bank1.st.code
      ∧ m.status.extractLsb' 16 8 = m.sticky.crow ∧ m.status.extractLsb' 24 7 = m.sticky.ccol ∧ m.status.extractLsb' 32 8 = m.sticky.crot := by
  unfold Matrix.status
  generalize BitVec.ofNat 3 m.queue.length = n
  refine ⟨?_, ?_, ?_, ?_, ?_, ?_⟩ <;> refine BitVec.eq_of_getLsbD_eq fun i hi => ?_ <;>
    simp only [BitVec.getLsbD_append, BitVec.getLsbD_setWidth, BitVec.getLsbD_extractLsb', BitVec.getLsbD_ofBool] <;> interval_cases i <;> simp

section
variable {s : State} {g : BitVec 4} {e : Bool} {f : BitVec 10} {v : Val} (h : s.ready .m g e f v = true)
include h

/-- MWAIT holds while the queue holds an operation. -/
theorem exec_mwait_holds (hq : s.me.mx.queue ≠ []) : exec (.mwait g e f) s = .next (s.hold 0) := by
  show execMwait g e f s = _
  rw [execMwait, matrixOp_ready h, if_pos (by simpa using hq)]
/-- With nothing queued and nothing pending it goes on. -/
theorem exec_mwait_goesOn (hq : s.me.mx.queue = []) (hm : s.me.mx.pendMis = none) (hn : s.me.mx.pendNv = false) : exec (.mwait g e f) s = .next s.issued := by
  have hp : s.matrixPending = none := by simp only [State.matrixPending, pendMeta_of_ready h, hm, hn]
  show execMwait g e f s = _
  rw [execMwait, matrixOp_ready h, if_neg (by simp [hq]), hp]

/-! ## Bound registers (R244) -/

/-- MBND.RD of a register that no queued operation changes. -/
theorem exec_mbndRd_reads {x : W32} (hx : s.me.mx.boundReg (v.toS.val.extractLsb' 0 8).toNat = some x)
    (hq : s.me.mx.queue.any (fun o => o.changes (v.toS.val.extractLsb' 0 8).toNat) = false) :
    exec (.mbndRd g e f) s =
      (let n := (v.toS.val.extractLsb' 0 8).toNat
       let all := if n < 4 then (s.members s.cur).map fun c => ((s.core c).mx.boundReg n).getD 0 else [x]
       .next (s.short .m (.sc ⟨(all.foldl maxBound (all.headD x)).setWidth 64, false⟩) 0 none)) := by
  show execMbndRd g e f s = _
  rw [execMbndRd, matrixOp_ready h]
  simp only [hx, hq, Bool.false_eq_true, if_false]
  rfl
/-- MBND.RD of a selector that names none. -/
theorem exec_mbndRd_traps (hx : s.me.mx.boundReg (v.toS.val.extractLsb' 0 8).toNat = none) :
    exec (.mbndRd g e f) s = .next (s.trapAt .m 0x02 (BitVec.ofNat 64 (v.toS.val.extractLsb' 0 8).toNat)) := by
  show execMbndRd g e f s = _
  rw [execMbndRd, matrixOp_ready h]
  simp only [hx]
/-- MBND.WR of a register that it may write, with a clean X and an empty queue. -/
theorem exec_mbndWr_writes {n : Nat} (he : (v.toS.val.extractLsb' 0 8).toNat = n) (hn : n < 4 ∨ 0x20 ≤ n ∧ n < 0x40) (hx : s.pipe.units.m.x.poi = false)
    (hq : s.me.mx.queue = []) :
    exec (.mbndWr g e f) s =
      (let b := bound32 (s.pipe.units.m.x.val.setWidth 32)
       .next (s.modMx fun m =>
          if n < 2 then m.modBank (n = 1) fun k => { k with bnd := b, nonrep := true }
          else if n < 4 then m.modBank (n = 3) fun k => { k with s := b, nonrep := true }
          else m.setSlot (n - 0x20) { m.slot (n - 0x20) with bound := b }).issued) := by
  have hw : ((s.me.mx.boundReg n).isNone || (decide (4 ≤ n) && decide (n ≤ 6))) = false := by
    obtain hn | ⟨h1, h2⟩ := hn
    · interval_cases n <;> rfl
    · have h4 : (decide (4 ≤ n) && decide (n ≤ 6)) = false := by simp; omega
      rw [h4, Bool.or_false, Matrix.boundReg] <;> simp [h1, h2] <;> omega
  show execMbndWr g e f s = _
  rw [execMbndWr, matrixOp_ready h]
  simp only [he, hw, hx, hq, Bool.false_eq_true, if_false, State.needClean_clean, List.isEmpty_nil, Bool.not_true]

end

/-- Settles O47. -/
theorem matrixPortResults : Obligations.MatrixPortResults := by
  unfold Obligations.MatrixPortResults
  intro s g e f v h hc w m port
  refine ⟨?mcfg, ?msla, ?mslb, ?mklen, ?mbthr, ?mchk, ?mdtm, ?mgrp, ?now, ⟨m.status, ?status, ?fields⟩, exec_mwait_holds h, exec_mwait_goesOn h, ?bounds⟩
  case mcfg =>
    show execMcfg g e f s = _
    rw [execMcfg, matrixPort_ready h hc]
  case msla =>
    show execMsla g e f s = _
    rw [execMsla, matrixPort_ready h hc]
  case mslb =>
    show execMslb g e f s = _
    rw [execMslb, matrixPort_ready h hc]
  case mklen =>
    show execMklen g e f s = _
    rw [execMklen, matrixPort_ready h hc]
  case mbthr =>
    show execMbthr g e f s = _
    rw [execMbthr, matrixPort_ready h hc]
  case mchk =>
    show execMchk g e f s = _
    rw [execMchk, matrixPort_ready h hc]
  case mdtm =>
    show execMdtm g e f s = _
    rw [execMdtm, matrixPort_ready h hc]
  case mgrp =>
    show execMgrp g e f s = _
    rw [execMgrp, matrixPort_ready h hc]
  case now =>
    show execMchkNow g e f s = _
    rw [execMchkNow, matrixOp_ready h]
  case status =>
    show execMstat g e f s = _
    rw [execMstat, State.issueMove_ready h]
    rfl
  case fields =>
    obtain ⟨h0, h4, h5, h6, h7, h12⟩ := m.status_bits
    obtain ⟨f1, f8, f10, f16, f24, f32⟩ := m.status_fields
    exact ⟨h0, f1, h4, h5, h6, h7, f8, f10, h12, f16, f24, f32⟩
  case bounds =>
    intro n
    refine ⟨fun x hx hq => exec_mbndRd_reads h hx hq, exec_mbndRd_traps h, fun hx hq => ?_⟩
    intro b set
    refine ⟨fun hn => ?_, fun hn2 hn => ?_, fun hn2 hn => ?_⟩
    · rw [exec_mbndWr_writes h rfl (.inl (Nat.lt_trans hn (by decide))) hx hq]
      simp only [show (v.toS.val.extractLsb' 0 8).toNat < 2 from hn, if_true]
      rfl
    · rw [exec_mbndWr_writes h rfl (.inl hn) hx hq]
      simp only [show ¬ (v.toS.val.extractLsb' 0 8).toNat < 2 from Nat.not_lt.2 hn2, show (v.toS.val.extractLsb' 0 8).toNat < 4 from hn, if_true, if_false]
      rfl
    · rw [exec_mbndWr_writes h rfl (.inr ⟨hn2, hn⟩) hx hq]
      have h4 : ¬ (v.toS.val.extractLsb' 0 8).toNat < 4 := Nat.not_lt.2 (Nat.le_trans (by decide) hn2)
      simp only [h4, show ¬ (v.toS.val.extractLsb' 0 8).toNat < 2 from fun hl => h4 (Nat.lt_trans hl (by decide)), if_false]
      rfl

end Sys2Proof.Machine
end

section
/-! PROOFS. What every operation of the machine keeps: which core is current, and the canonical form of every memory. -/
namespace Sys2Proof.Machine
set_option Elab.async false

/-- What every operation keeps: the current core, and the canonical form of every memory. -/
structure State.Keeps (b s : State) : Prop where
  cur : s.cur = b.cur
  memWf : b.memWf → s.memWf
/-- A meaning that answers a state keeps so. -/
def Out.Keeps (b : State) : Out → Prop
  | .next t => b.Keeps t
  | .fault _ => True
  | .refused _ => True

theorem State.Keeps.refl (s : State) : s.Keeps s := ⟨rfl, id⟩
theorem State.Keeps.trans {b s t : State} (h : b.Keeps s) (g : s.Keeps t) : b.Keeps t := ⟨g.cur.trans h.cur, fun hb => g.memWf (h.memWf hb)⟩
theorem Out.keeps_next {b t : State} : Out.Keeps b (.next t) ↔ b.Keeps t := .rfl
theorem Out.keeps_fault (b : State) (e : Fault) : Out.Keeps b (.fault e) := trivial
theorem Out.keeps_refused (b : State) (r : Refusal) : Out.Keeps b (.refused r) := trivial

section
variable {b s : State}

/-- A state made from another one keeps what it keeps, where its memories do. -/
theorem State.Keeps.remake (h : b.Keeps s) {cores : Vector Core 256} {dies m t fw link product phase agenda free pick}
    (h1 : Memory.wf s.m.mem = true → Memory.wf m.mem = true) (h2 : Memory.wf s.m.host = true → Memory.wf m.host = true)
    (h3 : Memory.wf s.m.pmem = true → Memory.wf m.pmem = true)
    (h4 : ∀ c : CoreId, Memory.wf (s.cores[c.val]).sp = true → Memory.wf (cores[c.val]).sp = true)
    (h5 : (∀ v ∈ s.fw.saved, Memory.wf v.core.sp = true) → ∀ v ∈ fw.saved, Memory.wf v.core.sp = true) :
    b.Keeps ⟨cores, dies, m, t, fw, link, product, phase, s.cur, agenda, free, pick⟩ := by
  refine ⟨h.cur, fun hb => ?_⟩
  obtain ⟨g1, g2, g3, g4, g5⟩ := h.memWf hb
  exact ⟨h1 g1, h2 g2, h3 g3, fun c => h4 c (g4 c), h5 g5⟩
/-- A change beside every memory. -/
theorem State.Keeps.beside (h : b.Keeps s) {dies m t fw link product phase agenda free pick}
    (h1 : m.mem = s.m.mem) (h2 : m.host = s.m.host) (h3 : m.pmem = s.m.pmem) (h5 : fw.saved = s.fw.saved) :
    b.Keeps ⟨s.cores, dies, m, t, fw, link, product, phase, s.cur, agenda, free, pick⟩ :=
  h.remake (h1 ▸ id) (h2 ▸ id) (h3 ▸ id) (fun _ => id) (h5 ▸ id)
/-- A change of memory's bytes that keeps their canonical form. -/
theorem State.Keeps.stored (h : b.Keeps s) {dies m t fw link product phase agenda free pick}
    (h1 : Memory.wf s.m.mem = true → Memory.wf m.mem = true) (h2 : Memory.wf s.m.host = true → Memory.wf m.host = true)
    (h3 : Memory.wf s.m.pmem = true → Memory.wf m.pmem = true) (h5 : fw.saved = s.fw.saved) :
    b.Keeps ⟨s.cores, dies, m, t, fw, link, product, phase, s.cur, agenda, free, pick⟩ := h.remake h1 h2 h3 (fun _ => id) (h5 ▸ id)
/-- A change of cores beside their scratchpads. -/
theorem State.Keeps.mapCores (h : b.Keeps s) {f : Core → Core} {dies m t fw link product phase agenda free pick} (hf : ∀ k, (f k).sp = k.sp)
    (h1 : m.mem = s.m.mem) (h2 : m.host = s.m.host) (h3 : m.pmem = s.m.pmem) (h5 : fw.saved = s.fw.saved) :
    b.Keeps ⟨s.cores.map f, dies, m, t, fw, link, product, phase, s.cur, agenda, free, pick⟩ :=
  h.remake (h1 ▸ id) (h2 ▸ id) (h3 ▸ id) (fun c hw => by rw [Vector.getElem_map, hf]; exact hw) (h5 ▸ id)
theorem State.Keeps.setCore (h : b.Keeps s) (c : CoreId) {k : Core} (hk : Memory.wf (s.core c).sp = true → Memory.wf k.sp = true) : b.Keeps (s.setCore c k) := by
  refine ⟨h.cur, fun hb => ?_⟩
  obtain ⟨g1, g2, g3, g4, g5⟩ := h.memWf hb
  refine ⟨g1, g2, g3, fun d => ?_, g5⟩
  by_cases hd : d = c
  · subst hd
    rw [State.core_setCore_self]
    exact hk (g4 d)
  · rw [State.core_setCore_ne s k hd]
    exact g4 d
/-- A change of a core beside its scratchpad. -/
theorem State.Keeps.modCore (h : b.Keeps s) (c : CoreId) {f : Core → Core} (hf : (f (s.core c)).sp = (s.core c).sp) : b.Keeps (s.modCore c f) :=
  h.setCore c fun hw => hf ▸ hw
theorem State.Keeps.modMe (h : b.Keeps s) {f : Core → Core} (hf : (f (s.core s.cur)).sp = (s.core s.cur).sp) : b.Keeps (s.modMe f) := h.modCore _ hf
/-- The state of a pair that is taken apart. -/
theorem State.Keeps.of_snd {α : Type} {p : α × State} {x : α} (h : b.Keeps p.2) (e : p = (x, s)) : b.Keeps s := by
  subst e
  exact h
/-- Steps that each keep it keep it together. -/
theorem State.Keeps.foldl {α : Type} {f : State → α → State} (hf : ∀ s x, b.Keeps s → b.Keeps (f s x)) (h : b.Keeps s) (l : List α) : b.Keeps (l.foldl f s) :=
  List.foldlRecOn l f h fun _ hb x _ => hf _ x hb
/-- So do steps beside a value that they change. -/
theorem State.Keeps.foldl_snd {α β : Type} {f : β × State → α → β × State} (hf : ∀ a x, b.Keeps a.2 → b.Keeps (f a x).2) {a : β × State} (h : b.Keeps a.2) (l : List α) :
    b.Keeps (l.foldl f a).2 :=
  List.foldlRecOn (motive := fun a : β × State => b.Keeps a.2) l f h fun _ hb x _ => hf _ x hb

end

/-! ## Scratchpads of changed cores -/

@[simp] theorem Core.sp_touch (k : Core) (o n : Nat) : (k.touch o n).sp = k.sp := rfl
@[simp] theorem Core.sp_unplace (k : Core) : k.unplace.sp = k.sp := rfl
@[simp] theorem Core.sp_recordWaits (k : Core) : k.recordWaits.sp = k.sp := by
  unfold Core.recordWaits
  split <;> rfl
@[simp] theorem Core.sp_reissue (k : Core) (l : List Wait) : (k.reissue l).sp = k.sp := rfl
@[simp] theorem Core.sp_setK (k : Core) (u : KUnit) (x : KSlot) : (k.setK u x).sp = k.sp := by cases u <;> rfl
@[simp] theorem Core.sp_kill (k : Core) : k.kill.sp = k.sp := rfl
@[simp] theorem Core.sp_placesOf (k t : Core) : (k.placesOf t).sp = k.sp := rfl
@[simp] theorem Core.sp_start (k : Core) (p : Pipe) (t : TaskInfo) (lt : Nat) : (k.start p t lt).sp = k.sp := rfl
@[simp] theorem Core.sp_vacate (k : Core) : k.vacate.sp = k.sp := rfl
@[simp] theorem Core.sp_onto (k h : Core) : (k.onto h).sp = k.sp := rfl
@[simp] theorem Core.sp_drift (k : Core) (n : Nat) : (k.drift n).sp = k.sp := rfl
@[simp] theorem Core.sp_leaseCycle (k : Core) (n : Nat) : (k.leaseCycle n).sp = k.sp := by
  unfold Core.leaseCycle
  split <;> rfl
@[simp] theorem Core.sp_convertRows (k : Core) : k.convertRows.sp = k.sp := by
  unfold Core.convertRows
  split <;> rfl
@[simp] theorem Core.sp_countLongs (k : Core) : k.countLongs.sp = k.sp := rfl
@[simp] theorem Core.sp_noteTask (k : Core) : k.noteTask.sp = k.sp := by
  unfold Core.noteTask
  split <;> rfl
@[simp] theorem Core.sp_endCycle (k : Core) : k.endCycle.sp = k.sp := Core.sp_noteTask _

end Sys2Proof.Machine
end

section
/-! PROOFS. `State.Keeps`: what the memory and translation functions keep. -/
namespace Sys2Proof.Machine
set_option Elab.async false
section
variable {b₀ : State}

theorem State.Keeps.modDie {s : State} (h : b₀.Keeps s) (d : DieId) (f : Die → Die) :
    b₀.Keeps (State.modDie s d f) := by
  unfold State.modDie
  grind [State.Keeps.beside]
theorem State.Keeps.modDies {s : State} (h : b₀.Keeps s) (f : Die → Die) :
    b₀.Keeps (State.modDies s f) := by
  unfold State.modDies
  grind [State.Keeps.beside]
theorem State.Keeps.dropCopies {s : State} (h : b₀.Keeps s) (a : Nat) (n : Nat) :
    b₀.Keeps (State.dropCopies s a n) := by
  unfold State.dropCopies
  grind [State.Keeps.modDies, State.Keeps.beside]
theorem State.Keeps.modCtx {s : State} (h : b₀.Keeps s) (id : BitVec 16) (f : Ctx → Ctx) :
    b₀.Keeps (State.modCtx s id f) := by
  unfold State.modCtx
  grind [State.Keeps.beside]
theorem State.Keeps.drawFree {s : State} (h : b₀.Keeps s) :
    b₀.Keeps (State.drawFree s).2 := by
  unfold State.drawFree
  grind [State.Keeps.beside]
theorem State.Keeps.postEvent {s : State} (h : b₀.Keeps s) (kind : Nat) (ctx : BitVec 16) (task : W32) (tag : W32) (value : W64) :
    b₀.Keeps (State.postEvent s kind ctx task tag value) := by
  unfold State.postEvent
  grind [State.Keeps.beside, State.Keeps.stored, Memory.wf_writeBytes, Memory.wf_writeN, Memory.wf_clear]
theorem State.Keeps.rasEvent {s : State} (h : b₀.Keeps s) (kind : Nat) (die : Nat) (item : Nat) :
    b₀.Keeps (State.rasEvent s kind die item) := by
  unfold State.rasEvent
  grind [State.Keeps.postEvent, State.Keeps.beside]
theorem State.Keeps.writeEntry {s : State} (h : b₀.Keeps s) (a : Nat) (e : W64) :
    b₀.Keeps (State.writeEntry s a e) := by
  unfold State.writeEntry
  grind [State.Keeps.dropCopies, State.Keeps.beside, State.Keeps.stored, Memory.wf_writeBytes, Memory.wf_writeN, Memory.wf_clear]
theorem State.Keeps.writeLeaf {s : State} (h : b₀.Keeps s) (a : Nat) (size : Nat) (e : W64) :
    b₀.Keeps (State.writeLeaf s a size e) := by
  unfold State.writeLeaf
  grind [State.Keeps.writeEntry, State.Keeps.beside]
theorem State.Keeps.installFrom {s : State} (h : b₀.Keeps s) (va : Nat) (size : Nat) (e : W64) (x0 : Nat) (x1 : Nat) (x2 : Nat) :
    b₀.Keeps (State.installFrom s va size e x0 x1 x2) := by
  fun_induction State.installFrom s va size e x0 x1 x2 <;> grind [State.Keeps.writeLeaf, State.Keeps.writeEntry, State.Keeps.beside]
theorem State.Keeps.installLeaf {s : State} (h : b₀.Keeps s) (root : Nat) (va : Nat) (size : Nat) (e : W64) :
    b₀.Keeps (State.installLeaf s root va size e) := by
  unfold State.installLeaf
  grind [State.Keeps.installFrom]
theorem State.Keeps.applyLog {s : State} (h : b₀.Keeps s) (c : CoreId) (all : Bool) :
    b₀.Keeps (State.applyLog s c all) := by
  unfold State.applyLog
  grind [State.Keeps.setCore, State.Keeps.modDie, State.Keeps.beside]
theorem State.Keeps.forceLog {s : State} (h : b₀.Keeps s) :
    b₀.Keeps (State.forceLog s) := by
  unfold State.forceLog
  grind [State.Keeps.applyLog, State.Keeps.foldl, State.Keeps.foldl_snd]
theorem State.Keeps.makeRoom {s : State} (h : b₀.Keeps s) (d : DieId) :
    b₀.Keeps (State.makeRoom s d) := by
  unfold State.makeRoom
  grind [State.Keeps.applyLog, State.Keeps.foldl, State.Keeps.foldl_snd]
theorem State.Keeps.appendLog {s : State} (h : b₀.Keeps s) (va : Nat) (size : Nat) (kind : Nat) (ctx : BitVec 16) :
    b₀.Keeps (State.appendLog s va size kind ctx) := by
  unfold State.appendLog
  grind [State.Keeps.makeRoom, State.Keeps.modDies, State.Keeps.foldl, State.Keeps.foldl_snd, State.Keeps.beside]
theorem State.Keeps.setTimes {s : State} (h : b₀.Keeps s) (l : Loc) (t : Times) :
    b₀.Keeps (State.setTimes s l t) := by
  unfold State.setTimes
  grind [State.Keeps.beside]
theorem State.Keeps.homeWrite {s : State} (h : b₀.Keeps s) (l : Loc) (bs : List Byte) (bad : Bool) :
    b₀.Keeps (State.homeWrite s l bs bad) := by
  cases l with
  | pa a => exact h.stored (fun hw => Memory.wf_writeBytes hw a bs) id id rfl
  | sp c o => exact h.setCore c fun hw => Memory.wf_writeBytes hw o bs
theorem State.Keeps.heat {s : State} (h : b₀.Keeps s) (d : DieId) (a : Nat) :
    b₀.Keeps (State.heat s d a) := by
  unfold State.heat
  grind [State.Keeps.modDie, State.Keeps.beside]
theorem State.Keeps.writeBack {s : State} (h : b₀.Keeps s) (line : Nat) :
    b₀.Keeps (State.writeBack s line) := by
  unfold State.writeBack
  grind [State.Keeps.heat, State.Keeps.beside]
theorem State.Keeps.evictLine {s : State} (h : b₀.Keeps s) (d : DieId) (a : Nat) :
    b₀.Keeps (State.evictLine s d a) := by
  unfold State.evictLine
  grind [State.Keeps.writeBack, State.Keeps.modDie, State.Keeps.beside]
theorem State.Keeps.bringLine {s : State} (h : b₀.Keeps s) (count : Option DieId) (a : Nat) :
    b₀.Keeps (State.bringLine s count a) := by
  unfold State.bringLine
  grind [State.Keeps.evictLine, State.Keeps.modDie, State.Keeps.heat, State.Keeps.beside]
theorem State.Keeps.cacheLine {s : State} (h : b₀.Keeps s) (d : DieId) (a : Nat) :
    b₀.Keeps (State.cacheLine s d a) := by
  unfold State.cacheLine
  grind [State.Keeps.bringLine]
theorem State.Keeps.markDirty {s : State} (h : b₀.Keeps s) (a : Nat) :
    b₀.Keeps (State.markDirty s a) := by
  unfold State.markDirty
  grind [State.Keeps.writeBack, State.Keeps.beside]
theorem State.Keeps.dirtied {s : State} (h : b₀.Keeps s) (a : Nat) :
    b₀.Keeps (State.dirtied s a) := by
  unfold State.dirtied
  grind [State.Keeps.markDirty, State.Keeps.beside]
theorem State.Keeps.granuleDone {s : State} (h : b₀.Keeps s) (g : Granule) :
    b₀.Keeps (State.granuleDone s g) := by
  exact h.stored id id (fun hw => Memory.wf_writeBytes hw _ _) rfl
theorem State.Keeps.freeBytes {s : State} (h : b₀.Keeps s) (x0 : Nat) :
    b₀.Keeps (State.freeBytes s x0).2 := by
  fun_induction State.freeBytes s x0 <;> grind [State.Keeps.drawFree]
theorem State.Keeps.loadBy {s : State} (h : b₀.Keeps s) (count : Option DieId) (d : DieId) (lt : Nat) (l : Loc) (n : Nat) :
    b₀.Keeps (State.loadBy s count d lt l n).2 := by
  unfold State.loadBy
  grind [State.Keeps.freeBytes, State.Keeps.modCore, State.Keeps.bringLine, State.Keeps.setTimes, State.Keeps.evictLine, State.Keeps.modDie, State.Keeps.beside, Core.sp_touch]
theorem State.Keeps.loadAt {s : State} (h : b₀.Keeps s) (d : DieId) (lt : Nat) (l : Loc) (n : Nat) :
    b₀.Keeps (State.loadAt s d lt l n).2 := by
  unfold State.loadAt
  grind [State.Keeps.loadBy]
theorem State.Keeps.tlbFill {s : State} (h : b₀.Keeps s) (c : CoreId) (t : Tlb) :
    b₀.Keeps (State.tlbFill s c t) := by
  unfold State.tlbFill
  grind [State.Keeps.modCore, State.Keeps.modDie, State.Keeps.beside]
theorem State.Keeps.resolveFault {s : State} (h : b₀.Keeps s) (ctx : BitVec 16) (va : Nat) (acc : Access) (perm : Bool) :
    ∀ t, State.resolveFault s ctx va acc perm = some t → b₀.Keeps t := by
  unfold State.resolveFault
  grind [State.Keeps.installLeaf]
theorem State.Keeps.walkOn {s : State} (h : b₀.Keeps s) (d : DieId) (va : Nat) (x0 : Nat) (x1 : Nat) (x2 : Nat) :
    b₀.Keeps (State.walkOn s d va x0 x1 x2).2 := by
  fun_induction State.walkOn s d va x0 x1 x2 <;> grind [State.Keeps.loadBy]
theorem State.Keeps.leafFor {s : State} (h : b₀.Keeps s) (c : CoreId) (va : Nat) :
    b₀.Keeps (State.leafFor s c va).2 := by
  unfold State.leafFor
  grind [State.Keeps.modCore, State.Keeps.walkOn, State.Keeps.tlbFill, State.Keeps.rasEvent, State.Keeps.beside]
theorem State.Keeps.unreplicate {s : State} (h : b₀.Keeps s) (ctx : BitVec 16) (va : Nat) (at' : Nat) (size : Nat) (e : W64) (frame : Nat) :
    b₀.Keeps (State.unreplicate s ctx va at' size e frame) := by
  unfold State.unreplicate
  grind [State.Keeps.writeLeaf, State.Keeps.appendLog, State.Keeps.forceLog, State.Keeps.modCtx, State.Keeps.beside, State.Keeps.mapCores]
theorem State.Keeps.collapse {s : State} (h : b₀.Keeps s) (ctx : BitVec 16) (va : Nat) :
    b₀.Keeps (State.collapse s ctx va) := by
  unfold State.collapse
  grind [State.Keeps.unreplicate]
theorem State.Keeps.collapseAt {s : State} (h : b₀.Keeps s) (a : Nat) :
    b₀.Keeps (State.collapseAt s a) := by
  unfold State.collapseAt
  grind [State.Keeps.collapse]
theorem State.Keeps.mirror {s : State} (h : b₀.Keeps s) (a : Nat) (bs : List Byte) (bad : Bool) :
    b₀.Keeps (State.mirror s a bs bad) := by
  unfold State.mirror
  grind [State.Keeps.dropCopies, State.Keeps.foldl, State.Keeps.foldl_snd, State.Keeps.beside, State.Keeps.stored, Memory.wf_writeBytes, Memory.wf_writeN, Memory.wf_clear]
theorem State.Keeps.translateVa {s : State} (h : b₀.Keeps s) (c : CoreId) (va : Nat) (acc : Access) (x0 : Nat) :
    b₀.Keeps (State.translateVa s c va acc x0).2 := by
  induction x0 generalizing s with
  | zero => exact h
  | succ n ih =>
    unfold State.translateVa
    have hl := h.leafFor c va
    generalize s.leafFor c va = p at hl ⊢
    obtain ⟨r, u⟩ := p
    have hr (perm : Bool) := hl.resolveFault (s.core c).task.ctx va acc perm
    dsimp only at hl hr ⊢
    split
    · split
      · rename_i hx
        exact ih (hr _ _ hx)
      · exact hl
    · cases acc with
      | read => exact hl
      | fetch => grind [State.Keeps.appendLog, State.Keeps.applyLog]
      | write => grind [State.Keeps.appendLog, State.Keeps.applyLog, State.Keeps.collapse]
theorem State.Keeps.locate {s : State} (h : b₀.Keeps s) (c : CoreId) (a : W64) (acc : Access) :
    b₀.Keeps (State.locate s c a acc).2 := by
  unfold State.locate
  grind [State.Keeps.translateVa]
theorem State.Keeps.modPipeOf {s : State} (h : b₀.Keeps s) (c : CoreId) (f : Pipe → Pipe) :
    b₀.Keeps (State.modPipeOf s c f) := by
  unfold State.modPipeOf
  grind [State.Keeps.modCore, State.Keeps.beside]
theorem State.Keeps.setLt {s : State} (h : b₀.Keeps s) (c : CoreId) (lt : Vector Nat 4) :
    b₀.Keeps (State.setLt s c lt) := by
  unfold State.setLt
  grind [State.Keeps.modCore, State.Keeps.beside]
theorem State.Keeps.readHome {s : State} (h : b₀.Keeps s) (c : CoreId) (l : Loc) :
    b₀.Keeps (State.readHome s c l) := by
  unfold State.readHome
  grind [State.Keeps.setTimes, State.Keeps.setLt]
theorem State.Keeps.readWord {s : State} (h : b₀.Keeps s) (c : CoreId) (h : CoreId) (off : Nat) :
    b₀.Keeps (State.readWord s c h off) := by
  unfold State.readWord
  grind [State.Keeps.readHome]
theorem State.Keeps.bindWait {s : State} (h : b₀.Keeps s) (c : CoreId) (a : W64) (g : W32) :
    b₀.Keeps (State.bindWait s c a g).2 := by
  unfold State.bindWait
  grind [State.Keeps.readWord]
theorem State.Keeps.bindWaits {s : State} (h : b₀.Keeps s) (h : CoreId) (hit : Nat → Bool) :
    b₀.Keeps (State.bindWaits s h hit) := by
  unfold State.bindWaits
  grind [State.Keeps.bindWait, State.Keeps.modPipeOf, State.Keeps.foldl, State.Keeps.foldl_snd, State.Keeps.beside]
theorem State.Keeps.storeRaw {s : State} (h : b₀.Keeps s) (d : DieId) (ctx : BitVec 16) (lt : Nat) (l : Loc) (bs : List Byte) (bad : Bool) :
    b₀.Keeps (State.storeRaw s d ctx lt l bs bad).2 := by
  unfold State.storeRaw
  cases l <;> grind [State.Keeps.rasEvent, State.Keeps.collapseAt, State.Keeps.cacheLine, State.Keeps.setTimes, State.Keeps.homeWrite, State.Keeps.dirtied, State.Keeps.mirror,
    State.Keeps.modCtx, State.Keeps.beside]
theorem State.Keeps.storeAt {s : State} (h : b₀.Keeps s) (d : DieId) (ctx : BitVec 16) (lt : Nat) (l : Loc) (bs : List Byte) (bad : Bool) :
    b₀.Keeps (State.storeAt s d ctx lt l bs bad).2 := by
  unfold State.storeAt
  grind [State.Keeps.storeRaw, State.Keeps.bindWaits]
theorem State.Keeps.trackersClean {s : State} (h : b₀.Keeps s) :
    b₀.Keeps (State.trackersClean s) := by
  unfold State.trackersClean
  grind [State.Keeps.beside, State.Keeps.mapCores]
theorem State.Keeps.track {s : State} (h : b₀.Keeps s) (c : CoreId) (l : Loc) :
    b₀.Keeps (State.track s c l) := by
  unfold State.track
  grind [State.Keeps.modCore, State.Keeps.beside]

end
end Sys2Proof.Machine
end

section
/-! PROOFS. `State.Keeps`: what operand reads, services and the shared operations keep. -/
namespace Sys2Proof.Machine
set_option Elab.async false
section
variable {b₀ : State}

theorem State.Keeps.copyLine {s : State} (h : b₀.Keeps s) (src : Nat) (dst : Nat) :
    b₀.Keeps (State.copyLine s src dst) := by
  unfold State.copyLine
  grind [State.Keeps.dropCopies, State.Keeps.foldl, State.Keeps.foldl_snd, State.Keeps.beside, State.Keeps.stored, Memory.wf_writeBytes, Memory.wf_writeN, Memory.wf_clear]
theorem State.Keeps.migSwitch {s : State} (h : b₀.Keeps s) (g : Migration) :
    b₀.Keeps (State.migSwitch s g) := by
  unfold State.migSwitch
  grind [State.Keeps.modDies, State.Keeps.heat, State.Keeps.writeLeaf, State.Keeps.appendLog, State.Keeps.modCtx, State.Keeps.beside]
theorem State.Keeps.moveLine {s : State} (h : b₀.Keeps s) (src : Nat) (dst : Nat) :
    b₀.Keeps (State.moveLine s src dst) := by
  unfold State.moveLine
  grind [State.Keeps.copyLine, State.Keeps.dirtied]
theorem State.Keeps.persistRange {s : State} (h : b₀.Keeps s) (a : Nat) (n : Nat) :
    b₀.Keeps (State.persistRange s a n) := by
  unfold State.persistRange
  grind [State.Keeps.granuleDone, State.Keeps.trackersClean, State.Keeps.foldl, State.Keeps.foldl_snd, State.Keeps.beside]
theorem State.Keeps.duskGranule {s : State} (h : b₀.Keeps s) (a : Nat) (bs : List Byte) :
    b₀.Keeps (State.duskGranule s a bs) := by
  unfold State.duskGranule
  grind [State.Keeps.beside, State.Keeps.stored, Memory.wf_writeBytes, Memory.wf_writeN, Memory.wf_clear]
theorem State.Keeps.journal {s : State} (h : b₀.Keeps s) (g : Migration) (st : Nat) :
    b₀.Keeps (State.journal s g st) := by
  unfold State.journal
  grind [State.Keeps.duskGranule]
theorem State.Keeps.setMg {s : State} (h : b₀.Keeps s) (g : Migration) (on : Bool) :
    b₀.Keeps (State.setMg s g on) := by
  unfold State.setMg
  grind [State.Keeps.writeLeaf]
theorem State.Keeps.openMigration {s : State} (h : b₀.Keeps s) (g : Migration) :
    b₀.Keeps (State.openMigration s g) := by
  unfold State.openMigration
  grind [State.Keeps.setMg, State.Keeps.beside]
theorem State.Keeps.startMigration {s : State} (h : b₀.Keeps s) (g : Migration) :
    b₀.Keeps (State.startMigration s g) := by
  unfold State.startMigration
  grind [State.Keeps.openMigration, State.Keeps.beside]
theorem State.Keeps.finishSwitch {s : State} (h : b₀.Keeps s) (g : Migration) :
    b₀.Keeps (State.finishSwitch s g) := by
  unfold State.finishSwitch
  grind [State.Keeps.moveLine, State.Keeps.persistRange, State.Keeps.migSwitch, State.Keeps.journal, State.Keeps.foldl, State.Keeps.foldl_snd, State.Keeps.beside]
theorem State.Keeps.startQueued {s : State} (h : b₀.Keeps s) :
    b₀.Keeps (State.startQueued s) := by
  unfold State.startQueued
  grind [State.Keeps.openMigration, State.Keeps.beside]
theorem State.Keeps.startAllQueued {s : State} (h : b₀.Keeps s) :
    b₀.Keeps (State.startAllQueued s) := by
  unfold State.startAllQueued
  grind [State.Keeps.startQueued, State.Keeps.foldl, State.Keeps.foldl_snd]
theorem State.Keeps.retireDone {s : State} (h : b₀.Keeps s) :
    b₀.Keeps (State.retireDone s) := by
  unfold State.retireDone
  grind [State.Keeps.appendLog, State.Keeps.forceLog, State.Keeps.foldl, State.Keeps.foldl_snd, State.Keeps.beside]
theorem State.Keeps.settleMigs {s : State} (h : b₀.Keeps s) (ctx : BitVec 16) (lo : Nat) (hi : Nat) :
    b₀.Keeps (State.settleMigs s ctx lo hi) := by
  unfold State.settleMigs
  grind [State.Keeps.finishSwitch, State.Keeps.setMg, State.Keeps.startAllQueued, State.Keeps.retireDone, State.Keeps.foldl, State.Keeps.foldl_snd, State.Keeps.beside]
theorem State.Keeps.zeroRange {s : State} (h : b₀.Keeps s) (a : Nat) (n : Nat) :
    b₀.Keeps (State.zeroRange s a n) := by
  unfold State.zeroRange
  grind [State.Keeps.dropCopies, State.Keeps.beside, State.Keeps.stored, Memory.wf_writeBytes, Memory.wf_writeN, Memory.wf_clear]
theorem State.Keeps.releaseLeaf {s : State} (h : b₀.Keeps s) (id : BitVec 16) (q : LeafAt) :
    b₀.Keeps (State.releaseLeaf s id q) := by
  unfold State.releaseLeaf
  grind [State.Keeps.appendLog, State.Keeps.beside, Core.sp_placesOf]
theorem State.Keeps.clearLeaf {s : State} (h : b₀.Keeps s) (id : BitVec 16) (q : LeafAt) :
    b₀.Keeps (State.clearLeaf s id q) := by
  unfold State.clearLeaf
  grind [State.Keeps.writeLeaf, State.Keeps.releaseLeaf]
theorem State.Keeps.mapReq {s : State} (h : b₀.Keeps s) (x : Ctx) (d : DieId) (va : Nat) (bytes : Nat) :
    b₀.Keeps (State.mapReq s x d va bytes).2 := by
  unfold State.mapReq
  grind [State.Keeps.zeroRange, State.Keeps.installLeaf, State.Keeps.modCtx, State.Keeps.foldl, State.Keeps.foldl_snd, State.Keeps.beside]
theorem State.Keeps.changeLeaf {s : State} (h : b₀.Keeps s) (x : Ctx) (va : Nat) (f : W64 → W64) :
    b₀.Keeps (State.changeLeaf s x va f) := by
  unfold State.changeLeaf
  grind [State.Keeps.writeLeaf, State.Keeps.appendLog]
theorem State.Keeps.unmapReq {s : State} (h : b₀.Keeps s) (x : Ctx) (va : Nat) (bytes : Nat) :
    b₀.Keeps (State.unmapReq s x va bytes).2 := by
  unfold State.unmapReq
  grind [State.Keeps.settleMigs, State.Keeps.clearLeaf, State.Keeps.modCtx, State.Keeps.foldl, State.Keeps.foldl_snd, State.Keeps.beside]
theorem State.Keeps.protReq {s : State} (h : b₀.Keeps s) (x : Ctx) (va : Nat) (y : W64) :
    b₀.Keeps (State.protReq s x va y).2 := by
  unfold State.protReq
  grind [State.Keeps.changeLeaf, State.Keeps.settleMigs, State.Keeps.foldl, State.Keeps.foldl_snd]
theorem State.Keeps.service {s : State} (h : b₀.Keeps s) (c : CoreId) (v : Svc) :
    b₀.Keeps (State.service s c v).2 := by
  unfold State.service
  grind [State.Keeps.applyLog, State.Keeps.mapReq, State.Keeps.unmapReq, State.Keeps.protReq, State.Keeps.postEvent]
theorem State.Keeps.modPipe {s : State} (h : b₀.Keeps s) (f : Pipe → Pipe) :
    b₀.Keeps (State.modPipe s f) := by
  unfold State.modPipe
  grind [State.Keeps.modPipeOf]
theorem State.Keeps.modMx {s : State} (h : b₀.Keeps s) (f : Matrix → Matrix) :
    b₀.Keeps (State.modMx s f) := by
  unfold State.modMx
  grind [State.Keeps.modMe, State.Keeps.beside]
theorem State.Keeps.setDisp {s : State} (h : b₀.Keeps s) (d : Disposition) :
    b₀.Keeps (State.setDisp s d) := by
  unfold State.setDisp
  grind [State.Keeps.modPipe, State.Keeps.beside]
theorem State.Keeps.issued {s : State} (h : b₀.Keeps s) :
    b₀.Keeps (State.issued s) := by
  unfold State.issued
  grind [State.Keeps.setDisp]
theorem State.Keeps.hold {s : State} (h : b₀.Keeps s) (why : Nat) :
    b₀.Keeps (State.hold s why) := by
  unfold State.hold
  grind [State.Keeps.setDisp]
theorem State.Keeps.regWrite {s : State} (h : b₀.Keeps s) (w : RegWrite) :
    b₀.Keeps (State.regWrite s w) := by
  unfold State.regWrite
  grind [State.Keeps.modPipe, State.Keeps.beside]
theorem State.Keeps.complete {s : State} (h : b₀.Keeps s) (c : CoreId) (f : BitVec 10) (v : Val) :
    b₀.Keeps (State.complete s c f v) := by
  unfold State.complete
  grind [State.Keeps.modPipeOf, State.Keeps.beside]
theorem State.Keeps.noteFill {s : State} (h : b₀.Keeps s) (c : CoreId) (f : BitVec 10) (ts : Nat) :
    b₀.Keeps (State.noteFill s c f ts) := by
  unfold State.noteFill
  grind [State.Keeps.modPipeOf, State.Keeps.beside]
theorem State.Keeps.addFlags {s : State} (h : b₀.Keeps s) (c : CoreId) (f : Flags) :
    b₀.Keeps (State.addFlags s c f) := by
  unfold State.addFlags
  grind [State.Keeps.modPipeOf, State.Keeps.beside]
theorem State.Keeps.short {s : State} (h : b₀.Keeps s) (u : Unit7) (v : Val) (flags : Flags) (dsel : Option (BitVec 10)) :
    b₀.Keeps (State.short s u v flags dsel) := by
  unfold State.short
  grind [State.Keeps.modPipe, State.Keeps.issued, State.Keeps.beside]
theorem State.Keeps.long {s : State} (h : b₀.Keeps s) (u : Unit7) (v : Val) (flags : Flags) (d : BitVec 10) (cycles : Nat) :
    b₀.Keeps (State.long s u v flags d cycles) := by
  unfold State.long
  grind [State.Keeps.modPipe, State.Keeps.regWrite, State.Keeps.issued, State.Keeps.beside]
theorem State.Keeps.unrefuse {s : State} (h : b₀.Keeps s) (c : CoreId) :
    b₀.Keeps (State.unrefuse s c) := by
  unfold State.unrefuse
  grind [State.Keeps.modCore, State.Keeps.beside]
theorem State.Keeps.accept {s : State} (h : b₀.Keeps s) (d : BitVec 10) (ok : Bool) :
    b₀.Keeps (State.accept s d ok) := by
  unfold State.accept
  grind [State.Keeps.unrefuse, State.Keeps.regWrite, State.Keeps.issued]
theorem State.Keeps.writeShadowed {s : State} (h : b₀.Keeps s) (r : ShReg) (v : BitVec 24) :
    b₀.Keeps (State.writeShadowed s r v) := by
  unfold State.writeShadowed
  grind [State.Keeps.modPipe, State.Keeps.beside]
theorem State.Keeps.performAt {s : State} (h : b₀.Keeps s) (c : CoreId) (r : Req) (l : Loc) :
    b₀.Keeps (State.performAt s c r l) := by
  unfold State.performAt
  grind [State.Keeps.loadAt, State.Keeps.setLt, State.Keeps.complete, State.Keeps.noteFill, State.Keeps.storeAt, State.Keeps.track, State.Keeps.freeBytes]
theorem State.Keeps.dropReq {s : State} (h : b₀.Keeps s) (c : CoreId) (q : Nat) :
    b₀.Keeps (State.dropReq s c q) := by
  unfold State.dropReq
  grind [State.Keeps.modCore, State.Keeps.beside]
theorem State.Keeps.wakeBanks {s : State} (h : b₀.Keeps s) (h : CoreId) (off : Nat) (n : Nat) :
    b₀.Keeps (State.wakeBanks s h off n) := by
  unfold State.wakeBanks
  grind [State.Keeps.modCore, State.Keeps.beside]
theorem State.Keeps.readyWrites {s : State} (h : b₀.Keeps s) (c : CoreId) (ls : List Loc) (n : Nat) :
    b₀.Keeps (State.readyWrites s c ls n) := by
  unfold State.readyWrites
  grind [State.Keeps.wakeBanks, State.Keeps.writeBack, State.Keeps.trackersClean, State.Keeps.foldl, State.Keeps.foldl_snd]
theorem State.Keeps.performThere {s : State} (h : b₀.Keeps s) (c : CoreId) (r : Req) (l : Loc) :
    b₀.Keeps (State.performThere s c r l) := by
  unfold State.performThere
  grind [State.Keeps.readyWrites, State.Keeps.dropReq, State.Keeps.performAt, State.Keeps.beside]
theorem State.Keeps.releaseHeld {s : State} (h : b₀.Keeps s) :
    b₀.Keeps (State.releaseHeld s) := by
  unfold State.releaseHeld
  grind [State.Keeps.performThere, State.Keeps.foldl, State.Keeps.foldl_snd, State.Keeps.beside]
theorem State.Keeps.performReq {s : State} (h : b₀.Keeps s) (c : CoreId) (q : Nat) :
    b₀.Keeps (State.performReq s c q) := by
  unfold State.performReq
  grind [State.Keeps.releaseHeld, State.Keeps.performThere, State.Keeps.beside]
theorem State.Keeps.request {s : State} (h : b₀.Keeps s) (cls : BitVec 2) (op : ReqOp) (loc : Loc) (size : Nat) (data : SVal) (x : SVal) (d : BitVec 10) (fills : Bool) :
    b₀.Keeps (State.request s cls op loc size data x d fills) := by
  unfold State.request
  grind [State.Keeps.hold, State.Keeps.modMe, State.Keeps.unrefuse, State.Keeps.regWrite, State.Keeps.issued, State.Keeps.beside]
theorem State.Keeps.performAll {s : State} (h : b₀.Keeps s) (c : CoreId) :
    b₀.Keeps (State.performAll s c) := by
  unfold State.performAll
  grind [State.Keeps.performReq, State.Keeps.foldl, State.Keeps.foldl_snd]
theorem State.Keeps.finishSwitches {s : State} (h : b₀.Keeps s) :
    b₀.Keeps (State.finishSwitches s) := by
  unfold State.finishSwitches
  grind [State.Keeps.finishSwitch, State.Keeps.releaseHeld, State.Keeps.foldl, State.Keeps.foldl_snd]
theorem State.Keeps.settle {s : State} (h : b₀.Keeps s) (c : CoreId) :
    b₀.Keeps (State.settle s c) := by
  unfold State.settle
  grind [State.Keeps.performAll, State.Keeps.finishSwitches]
theorem State.Keeps.settleSome {s : State} (h : b₀.Keeps s) (c : CoreId) (mine : Req → Bool) :
    b₀.Keeps (State.settleSome s c mine) := by
  unfold State.settleSome
  grind [State.Keeps.performReq, State.Keeps.finishSwitches, State.Keeps.foldl, State.Keeps.foldl_snd]
theorem State.Keeps.syncPut {s : State} (h : b₀.Keeps s) (c : CoreId) (off : Nat) (w : SyncWord) :
    b₀.Keeps (State.syncPut s c off w) := by
  unfold State.syncPut
  grind [State.Keeps.homeWrite]
theorem State.Keeps.mergeClasses {s : State} (h : b₀.Keeps s) (c : CoreId) :
    b₀.Keeps (State.mergeClasses s c) := by
  unfold State.mergeClasses
  grind [State.Keeps.setLt]
theorem State.Keeps.acquireAction {s : State} (h : b₀.Keeps s) (c : CoreId) :
    b₀.Keeps (State.acquireAction s c) := by
  unfold State.acquireAction
  grind [State.Keeps.applyLog, State.Keeps.modDie, State.Keeps.beside]
theorem State.Keeps.acquirePkg {s : State} (h : b₀.Keeps s) (c : CoreId) :
    b₀.Keeps (State.acquirePkg s c) := by
  unfold State.acquirePkg
  grind [State.Keeps.mergeClasses, State.Keeps.acquireAction]
theorem State.Keeps.waitDone {s : State} (h : b₀.Keeps s) (c : CoreId) (h : CoreId) (off : Nat) :
    b₀.Keeps (State.waitDone s c h off) := by
  unfold State.waitDone
  grind [State.Keeps.unrefuse, State.Keeps.settleSome, State.Keeps.readWord, State.Keeps.acquirePkg]
theorem State.Keeps.waitFills {s : State} (h : b₀.Keeps s) (c : CoreId) (d : BitVec 10) (v : Val) :
    b₀.Keeps (State.waitFills s c d v) := by
  unfold State.waitFills
  grind [State.Keeps.complete, State.Keeps.unrefuse]
theorem State.Keeps.waitTakes {s : State} (h : b₀.Keeps s) (c : CoreId) (w : Wait) (v : Val) :
    b₀.Keeps (State.waitTakes s c w v).2 := by
  unfold State.waitTakes
  grind [State.Keeps.settleSome, State.Keeps.waitFills, State.Keeps.acquirePkg, State.Keeps.beside]
theorem State.Keeps.trySw {s : State} (h : b₀.Keeps s) (c : CoreId) (w : Wait) (a : W64) (g : W32) :
    b₀.Keeps (State.trySw s c w a g).2 := by
  unfold State.trySw
  grind [State.Keeps.readWord, State.Keeps.waitTakes, State.Keeps.waitFills]
theorem State.Keeps.setWait {s : State} (h : b₀.Keeps s) (c : CoreId) (w : Wait) (r : Option Wait) :
    b₀.Keeps (State.setWait s c w r) := by
  unfold State.setWait
  grind [State.Keeps.modPipeOf, State.Keeps.beside]
theorem State.Keeps.eachWait {s : State} (h : b₀.Keeps s) (c : CoreId) (f : State → Wait → Option Wait × State) (hf : ∀ (y0 : State) (y1 : Wait), b₀.Keeps y0 → b₀.Keeps (f y0 y1).2) :
    b₀.Keeps (State.eachWait s c f) := by
  unfold State.eachWait
  grind [State.Keeps.setWait, State.Keeps.foldl, State.Keeps.foldl_snd]
theorem State.Keeps.wakeSync {s : State} (h : b₀.Keeps s) (h : CoreId) (off : Nat) :
    b₀.Keeps (State.wakeSync s h off) := by
  unfold State.wakeSync
  grind [State.Keeps.eachWait, State.Keeps.trySw, State.Keeps.foldl, State.Keeps.foldl_snd]
theorem State.Keeps.syncArrive {s : State} (h : b₀.Keeps s) (c : CoreId) (off : Nat) (w : Nat) (lt : Nat) :
    b₀.Keeps (State.syncArrive s c off w lt).2 := by
  unfold State.syncArrive
  grind [State.Keeps.setTimes, State.Keeps.syncPut, State.Keeps.wakeSync, State.Keeps.foldl, State.Keeps.foldl_snd]
theorem State.Keeps.syncErr {s : State} (h : b₀.Keeps s) (c : CoreId) (off : Nat) :
    b₀.Keeps (State.syncErr s c off) := by
  unfold State.syncErr
  grind [State.Keeps.syncPut, State.Keeps.beside]
theorem State.Keeps.leaveColl {s : State} (h : b₀.Keeps s) (c : CoreId) (id : Nat) (status : Nat) :
    b₀.Keeps (State.leaveColl s c id status) := by
  unfold State.leaveColl
  grind [State.Keeps.beside]
theorem State.Keeps.wakeWord {s : State} (h : b₀.Keeps s) (c : CoreId) (e : EngCmd) :
    b₀.Keeps (State.wakeWord s c e) := by
  unfold State.wakeWord
  grind [State.Keeps.wakeBanks]
theorem State.Keeps.wakeEnd {s : State} (h : b₀.Keeps s) (c : CoreId) (e : EngCmd) :
    b₀.Keeps (State.wakeEnd s c e) := by
  unfold State.wakeEnd
  grind [State.Keeps.wakeWord, State.Keeps.wakeBanks]
theorem State.Keeps.engineEnd {s : State} (h : b₀.Keeps s) (c : CoreId) (u : KUnit) (e : EngCmd) (status : Nat) :
    b₀.Keeps (State.engineEnd s c u e status) := by
  unfold State.engineEnd
  grind [State.Keeps.modPipeOf, State.Keeps.storeAt, State.Keeps.modCore, State.Keeps.leaveColl, State.Keeps.syncErr, State.Keeps.syncArrive, State.Keeps.foldl, State.Keeps.foldl_snd, State.Keeps.beside, Core.sp_setK]
theorem State.Keeps.fetchByte {s : State} (h : b₀.Keeps s) (c : CoreId) (a : W64) :
    b₀.Keeps (State.fetchByte s c a).2 := by
  unfold State.fetchByte
  grind [State.Keeps.translateVa, State.Keeps.cacheLine]
theorem State.Keeps.fetchParcel {s : State} (h : b₀.Keeps s) (c : CoreId) (base : W64) (n : W32) :
    b₀.Keeps (State.fetchParcel s c base n).2 := by
  unfold State.fetchParcel
  grind [State.Keeps.fetchByte]
theorem State.Keeps.fetchParcels {s : State} (h : b₀.Keeps s) (c : CoreId) (base : W64) (x0 : Nat) (x1 : W32) :
    b₀.Keeps (State.fetchParcels s c base x0 x1).2 := by
  fun_induction State.fetchParcels s c base x0 x1 <;> grind [State.Keeps.fetchParcel]
theorem State.Keeps.fetchBundle {s : State} (h : b₀.Keeps s) (c : CoreId) (base : W64) (pc : W32) :
    b₀.Keeps (State.fetchBundle s c base pc).2 := by
  unfold State.fetchBundle
  grind [State.Keeps.fetchParcel, State.Keeps.fetchParcels]
theorem State.Keeps.dispatchOne {s : State} (h : b₀.Keeps s) (c : CoreId) :
    b₀.Keeps (State.dispatchOne s c) := by
  unfold State.dispatchOne
  grind [State.Keeps.modPipeOf, State.Keeps.fetchBundle, State.Keeps.beside]
theorem State.Keeps.dispatchTo {s : State} (h : b₀.Keeps s) (c : CoreId) (i : Nat) (x0 : Nat) :
    b₀.Keeps (State.dispatchTo s c i x0) := by
  fun_induction State.dispatchTo s c i x0 <;> grind [State.Keeps.dispatchOne]
/-- Saved tasks changed beside their scratchpads stay canonical. -/
theorem forall_saved_map {l : List SavedTask} {f : SavedTask → SavedTask} (hf : ∀ v, (f v).core.sp = v.core.sp) (h : ∀ v ∈ l, Memory.wf v.core.sp = true) :
    ∀ v ∈ l.map f, Memory.wf v.core.sp = true := by
  intro v hv
  obtain ⟨u, hu, rfl⟩ := List.mem_map.1 hv
  rw [hf]
  exact h u hu
theorem State.Keeps.killContext {s : State} (h : b₀.Keeps s) (id : BitVec 16) (reason : Nat) (cause : BitVec 8) (who : CoreId) (pc : W32) (addr : W64) (code : W64) :
    b₀.Keeps (State.killContext s id reason cause who pc addr code) := by
  unfold State.killContext
  split
  · exact h
  · split
    · exact h
    · refine State.Keeps.remake (s := s.modCtx id _) (h.modCtx _ _) (fun hw => hw) (fun hw => hw) (fun hw => hw) (fun c hw => ?_) (forall_saved_map fun v => ?_)
      · rw [Vector.getElem_map]
        split <;> exact hw
      · split <;> rfl
theorem State.Keeps.completeLong {s : State} (h : b₀.Keeps s) (c : CoreId) (l : Long) :
    b₀.Keeps (State.completeLong s c l) := by
  unfold State.completeLong
  grind [State.Keeps.complete, State.Keeps.addFlags, State.Keeps.modPipeOf, State.Keeps.waitDone, State.Keeps.readWord, State.Keeps.beside]
theorem State.Keeps.readVa {s : State} (h : b₀.Keeps s) (c : CoreId) (lt : Nat) (a : W64) (n : Nat) (x0 : Nat) :
    b₀.Keeps (State.readVa s c lt a n x0).2 := by
  fun_induction State.readVa s c lt a n x0 <;> grind [State.Keeps.locate, State.Keeps.loadAt]
theorem State.Keeps.forWrite {s : State} (h : b₀.Keeps s) (l : Loc) :
    b₀.Keeps (State.forWrite s l).2 := by
  unfold State.forWrite
  grind [State.Keeps.finishSwitches]
theorem State.Keeps.writeVa {s : State} (h : b₀.Keeps s) (c : CoreId) (lt : Nat) (a : W64) (bs : List Byte) (bad : Bool) (x0 : Nat) :
    b₀.Keeps (State.writeVa s c lt a bs bad x0).2 := by
  fun_induction State.writeVa s c lt a bs bad x0 <;> grind [State.Keeps.locate, State.Keeps.forWrite, State.Keeps.storeAt]
theorem State.Keeps.completeSvc {s : State} (h : b₀.Keeps s) (c : CoreId) :
    b₀.Keeps (State.completeSvc s c) := by
  unfold State.completeSvc
  grind [State.Keeps.service, State.Keeps.complete, State.Keeps.modPipeOf, State.Keeps.beside]
theorem State.Keeps.drainLongs {s : State} (h : b₀.Keeps s) (c : CoreId) :
    b₀.Keeps (State.drainLongs s c) := by
  unfold State.drainLongs
  grind [State.Keeps.settleSome, State.Keeps.completeLong, State.Keeps.modPipeOf, State.Keeps.completeSvc, State.Keeps.foldl, State.Keeps.foldl_snd, State.Keeps.beside]
theorem State.Keeps.takeTrap {s : State} (h : b₀.Keeps s) (slot : Nat) (group : Nat) (cause : BitVec 8) (addr : W64) (issued : Bool) :
    b₀.Keeps (State.takeTrap s slot group cause addr issued) := by
  unfold State.takeTrap
  extract_lets c s1 s2 tp s3
  have h1 : b₀.Keeps s1 := h.modPipe _
  have h2 : b₀.Keeps s2 := by
    unfold s2
    split
    · exact h1.modPipe _
    · exact h1
  have h3 : b₀.Keeps s3 := by
    unfold s3
    split
    · exact h2.dispatchTo _ _ _
    · exact h2
  clear_value s1 s2 s3
  split
  rename_i tl s4 _ _ _ _
  have h4 : b₀.Keeps s4 := ((h3.modMe (by simp)).modPipe _).drainLongs _
  clear_value s4
  grind [State.Keeps.killContext, State.Keeps.setDisp, State.Keeps.modPipe]
theorem State.Keeps.trapAt {s : State} (h : b₀.Keeps s) (slot : Slot) (cause : BitVec 8) (addr : W64) :
    b₀.Keeps (State.trapAt s slot cause addr) := by
  unfold State.trapAt
  grind [State.Keeps.takeTrap]
theorem State.Keeps.trapIssued {s : State} (h : b₀.Keeps s) (slot : Slot) (cause : BitVec 8) (addr : W64) :
    b₀.Keeps (State.trapIssued s slot cause addr) := by
  unfold State.trapIssued
  grind [State.Keeps.setDisp, State.Keeps.takeTrap]
theorem State.Keeps.unwind {s : State} (h : b₀.Keeps s) (addr : W64) (r : Region) (rest : List Region) :
    b₀.Keeps (State.unwind s addr r rest) := by
  unfold State.unwind
  extract_lets c depth s1 dsels s2 p all s3 kill engc s4 matc s5 crgnc
  have h1 : b₀.Keeps s1 := (h.modMe (by simp)).modPipe _
  have h3 : b₀.Keeps s3 := (h1.settle _).modPipe _
  have hk (u : KUnit) (t : State) (ht : b₀.Keeps t) : b₀.Keeps (kill u t) := State.Keeps.foldl (fun s e hs => hs.engineEnd _ _ _ _) ht _
  have h4 : b₀.Keeps s4 := hk _ _ (hk _ _ h3)
  exact ((h4.modMx _).modPipe _).setDisp _
theorem State.Keeps.consume {s : State} (h : b₀.Keeps s) (slot : Slot) (addr : W64) :
    b₀.Keeps (State.consume s slot addr) := by
  unfold State.consume
  grind [State.Keeps.trapAt, State.Keeps.unwind]
theorem State.Keeps.needClean {s : State} (h : b₀.Keeps s) (slot : Slot) (bad : Bool) (sel : W64) (act : State → State) (hact : ∀ (y0 : State), b₀.Keeps y0 → b₀.Keeps (act y0)) :
    b₀.Keeps (State.needClean s slot bad sel act) := by
  unfold State.needClean
  grind [State.Keeps.consume]
theorem State.Keeps.matrixGate {s : State} (h : b₀.Keeps s) (mstat : Bool) (act : State → State) (hact : ∀ (y0 : State), b₀.Keeps y0 → b₀.Keeps (act y0)) :
    b₀.Keeps (State.matrixGate s mstat act) := by
  unfold State.matrixGate
  grind [State.Keeps.modMx, State.Keeps.consume, State.Keeps.trapAt, State.Keeps.beside]
theorem State.Keeps.issueMove {s : State} (h : b₀.Keeps s) (slot : Slot) (g : BitVec 4) (e : Bool) (f : BitVec 10) (mstat : Bool) (act : Val → State → State) (hact : ∀ (y0 : Val) (y1 : State), b₀.Keeps y1 → b₀.Keeps (act y0 y1)) :
    b₀.Keeps (State.issueMove s slot g e f mstat act) := by
  unfold State.issueMove
  grind [State.Keeps.trapAt, State.Keeps.issued, State.Keeps.hold, State.Keeps.matrixGate]
theorem State.Keeps.locating {s : State} (h : b₀.Keeps s) (slot : Slot) (a : W64) (n : Nat) (acc : Access) (act : Loc → State → State) (hact : ∀ (y0 : Loc) (y1 : State), b₀.Keeps y1 → b₀.Keeps (act y0 y1)) :
    b₀.Keeps (State.locating s slot a n acc act) := by
  unfold State.locating
  grind [State.Keeps.trapAt, State.Keeps.locate]
theorem State.Keeps.needD {s : State} (h : b₀.Keeps s) (slot : Slot) (act : BitVec 10 → State → State) (hact : ∀ (y0 : BitVec 10) (y1 : State), b₀.Keeps y1 → b₀.Keeps (act y0 y1)) :
    b₀.Keeps (State.needD s slot act) := by
  unfold State.needD
  grind [State.Keeps.consume, State.Keeps.trapAt]

end
end Sys2Proof.Machine
end

section
/-! PROOFS. `State.Keeps`: what issue, launch, placement and tensor walks keep. -/
namespace Sys2Proof.Machine
set_option Elab.async false
section
variable {b₀ : State}

/-- The moves of a bundle that ran keep it, or what stopped them does. -/
def Moved.Keeps (b₀ : State) : Except Out (State × Went) → Prop
  | .ok x => b₀.Keeps x.1
  | .error o => Out.Keeps b₀ o

theorem out_bind_keeps (o : Out) (f : State → Out) (ho : Out.Keeps b₀ (o)) (hf : ∀ (y0 : State), b₀.Keeps y0 → Out.Keeps b₀ (f y0)) :
    Out.Keeps b₀ (Out.bind o f) := by
  unfold Out.bind
  grind [Out.keeps_next,Out.keeps_fault,Out.keeps_refused]
theorem landing_take_keeps {s : State} (h : b₀.Keeps s) (l : Landing) :
    b₀.Keeps (Landing.take l s) := by
  unfold Landing.take
  grind [State.Keeps.consume, State.Keeps.trapAt]
theorem State.Keeps.atSlot {s : State} (h : b₀.Keeps s) (sl : Slot) :
    b₀.Keeps (State.atSlot s sl) := by
  unfold State.atSlot
  grind [State.Keeps.modPipe, State.Keeps.beside]
theorem State.Keeps.refault {s0 t u : State} (h : b₀.Keeps s0) (ht : b₀.Keeps t) (hu : b₀.Keeps u) :
    b₀.Keeps (State.refault s0 t u) := by
  unfold State.refault
  grind [State.Keeps.takeTrap]
theorem State.Keeps.steerDue {s : State} (h : b₀.Keeps s) (due : Option (Slot × BitVec 8 × W64)) :
    b₀.Keeps (State.steerDue s due) := by
  unfold State.steerDue
  grind [State.Keeps.modPipe, State.Keeps.takeTrap, State.Keeps.beside]
theorem State.Keeps.banksAs {s t : State} (h : b₀.Keeps s) (ht : b₀.Keeps t) :
    b₀.Keeps (State.banksAs s t) := by
  unfold State.banksAs
  refine h.remake id id id (fun c hw => ?_) id
  rw [Vector.getElem_zipWith]
  exact hw
theorem runMoves_keeps {s0 x2 : State} (h : b₀.Keeps s0) (hx2 : b₀.Keeps x2) (run : RunMove) (fin : State → State) (x0 : List (Slot × Parcel)) (x1 : Option (Slot × BitVec 8 × W64)) (hrun : ∀ (y0 : Slot) (y1 : Parcel) (y2 : State), b₀.Keeps y2 → Out.Keeps b₀ (run y0 y1 y2)) (hfin : ∀ (y0 : State), b₀.Keeps y0 → b₀.Keeps (fin y0)) :
    Moved.Keeps b₀ (runMoves run fin s0 x0 x1 x2) := by
  induction x0 generalizing x1 x2 with
  | nil => exact hx2
  | cons m r ih =>
    obtain ⟨sl, p⟩ := m
    have hr (s : State) (hs : b₀.Keeps s) : Out.Keeps b₀ (run sl p (s.atSlot sl)) := hrun sl p _ (hs.atSlot sl)
    have hx := hr x2 hx2
    have h0 := hr s0 h
    have hf := hr _ (hfin _ (hx2.atSlot sl))
    rw [runMoves]
    split
    · rename_i t ht
      rw [ht, Out.keeps_next] at hx
      split
      · exact ih hx _
      · exact ih hx _
      · split
        · rename_i u hu
          rw [hu, Out.keeps_next] at h0
          split
          · exact h0
          · split
            · rename_i t' ht'
              rw [ht', Out.keeps_next] at hf
              split
              · exact ih hf _
              · exact h.banksAs hf
            · exact hf
        · exact h0
      · split
        · rename_i u d hu
          have hu' := ih hx2 x1
          rw [hu] at hu'
          have hv := hr u hu'
          split
          · rename_i v hv'
            rw [hv', Out.keeps_next] at hv
            split
            · exact hv.steerDue _
            · exact hx.steerDue _
          · exact hv
        · exact ih hx2 _
      · split
        · exact hx2
        · split
          · rename_i u hu
            rw [hu, Out.keeps_next] at h0
            exact h.refault hx h0
          · exact h0
    · exact hx
theorem State.Keeps.readTimes {s : State} (h : b₀.Keeps s) (p : Pipe) (gs : List Nat) (d : Disp) :
    b₀.Keeps (State.readTimes s p gs d) := by
  unfold State.readTimes
  grind [State.Keeps.setLt, State.Keeps.foldl, State.Keeps.foldl_snd]
theorem State.Keeps.atBundle {s : State} (h : b₀.Keeps s) (i : Nat) (d : Disp) :
    b₀.Keeps (State.atBundle s i d) := by
  unfold State.atBundle
  grind [State.Keeps.modPipe, State.Keeps.beside]
theorem State.Keeps.raiseMeta {s : State} (h : b₀.Keeps s) (i : Nat) (d : Disp) :
    b₀.Keeps (State.raiseMeta s i d) := by
  unfold State.raiseMeta
  grind [State.Keeps.modMx, State.Keeps.atBundle, State.Keeps.consume, State.Keeps.trapAt, State.Keeps.beside]
theorem State.Keeps.raiseFp {s : State} (h : b₀.Keeps s) (u : Unit7) (i : Nat) (d : Disp) :
    b₀.Keeps (State.raiseFp s u i d) := by
  unfold State.raiseFp
  grind [State.Keeps.atBundle, State.Keeps.modPipe, State.Keeps.trapAt, State.Keeps.beside]
/-- Of two faults the lower one keeps it. -/
theorem lowerFault_keeps {x y : Option (Slot × State)} (hx : ∀ z, x = some z → b₀.Keeps z.2) (hy : ∀ z, y = some z → b₀.Keeps z.2) :
    ∀ z, lowerFault x y = some z → b₀.Keeps z.2 := by
  unfold lowerFault
  grind
theorem State.Keeps.dueFault {s s0 : State} (h : b₀.Keeps s) (hs0 : b₀.Keeps s0) (l : Landing) (gs : List Nat) (i : Nat) (d : Disp) :
    ∀ x t, State.dueFault s s0 l gs i d = some (x, t) → b₀.Keeps t := by
  intro x t e
  refine lowerFault_keeps (lowerFault_keeps (fun z hz => ?_) fun z hz => ?_) (fun z hz => ?_) (x, t) e
  · split at hz
    · obtain ⟨u, -, rfl⟩ := Option.map_eq_some_iff.1 hz
      exact h.raiseFp _ _ _
    · cases hz
  · obtain ⟨u, -, rfl⟩ := Option.map_eq_some_iff.1 hz
    exact landing_take_keeps hs0 _
  · split at hz
    · cases hz
      exact h.raiseMeta _ _
    · cases hz
theorem State.Keeps.issueMoves {s s0 : State} (h : b₀.Keeps s) (hs0 : b₀.Keeps s0) (part : Slot → Slot → Out) (run : RunMove) (fin : State → State) (gs : List Nat) (i : Nat) (d : Disp) (hpart : ∀ (y0 : Slot) (y1 : Slot), Out.Keeps b₀ (part y0 y1)) (hrun : ∀ (y0 : Slot) (y1 : Parcel) (y2 : State), b₀.Keeps y2 → Out.Keeps b₀ (run y0 y1 y2)) (hfin : ∀ (y0 : State), b₀.Keeps y0 → b₀.Keeps (fin y0)) :
    Out.Keeps b₀ (State.issueMoves part run fin gs i d s s0) := by
  unfold State.issueMoves
  have hm := runMoves_keeps hs0 hs0 run fin (d.moves.filter fun m => gs.contains m.1.gix) none hrun hfin
  extract_lets p0 moves
  generalize runMoves run fin s0 moves none s0 = x at hm ⊢
  grind [State.Keeps.modPipe, State.Keeps.issued, State.Keeps.unrefuse, State.Keeps.trapIssued, State.Keeps.beside, Out.keeps_next, Moved.Keeps]
theorem State.Keeps.issuePart {s : State} (h : b₀.Keeps s) (again : List Nat → Disp → Out) (run : RunMove) (fin : State → State) (gs : List Nat) (i : Nat) (d : Disp) (hagain : ∀ (y0 : List Nat) (y1 : Disp), Out.Keeps b₀ (again y0 y1)) (hrun : ∀ (y0 : Slot) (y1 : Parcel) (y2 : State), b₀.Keeps y2 → Out.Keeps b₀ (run y0 y1 y2)) (hfin : ∀ (y0 : State), b₀.Keeps y0 → b₀.Keeps (fin y0)) :
    Out.Keeps b₀ (State.issuePart again run fin gs i d s) := by
  unfold State.issuePart
  extract_lets start moves part
  have hstart (gs : List Nat) : b₀.Keeps (start gs).1 := (h.modPipe _).readTimes _ _ _
  have h0 := hstart gs
  generalize start gs = q at h0 ⊢
  obtain ⟨s0, l⟩ := q
  dsimp only at h0 ⊢
  have hpart (x sl : Slot) : Out.Keeps b₀ (part x sl) := hagain _ _
  split
  · rename_i sl own hown
    have ho := h.dueFault h0 l gs i d _ _ hown
    have hm := runMoves_keeps h0 h0 run fin (moves.filter fun m => m.1.index < sl.index) none hrun hfin
    generalize runMoves run fin s0 (moves.filter fun m => m.1.index < sl.index) none s0 = x at hm ⊢
    split
    · exact hpart _ _
    · split
      · exact h.issueMoves (hstart _) part run fin _ i d hpart hrun hfin
      · exact hpart _ _
    · rw [Out.keeps_next]
      split
      · exact State.Keeps.modPipe hm _
      · exact ho
    · exact hm
  · exact h.issueMoves h0 part run fin gs i d hpart hrun hfin
theorem State.Keeps.issueGroups {s : State} (h : b₀.Keeps s) (run : RunMove) (fin : State → State) (gs : List Nat) (i : Nat) (d : Disp) (hrun : ∀ (y0 : Slot) (y1 : Parcel) (y2 : State), b₀.Keeps y2 → Out.Keeps b₀ (run y0 y1 y2)) (hfin : ∀ (y0 : State), b₀.Keeps y0 → b₀.Keeps (fin y0)) :
    Out.Keeps b₀ (State.issueGroups run fin gs i d s) := by
  exact h.issuePart _ run fin gs i d (fun gs d => h.issuePart _ run fin gs i d (fun _ _ => h) hrun hfin) hrun hfin
theorem State.Keeps.tryBundle {s : State} (h : b₀.Keeps s) (run : RunMove) (fin : State → State) (g : Nat) (hrun : ∀ (y0 : Slot) (y1 : Parcel) (y2 : State), b₀.Keeps y2 → Out.Keeps b₀ (run y0 y1 y2)) (hfin : ∀ (y0 : State), b₀.Keeps y0 → b₀.Keeps (fin y0)) :
    Out.Keeps b₀ (State.tryBundle run fin g s) := by
  unfold State.tryBundle
  extract_lets fp free i u
  have hu : b₀.Keeps u := h.dispatchTo _ _ _
  have hg := fun gs d => hu.issueGroups run fin gs i d hrun hfin
  clear_value u
  grind [State.Keeps.atBundle, State.Keeps.takeTrap, State.Keeps.raiseFp, State.Keeps.raiseMeta, Out.keeps_next]
theorem State.Keeps.wakeUnwinds {s : State} (h : b₀.Keeps s) :
    b₀.Keeps (State.wakeUnwinds s) := by
  unfold State.wakeUnwinds
  grind [State.Keeps.wakeEnd, State.Keeps.foldl, State.Keeps.foldl_snd]
theorem State.Keeps.tryGroup {s : State} (h : b₀.Keeps s) (run : RunMove) (fin : State → State) (g : Nat) (hrun : ∀ (y0 : Slot) (y1 : Parcel) (y2 : State), b₀.Keeps y2 → Out.Keeps b₀ (run y0 y1 y2)) (hfin : ∀ (y0 : State), b₀.Keeps y0 → b₀.Keeps (fin y0)) :
    Out.Keeps b₀ (State.tryGroup run fin g s) := by
  unfold State.tryGroup
  refine out_bind_keeps _ _ (h.tryBundle run fin g hrun hfin) fun t ht => ?_
  split
  · exact ht
  · extract_lets u
    have hu : b₀.Keeps u := (hfin _ (h.modMe (by simp))).modMe (by simp)
    split
    · rw [Out.keeps_next]
      split
      · exact hu.wakeUnwinds.hold _
      · exact hu.hold _
    · exact hu.tryBundle run fin g hrun hfin
theorem State.Keeps.firstFault {s t : State} (h : b₀.Keeps s) (ht : b₀.Keeps t) (run : RunMove) (fin : State → State) (gs : BitVec 4) (g : Nat) (x0 : List Nat) (hrun : ∀ (y0 : Slot) (y1 : Parcel) (y2 : State), b₀.Keeps y2 → Out.Keeps b₀ (run y0 y1 y2)) (hfin : ∀ (y0 : State), b₀.Keeps y0 → b₀.Keeps (fin y0)) :
    b₀.Keeps (State.firstFault s t run fin gs g x0) := by
  induction x0 generalizing t g with
  | nil => exact ht
  | cons k r ih =>
    rw [State.firstFault]
    split
    · have hu := h.tryGroup run fin k hrun hfin
      split
      · rename_i u he
        rw [he, Out.keeps_next] at hu
        split
        · exact ih hu _
        · exact ih ht _
      · exact ih ht _
    · exact ih ht _
theorem State.Keeps.cycleGroups {x1 : State} (h : b₀.Keeps x1) (run : RunMove) (fin : State → State) (gs : BitVec 4) (x0 : List Nat) (hrun : ∀ (y0 : Slot) (y1 : Parcel) (y2 : State), b₀.Keeps y2 → Out.Keeps b₀ (run y0 y1 y2)) (hfin : ∀ (y0 : State), b₀.Keeps y0 → b₀.Keeps (fin y0)) :
    Out.Keeps b₀ (State.cycleGroups run fin gs x0 x1) := by
  induction x0 generalizing gs x1 with
  | nil => exact h
  | cons g r ih =>
    rw [State.cycleGroups]
    split
    · exact ih h _
    · refine out_bind_keeps _ _ (h.tryGroup run fin g hrun hfin) fun t ht => ?_
      split
      · exact ih ht _
      · exact ih ht _
      · rw [Out.keeps_next]
        split
        · exact h.firstFault ht run fin gs g r hrun hfin
        · exact ht
theorem State.Keeps.queueJob {s : State} (h : b₀.Keeps s) (ctx : BitVec 16) (b : List Byte) (lt : Nat) :
    b₀.Keeps (State.queueJob s ctx b lt).2 := by
  unfold State.queueJob
  grind [State.Keeps.beside]
theorem State.Keeps.modJob {s : State} (h : b₀.Keeps s) (n : Nat) (f : Job → Job) :
    b₀.Keeps (State.modJob s n f) := by
  unfold State.modJob
  grind [State.Keeps.beside]
theorem State.Keeps.countCard {s : State} (h : b₀.Keeps s) (c : CoreId) (j : Job) (bad : Bool) :
    b₀.Keeps (State.countCard s c j bad) := by
  unfold State.countCard
  grind [State.Keeps.syncErr, State.Keeps.syncArrive]
theorem State.Keeps.endArrivals {s : State} (h : b₀.Keeps s) (c : CoreId) :
    b₀.Keeps (State.endArrivals s c) := by
  unfold State.endArrivals
  grind [State.Keeps.wakeBanks, State.Keeps.mergeClasses, State.Keeps.countCard, State.Keeps.modJob, State.Keeps.syncArrive, State.Keeps.setLt, State.Keeps.modCore, State.Keeps.foldl, State.Keeps.foldl_snd, State.Keeps.beside]
theorem State.Keeps.endOwed {s : State} (h : b₀.Keeps s) :
    b₀.Keeps (State.endOwed s) := by
  unfold State.endOwed
  grind [State.Keeps.endArrivals, State.Keeps.foldl, State.Keeps.foldl_snd]
theorem State.Keeps.endTask {s : State} (h : b₀.Keeps s) (c : CoreId) :
    b₀.Keeps (State.endTask s c) := by
  unfold State.endTask
  grind [State.Keeps.modCore, State.Keeps.settle, State.Keeps.modCtx, State.Keeps.endArrivals, State.Keeps.beside, Core.sp_unplace, Core.sp_recordWaits]
theorem State.Keeps.readRecord {s : State} (h : b₀.Keeps s) (slot : Slot) (a : W64) (n : Nat) (act : List Byte → State → State) (hact : ∀ (y0 : List Byte) (y1 : State), b₀.Keeps y1 → b₀.Keeps (act y0 y1)) :
    b₀.Keeps (State.readRecord s slot a n act) := by
  unfold State.readRecord
  grind [State.Keeps.hold, State.Keeps.wakeBanks, State.Keeps.readVa, State.Keeps.trapAt, State.Keeps.setLt, State.Keeps.needClean]
theorem State.Keeps.readMap {s : State} (h : b₀.Keeps s) (slot : Slot) (a : W64) (mis : BitVec 8) (act : TMap → State → State) (hact : ∀ (y0 : TMap) (y1 : State), b₀.Keeps y1 → b₀.Keeps (act y0 y1)) :
    b₀.Keeps (State.readMap s slot a mis act) := by
  unfold State.readMap
  grind [State.Keeps.trapAt, State.Keeps.readRecord]

end
end Sys2Proof.Machine
end

section
/-! PROOFS. `State.Keeps`: what the control and array operations keep. -/
namespace Sys2Proof.Machine
set_option Elab.async false
section
variable {b₀ : State}

theorem execMove_keeps {s : State} (h : b₀.Keeps s) (slot : Slot) (g : BitVec 4) (d : BitVec 9) (e : Bool) (f : BitVec 10) :
    Out.Keeps b₀ (execMove slot g d e f s) := by
  unfold execMove
  grind [State.Keeps.issueMove, State.Keeps.trapAt, State.Keeps.needClean, State.Keeps.regWrite, State.Keeps.issued, State.Keeps.modPipe, State.Keeps.beside, Out.keeps_next, Out.keeps_fault, Out.keeps_refused]
theorem controlOp_keeps {s : State} (h : b₀.Keeps s) (g : BitVec 4) (e : Bool) (f : BitVec 10) (act : SVal → State → State) (hact : ∀ (y0 : SVal) (y1 : State), b₀.Keeps y1 → b₀.Keeps (act y0 y1)) :
    Out.Keeps b₀ (controlOp g e f act s) := by
  unfold controlOp
  grind [State.Keeps.issueMove, Out.keeps_next, Out.keeps_fault, Out.keeps_refused]
theorem controlClean_keeps {s : State} (h : b₀.Keeps s) (g : BitVec 4) (e : Bool) (f : BitVec 10) (act : W64 → State → State) (hact : ∀ (y0 : W64) (y1 : State), b₀.Keeps y1 → b₀.Keeps (act y0 y1)) :
    Out.Keeps b₀ (controlClean g e f act s) := by
  unfold controlClean
  grind [State.Keeps.issueMove, State.Keeps.needClean, Out.keeps_next, Out.keeps_fault, Out.keeps_refused]
theorem State.Keeps.steer {s : State} (h : b₀.Keeps s) (target : W32) :
    b₀.Keeps (State.steer s target) := by
  unfold State.steer
  grind [State.Keeps.modPipe, State.Keeps.issued, State.Keeps.beside]
theorem State.Keeps.linkAddr {s : State} (h : b₀.Keeps s) :
    b₀.Keeps (State.linkAddr s).2 := by
  unfold State.linkAddr
  grind [State.Keeps.dispatchTo, State.Keeps.drawFree]
theorem execBr_keeps {s : State} (h : b₀.Keeps s) (g : BitVec 4) (e : Bool) (f : BitVec 10) :
    Out.Keeps b₀ (execBr g e f s) := by
  unfold execBr
  grind [controlClean_keeps, State.Keeps.steer]
theorem execBri_keeps {s : State} (h : b₀.Keeps s) (g : BitVec 4) (e : Bool) (f : BitVec 10) :
    Out.Keeps b₀ (execBri g e f s) := by
  unfold execBri
  grind [controlClean_keeps, State.Keeps.steer]
theorem State.Keeps.callTo {s : State} (h : b₀.Keeps s) (target : W32) :
    b₀.Keeps (State.callTo s target) := by
  unfold State.callTo
  grind [State.Keeps.linkAddr, State.Keeps.regWrite, State.Keeps.steer]
theorem execCall_keeps {s : State} (h : b₀.Keeps s) (g : BitVec 4) (e : Bool) (f : BitVec 10) :
    Out.Keeps b₀ (execCall g e f s) := by
  unfold execCall
  grind [controlClean_keeps, State.Keeps.callTo]
theorem execCalli_keeps {s : State} (h : b₀.Keeps s) (g : BitVec 4) (e : Bool) (f : BitVec 10) :
    Out.Keeps b₀ (execCalli g e f s) := by
  unfold execCalli
  grind [controlClean_keeps, State.Keeps.callTo]
theorem execRet_keeps {s : State} (h : b₀.Keeps s) (g : BitVec 4) (e : Bool) (f : BitVec 10) :
    Out.Keeps b₀ (execRet g e f s) := by
  unfold execRet
  grind [controlOp_keeps, State.Keeps.hold, State.Keeps.needClean, State.Keeps.steer]
theorem execLoop_keeps {s : State} (h : b₀.Keeps s) (g : BitVec 4) (n : BitVec 1) (e : Bool) (f : BitVec 10) :
    Out.Keeps b₀ (execLoop g n e f s) := by
  unfold execLoop
  grind [controlClean_keeps, State.Keeps.modPipe, State.Keeps.issued, State.Keeps.beside, Out.keeps_next, Out.keeps_fault, Out.keeps_refused]
theorem execEndl_keeps {s : State} (h : b₀.Keeps s) (g : BitVec 4) (n : BitVec 1) (e : Bool) (f : BitVec 10) :
    Out.Keeps b₀ (execEndl g n e f s) := by
  unfold execEndl
  grind [controlOp_keeps, State.Keeps.modPipe, State.Keeps.steer, State.Keeps.issued, State.Keeps.beside]
theorem execSetf_keeps {s : State} (h : b₀.Keeps s) (g : BitVec 4) (n : BitVec 3) (e : Bool) (f : BitVec 10) :
    Out.Keeps b₀ (execSetf g n e f s) := by
  unfold execSetf
  grind [controlClean_keeps, State.Keeps.writeShadowed, State.Keeps.issued, State.Keeps.trapAt]
theorem State.Keeps.writeRmode {s : State} (h : b₀.Keeps s) (v : W64) :
    b₀.Keeps (State.writeRmode s v) := by
  unfold State.writeRmode
  grind [State.Keeps.writeShadowed]
theorem execSetrm_keeps {s : State} (h : b₀.Keeps s) (g : BitVec 4) (e : Bool) (f : BitVec 10) :
    Out.Keeps b₀ (execSetrm g e f s) := by
  unfold execSetrm
  grind [controlClean_keeps, State.Keeps.writeRmode, State.Keeps.issued]
theorem execSrrd_keeps {s : State} (h : b₀.Keeps s) (g : BitVec 4) (e : Bool) (f : BitVec 10) :
    Out.Keeps b₀ (execSrrd g e f s) := by
  unfold execSrrd
  grind [controlClean_keeps, State.Keeps.short, State.Keeps.trapAt]
theorem execSrwr_keeps {s : State} (h : b₀.Keeps s) (g : BitVec 4) (e : Bool) (f : BitVec 10) :
    Out.Keeps b₀ (execSrwr g e f s) := by
  unfold execSrwr
  grind [controlClean_keeps, State.Keeps.needClean, State.Keeps.writeRmode, State.Keeps.issued, State.Keeps.regWrite, State.Keeps.trapAt]
theorem execFenceAcq_keeps {s : State} (h : b₀.Keeps s) (g : BitVec 4) (scope : BitVec 2) (e : Bool) (f : BitVec 10) :
    Out.Keeps b₀ (execFenceAcq g scope e f s) := by
  unfold execFenceAcq
  grind [controlOp_keeps, State.Keeps.hold, State.Keeps.mergeClasses, State.Keeps.acquireAction, State.Keeps.issued]
theorem execFenceRel_keeps {s : State} (h : b₀.Keeps s) (g : BitVec 4) (_scope : BitVec 2) (e : Bool) (f : BitVec 10) :
    Out.Keeps b₀ (execFenceRel g _scope e f s) := by
  unfold execFenceRel
  grind [controlOp_keeps, State.Keeps.hold, State.Keeps.mergeClasses, State.Keeps.issued]
theorem execFenceAr_keeps {s : State} (h : b₀.Keeps s) (g : BitVec 4) (scope : BitVec 2) (e : Bool) (f : BitVec 10) :
    Out.Keeps b₀ (execFenceAr g scope e f s) := by
  unfold execFenceAr
  grind [controlOp_keeps, State.Keeps.hold, State.Keeps.mergeClasses, State.Keeps.acquireAction, State.Keeps.issued]
theorem execXfence_keeps {s : State} (h : b₀.Keeps s) (g : BitVec 4) (e : Bool) (f : BitVec 10) :
    Out.Keeps b₀ (execXfence g e f s) := by
  unfold execXfence
  grind [controlOp_keeps, State.Keeps.hold, State.Keeps.issued]
theorem execPbar_keeps {s : State} (h : b₀.Keeps s) (g : BitVec 4) (e : Bool) (f : BitVec 10) :
    Out.Keeps b₀ (execPbar g e f s) := by
  unfold execPbar
  grind [controlOp_keeps, State.Keeps.hold, State.Keeps.mergeClasses, State.Keeps.issued, State.Keeps.writeBack, State.Keeps.trackersClean, State.Keeps.foldl, State.Keeps.foldl_snd]
theorem State.Keeps.bankOpen {s : State} (h : b₀.Keeps s) (h : CoreId) (off : Nat) (n : Nat) (act : State → State) (hact : ∀ (y0 : State), b₀.Keeps y0 → b₀.Keeps (act y0)) :
    b₀.Keeps (State.bankOpen s h off n act) := by
  unfold State.bankOpen
  grind [State.Keeps.wakeBanks, State.Keeps.hold]
theorem State.Keeps.syncTarget {s : State} (h : b₀.Keeps s) (slot : Slot) (a : W64) (act : CoreId → Nat → State → State) (hact : ∀ (y0 : CoreId) (y1 : Nat) (y2 : State), b₀.Keeps y2 → b₀.Keeps (act y0 y1 y2)) :
    b₀.Keeps (State.syncTarget s slot a act) := by
  unfold State.syncTarget
  grind [State.Keeps.trapAt]
theorem State.Keeps.syncUse {s : State} (h : b₀.Keeps s) (slot : Slot) (a : W64) (h : CoreId) (off : Nat) (act : State → State) (hact : ∀ (y0 : State), b₀.Keeps y0 → b₀.Keeps (act y0)) :
    b₀.Keeps (State.syncUse s slot a h off act) := by
  unfold State.syncUse
  grind [State.Keeps.needClean, State.Keeps.trapAt]
theorem barrierOp_keeps {s : State} (h : b₀.Keeps s) (g : BitVec 4) (e : Bool) (f : BitVec 10) (needsD : Bool) (act : W32 → BitVec 10 → CoreId → Nat → State → State) (hact : ∀ (y0 : W32) (y1 : BitVec 10) (y2 : CoreId) (y3 : Nat) (y4 : State), b₀.Keeps y4 → b₀.Keeps (act y0 y1 y2 y3 y4)) :
    Out.Keeps b₀ (barrierOp g e f needsD act s) := by
  unfold barrierOp
  grind [State.Keeps.issueMove, State.Keeps.needClean, State.Keeps.syncTarget, State.Keeps.bankOpen, State.Keeps.syncUse, State.Keeps.trapAt, State.Keeps.needD, Out.keeps_next, Out.keeps_fault, Out.keeps_refused]
theorem execBara_keeps {s : State} (h : b₀.Keeps s) (g : BitVec 4) (e : Bool) (f : BitVec 10) :
    Out.Keeps b₀ (execBara g e f s) := by
  unfold execBara
  grind [barrierOp_keeps, State.Keeps.hold, State.Keeps.mergeClasses, State.Keeps.syncArrive, State.Keeps.setLt, State.Keeps.issued]
theorem execBaraRlx_keeps {s : State} (h : b₀.Keeps s) (g : BitVec 4) (e : Bool) (f : BitVec 10) :
    Out.Keeps b₀ (execBaraRlx g e f s) := by
  unfold execBaraRlx
  grind [barrierOp_keeps, State.Keeps.syncArrive, State.Keeps.setLt, State.Keeps.issued]
theorem execBarw_keeps {s : State} (h : b₀.Keeps s) (g : BitVec 4) (e : Bool) (f : BitVec 10) :
    Out.Keeps b₀ (execBarw g e f s) := by
  unfold execBarw
  grind [barrierOp_keeps, State.Keeps.hold, State.Keeps.waitDone, State.Keeps.issued]
theorem execBart_keeps {s : State} (h : b₀.Keeps s) (g : BitVec 4) (e : Bool) (f : BitVec 10) :
    Out.Keeps b₀ (execBart g e f s) := by
  unfold execBart
  grind [barrierOp_keeps, State.Keeps.modPipe, State.Keeps.regWrite, State.Keeps.issued, State.Keeps.beside]
theorem State.Keeps.ownRange {s : State} (h : b₀.Keeps s) (slot : Slot) (a : W64) (align : Nat) (n : Nat) (act : Nat → State → State) (hact : ∀ (y0 : Nat) (y1 : State), b₀.Keeps y1 → b₀.Keeps (act y0 y1)) :
    b₀.Keeps (State.ownRange s slot a align n act) := by
  unfold State.ownRange
  grind [State.Keeps.trapAt]
theorem State.Keeps.ownReady {s : State} (h : b₀.Keeps s) (off : Nat) (n : Nat) (act : State → State) (hact : ∀ (y0 : State), b₀.Keeps y0 → b₀.Keeps (act y0)) :
    b₀.Keeps (State.ownReady s off n act) := by
  unfold State.ownReady
  grind [State.Keeps.hold, State.Keeps.wakeBanks]
theorem execFork_keeps {s : State} (h : b₀.Keeps s) (g : BitVec 4) (e : Bool) (f : BitVec 10) :
    Out.Keeps b₀ (execFork g e f s) := by
  unfold execFork
  grind [controlClean_keeps, State.Keeps.ownRange, State.Keeps.needD, State.Keeps.ownReady, State.Keeps.loadAt, State.Keeps.setLt, State.Keeps.needClean, State.Keeps.trapAt, State.Keeps.accept, State.Keeps.modMe, State.Keeps.beside]
theorem execJoin_keeps {s : State} (h : b₀.Keeps s) (g : BitVec 4) (e : Bool) (f : BitVec 10) :
    Out.Keeps b₀ (execJoin g e f s) := by
  unfold execJoin
  grind [controlClean_keeps, State.Keeps.syncTarget, State.Keeps.bankOpen, State.Keeps.needClean, State.Keeps.trapAt, State.Keeps.hold, State.Keeps.waitDone, State.Keeps.issued]
theorem execYield_keeps {s : State} (h : b₀.Keeps s) (g : BitVec 4) (e : Bool) (f : BitVec 10) :
    Out.Keeps b₀ (execYield g e f s) := by
  unfold execYield
  grind [controlOp_keeps, State.Keeps.modJob, State.Keeps.issued, State.Keeps.beside]
theorem State.Keeps.matrixPending {s : State} (h : b₀.Keeps s) :
    ∀ x y t, State.matrixPending s = some (x, y, t) → b₀.Keeps t := by
  unfold State.matrixPending
  grind [State.Keeps.modMx, State.Keeps.beside]
theorem State.Keeps.endCause {s : State} (h : b₀.Keeps s) (cause : BitVec 8) (a : W64) :
    b₀.Keeps (State.endCause s cause a) := by
  unfold State.endCause
  grind [State.Keeps.unwind, State.Keeps.takeTrap]
theorem execEndTask_keeps {s : State} (h : b₀.Keeps s) (g : BitVec 4) (e : Bool) (f : BitVec 10) :
    Out.Keeps b₀ (execEndTask g e f s) := by
  unfold execEndTask
  grind [controlOp_keeps, State.Keeps.matrixPending, State.Keeps.endCause, State.Keeps.endTask]
theorem execTickw_keeps {s : State} (h : b₀.Keeps s) (g : BitVec 4) (e : Bool) (f : BitVec 10) :
    Out.Keeps b₀ (execTickw g e f s) := by
  unfold execTickw
  grind [controlClean_keeps, State.Keeps.trapAt, State.Keeps.unrefuse, State.Keeps.issued, State.Keeps.hold]
theorem State.Keeps.recordOpen {s : State} (h : b₀.Keeps s) (l : Loc) (act : State → State) (hact : ∀ (y0 : State), b₀.Keeps y0 → b₀.Keeps (act y0)) :
    b₀.Keeps (State.recordOpen s l act) := by
  unfold State.recordOpen
  grind [State.Keeps.bankOpen]
theorem execLaunch_keeps {s : State} (h : b₀.Keeps s) (g : BitVec 4) (e : Bool) (f : BitVec 10) :
    Out.Keeps b₀ (execLaunch g e f s) := by
  unfold execLaunch
  refine controlClean_keeps h g e f _ fun a s hs => hs.needD _ _ fun d s hs => hs.locating _ _ _ _ _ fun l s hs => ?_
  grind [State.Keeps.hold, State.Keeps.recordOpen, State.Keeps.mergeClasses, State.Keeps.readVa, State.Keeps.trapAt, State.Keeps.setLt, State.Keeps.needClean, State.Keeps.accept,
    State.Keeps.queueJob]
theorem execTrap_keeps {s : State} (h : b₀.Keeps s) (g : BitVec 4) (e : Bool) (f : BitVec 10) :
    Out.Keeps b₀ (execTrap g e f s) := by
  unfold execTrap
  grind [controlClean_keeps, State.Keeps.trapIssued]
theorem execTret_keeps {s : State} (h : b₀.Keeps s) (g : BitVec 4) (e : Bool) (f : BitVec 10) :
    Out.Keeps b₀ (execTret g e f s) := by
  unfold execTret
  grind [controlOp_keeps, State.Keeps.trapAt, State.Keeps.modMe, State.Keeps.modPipe, State.Keeps.setDisp, Core.sp_unplace, Core.sp_reissue]
theorem execCrgnOpen_keeps {s : State} (h : b₀.Keeps s) (g : BitVec 4) (e : Bool) (f : BitVec 10) :
    Out.Keeps b₀ (execCrgnOpen g e f s) := by
  unfold execCrgnOpen
  grind [controlClean_keeps, State.Keeps.trapAt, State.Keeps.modPipe, State.Keeps.issued, State.Keeps.beside]
theorem execCrgnClose_keeps {s : State} (h : b₀.Keeps s) (g : BitVec 4) (e : Bool) (f : BitVec 10) :
    Out.Keeps b₀ (execCrgnClose g e f s) := by
  unfold execCrgnClose
  grind [controlOp_keeps, State.Keeps.trapAt, State.Keeps.modPipe, State.Keeps.issued, State.Keeps.beside]
theorem execSvc_keeps {s : State} (h : b₀.Keeps s) (g : BitVec 4) (e : Bool) (f : BitVec 10) :
    Out.Keeps b₀ (execSvc g e f s) := by
  unfold execSvc
  grind [controlOp_keeps, State.Keeps.needClean, State.Keeps.trapAt, State.Keeps.needD, State.Keeps.hold, State.Keeps.modPipe, State.Keeps.regWrite, State.Keeps.issued, State.Keeps.beside]
theorem execAbort_keeps {s : State} (h : b₀.Keeps s) (g : BitVec 4) (e : Bool) (f : BitVec 10) :
    Out.Keeps b₀ (execAbort g e f s) := by
  unfold execAbort
  grind [controlOp_keeps, State.Keeps.hold, State.Keeps.killContext, State.Keeps.setDisp]
theorem State.Keeps.modMxOf {s : State} (h : b₀.Keeps s) (c : CoreId) (f : Matrix → Matrix) :
    b₀.Keeps (State.modMxOf s c f) := by
  unfold State.modMxOf
  grind [State.Keeps.modCore, State.Keeps.beside]
theorem State.Keeps.modMembers {s : State} (h : b₀.Keeps s) (c : CoreId) (f : Matrix → Matrix) :
    b₀.Keeps (State.modMembers s c f) := by
  unfold State.modMembers
  grind [State.Keeps.modMxOf, State.Keeps.foldl, State.Keeps.foldl_snd]
theorem State.Keeps.metaWord {s : State} (h : b₀.Keeps s) (c : CoreId) (n : W32) :
    b₀.Keeps (State.metaWord s c n).2 := by
  unfold State.metaWord
  grind [State.Keeps.readVa]
theorem State.Keeps.push {s : State} (h : b₀.Keeps s) (c : CoreId) (t : TileSnap) (b : Bool) (wide : Bool) (ka : Nat) (kb : Nat) :
    b₀.Keeps (State.push s c t b wide ka kb).2 := by
  unfold State.push
  grind [State.Keeps.modMxOf, State.Keeps.foldl, State.Keeps.foldl_snd]
/-- What a beat gives keeps it. -/
def BeatOut.Keeps (b₀ : State) : BeatOut → Prop
  | .ran _ _ s => b₀.Keeps s
  | .ended _ s => b₀.Keeps s
  | .stopped _ _ s => b₀.Keeps s
theorem State.Keeps.tileBeat {s : State} (h : b₀.Keeps s) (c : CoreId) (t : TileSnap) (wide : Bool) (n : Nat) (mpc : W32) :
    BeatOut.Keeps b₀ (State.tileBeat s c t wide n mpc) := by
  unfold State.tileBeat
  grind [State.Keeps.push, State.Keeps.metaWord, BeatOut.Keeps]
theorem State.Keeps.inputBounds {s : State} (h : b₀.Keeps s) (c : CoreId) (t : TileSnap) :
    b₀.Keeps (State.inputBounds s c t) := by
  unfold State.inputBounds
  grind [State.Keeps.modMxOf, State.Keeps.foldl, State.Keeps.foldl_snd, State.Keeps.beside]
theorem State.Keeps.runTile {s : State} (h : b₀.Keeps s) (c : CoreId) (t : TileSnap) (wide : Bool) (x0 : Nat) (x1 : Nat) (x2 : W32) (x3 : Flags) :
    b₀.Keeps (State.runTile s c t wide x0 x1 x2 x3).2 := by
  induction x0 generalizing s x1 x2 x3 with
  | zero => exact h
  | succ n ih =>
    unfold State.runTile
    split
    · exact h
    · have hb := h.tileBeat c t wide x1 x2
      split
      · rename_i he
        rw [he] at hb
        exact ih hb _ _ _
      · rename_i he
        rw [he] at hb
        exact hb
      · rename_i he
        rw [he] at hb
        exact hb

end
end Sys2Proof.Machine
end

section
/-! PROOFS. `State.Keeps`: what the matrix operations and its sequencer keep. -/
namespace Sys2Proof.Machine
set_option Elab.async false
section
variable {b₀ : State}

theorem matrixOp_keeps {s : State} (h : b₀.Keeps s) (g : BitVec 4) (e : Bool) (f : BitVec 10) (act : SVal → State → State) (hact : ∀ (y0 : SVal) (y1 : State), b₀.Keeps y1 → b₀.Keeps (act y0 y1)) :
    Out.Keeps b₀ (matrixOp g e f act s) := by
  unfold matrixOp
  grind [State.Keeps.issueMove, Out.keeps_next, Out.keeps_fault, Out.keeps_refused]
theorem matrixPort_keeps {s : State} (h : b₀.Keeps s) (g : BitVec 4) (e : Bool) (f : BitVec 10) (set : W64 → MPorts → MPorts) :
    Out.Keeps b₀ (matrixPort g e f set s) := by
  unfold matrixPort
  grind [matrixOp_keeps, State.Keeps.needClean, State.Keeps.modMx, State.Keeps.issued, State.Keeps.beside]
theorem State.Keeps.badTrigger {s : State} (h : b₀.Keeps s) :
    b₀.Keeps (State.badTrigger s) := by
  unfold State.badTrigger
  grind [State.Keeps.trapAt]
theorem execMcfg_keeps {s : State} (h : b₀.Keeps s) (g : BitVec 4) (e : Bool) (f : BitVec 10) :
    Out.Keeps b₀ (execMcfg g e f s) := by
  unfold execMcfg
  grind [matrixPort_keeps, State.Keeps.beside]
theorem execMsla_keeps {s : State} (h : b₀.Keeps s) (g : BitVec 4) (e : Bool) (f : BitVec 10) :
    Out.Keeps b₀ (execMsla g e f s) := by
  unfold execMsla
  grind [matrixPort_keeps, State.Keeps.beside]
theorem execMslb_keeps {s : State} (h : b₀.Keeps s) (g : BitVec 4) (e : Bool) (f : BitVec 10) :
    Out.Keeps b₀ (execMslb g e f s) := by
  unfold execMslb
  grind [matrixPort_keeps, State.Keeps.beside]
theorem execMklen_keeps {s : State} (h : b₀.Keeps s) (g : BitVec 4) (e : Bool) (f : BitVec 10) :
    Out.Keeps b₀ (execMklen g e f s) := by
  unfold execMklen
  grind [matrixPort_keeps, State.Keeps.beside]
theorem execMbthr_keeps {s : State} (h : b₀.Keeps s) (g : BitVec 4) (e : Bool) (f : BitVec 10) :
    Out.Keeps b₀ (execMbthr g e f s) := by
  unfold execMbthr
  grind [matrixPort_keeps, State.Keeps.beside]
theorem execMchk_keeps {s : State} (h : b₀.Keeps s) (g : BitVec 4) (e : Bool) (f : BitVec 10) :
    Out.Keeps b₀ (execMchk g e f s) := by
  unfold execMchk
  grind [matrixPort_keeps, State.Keeps.beside]
theorem execMdtm_keeps {s : State} (h : b₀.Keeps s) (g : BitVec 4) (e : Bool) (f : BitVec 10) :
    Out.Keeps b₀ (execMdtm g e f s) := by
  unfold execMdtm
  grind [matrixPort_keeps, State.Keeps.beside]
theorem execMgrp_keeps {s : State} (h : b₀.Keeps s) (g : BitVec 4) (e : Bool) (f : BitVec 10) :
    Out.Keeps b₀ (execMgrp g e f s) := by
  unfold execMgrp
  grind [matrixPort_keeps, State.Keeps.beside]
theorem State.Keeps.formGroup {s : State} (h : b₀.Keeps s) (c : CoreId) :
    b₀.Keeps (State.formGroup s c) := by
  unfold State.formGroup
  grind [State.Keeps.modMxOf, State.Keeps.foldl, State.Keeps.foldl_snd, State.Keeps.beside]
theorem State.Keeps.grouped {s : State} (h : b₀.Keeps s) (act : State → State) (hact : ∀ (y0 : State), b₀.Keeps y0 → b₀.Keeps (act y0)) :
    b₀.Keeps (State.grouped s act) := by
  unfold State.grouped
  grind [State.Keeps.trapAt, State.Keeps.hold, State.Keeps.formGroup]
theorem State.Keeps.enqueue {s : State} (h : b₀.Keeps s) (o : SeqOp) :
    b₀.Keeps (State.enqueue s o) := by
  unfold State.enqueue
  grind [State.Keeps.hold, State.Keeps.modMx, State.Keeps.issued, State.Keeps.beside]
theorem issueTile_keeps {s : State} (h : b₀.Keeps s) (w : Bool) (g : BitVec 4) (e : Bool) (f : BitVec 10) :
    Out.Keeps b₀ (issueTile w g e f s) := by
  unfold issueTile
  grind [matrixOp_keeps, State.Keeps.grouped, State.Keeps.trapAt, State.Keeps.hold, State.Keeps.modMembers, State.Keeps.modMx, State.Keeps.enqueue, State.Keeps.beside]
theorem execMtile_keeps {s : State} (h : b₀.Keeps s) (g : BitVec 4) (e : Bool) (f : BitVec 10) :
    Out.Keeps b₀ (execMtile g e f s) := by
  unfold execMtile
  grind [issueTile_keeps]
theorem execMtileW_keeps {s : State} (h : b₀.Keeps s) (g : BitVec 4) (e : Bool) (f : BitVec 10) :
    Out.Keeps b₀ (execMtileW g e f s) := by
  unfold execMtileW
  grind [issueTile_keeps]
theorem execMzero_keeps {s : State} (h : b₀.Keeps s) (g : BitVec 4) (e : Bool) (f : BitVec 10) :
    Out.Keeps b₀ (execMzero g e f s) := by
  unfold execMzero
  grind [matrixOp_keeps, State.Keeps.grouped, State.Keeps.hold, State.Keeps.modMembers, State.Keeps.enqueue]
theorem execMbank_keeps {s : State} (h : b₀.Keeps s) (g : BitVec 4) (e : Bool) (f : BitVec 10) :
    Out.Keeps b₀ (execMbank g e f s) := by
  unfold execMbank
  grind [matrixOp_keeps, State.Keeps.grouped, State.Keeps.hold, State.Keeps.modMx, State.Keeps.enqueue, State.Keeps.beside]
theorem execMchkNow_keeps {s : State} (h : b₀.Keeps s) (g : BitVec 4) (e : Bool) (f : BitVec 10) :
    Out.Keeps b₀ (execMchkNow g e f s) := by
  unfold execMchkNow
  grind [matrixOp_keeps, State.Keeps.modMx, State.Keeps.issued, State.Keeps.beside]
theorem State.Keeps.beatLegal {s : State} (h : b₀.Keeps s) (act : State → State) (hact : ∀ (y0 : State), b₀.Keeps y0 → b₀.Keeps (act y0)) :
    b₀.Keeps (State.beatLegal s act) := by
  unfold State.beatLegal
  grind [State.Keeps.badTrigger]
theorem State.Keeps.beatDone {s : State} (h : b₀.Keeps s) (m : Matrix) (b : Bool) (wide : Bool) (acc : Bool) (f : Flags) :
    b₀.Keeps (State.beatDone s m b wide acc f) := by
  unfold State.beatDone
  grind [State.Keeps.modMx, State.Keeps.addFlags, State.Keeps.issued, State.Keeps.beside]
theorem State.Keeps.shiftBeat {s : State} (h : b₀.Keeps s) (t : TileSnap) (acc : Bool) (ops : List (ACol × BRow)) :
    b₀.Keeps (State.shiftBeat s t acc ops) := by
  unfold State.shiftBeat
  grind [State.Keeps.trapAt, State.Keeps.beatDone]
theorem pushBeat_keeps {s : State} (h : b₀.Keeps s) (acc : Bool) (g : BitVec 4) (e : Bool) (f : BitVec 10) :
    Out.Keeps b₀ (pushBeat acc g e f s) := by
  unfold pushBeat
  grind [matrixOp_keeps, State.Keeps.beatLegal, State.Keeps.trapAt, State.Keeps.badTrigger, State.Keeps.shiftBeat, State.Keeps.metaWord, State.Keeps.needClean, State.Keeps.modMx, State.Keeps.beside]
theorem execMbPa_keeps {s : State} (h : b₀.Keeps s) (g : BitVec 4) (e : Bool) (f : BitVec 10) :
    Out.Keeps b₀ (execMbPa g e f s) := by
  unfold execMbPa
  grind [pushBeat_keeps]
theorem execMbP_keeps {s : State} (h : b₀.Keeps s) (g : BitVec 4) (e : Bool) (f : BitVec 10) :
    Out.Keeps b₀ (execMbP g e f s) := by
  unfold execMbP
  grind [pushBeat_keeps]
theorem execMbS_keeps {s : State} (h : b₀.Keeps s) (g : BitVec 4) (e : Bool) (f : BitVec 10) :
    Out.Keeps b₀ (execMbS g e f s) := by
  unfold execMbS
  grind [matrixOp_keeps, State.Keeps.beatLegal, State.Keeps.shiftBeat]
theorem execMbA_keeps {s : State} (h : b₀.Keeps s) (g : BitVec 4) (e : Bool) (f : BitVec 10) :
    Out.Keeps b₀ (execMbA g e f s) := by
  unfold execMbA
  grind [matrixOp_keeps, State.Keeps.beatLegal, State.Keeps.trapAt, State.Keeps.beatDone]
theorem State.Keeps.claim {s : State} (h : b₀.Keeps s) (l : List Nat) (pair : Bool) (set : MPorts → MPorts) (d : BitVec 10) :
    b₀.Keeps (State.claim s l pair set d) := by
  unfold State.claim
  grind [State.Keeps.modMembers, State.Keeps.modMx, State.Keeps.accept, State.Keeps.foldl, State.Keeps.foldl_snd, State.Keeps.beside]
theorem execMclaimA_keeps {s : State} (h : b₀.Keeps s) (g : BitVec 4) (e : Bool) (f : BitVec 10) :
    Out.Keeps b₀ (execMclaimA g e f s) := by
  unfold execMclaimA
  grind [matrixOp_keeps, State.Keeps.badTrigger, State.Keeps.needD, State.Keeps.claim, State.Keeps.beside]
theorem execMclaimB_keeps {s : State} (h : b₀.Keeps s) (g : BitVec 4) (e : Bool) (f : BitVec 10) :
    Out.Keeps b₀ (execMclaimB g e f s) := by
  unfold execMclaimB
  grind [matrixOp_keeps, State.Keeps.needD, State.Keeps.claim, State.Keeps.beside]
theorem execMrel_keeps {s : State} (h : b₀.Keeps s) (g : BitVec 4) (e : Bool) (f : BitVec 10) :
    Out.Keeps b₀ (execMrel g e f s) := by
  unfold execMrel
  grind [matrixOp_keeps, State.Keeps.badTrigger, State.Keeps.modMembers, State.Keeps.issued]
theorem execMbndRd_keeps {s : State} (h : b₀.Keeps s) (g : BitVec 4) (e : Bool) (f : BitVec 10) :
    Out.Keeps b₀ (execMbndRd g e f s) := by
  unfold execMbndRd
  grind [matrixOp_keeps, State.Keeps.trapAt, State.Keeps.hold, State.Keeps.short, State.Keeps.foldl, State.Keeps.foldl_snd]
theorem execMbndWr_keeps {s : State} (h : b₀.Keeps s) (g : BitVec 4) (e : Bool) (f : BitVec 10) :
    Out.Keeps b₀ (execMbndWr g e f s) := by
  unfold execMbndWr
  grind [matrixOp_keeps, State.Keeps.trapAt, State.Keeps.needClean, State.Keeps.hold, State.Keeps.modMx, State.Keeps.issued, State.Keeps.beside]
theorem State.Keeps.seqFlags {s : State} (h : b₀.Keeps s) (c : CoreId) (f : Flags) :
    b₀.Keeps (State.seqFlags s c f) := by
  unfold State.seqFlags
  grind [State.Keeps.addFlags, State.Keeps.modMxOf, State.Keeps.beside]
theorem State.Keeps.runTiles {s : State} (h : b₀.Keeps s) (c : CoreId) (x0 : List (TileSnap × W32)) (x1 : Flags) :
    b₀.Keeps (State.runTiles s c x0 x1).2 := by
  fun_induction State.runTiles s c x0 x1 <;> grind [State.Keeps.inputBounds, State.Keeps.runTile, State.Keeps.beside]
theorem State.Keeps.rerun {s : State} (h : b₀.Keeps s) (b : Bool) :
    b₀.Keeps (State.rerun s b).2 := by
  unfold State.rerun
  grind [State.Keeps.modMembers, State.Keeps.runTiles, State.Keeps.beside]
theorem State.Keeps.drainLoc {s : State} (h : b₀.Keeps s) (lead : CoreId) (j : Nat) (n : Nat) (a : W64) :
    b₀.Keeps (State.drainLoc s lead j n a).2 := by
  unfold State.drainLoc
  grind [State.Keeps.locate]
theorem State.Keeps.drainLocs {s : State} (h : b₀.Keeps s) (lead : CoreId) (n : Nat) (x0 : List (Nat × W64)) :
    b₀.Keeps (State.drainLocs s lead n x0).2 := by
  fun_induction State.drainLocs s lead n x0 <;> grind [State.Keeps.drainLoc]
theorem State.Keeps.drainAll {s : State} (h : b₀.Keeps s) (lead : CoreId) (n : Nat) (x0 : List (List (Nat × W64))) :
    b₀.Keeps (State.drainAll s lead n x0).2 := by
  fun_induction State.drainAll s lead n x0 <;> grind [State.Keeps.drainLocs]
theorem State.Keeps.drainPending {s : State} (h : b₀.Keeps s) (b : Bool) :
    ∀ x y t, State.drainPending s b = some (x, y, t) → b₀.Keeps t := by
  unfold State.drainPending
  grind [State.Keeps.modMx, State.Keeps.beside]
theorem State.Keeps.queueDrain {s : State} (h : b₀.Keeps s) (d : Drain) :
    b₀.Keeps (State.queueDrain s d) := by
  unfold State.queueDrain
  grind [State.Keeps.modMembers, State.Keeps.modMe, State.Keeps.modPipe, State.Keeps.enqueue, State.Keeps.foldl, State.Keeps.foldl_snd, State.Keeps.beside]
theorem State.Keeps.threshold {s : State} (h : b₀.Keeps s) (b : Bool) (rows : List (List (Nat × W64))) (act : Bool → List W32 → State → State) (hact : ∀ (y0 : Bool) (y1 : List W32) (y2 : State), b₀.Keeps y2 → b₀.Keeps (act y0 y1 y2)) :
    b₀.Keeps (State.threshold s b rows act) := by
  unfold State.threshold
  grind [State.Keeps.modMx, State.Keeps.hold, State.Keeps.rerun, State.Keeps.trapAt, State.Keeps.seqFlags, State.Keeps.foldl, State.Keeps.foldl_snd, State.Keeps.beside]
theorem issueDrain_keeps {s : State} (h : b₀.Keeps s) (k : DrainKind) (g : BitVec 4) (e : Bool) (f : BitVec 10) :
    Out.Keeps b₀ (issueDrain k g e f s) := by
  unfold issueDrain
  refine matrixOp_keeps h g e f _ fun v s hs => hs.grouped _ fun s hs => hs.needClean _ _ _ _ fun s hs => ?_
  extract_lets b typ
  split
  · exact hs.badTrigger
  · split
    · exact hs.trapAt _ _ _
    · refine hs.readMap _ _ _ _ fun m s hs => ?_
      extract_lets c width reg rows entries
      split
      · exact hs.badTrigger
      · split
        · exact hs.trapAt _ _ _
        · have hl := hs.drainAll c (k.size typ) rows
          generalize s.drainAll c (k.size typ) rows = p at hl ⊢
          obtain ⟨_ | locs, s1⟩ := p
          · exact State.Keeps.trapAt hl _ _ _
          · dsimp only at hl ⊢
            have hl2 := State.Keeps.drainLocs hl c 4 entries
            generalize State.drainLocs _ c 4 entries = p at hl2 ⊢
            obtain ⟨_ | ents, s2⟩ := p
            · exact State.Keeps.trapAt hl2 _ _ _
            · dsimp only at hl2 ⊢
              split
              · exact hl2.hold _
              · split
                · rename_i he
                  exact (hl2.drainPending _ _ _ _ he).trapAt _ _ _
                · exact hl2.threshold _ _ _ fun wide bs s hs => hs.queueDrain _
theorem execMdrnSt_keeps {s : State} (h : b₀.Keeps s) (g : BitVec 4) (e : Bool) (f : BitVec 10) :
    Out.Keeps b₀ (execMdrnSt g e f s) := by
  unfold execMdrnSt
  grind [issueDrain_keeps]
theorem execMdrnCvt_keeps {s : State} (h : b₀.Keeps s) (g : BitVec 4) (e : Bool) (f : BitVec 10) :
    Out.Keeps b₀ (execMdrnCvt g e f s) := by
  unfold execMdrnCvt
  grind [issueDrain_keeps]
theorem execMdrnAdd_keeps {s : State} (h : b₀.Keeps s) (g : BitVec 4) (e : Bool) (f : BitVec 10) :
    Out.Keeps b₀ (execMdrnAdd g e f s) := by
  unfold execMdrnAdd
  grind [issueDrain_keeps]
theorem execMdrnAddc_keeps {s : State} (h : b₀.Keeps s) (g : BitVec 4) (e : Bool) (f : BitVec 10) :
    Out.Keeps b₀ (execMdrnAddc g e f s) := by
  unfold execMdrnAddc
  grind [issueDrain_keeps]
theorem State.Keeps.storeClass0 {s : State} (h : b₀.Keeps s) (c : CoreId) (l : Loc) (bs : List Byte) (bad : Bool) :
    b₀.Keeps (State.storeClass0 s c l bs bad) := by
  unfold State.storeClass0
  grind [State.Keeps.unrefuse, State.Keeps.forWrite, State.Keeps.storeAt, State.Keeps.setLt, State.Keeps.track]
theorem execMbD_keeps {s : State} (h : b₀.Keeps s) (g : BitVec 4) (e : Bool) (f : BitVec 10) :
    Out.Keeps b₀ (execMbD g e f s) := by
  unfold execMbD
  refine matrixOp_keeps h g e f _ fun v s hs => hs.beatLegal _ fun s hs => hs.needClean _ _ _ _ fun s hs => ?_
  extract_lets b i
  split
  · exact hs.trapAt _ _ _
  · refine hs.readMap _ _ _ _ fun m s hs => ?_
    split
    · exact hs.badTrigger
    · have hl l := hs.drainLocs s.cur 4 l
      split
      · rename_i u he
        have hk : b₀.Keeps u := State.Keeps.of_snd (hl _) he
        exact hk.trapAt _ _ _
      · rename_i u he
        have hk : b₀.Keeps u := State.Keeps.of_snd (hl _) he
        split
        · exact (hk.readyWrites _ _ _).hold _
        · exact (State.Keeps.foldl (fun s q hs => hs.storeClass0 _ _ _ _) hk _).issued
theorem execMwait_keeps {s : State} (h : b₀.Keeps s) (g : BitVec 4) (e : Bool) (f : BitVec 10) :
    Out.Keeps b₀ (execMwait g e f s) := by
  unfold execMwait
  grind [matrixOp_keeps, State.Keeps.hold, State.Keeps.matrixPending, State.Keeps.trapAt, State.Keeps.issued]
theorem execMstat_keeps {s : State} (h : b₀.Keeps s) (g : BitVec 4) (e : Bool) (f : BitVec 10) :
    Out.Keeps b₀ (execMstat g e f s) := by
  unfold execMstat
  grind [State.Keeps.issueMove, State.Keeps.modMx, State.Keeps.short, State.Keeps.beside, Out.keeps_next, Out.keeps_fault, Out.keeps_refused]
theorem State.Keeps.tileChecked {s : State} (h : b₀.Keeps s) (c : CoreId) (b : Bool) (step : BitVec 8) :
    b₀.Keeps (State.tileChecked s c b step) := by
  unfold State.tileChecked
  grind [State.Keeps.drawFree, State.Keeps.modMembers, State.Keeps.modMxOf, State.Keeps.beside]
theorem State.Keeps.tileDone {s : State} (h : b₀.Keeps s) (c : CoreId) (i : Nat) (t : TileSnap) (mpc0 : W32) (f : Flags) :
    b₀.Keeps (State.tileDone s c i t mpc0 f) := by
  unfold State.tileDone
  grind [State.Keeps.modMxOf, State.Keeps.tileChecked, State.Keeps.seqFlags, State.Keeps.foldl, State.Keeps.foldl_snd, State.Keeps.beside]
theorem State.Keeps.stepTile {s : State} (h : b₀.Keeps s) (c : CoreId) (i : Nat) (t : TileSnap) (n : Nat) (mpc0 : W32) (f : Flags) :
    b₀.Keeps (State.stepTile s c i t n mpc0 f) := by
  unfold State.stepTile
  extract_lets mpc mpc1 s1
  have h1 : b₀.Keeps s1 := by
    unfold s1
    split
    · exact h.inputBounds _ _
    · exact h
  have hb := h1.tileBeat c t t.wide n mpc
  generalize s1.tileBeat c t t.wide n mpc = o at hb ⊢
  cases o with
  | ran mpc f' u => grind [BeatOut.Keeps, State.Keeps.modMxOf, State.Keeps.tileDone]
  | ended mpc u => exact (State.Keeps.modMxOf hb _ _).tileDone _ _ _ _ _
  | stopped x a u => grind [BeatOut.Keeps, State.Keeps.modMxOf]
theorem execTileExecution_keeps {s : State} (h : b₀.Keeps s) :
    Out.Keeps b₀ (execTileExecution s) := by
  unfold execTileExecution
  grind [State.Keeps.stepTile, Out.keeps_next, Out.keeps_fault, Out.keeps_refused]
theorem execMzeroExecution_keeps {s : State} (h : b₀.Keeps s) :
    Out.Keeps b₀ (execMzeroExecution s) := by
  unfold execMzeroExecution
  grind [State.Keeps.modMembers, State.Keeps.modMx, Out.keeps_next, Out.keeps_fault, Out.keeps_refused]
theorem execMbankExecution_keeps {s : State} (h : b₀.Keeps s) :
    Out.Keeps b₀ (execMbankExecution s) := by
  unfold execMbankExecution
  grind [State.Keeps.modMx, Out.keeps_next, Out.keeps_fault, Out.keeps_refused]
theorem State.Keeps.drainElem {s : State} (h : b₀.Keeps s) (c : CoreId) (d : Drain) (q : Nat × Loc) :
    b₀.Keeps (State.drainElem s c d q).2 := by
  unfold State.drainElem
  grind [State.Keeps.storeClass0, State.Keeps.forWrite, State.Keeps.beside]
theorem State.Keeps.boundEntries {s : State} (h : b₀.Keeps s) (c : CoreId) (d : Drain) :
    b₀.Keeps (State.boundEntries s c d) := by
  unfold State.boundEntries
  grind [State.Keeps.forWrite, State.Keeps.storeClass0, State.Keeps.foldl, State.Keeps.foldl_snd]
theorem State.Keeps.stepDrain {s : State} (h : b₀.Keeps s) (c : CoreId) (i : Nat) (d : Drain) :
    b₀.Keeps (State.stepDrain s c i d) := by
  unfold State.stepDrain
  grind [State.Keeps.readyWrites, State.Keeps.drainElem, State.Keeps.modMxOf, State.Keeps.boundEntries, State.Keeps.modMembers, State.Keeps.seqFlags, State.Keeps.endArrivals, State.Keeps.foldl, State.Keeps.foldl_snd, State.Keeps.beside]
theorem execDrainExecution_keeps {s : State} (h : b₀.Keeps s) :
    Out.Keeps b₀ (execDrainExecution s) := by
  unfold execDrainExecution
  grind [State.Keeps.stepDrain, Out.keeps_next, Out.keeps_fault, Out.keeps_refused]
theorem execGroupFormation_keeps {s : State} (h : b₀.Keeps s) :
    Out.Keeps b₀ (execGroupFormation s) := by
  unfold execGroupFormation
  grind [State.Keeps.formGroup, Out.keeps_next, Out.keeps_fault, Out.keeps_refused]
theorem execMopldComplete_keeps {s : State} (h : b₀.Keeps s) (slot : BitVec 5) :
    Out.Keeps b₀ (execMopldComplete slot s) := by
  unfold execMopldComplete
  grind [State.Keeps.modMx, State.Keeps.complete, State.Keeps.foldl, State.Keeps.foldl_snd, Out.keeps_next, Out.keeps_fault, Out.keeps_refused]

end
end Sys2Proof.Machine
end

section
/-! PROOFS. `State.Keeps`: what copies, key/value records and engine triggers keep. -/
namespace Sys2Proof.Machine
set_option Elab.async false
section
variable {b₀ : State}

theorem copyOp_keeps {s : State} (h : b₀.Keeps s) (k : KUnit) (g : BitVec 4) (e : Bool) (f : BitVec 10) (act : SVal → State → State) (hact : ∀ (y0 : SVal) (y1 : State), b₀.Keeps y1 → b₀.Keeps (act y0 y1)) :
    Out.Keeps b₀ (copyOp k g e f act s) := by
  unfold copyOp
  grind [State.Keeps.issueMove, Out.keeps_next, Out.keeps_fault, Out.keeps_refused]
theorem copyClean_keeps {s : State} (h : b₀.Keeps s) (k : KUnit) (g : BitVec 4) (e : Bool) (f : BitVec 10) (act : W64 → State → State) (hact : ∀ (y0 : W64) (y1 : State), b₀.Keeps y1 → b₀.Keeps (act y0 y1)) :
    Out.Keeps b₀ (copyClean k g e f act s) := by
  unfold copyClean
  grind [copyOp_keeps, State.Keeps.needClean]
theorem State.Keeps.modK {s : State} (h : b₀.Keeps s) (k : KUnit) (f : KSlot → KSlot) :
    b₀.Keeps (State.modK s k f) := by
  unfold State.modK
  grind [State.Keeps.modMe, Core.sp_setK]
theorem State.Keeps.banksFor {s : State} (h : b₀.Keeps s) (n : Nat) (l : List (Option Nat)) (act : State → State) (hact : ∀ (y0 : State), b₀.Keeps y0 → b₀.Keeps (act y0)) :
    b₀.Keeps (State.banksFor s n l act) := by
  unfold State.banksFor
  grind [State.Keeps.hold, State.Keeps.wakeBanks, State.Keeps.foldl, State.Keeps.foldl_snd]
theorem State.Keeps.scattered {s : State} (h : b₀.Keeps s) (n : Nat) (l : List (Option Nat)) (act : State → State) (hact : ∀ (y0 : State), b₀.Keeps y0 → b₀.Keeps (act y0)) :
    b₀.Keeps (State.scattered s n l act) := by
  unfold State.scattered
  grind [State.Keeps.banksFor, State.Keeps.modPipe, State.Keeps.hold, State.Keeps.beside]
theorem State.Keeps.spLoad {s : State} (h : b₀.Keeps s) (off : Nat) (n : Nat) :
    b₀.Keeps (State.spLoad s off n).2 := by
  unfold State.spLoad
  grind [State.Keeps.loadAt, State.Keeps.setLt]
theorem State.Keeps.spLoads {s : State} (h : b₀.Keeps s) (n : Nat) (x0 : List (Option Nat)) :
    b₀.Keeps (State.spLoads s n x0).2 := by
  fun_induction State.spLoads s n x0 <;> grind [State.Keeps.spLoad]
theorem State.Keeps.spStore {s : State} (h : b₀.Keeps s) (off : Nat) (bs : List Byte) (bad : Bool) :
    b₀.Keeps (State.spStore s off bs bad) := by
  unfold State.spStore
  grind [State.Keeps.storeRaw, State.Keeps.setLt, State.Keeps.unrefuse]
theorem State.Keeps.copyShort {s : State} (h : b₀.Keeps s) (k : KUnit) (v : VVal) :
    b₀.Keeps (State.copyShort s k v) := by
  unfold State.copyShort
  grind [State.Keeps.short]
theorem execSpld_keeps {s : State} (h : b₀.Keeps s) (k : KUnit) (g : BitVec 4) (e : Bool) (f : BitVec 10) :
    Out.Keeps b₀ (execSpld k g e f s) := by
  unfold execSpld
  grind [copyClean_keeps, State.Keeps.ownRange, State.Keeps.banksFor, State.Keeps.spLoads, State.Keeps.copyShort]
theorem execSpldH_keeps {s : State} (h : b₀.Keeps s) (k : KUnit) (g : BitVec 4) (e : Bool) (f : BitVec 10) :
    Out.Keeps b₀ (execSpldH k g e f s) := by
  unfold execSpldH
  grind [copyClean_keeps, State.Keeps.ownRange, State.Keeps.banksFor, State.Keeps.spLoads, State.Keeps.copyShort]
theorem execSpldBc_keeps {s : State} (h : b₀.Keeps s) (k : KUnit) (g : BitVec 4) (e : Bool) (f : BitVec 10) :
    Out.Keeps b₀ (execSpldBc k g e f s) := by
  unfold execSpldBc
  grind [copyClean_keeps, State.Keeps.ownRange, State.Keeps.banksFor, State.Keeps.spLoad, State.Keeps.copyShort]
theorem execSpldG_keeps {s : State} (h : b₀.Keeps s) (k : KUnit) (g : BitVec 4) (e : Bool) (f : BitVec 10) :
    Out.Keeps b₀ (execSpldG k g e f s) := by
  unfold execSpldG
  grind [copyClean_keeps, State.Keeps.needClean, State.Keeps.trapAt, State.Keeps.scattered, State.Keeps.spLoads, State.Keeps.copyShort]
theorem State.Keeps.spStored {s : State} (h : b₀.Keeps s) (n : Nat) (l : List (Option Nat)) :
    b₀.Keeps (State.spStored s n l) := by
  unfold State.spStored
  grind [State.Keeps.bindWaits]
theorem State.Keeps.spStores {s : State} (h : b₀.Keeps s) (x : VVal) (l : List (Option Nat)) :
    b₀.Keeps (State.spStores s x l) := by
  unfold State.spStores
  grind [State.Keeps.spStore, State.Keeps.modMe, State.Keeps.spStored, State.Keeps.foldl, State.Keeps.foldl_snd, State.Keeps.beside]
theorem execSpst_keeps {s : State} (h : b₀.Keeps s) (k : KUnit) (g : BitVec 4) (e : Bool) (f : BitVec 10) :
    Out.Keeps b₀ (execSpst k g e f s) := by
  unfold execSpst
  grind [copyClean_keeps, State.Keeps.ownRange, State.Keeps.banksFor, State.Keeps.spStores, State.Keeps.issued]
theorem execSpstM_keeps {s : State} (h : b₀.Keeps s) (k : KUnit) (g : BitVec 4) (e : Bool) (f : BitVec 10) :
    Out.Keeps b₀ (execSpstM k g e f s) := by
  unfold execSpstM
  grind [copyClean_keeps, State.Keeps.needClean, State.Keeps.ownRange, State.Keeps.trapAt, State.Keeps.banksFor, State.Keeps.spStores, State.Keeps.issued]
theorem execSpstS_keeps {s : State} (h : b₀.Keeps s) (k : KUnit) (g : BitVec 4) (e : Bool) (f : BitVec 10) :
    Out.Keeps b₀ (execSpstS k g e f s) := by
  unfold execSpstS
  grind [copyClean_keeps, State.Keeps.needClean, State.Keeps.trapAt, State.Keeps.scattered, State.Keeps.spStores, State.Keeps.issued]
theorem State.Keeps.modAg {s : State} (h : b₀.Keeps s) (k : KUnit) (n : BitVec 2) (f : AGen → AGen) :
    b₀.Keeps (State.modAg s k n f) := by
  unfold State.modAg
  grind [State.Keeps.modK, State.Keeps.beside]
theorem execAgSet_keeps {s : State} (h : b₀.Keeps s) (k : KUnit) (g : BitVec 4) (n : BitVec 2) (e : Bool) (f : BitVec 10) :
    Out.Keeps b₀ (execAgSet k g n e f s) := by
  unfold execAgSet
  grind [copyClean_keeps, State.Keeps.trapAt, State.Keeps.readMap, State.Keeps.modAg, State.Keeps.issued]
theorem execAgPos_keeps {s : State} (h : b₀.Keeps s) (k : KUnit) (g : BitVec 4) (n : BitVec 2) (e : Bool) (f : BitVec 10) :
    Out.Keeps b₀ (execAgPos k g n e f s) := by
  unfold execAgPos
  grind [copyClean_keeps, State.Keeps.trapAt, State.Keeps.modAg, State.Keeps.issued, State.Keeps.beside]
theorem agUse_keeps {s : State} (h : b₀.Keeps s) (k : KUnit) (g : BitVec 4) (n : BitVec 2) (e : Bool) (f : BitVec 10) (act : TMap → List (Option Nat) → State → State) (hact : ∀ (y0 : TMap) (y1 : List (Option Nat)) (y2 : State), b₀.Keeps y2 → b₀.Keeps (act y0 y1 y2)) :
    Out.Keeps b₀ (agUse k g n e f act s) := by
  unfold agUse
  grind [copyOp_keeps, State.Keeps.trapAt, State.Keeps.scattered, State.Keeps.modAg, State.Keeps.beside, Out.keeps_next, Out.keeps_fault, Out.keeps_refused]
theorem execSpldAg_keeps {s : State} (h : b₀.Keeps s) (k : KUnit) (g : BitVec 4) (n : BitVec 2) (e : Bool) (f : BitVec 10) :
    Out.Keeps b₀ (execSpldAg k g n e f s) := by
  unfold execSpldAg
  grind [agUse_keeps, State.Keeps.spLoads, State.Keeps.copyShort]
theorem execSpstAg_keeps {s : State} (h : b₀.Keeps s) (k : KUnit) (g : BitVec 4) (n : BitVec 2) (e : Bool) (f : BitVec 10) :
    Out.Keeps b₀ (execSpstAg k g n e f s) := by
  unfold execSpstAg
  grind [agUse_keeps, State.Keeps.spStore, State.Keeps.spStored, State.Keeps.issued, State.Keeps.foldl, State.Keeps.foldl_snd]
theorem syncOp_keeps {s : State} (h : b₀.Keeps s) (k : KUnit) (g : BitVec 4) (e : Bool) (f : BitVec 10) (act : W64 → CoreId → Nat → State → State) (hact : ∀ (y0 : W64) (y1 : CoreId) (y2 : Nat) (y3 : State), b₀.Keeps y3 → b₀.Keeps (act y0 y1 y2 y3)) :
    Out.Keeps b₀ (syncOp k g e f act s) := by
  unfold syncOp
  refine copyClean_keeps h k g e f _ fun a s hs => hs.syncTarget _ _ _ fun d off s hs => ?_
  split
  · exact hs.hold _
  · split
    · exact (hs.wakeBanks _ _ _).hold _
    · exact hact _ _ _ _ hs
theorem State.Keeps.syncRead {s : State} (h : b₀.Keeps s) (h : CoreId) (off : Nat) :
    b₀.Keeps (State.syncRead s h off).2 := by
  unfold State.syncRead
  grind [State.Keeps.loadAt, State.Keeps.setLt]
theorem State.Keeps.lane0 {s : State} (h : b₀.Keeps s) (k : KUnit) (f : BitVec 10) (act : W32 → State → State) (hact : ∀ (y0 : W32) (y1 : State), b₀.Keeps y1 → b₀.Keeps (act y0 y1)) :
    b₀.Keeps (State.lane0 s k f act) := by
  unfold State.lane0
  grind [State.Keeps.needClean]
theorem execSwInit_keeps {s : State} (h : b₀.Keeps s) (k : KUnit) (g : BitVec 4) (e : Bool) (f : BitVec 10) :
    Out.Keeps b₀ (execSwInit k g e f s) := by
  unfold execSwInit
  refine syncOp_keeps h k g e f _ fun a d off s hs => hs.lane0 _ _ _ fun x s hs => hs.needClean _ _ _ _ fun s hs => ?_
  exact ((State.Keeps.setLt (((hs.setTimes _ _).homeWrite _ _ _).homeWrite _ _ _) _ _).unrefuse _).issued
theorem execSwAdd_keeps {s : State} (h : b₀.Keeps s) (k : KUnit) (g : BitVec 4) (e : Bool) (f : BitVec 10) :
    Out.Keeps b₀ (execSwAdd k g e f s) := by
  unfold execSwAdd
  grind [syncOp_keeps, State.Keeps.syncUse, State.Keeps.lane0, State.Keeps.hold, State.Keeps.mergeClasses, State.Keeps.syncArrive, State.Keeps.setLt, State.Keeps.unrefuse, State.Keeps.issued]
theorem State.Keeps.addWait {s : State} (h : b₀.Keeps s) (k : KUnit) (w : WaitKind) (d : BitVec 10) :
    b₀.Keeps (State.addWait s k w d) := by
  unfold State.addWait
  grind [State.Keeps.modMe, State.Keeps.regWrite, State.Keeps.issued, State.Keeps.beside]
theorem execSwWait_keeps {s : State} (h : b₀.Keeps s) (k : KUnit) (g : BitVec 4) (e : Bool) (f : BitVec 10) :
    Out.Keeps b₀ (execSwWait k g e f s) := by
  unfold execSwWait
  grind [syncOp_keeps, State.Keeps.syncUse, State.Keeps.lane0, State.Keeps.needD, State.Keeps.bindWait, State.Keeps.addWait]
theorem execSwTest_keeps {s : State} (h : b₀.Keeps s) (k : KUnit) (g : BitVec 4) (e : Bool) (f : BitVec 10) :
    Out.Keeps b₀ (execSwTest k g e f s) := by
  unfold execSwTest
  grind [syncOp_keeps, State.Keeps.syncUse, State.Keeps.lane0, State.Keeps.syncRead, State.Keeps.copyShort]
theorem execSwRd_keeps {s : State} (h : b₀.Keeps s) (k : KUnit) (g : BitVec 4) (e : Bool) (f : BitVec 10) :
    Out.Keeps b₀ (execSwRd k g e f s) := by
  unfold execSwRd
  grind [syncOp_keeps, State.Keeps.needClean, State.Keeps.syncRead, State.Keeps.copyShort]
theorem State.Keeps.modChan {s : State} (h : b₀.Keeps s) (c : CoreId) (ch : BitVec 3) (f : Channel → Channel) :
    b₀.Keeps (State.modChan s c ch f) := by
  unfold State.modChan
  grind [State.Keeps.modCore, State.Keeps.beside]
theorem execQput_keeps {s : State} (h : b₀.Keeps s) (k : KUnit) (g : BitVec 4) (e : Bool) (f : BitVec 10) :
    Out.Keeps b₀ (execQput k g e f s) := by
  unfold execQput
  grind [copyClean_keeps, State.Keeps.trapAt, State.Keeps.needD, State.Keeps.hold, State.Keeps.modCtx, State.Keeps.accept, State.Keeps.modMe, State.Keeps.modChan, State.Keeps.regWrite, State.Keeps.trapIssued, State.Keeps.beside]
theorem execQget_keeps {s : State} (h : b₀.Keeps s) (k : KUnit) (g : BitVec 4) (e : Bool) (f : BitVec 10) :
    Out.Keeps b₀ (execQget k g e f s) := by
  unfold execQget
  grind [copyClean_keeps, State.Keeps.trapAt, State.Keeps.needD, State.Keeps.addWait]
theorem execIngPop_keeps {s : State} (h : b₀.Keeps s) (k : KUnit) (g : BitVec 4) (e : Bool) (f : BitVec 10) :
    Out.Keeps b₀ (execIngPop k g e f s) := by
  unfold execIngPop
  grind [copyClean_keeps, State.Keeps.trapAt, State.Keeps.needD, State.Keeps.addWait]
theorem State.Keeps.ingSink {s : State} (h : b₀.Keeps s) (c : CoreId) :
    b₀.Keeps (State.ingSink s c) := by
  unfold State.ingSink
  grind [State.Keeps.modCtx, State.Keeps.beside]
theorem State.Keeps.tryIng {s : State} (h : b₀.Keeps s) (c : CoreId) (w : Wait) (f : W64) (at0 : Option Nat) :
    b₀.Keeps (State.tryIng s c w f at0).2 := by
  unfold State.tryIng
  grind [State.Keeps.ingSink, State.Keeps.readHome, State.Keeps.waitTakes, State.Keeps.waitFills, State.Keeps.modPipeOf, State.Keeps.beside]
theorem State.Keeps.takeMsg {s : State} (h : b₀.Keeps s) (c : CoreId) (ch : BitVec 3) :
    b₀.Keeps (State.takeMsg s c ch) := by
  unfold State.takeMsg
  grind [State.Keeps.modChan, State.Keeps.modDie, State.Keeps.beside]
theorem State.Keeps.tryWait {s : State} (h : b₀.Keeps s) (c : CoreId) (w : Wait) :
    b₀.Keeps (State.tryWait s c w).2 := by
  unfold State.tryWait
  grind [State.Keeps.trySw, State.Keeps.waitTakes, State.Keeps.waitFills, State.Keeps.takeMsg, State.Keeps.setLt, State.Keeps.noteFill, State.Keeps.tryIng]
theorem State.Keeps.retryWaits {s : State} (h : b₀.Keeps s) (c : CoreId) :
    b₀.Keeps (State.retryWaits s c) := by
  unfold State.retryWaits
  grind [State.Keeps.eachWait, State.Keeps.tryWait]
theorem State.Keeps.unitBytes {s : State} (h : b₀.Keeps s) (off : Nat) :
    b₀.Keeps (State.unitBytes s off).2 := by
  unfold State.unitBytes
  grind [State.Keeps.spLoads]
theorem execMopld_keeps {s : State} (h : b₀.Keeps s) (k : KUnit) (g : BitVec 4) (e : Bool) (f : BitVec 10) :
    Out.Keeps b₀ (execMopld k g e f s) := by
  unfold execMopld
  refine copyClean_keeps h k g e f _ fun a s hs => hs.needClean _ _ _ _ fun s hs => ?_
  extract_lets c off nu reg
  split
  · exact hs.trapAt _ _ _
  · split
    · exact hs.trapAt _ _ _
    · split
      · exact hs.trapAt _ _ _
      · refine hs.ownRange _ _ _ _ _ fun o s hs => ?_
        extract_lets slots
        split
        · exact hs.hold _
        · refine hs.ownReady _ _ _ fun s hs => State.Keeps.issued (State.Keeps.modMx (State.Keeps.foldl (fun s u hs => ?_) hs _) _)
          have hu := hs.unitBytes (o + 1024 * u)
          generalize s.unitBytes (o + 1024 * u) = p at hu ⊢
          obtain ⟨bs, s'⟩ := p
          exact State.Keeps.modMx hu _
theorem execKflg_keeps {s : State} (h : b₀.Keeps s) (k : KUnit) (g : BitVec 4) (e : Bool) (f : BitVec 10) :
    Out.Keeps b₀ (execKflg k g e f s) := by
  unfold execKflg
  grind [copyClean_keeps, State.Keeps.modK, State.Keeps.issued, State.Keeps.beside]
theorem execKsw_keeps {s : State} (h : b₀.Keeps s) (k : KUnit) (g : BitVec 4) (e : Bool) (f : BitVec 10) :
    Out.Keeps b₀ (execKsw k g e f s) := by
  unfold execKsw
  grind [copyClean_keeps, State.Keeps.modK, State.Keeps.issued, State.Keeps.beside]
theorem State.Keeps.seqRecord {s : State} (h : b₀.Keeps s) (slot : Slot) (a : W64) (act : SeqRec → State → State) (hact : ∀ (y0 : SeqRec) (y1 : State), b₀.Keeps y1 → b₀.Keeps (act y0 y1)) :
    b₀.Keeps (State.seqRecord s slot a act) := by
  unfold State.seqRecord
  grind [State.Keeps.trapAt, State.Keeps.readRecord]
theorem State.Keeps.locateAll {s : State} (h : b₀.Keeps s) (x0 : List (W64 × List Byte)) :
    b₀.Keeps (State.locateAll s x0).2 := by
  fun_induction State.locateAll s x0 <;> grind [State.Keeps.locate]
theorem State.Keeps.storeAll {s : State} (h : b₀.Keeps s) (l : List (Loc × List Byte)) :
    b₀.Keeps (State.storeAll s l) := by
  unfold State.storeAll
  grind [State.Keeps.storeClass0, State.Keeps.foldl, State.Keeps.foldl_snd]
theorem State.Keeps.recordWrites {s : State} (h : b₀.Keeps s) (slot : Slot) (ws : List (W64 × List Byte)) (act : State → State) (hact : ∀ (y0 : State), b₀.Keeps y0 → b₀.Keeps (act y0)) :
    b₀.Keeps (State.recordWrites s slot ws act) := by
  unfold State.recordWrites
  grind [State.Keeps.locateAll, State.Keeps.trapAt, State.Keeps.readyWrites, State.Keeps.hold, State.Keeps.storeAll]
theorem State.Keeps.unlist {s : State} (h : b₀.Keeps s) (a : W64) (pinned : Bool) (base : W64) :
    b₀.Keeps (State.unlist s a pinned base) := by
  unfold State.unlist
  grind [State.Keeps.modCtx, State.Keeps.modDie, State.Keeps.beside]
theorem State.Keeps.kvRelease {s : State} (h : b₀.Keeps s) (slot : Slot) (a : W64) (r : SeqRec) (fin : W64 → State → State) (hfin : ∀ (y0 : W64) (y1 : State), b₀.Keeps y1 → b₀.Keeps (fin y0 y1)) :
    b₀.Keeps (State.kvRelease s slot a r fin) := by
  unfold State.kvRelease
  grind [State.Keeps.recordWrites, State.Keeps.unlist, State.Keeps.foldl, State.Keeps.foldl_snd, State.Keeps.beside]
theorem State.Keeps.kvExtend {s : State} (h : b₀.Keeps s) (slot : Slot) (a : W64) (r : SeqRec) (n : Nat) (fin : W64 → State → State) (hfin : ∀ (y0 : W64) (y1 : State), b₀.Keeps y1 → b₀.Keeps (fin y0 y1)) :
    b₀.Keeps (State.kvExtend s slot a r n fin) := by
  unfold State.kvExtend
  grind [State.Keeps.recordWrites, State.Keeps.modCtx, State.Keeps.beside]
theorem execKvExt_keeps {s : State} (h : b₀.Keeps s) (k : KUnit) (g : BitVec 4) (e : Bool) (f : BitVec 10) :
    Out.Keeps b₀ (execKvExt k g e f s) := by
  unfold execKvExt
  grind [copyClean_keeps, State.Keeps.lane0, State.Keeps.needD, State.Keeps.seqRecord, State.Keeps.long, State.Keeps.kvRelease, State.Keeps.kvExtend]
theorem execPfxHash_keeps {s : State} (h : b₀.Keeps s) (k : KUnit) (g : BitVec 4) (e : Bool) (f : BitVec 10) :
    Out.Keeps b₀ (execPfxHash k g e f s) := by
  unfold execPfxHash
  grind [copyOp_keeps, State.Keeps.needD, State.Keeps.long]
theorem execPfxLook_keeps {s : State} (h : b₀.Keeps s) (k : KUnit) (g : BitVec 4) (e : Bool) (f : BitVec 10) :
    Out.Keeps b₀ (execPfxLook k g e f s) := by
  unfold execPfxLook
  grind [copyClean_keeps, State.Keeps.needD, State.Keeps.modDie, State.Keeps.long]
theorem execPfxIns_keeps {s : State} (h : b₀.Keeps s) (k : KUnit) (g : BitVec 4) (e : Bool) (f : BitVec 10) :
    Out.Keeps b₀ (execPfxIns k g e f s) := by
  unfold execPfxIns
  refine copyClean_keeps h k g e f _ fun a s hs => hs.ownRange _ _ _ _ _ fun _ s hs => hs.needD _ _ fun dp s hs => hs.readRecord _ _ _ _ fun bs s hs => ?_
  extract_lets ctx
  split
  · exact hs.trapAt _ _ _
  · split
    · exact hs.trapAt _ _ _
    · split
      · exact State.Keeps.accept (hs.modDie _ _) _ _
      · split
        · exact hs.accept _ _
        · extract_lets old s1 new s2
          have h1 : b₀.Keeps s1 := by
            unfold s1
            split
            · exact hs.modCtx _ _
            · exact hs
          exact State.Keeps.accept (State.Keeps.modCtx (h1.modDie _ _) _ _) _ _
theorem execPfxPin_keeps {s : State} (h : b₀.Keeps s) (k : KUnit) (g : BitVec 4) (e : Bool) (f : BitVec 10) :
    Out.Keeps b₀ (execPfxPin k g e f s) := by
  unfold execPfxPin
  refine copyClean_keeps h k g e f _ fun a s hs => hs.lane0 _ _ _ fun x s hs => hs.seqRecord _ _ _ fun r s hs => ?_
  extract_lets fail
  have hf (s : State) (hs : b₀.Keeps s) : b₀.Keeps (fail s) := hs.recordWrites _ _ _ fun s hs => hs.issued
  clear_value fail
  split
  · exact hf s hs
  · extract_lets en r'
    split
    · exact hf s hs
    · exact hs.recordWrites _ _ _ fun s hs => (State.Keeps.modCtx (hs.modDie _ _) _ _).issued
theorem execPfxUnpin_keeps {s : State} (h : b₀.Keeps s) (k : KUnit) (g : BitVec 4) (e : Bool) (f : BitVec 10) :
    Out.Keeps b₀ (execPfxUnpin k g e f s) := by
  unfold execPfxUnpin
  grind [copyOp_keeps, State.Keeps.lane0, State.Keeps.modDie, State.Keeps.issued, State.Keeps.beside]
theorem State.Keeps.engineHead {s : State} (h : b₀.Keeps s) (k : KUnit) (a : W64) (opc : Nat) (act : List Byte → State → State) (hact : ∀ (y0 : List Byte) (y1 : State), b₀.Keeps y1 → b₀.Keeps (act y0 y1)) :
    b₀.Keeps (State.engineHead s k a opc act) := by
  unfold State.engineHead
  grind [State.Keeps.trapAt, State.Keeps.readRecord, State.Keeps.syncTarget]
theorem engineTrigger_keeps {s : State} (h : b₀.Keeps s) (k : KUnit) (g : BitVec 4) (e : Bool) (f : BitVec 10) (opc : Nat) (act : BitVec 10 → W64 → List Byte → State → State) (hact : ∀ (y0 : BitVec 10) (y1 : W64) (y2 : List Byte) (y3 : State), b₀.Keeps y3 → b₀.Keeps (act y0 y1 y2 y3)) :
    Out.Keeps b₀ (engineTrigger k g e f opc act s) := by
  unfold engineTrigger
  grind [copyClean_keeps, State.Keeps.ownRange, State.Keeps.needD, State.Keeps.engineHead]
theorem State.Keeps.blockOk {s : State} (h : b₀.Keeps s) (k : KUnit) (a : W64) (ok : Bool) (act : State → State) (hact : ∀ (y0 : State), b₀.Keeps y0 → b₀.Keeps (act y0)) :
    b₀.Keeps (State.blockOk s k a ok act) := by
  unfold State.blockOk
  grind [State.Keeps.trapAt]
theorem State.Keeps.acceptEngine {s : State} (h : b₀.Keeps s) (k : KUnit) (d : BitVec 10) (a : W64) (kind : EngKind) (n : Nat) (eb : Nat) (total : Nat) (after : Nat → State → State) (hafter : ∀ (y0 : Nat) (y1 : State), b₀.Keeps y1 → b₀.Keeps (after y0 y1)) :
    b₀.Keeps (State.acceptEngine s k d a kind n eb total after) := by
  unfold State.acceptEngine
  grind [State.Keeps.accept, State.Keeps.modMe, State.Keeps.beside, Core.sp_setK]
theorem State.Keeps.engSide {s : State} (h : b₀.Keeps s) (k : KUnit) (isMap : Bool) (a : W64) (org : W64) (act : Side → Option TMap → State → State) (hact : ∀ (y0 : Side) (y1 : Option TMap) (y2 : State), b₀.Keeps y2 → b₀.Keeps (act y0 y1 y2)) :
    b₀.Keeps (State.engSide s k isMap a org act) := by
  unfold State.engSide
  grind [State.Keeps.readMap]
theorem execXcopy_keeps {s : State} (h : b₀.Keeps s) (k : KUnit) (g : BitVec 4) (e : Bool) (f : BitVec 10) :
    Out.Keeps b₀ (execXcopy k g e f s) := by
  unfold execXcopy
  grind [engineTrigger_keeps, State.Keeps.blockOk, State.Keeps.engSide, State.Keeps.acceptEngine]
theorem listTrigger_keeps {s : State} (h : b₀.Keeps s) (k : KUnit) (g : BitVec 4) (e : Bool) (f : BitVec 10) (scat : Bool) :
    Out.Keeps b₀ (listTrigger k g e f scat s) := by
  unfold listTrigger
  grind [engineTrigger_keeps, State.Keeps.blockOk, State.Keeps.engSide, State.Keeps.acceptEngine, State.Keeps.foldl, State.Keeps.foldl_snd]
theorem execXgath_keeps {s : State} (h : b₀.Keeps s) (k : KUnit) (g : BitVec 4) (e : Bool) (f : BitVec 10) :
    Out.Keeps b₀ (execXgath k g e f s) := by
  unfold execXgath
  grind [listTrigger_keeps]
theorem execXscat_keeps {s : State} (h : b₀.Keeps s) (k : KUnit) (g : BitVec 4) (e : Bool) (f : BitVec 10) :
    Out.Keeps b₀ (execXscat k g e f s) := by
  unfold execXscat
  grind [listTrigger_keeps]
theorem State.Keeps.applied {s : State} (h : b₀.Keeps s) (k : KUnit) (used : Bool) (a : W64) (align : Nat) (n : Nat) (act : State → State) (hact : ∀ (y0 : State), b₀.Keeps y0 → b₀.Keeps (act y0)) :
    b₀.Keeps (State.applied s k used a align n act) := by
  unfold State.applied
  grind [State.Keeps.ownRange]
theorem execXmcast_keeps {s : State} (h : b₀.Keeps s) (k : KUnit) (g : BitVec 4) (e : Bool) (f : BitVec 10) :
    Out.Keeps b₀ (execXmcast k g e f s) := by
  unfold execXmcast
  grind [engineTrigger_keeps, State.Keeps.blockOk, State.Keeps.engSide, State.Keeps.applied, State.Keeps.acceptEngine]
theorem State.Keeps.openColl {s : State} (h : b₀.Keeps s) (id : Nat) (rtag : BitVec 8) (resh : Bool) (parts : List Nat) :
    b₀.Keeps (State.openColl s id rtag resh parts) := by
  unfold State.openColl
  grind [State.Keeps.beside]
theorem execXred_keeps {s : State} (h : b₀.Keeps s) (k : KUnit) (g : BitVec 4) (e : Bool) (f : BitVec 10) :
    Out.Keeps b₀ (execXred k g e f s) := by
  unfold execXred
  grind [engineTrigger_keeps, State.Keeps.blockOk, State.Keeps.acceptEngine, State.Keeps.openColl]
theorem execXhalo_keeps {s : State} (h : b₀.Keeps s) (k : KUnit) (g : BitVec 4) (e : Bool) (f : BitVec 10) :
    Out.Keeps b₀ (execXhalo k g e f s) := by
  unfold execXhalo
  grind [engineTrigger_keeps, State.Keeps.blockOk, State.Keeps.applied, State.Keeps.readMap, State.Keeps.acceptEngine, State.Keeps.foldl, State.Keeps.foldl_snd]
theorem execXresh_keeps {s : State} (h : b₀.Keeps s) (k : KUnit) (g : BitVec 4) (e : Bool) (f : BitVec 10) :
    Out.Keeps b₀ (execXresh k g e f s) := by
  unfold execXresh
  grind [engineTrigger_keeps, State.Keeps.blockOk, State.Keeps.readMap, State.Keeps.acceptEngine, State.Keeps.openColl]
theorem execMopldT_keeps {s : State} (h : b₀.Keeps s) (k : KUnit) (g : BitVec 4) (e : Bool) (f : BitVec 10) :
    Out.Keeps b₀ (execMopldT k g e f s) := by
  unfold execMopldT
  grind [engineTrigger_keeps, State.Keeps.blockOk, State.Keeps.trapAt, State.Keeps.engSide, State.Keeps.accept, State.Keeps.acceptEngine, State.Keeps.modMx, State.Keeps.beside]
theorem State.Keeps.readRowb {s : State} (h : b₀.Keeps s) (k : KUnit) (a : W64) (act : Nat → State → State) (hact : ∀ (y0 : Nat) (y1 : State), b₀.Keeps y1 → b₀.Keeps (act y0 y1)) :
    b₀.Keeps (State.readRowb s k a act) := by
  unfold State.readRowb
  grind [State.Keeps.trapAt, State.Keeps.hold, State.Keeps.wakeBanks, State.Keeps.readVa, State.Keeps.setLt, State.Keeps.needClean]
theorem execKvApp_keeps {s : State} (h : b₀.Keeps s) (k : KUnit) (g : BitVec 4) (e : Bool) (f : BitVec 10) :
    Out.Keeps b₀ (execKvApp k g e f s) := by
  unfold execKvApp
  grind [engineTrigger_keeps, State.Keeps.blockOk, State.Keeps.readRowb, State.Keeps.engSide, State.Keeps.acceptEngine]

end
end Sys2Proof.Machine
end

section
/-! PROOFS. `State.Keeps`: what a run of an engine command keeps. -/
namespace Sys2Proof.Machine
set_option Elab.async false
section
variable {b₀ : State}

theorem State.Keeps.engLoc {s : State} (h : b₀.Keeps s) (c : CoreId) (a : W64) (n : Nat) (acc : Access) :
    b₀.Keeps (State.engLoc s c a n acc).2 := by
  unfold State.engLoc
  grind [State.Keeps.locate, State.Keeps.wakeBanks]
theorem State.Keeps.engRead {s : State} (h : b₀.Keeps s) (c : CoreId) (e : EngCmd) (a : W64) (n : Nat) :
    b₀.Keeps (State.engRead s c e a n).2 := by
  unfold State.engRead
  grind [State.Keeps.engLoc, State.Keeps.readVa, State.Keeps.beside]
theorem State.Keeps.engWrite {s : State} (h : b₀.Keeps s) (c : CoreId) (e : EngCmd) (a : W64) (bs : List Byte) (bad : Bool) :
    b₀.Keeps (State.engWrite s c e a bs bad).2 := by
  unfold State.engWrite
  grind [State.Keeps.engLoc, State.Keeps.writeVa, State.Keeps.beside]
theorem State.Keeps.engBlock {s : State} (h : b₀.Keeps s) (c : CoreId) (e : EngCmd) (off : Nat) (bs : List Byte) :
    b₀.Keeps (State.engBlock s c e off bs).2 := by
  unfold State.engBlock
  grind [State.Keeps.storeAt, State.Keeps.beside]
theorem State.Keeps.countAt {s : State} (h : b₀.Keeps s) (h : CoreId) (off : Nat) (n : Nat) (lt : Nat) :
    b₀.Keeps (State.countAt s h off n lt).2 := by
  unfold State.countAt
  grind [State.Keeps.syncArrive, State.Keeps.foldl, State.Keeps.foldl_snd]
theorem State.Keeps.putCmd {s : State} (h : b₀.Keeps s) (c : CoreId) (k : KUnit) (e : EngCmd) :
    b₀.Keeps (State.putCmd s c k e) := by
  unfold State.putCmd
  grind [State.Keeps.modCore, State.Keeps.beside, Core.sp_setK]
/-- Accesses of a part that each keep it keep it together. -/
theorem Part.keeps_foldl {α : Type} {f : Part → α → Part} (hf : ∀ p x, b₀.Keeps p.s → b₀.Keeps (f p x).s) {p : Part} (h : b₀.Keeps p.s) (l : List α) :
    b₀.Keeps (l.foldl f p).s :=
  List.foldlRecOn (motive := fun p : Part => b₀.Keeps p.s) l f h fun _ hb x _ => hf _ x hb
theorem State.Keeps.engReads {s : State} (h : b₀.Keeps s) (c : CoreId) (src : Walker) (total : Nat) (e : EngCmd) :
    b₀.Keeps (State.engReads s c src total e).s := by
  unfold State.engReads
  refine Part.keeps_foldl (fun p x hp => Part.then_keeps hp ?_) h _
  grind [State.Keeps.engRead]
theorem vaPut_keeps (c : CoreId) (dst : Walker) (i : Nat) (bs : List (Byte × Bool)) (p : Part) (hp : b₀.Keeps p.s) :
    b₀.Keeps (vaPut c dst i bs p).s := by
  unfold vaPut
  grind [State.Keeps.engWrite]
theorem State.Keeps.engStart {s : State} (h : b₀.Keeps s) (c : CoreId) (k : KUnit) (n : Nat) :
    b₀.Keeps (State.engStart s c k n).2 := by
  unfold State.engStart
  grind [State.Keeps.acquireAction, State.Keeps.putCmd, State.Keeps.beside]
theorem State.Keeps.engFail {s : State} (h : b₀.Keeps s) (c : CoreId) (k : KUnit) (e : EngCmd) (status : Nat) :
    b₀.Keeps (State.engFail s c k e status) := by
  unfold State.engFail
  grind [State.Keeps.engineEnd, State.Keeps.wakeEnd]
theorem State.Keeps.engPart (c : CoreId) (k : KUnit) (old : EngCmd) (p : Part) (hp : b₀.Keeps p.s) :
    b₀.Keeps (State.engPart c k old p) := by
  unfold State.engPart
  extract_lets e0 e1 w spoilt e s1 s2 lt
  have h1 : b₀.Keeps s1 := hp.putCmd _ _ _
  have h2 : b₀.Keeps s2 := by
    unfold s2
    split
    · exact h1
    · have hc := h1.countAt (syncAddr c e.sw).1 (syncAddr c e.sw).2 w e.lt
      exact State.Keeps.putCmd hc _ _ _
  clear_value s1 s2
  grind [State.Keeps.engFail]
theorem State.Keeps.engPoisoned {s : State} (h : b₀.Keeps s) (c : CoreId) (k : KUnit) (e : EngCmd) (a : W64) :
    b₀.Keeps (State.engPoisoned s c k e a) := by
  unfold State.engPoisoned
  grind [State.Keeps.engineEnd, State.Keeps.modPipeOf, State.Keeps.wakeEnd, State.Keeps.beside]
theorem State.Keeps.targetPut (c : CoreId) (h : CoreId) (off : Nat) (rsw : W64) (bs : List (Byte × Bool)) (p : Part) (hp : b₀.Keeps p.s) :
    b₀.Keeps (State.targetPut c h off rsw bs p).s := by
  unfold State.targetPut
  split
  · exact hp
  · split
    · extract_lets s
      have hs : b₀.Keeps s := hp.wakeBanks _ _ _
      clear_value s
      grind [State.Keeps.wakeBanks]
    · split
      · exact hp.modPipeOf c fun p => { p with engPoison := some rsw }
      · grind [State.Keeps.storeAt, State.Keeps.countAt]
theorem State.Keeps.transfer {s : State} (h : b₀.Keeps s) (c : CoreId) (k : KUnit) (e : EngCmd) (src : Walker) (dst : Walker) (total : Nat) (copies : Nat) (put : Nat → Nat → List (Byte × Bool) → Part → Part) (hput : ∀ (y0 : Nat) (y1 : Nat) (y2 : List (Byte × Bool)) (y3 : Part), b₀.Keeps y3.s → b₀.Keeps (put y0 y1 y2 y3).s) :
    b₀.Keeps (State.transfer s c k e src dst total copies put) := by
  exact State.Keeps.engPart c k e _ (Part.then_keeps (h.engReads c src total e) (engWrites_keeps (fun _ _ _ _ _ _ _ _ _ hy => hput _ _ _ _ hy) (h.engReads c src total e)))
theorem State.Keeps.stepList {s : State} (h : b₀.Keeps s) (c : CoreId) (k : KUnit) (e : EngCmd) (list : W64) (next : Nat) (need : Nat) :
    b₀.Keeps (State.stepList s c k e list next need) := by
  unfold State.stepList
  grind [State.Keeps.engFail, State.Keeps.engRead, State.Keeps.engPoisoned, State.Keeps.putCmd, State.Keeps.foldl, State.Keeps.foldl_snd, State.Keeps.beside]
theorem State.Keeps.stepMcast {s : State} (h : b₀.Keeps s) (c : CoreId) (k : KUnit) (e : EngCmd) (src : Side) (dst : W64) (dies : List DieId) (core : Nat) (rsw : W64) :
    b₀.Keeps (State.stepMcast s c k e src dst dies core rsw) := by
  unfold State.stepMcast
  grind [State.Keeps.transfer, State.Keeps.targetPut]
theorem State.Keeps.stepHalo {s : State} (h : b₀.Keeps s) (c : CoreId) (k : KUnit) (e : EngCmd) (slabs : List Slab) (rsw : W64) (eb : Nat) :
    b₀.Keeps (State.stepHalo s c k e slabs rsw eb) := by
  unfold State.stepHalo
  grind [State.Keeps.transfer, State.Keeps.targetPut]
theorem State.Keeps.stepMopld {s : State} (h : b₀.Keeps s) (c : CoreId) (k : KUnit) (e : EngCmd) (ctrl : W32) (reg : BitVec 24) (off : Nat) (src : Side) :
    b₀.Keeps (State.stepMopld s c k e ctrl reg off src) := by
  unfold State.stepMopld
  split
  · exact h
  · have hr := h.engReads c src.walker e.total e
    refine State.Keeps.engPart c k e _ (Part.then_keeps hr (engWrites_keeps (fun i d z e bs y _ _ _ hy => ?_) hr))
    have hm := hy.modMxOf c fun m => m.loadUnit ctrl reg off (i / 1024) bs
    exact hm
theorem State.Keeps.stepApp {s : State} (h : b₀.Keeps s) (c : CoreId) (k : KUnit) (e : EngCmd) (rec : W64) (rowb : Nat) (p0 : Nat) (src : Side) :
    b₀.Keeps (State.stepApp s c k e rec rowb p0 src) := by
  unfold State.stepApp
  have hr := h.engRead c e rec 576
  split
  · rename_i he
    exact (State.Keeps.of_snd hr he).engFail _ _ _ _
  · rename_i he
    have hs := State.Keeps.of_snd hr he
    split
    · exact hs.engPoisoned _ _ _ _
    · extract_lets r row dst
      generalize dst = dst
      split
      · exact hs.engFail _ _ _ _
      · have hp := hs.engReads c src.walker e.total ‹_›
        exact State.Keeps.engPart c k e _ (Part.then_keeps hp (engWrites_keeps (fun _ _ _ _ _ _ _ _ _ hy => vaPut_keeps _ _ _ _ _ hy) hp))
theorem State.Keeps.modColl {s : State} (h : b₀.Keeps s) (n : Nat) (f : Coll → Coll) :
    b₀.Keeps (State.modColl s n f) := by
  unfold State.modColl
  grind [State.Keeps.beside]
theorem State.Keeps.stepContribute {s : State} (h : b₀.Keeps s) (c : CoreId) (k : KUnit) (e : EngCmd) (n : Nat) (q : Coll) (rank : Nat) (nocont : Bool) (len : Nat) (src : W64) :
    b₀.Keeps (State.stepContribute s c k e n q rank nocont len src) := by
  unfold State.stepContribute
  split
  · exact h
  · split
    · exact h
    · extract_lets lim isRoot p now p' ws t
      have hp : b₀.Keeps p'.s := h.engReads c (flatWalker src) lim e
      have ht : b₀.Keeps t := hp.modColl _ _
      split
      · exact State.Keeps.engPart _ _ _ _ hp
      · exact State.Keeps.engPart c k e ⟨0, _, t⟩ ht
theorem reduceStep_keeps {s : State} (h : b₀.Keeps s) (n : Nat) (rank : Nat) :
    Out.Keeps b₀ (reduceStep n rank s) := by
  unfold reduceStep
  grind [State.Keeps.modColl, State.Keeps.foldl, State.Keeps.foldl_snd, State.Keeps.beside, Out.keeps_next, Out.keeps_fault, Out.keeps_refused]
theorem State.Keeps.stepResult {s : State} (h : b₀.Keeps s) (c : CoreId) (k : KUnit) (e : EngCmd) (res : List (W32 × Bool)) (dst : W64) :
    b₀.Keeps (State.stepResult s c k e res dst) := by
  exact State.Keeps.engPart c k e _ (engWrites_keeps (fun _ _ _ _ _ _ _ _ _ hy => vaPut_keeps _ _ _ _ _ hy) h)
theorem State.Keeps.stepXred {s : State} (h : b₀.Keeps s) (c : CoreId) (k : KUnit) (e : EngCmd) (nocont : Bool) (len : Nat) (src : W64) (dst : W64) :
    b₀.Keeps (State.stepXred s c k e nocont len src dst) := by
  unfold State.stepXred
  grind [State.Keeps.stepResult, State.Keeps.stepContribute]
theorem engineWriteStep_keeps {s : State} (h : b₀.Keeps s) (k : KUnit) (n : Nat) :
    Out.Keeps b₀ (engineWriteStep k n s) := by
  unfold engineWriteStep
  extract_lets c
  split
  · exact h
  · have hs := h.engStart c k n
    split
    · exact State.Keeps.of_snd hs ‹_›
    · rename_i e t he
      have ht : b₀.Keeps t := State.Keeps.of_snd hs he
      have copy (src dst total) : b₀.Keeps (t.transfer c k e src dst total 1 fun i _ bs => vaPut c dst i bs) :=
        ht.transfer _ _ _ _ _ _ _ _ fun _ _ _ _ hp => vaPut_keeps _ _ _ _ _ hp
      split
      · exact ht.wakeWord _ _
      · split
        case h_1 => exact copy _ _ _
        case h_2 =>
          split
          · exact ht.stepList _ _ _ _ _ _
          · exact copy _ _ _
        all_goals grind [State.Keeps.stepMcast, State.Keeps.stepXred, State.Keeps.stepHalo, State.Keeps.stepMopld, State.Keeps.stepApp, Out.keeps_next]
theorem kvReserveStep_keeps {s : State} (h : b₀.Keeps s) (k : KUnit) (n : Nat) :
    Out.Keeps b₀ (kvReserveStep k n s) := by
  unfold kvReserveStep
  extract_lets c
  split
  · exact h
  · have hs := h.engStart c k n
    split
    · exact State.Keeps.of_snd hs ‹_›
    · rename_i e t he
      have ht : b₀.Keeps t := State.Keeps.of_snd hs he
      split
      · split
        · exact ht.wakeEnd _ _
        · have hl := ht.engLoc c ‹_› 64 .write
          have hm := ht.locate c ‹_› .write
          split
          · exact (State.Keeps.of_snd hl ‹_›).engFail _ _ _ _
          · exact (State.Keeps.of_snd hm ‹_›).engFail _ _ _ _
          · have hw := (State.Keeps.of_snd hm ‹_›).forWrite
            grind [State.Keeps.engPoisoned, State.Keeps.engFail, State.Keeps.storeAt, State.Keeps.engBlock, State.Keeps.putCmd, Out.keeps_next]
      · exact ht
theorem State.Keeps.rootFlags {s : State} (h : b₀.Keeps s) (c : CoreId) (e : EngCmd) (f : BitVec 2) :
    b₀.Keeps (State.rootFlags s c e f).2 := by
  unfold State.rootFlags
  grind [State.Keeps.engBlock, State.Keeps.addFlags]
theorem State.Keeps.mopldBound {s : State} (h : b₀.Keeps s) (c : CoreId) (e : EngCmd) (ctrl : W32) (btab : Option W64) :
    b₀.Keeps (State.mopldBound s c e ctrl btab).2 := by
  unfold State.mopldBound
  grind [State.Keeps.modMxOf, State.Keeps.engRead, State.Keeps.beside]
theorem State.Keeps.engDone {s : State} (h : b₀.Keeps s) (c : CoreId) (e : EngCmd) :
    ∀ x y t, State.engDone s c e = some (x, y, t) → b₀.Keeps t := by
  unfold State.engDone
  intro x y t
  extract_lets full st
  clear_value full st
  have hb := h.mopldBound c e
  have hr := h.rootFlags c e
  split
  case h_6 ctrl _ _ _ _ btab _ =>
    specialize hb ctrl btab
    generalize s.mopldBound c e ctrl btab = p at hb ⊢
    grind
  all_goals grind
theorem engineCompleteStep_keeps {s : State} (h : b₀.Keeps s) (k : KUnit) (n : Nat) :
    Out.Keeps b₀ (engineCompleteStep k n s) := by
  unfold engineCompleteStep
  extract_lets c at'
  have ha : b₀.Keeps at'.2 := by
    unfold at'
    split
    · exact h
    · exact h.engStart _ _ _
  generalize at' = p at ha ⊢
  obtain ⟨_ | e, t⟩ := p
  · split <;> assumption
  · have hd := ha.engDone c e
    split
    · exact h
    · dsimp only at ha hd ⊢
      split
      · exact ha
      · rename_i x e' u he
        have hu := hd _ _ _ he
        split
        · exact hu
        · split
          · exact State.Keeps.foldl (fun s l hs => hs.writeBack l) ha _
          · split
            · exact hu.engineEnd _ _ _ _
            · exact ha.wakeEnd _ _
theorem callStep_keeps {s : State} (h : b₀.Keeps s) (n : Nat) (rank : Nat) :
    Out.Keeps b₀ (callStep n rank s) := by
  unfold callStep
  split
  · exact h
  · split
    · exact h
    · split
      · exact h
      · extract_lets c first
        split
        · exact h
        · split
          · exact h
          · exact h.modColl _ _
theorem State.Keeps.startAll {s : State} (h : b₀.Keeps s) (q : Coll) :
    b₀.Keeps (State.startAll s q) := by
  unfold State.startAll
  grind [State.Keeps.engStart, State.Keeps.foldl, State.Keeps.foldl_snd]
theorem State.Keeps.failColl {s : State} (h : b₀.Keeps s) (n : Nat) (x : Nat) :
    b₀.Keeps (State.failColl s n x) := by
  unfold State.failColl
  grind [State.Keeps.modColl, State.Keeps.beside]
theorem State.Keeps.engGather {s : State} (h : b₀.Keeps s) (c : CoreId) (n : Nat) (e : EngCmd) (x0 : List W64) :
    b₀.Keeps (State.engGather s c n e x0).2 := by
  fun_induction State.engGather s c n e x0 <;> grind [State.Keeps.engRead]
theorem State.Keeps.reshPiece {s : State} (h : b₀.Keeps s) (n : Nat) (q : Coll) (src : Nat) (dst : Nat) (eb : Nat) (p : List (W64 × W64)) :
    b₀.Keeps (State.reshPiece s n q src dst eb p) := by
  unfold State.reshPiece
  split
  · rename_i c k e d kh eh _ _
    have hg := h.engGather c eb e (p.map (·.1))
    split
    · exact (State.Keeps.of_snd hg ‹_›).failColl _ _
    · rename_i bs bad e' t he
      have ht : b₀.Keeps t := State.Keeps.of_snd hg he
      extract_lets u
      have hu : b₀.Keeps u := ht.putCmd _ _ _
      have hw := hu.engWrite d e' (p.headD (0, 0)).2 bs bad
      clear_value u
      split
      · exact (State.Keeps.of_snd hw ‹_›).failColl _ _
      · exact (State.Keeps.of_snd hw ‹_›).putCmd _ _ _
  · exact h
theorem State.Keeps.reshSend {s : State} (h : b₀.Keeps s) (n : Nat) (q : Coll) (src : Nat) (dst : Nat) (old : Nat × W64) (new : Nat × W64) (dim : BitVec 24) :
    b₀.Keeps (State.reshSend s n q src dst old new dim) := by
  unfold State.reshSend
  grind [State.Keeps.reshPiece, State.Keeps.foldl, State.Keeps.foldl_snd]
theorem State.Keeps.orBanks {s t : State} (h : b₀.Keeps s) (ht : b₀.Keeps t) (n : Nat) :
    b₀.Keeps (State.orBanks s t n).1 := by
  unfold State.orBanks
  split
  · exact h.remake (fun hw => hw) (fun hw => hw) (fun hw => hw) (fun c hw => by rw [Vector.getElem_ofFn]; exact hw) (fun hw => hw)
  · exact ht
theorem reshPhaseStep_keeps {s : State} (h : b₀.Keeps s) (n : Nat) :
    Out.Keeps b₀ (reshPhaseStep n s) := by
  unfold reshPhaseStep
  split
  · exact h
  · extract_lets mine t size
    have ht : b₀.Keeps t := by
      unfold t
      split
      · exact h.startAll _
      · exact h
    clear_value mine t
    split
    · exact ht
    · split
      · exact ht
      · extract_lets send
        have hs : b₀.Keeps (if ‹Coll›.phase < size then ‹Coll›.parts.foldl send t else t) := by
          split
          · exact State.Keeps.foldl (fun s r hs => hs.reshSend _ _ _ _ _ _ _) ht _
          · exact ht
        have ho := ht.orBanks hs n
        split
        rename_i u all he
        have hu : b₀.Keeps u := by
          rw [he] at ho
          exact ho
        rw [Out.keeps_next]
        split
        · exact hu.modColl _ _
        · exact hu
theorem State.Keeps.zeroUnreached {s : State} (h : b₀.Keeps s) (n : Nat) (q : Coll) (om : Nat) (ob : W64) (dim : BitVec 24) (nm : Nat) (nb : W64) (r : Nat) :
    b₀.Keeps (State.zeroUnreached s n q om ob dim nm nb r) := by
  unfold State.zeroUnreached
  split
  · split
    · refine State.Keeps.putCmd (s := (List.foldl _ (_, s) _).2) (State.Keeps.foldl_snd (fun a p ha => ?_) h _) _ _ _
      have hw := ha.engWrite
      grind [State.Keeps.failColl]
    · exact h
  · exact h
theorem State.Keeps.setShard {s : State} (h : b₀.Keeps s) (job : Nat) (mode : W64) (blk : W64) :
    b₀.Keeps (State.setShard s job mode blk) := by
  unfold State.setShard
  extract_lets f cores saved fw t
  have ht : b₀.Keeps t := h.remake (fun hw => hw) (fun hw => hw) (fun hw => hw) (fun c hw => by
    rw [Vector.getElem_map]
    unfold f
    split <;> exact hw) (forall_saved_map fun v => by
    unfold f
    dsimp only
    split <;> rfl)
  exact ht.modJob _ _
theorem reshSwitchStep_keeps {s : State} (h : b₀.Keeps s) (n : Nat) :
    Out.Keeps b₀ (reshSwitchStep n s) := by
  unfold reshSwitchStep
  split
  · exact h
  · rename_i q hq
    extract_lets last
    split
    · exact h
    · split
      · exact h
      · rename_i om ob dim nm nb hm
        split
        · have ho := h.orBanks (State.Keeps.foldl (fun s r hs => hs.zeroUnreached n q om ob dim nm nb r) h q.parts) n
          split
          rename_i u all he
          have hu : b₀.Keeps u := by
            rw [he] at ho
            exact ho
          rw [Out.keeps_next]
          split
          · exact hu.modColl _ _
          · exact hu
        · extract_lets cmds t
          split
          · exact State.Keeps.foldl (fun s l hs => hs.writeBack l) h _
          · split
            · exact State.Keeps.foldl (fun s x hs => hs.wakeEnd _ _) h _
            · refine State.Keeps.foldl (fun s r hs => ?_) (h.setShard _ _ _) _
              split
              · exact hs.engineEnd _ _ _ _
              · exact hs

end
end Sys2Proof.Machine
end

section
/-! PROOFS. `State.Keeps`: what the events and crews keep. -/
namespace Sys2Proof.Machine
set_option Elab.async false
section
variable {b₀ : State}

theorem execBundleDecode_keeps {s : State} (h : b₀.Keeps s) :
    Out.Keeps b₀ (execBundleDecode s) := by
  unfold execBundleDecode
  grind [State.Keeps.dispatchOne, Out.keeps_next, Out.keeps_fault, Out.keeps_refused]
theorem execResultLanding_keeps {s : State} (h : b₀.Keeps s) (u : Unit7) :
    Out.Keeps b₀ (execResultLanding u s) := by
  unfold execResultLanding
  split
  · exact h
  · split
    · exact landing_take_keeps (h.modPipe _) _
    · exact landing_take_keeps (h.modPipe _) _
theorem execLongCompletion_keeps {s : State} (h : b₀.Keeps s) (n : Nat) :
    Out.Keeps b₀ (execLongCompletion n s) := by
  unfold execLongCompletion
  grind [State.Keeps.modPipe, State.Keeps.completeLong, State.Keeps.beside, Out.keeps_next, Out.keeps_fault, Out.keeps_refused]
theorem execTrapEntry_keeps {s : State} (h : b₀.Keeps s) :
    Out.Keeps b₀ (execTrapEntry s) := by
  unfold execTrapEntry
  grind [State.Keeps.performAll, State.Keeps.modPipe, State.Keeps.takeTrap, State.Keeps.beside, Out.keeps_next, Out.keeps_fault, Out.keeps_refused]
theorem State.Keeps.consumeAsync {s : State} (h : b₀.Keeps s) (addr : W64) :
    b₀.Keeps (State.consumeAsync s addr) := by
  unfold State.consumeAsync
  grind [State.Keeps.modPipe, State.Keeps.dispatchTo, State.Keeps.takeTrap, State.Keeps.unwind, State.Keeps.foldl, State.Keeps.foldl_snd, State.Keeps.beside]
theorem execContainmentUnwind_keeps {s : State} (h : b₀.Keeps s) :
    Out.Keeps b₀ (execContainmentUnwind s) := by
  unfold execContainmentUnwind
  grind [State.Keeps.modMe, State.Keeps.performAll, State.Keeps.consumeAsync, State.Keeps.wakeUnwinds, Core.sp_recordWaits, Out.keeps_next, Out.keeps_fault, Out.keeps_refused]
theorem execPageWalk_keeps {s : State} (h : b₀.Keeps s) (va : W64) :
    Out.Keeps b₀ (execPageWalk va s) := by
  unfold execPageWalk
  grind [State.Keeps.leafFor, Out.keeps_next, Out.keeps_fault, Out.keeps_refused]
theorem execTranslationFault_keeps {s : State} (h : b₀.Keeps s) (va : W64) (acc : Access) :
    Out.Keeps b₀ (execTranslationFault va acc s) := by
  unfold execTranslationFault
  have hl := h.leafFor s.cur va.toNat
  generalize s.leafFor s.cur va.toNat = p at hl ⊢
  obtain ⟨r, t⟩ := p
  rw [Out.keeps_next]
  split
  · have hr := State.Keeps.resolveFault hl s.me.task.ctx va.toNat acc r.isSome
    dsimp only at hr ⊢
    generalize t.resolveFault _ _ _ _ = q at hr ⊢
    cases q with
    | none => exact hl
    | some u => exact hr u rfl
  · exact h
theorem execCollapseFault_keeps {s : State} (h : b₀.Keeps s) (va : W64) :
    Out.Keeps b₀ (execCollapseFault va s) := by
  unfold execCollapseFault
  grind [State.Keeps.collapse, Out.keeps_next, Out.keeps_fault, Out.keeps_refused]
theorem execHomeAccess_keeps {s : State} (h : b₀.Keeps s) (n : Nat) :
    Out.Keeps b₀ (execHomeAccess n s) := by
  unfold execHomeAccess
  grind [State.Keeps.performReq, State.Keeps.endOwed, Out.keeps_next, Out.keeps_fault, Out.keeps_refused]
theorem State.Keeps.performMerged {s : State} (h : b₀.Keeps s) (l : List (CoreId × Req)) :
    b₀.Keeps (State.performMerged s l) := by
  unfold State.performMerged
  grind [State.Keeps.performReq, State.Keeps.endOwed, State.Keeps.foldl, State.Keeps.foldl_snd]
theorem execAtomicAtHome_keeps {s : State} (h : b₀.Keeps s) (parts : List (CoreId × Nat)) :
    Out.Keeps b₀ (execAtomicAtHome parts s) := by
  unfold execAtomicAtHome
  grind [State.Keeps.performMerged, Out.keeps_next, Out.keeps_fault, Out.keeps_refused]
theorem execFlueWaitExpiry_keeps {s : State} (h : b₀.Keeps s) (n : Nat) :
    Out.Keeps b₀ (execFlueWaitExpiry n s) := by
  unfold execFlueWaitExpiry
  grind [State.Keeps.performMerged, Out.keeps_next, Out.keeps_fault, Out.keeps_refused]
theorem execLogicalTimeAdvance_keeps {s : State} (h : b₀.Keeps s) (k : BitVec 2) :
    Out.Keeps b₀ (execLogicalTimeAdvance k s) := by
  unfold execLogicalTimeAdvance
  grind [State.Keeps.setLt, Out.keeps_next, Out.keeps_fault, Out.keeps_refused]
theorem execLineWriteback_keeps {s : State} (h : b₀.Keeps s) (line : Nat) :
    Out.Keeps b₀ (execLineWriteback line s) := by
  unfold execLineWriteback
  grind [State.Keeps.writeBack, State.Keeps.beside, Out.keeps_next, Out.keeps_fault, Out.keeps_refused]
theorem execPersistTrackerWriteback_keeps {s : State} (h : b₀.Keeps s) :
    Out.Keeps b₀ (execPersistTrackerWriteback s) := by
  unfold execPersistTrackerWriteback
  grind [State.Keeps.writeBack, State.Keeps.trackersClean, Out.keeps_next, Out.keeps_fault, Out.keeps_refused]
theorem execDurableCompletion_keeps {s : State} (h : b₀.Keeps s) (n : Nat) :
    Out.Keeps b₀ (execDurableCompletion n s) := by
  unfold execDurableCompletion
  grind [State.Keeps.granuleDone, State.Keeps.trackersClean, State.Keeps.beside, Out.keeps_next, Out.keeps_fault, Out.keeps_refused]
theorem State.Keeps.modMig {s : State} (h : b₀.Keeps s) (n : Nat) (f : Migration → Migration) :
    b₀.Keeps (State.modMig s n f) := by
  unfold State.modMig
  grind [State.Keeps.beside]
theorem execMigrationCopyPass_keeps {s : State} (h : b₀.Keeps s) (n : Nat) :
    Out.Keeps b₀ (execMigrationCopyPass n s) := by
  unfold execMigrationCopyPass
  grind [State.Keeps.moveLine, State.Keeps.modMig, State.Keeps.foldl, State.Keeps.foldl_snd, State.Keeps.beside, Out.keeps_next, Out.keeps_fault, Out.keeps_refused]
theorem execMigrationSwitch_keeps {s : State} (h : b₀.Keeps s) (n : Nat) :
    Out.Keeps b₀ (execMigrationSwitch n s) := by
  unfold execMigrationSwitch
  grind [State.Keeps.journal, State.Keeps.modMig, State.Keeps.finishSwitch, State.Keeps.releaseHeld, State.Keeps.endOwed, State.Keeps.beside, Out.keeps_next, Out.keeps_fault, Out.keeps_refused]
theorem execMigrationRedirectEnd_keeps {s : State} (h : b₀.Keeps s) (n : Nat) :
    Out.Keeps b₀ (execMigrationRedirectEnd n s) := by
  unfold execMigrationRedirectEnd
  grind [State.Keeps.startQueued, State.Keeps.retireDone, State.Keeps.beside, Out.keeps_next, Out.keeps_fault, Out.keeps_refused]
theorem State.Keeps.countSoft {s : State} (h : b₀.Keeps s) (ctx : BitVec 16) :
    b₀.Keeps (State.countSoft s ctx) := by
  unfold State.countSoft
  grind [State.Keeps.modCtx, State.Keeps.beside]
theorem State.Keeps.evict {s : State} (h : b₀.Keeps s) (x : Ctx) (bad : Nat) (p : LeafAt) :
    b₀.Keeps (State.evict s x bad p) := by
  unfold State.evict
  grind [State.Keeps.unreplicate, State.Keeps.writeLeaf, State.Keeps.appendLog, State.Keeps.startMigration, State.Keeps.beside]
theorem State.Keeps.redoInto {s : State} (h : b₀.Keeps s) (f : Nat) :
    b₀.Keeps (State.redoInto s f) := by
  unfold State.redoInto
  extract_lets mine s1
  have h1 : b₀.Keeps s1 := State.Keeps.foldl (fun s g hs => hs.finishSwitch g) h _
  clear_value s1
  split
  split
  extract_lets s2
  have h2 : b₀.Keeps s2 := State.Keeps.foldl (fun s g hs => hs.setMg g false) h1 _
  have h3 (l q) : b₀.Keeps { s2 with m := { s2.m with migs := l, migQueue := q } } := h2.beside rfl rfl rfl rfl
  refine State.Keeps.foldl (fun s g hs => ?_) (h3 _ _) _
  split
  · exact hs.startMigration _
  · exact hs
theorem State.Keeps.retireFrame {s : State} (h : b₀.Keeps s) (d : DieId) (f : Nat) :
    b₀.Keeps (State.retireFrame s d f) := by
  unfold State.retireFrame
  grind [State.Keeps.modDie, State.Keeps.redoInto, State.Keeps.evict, State.Keeps.retireDone, State.Keeps.foldl, State.Keeps.foldl_snd, State.Keeps.beside]
theorem State.Keeps.retireRow {s : State} (h : b₀.Keeps s) (d : DieId) (row : Nat) :
    b₀.Keeps (State.retireRow s d row) := by
  unfold State.retireRow
  grind [State.Keeps.modDie, State.Keeps.rasEvent, State.Keeps.retireFrame, State.Keeps.beside]
theorem State.Keeps.readError {s : State} (h : b₀.Keeps s) (pa : Nat) (bad : Bool) :
    b₀.Keeps (State.readError s pa bad) := by
  unfold State.readError
  grind [State.Keeps.rasEvent, State.Keeps.retireRow, State.Keeps.countSoft, State.Keeps.modDie, State.Keeps.beside]
theorem execHbmReadError_keeps {s : State} (h : b₀.Keeps s) (pa : Nat) (uncorrectable : Bool) :
    Out.Keeps b₀ (execHbmReadError pa uncorrectable s) := by
  unfold execHbmReadError
  grind [State.Keeps.readError, Out.keeps_next, Out.keeps_fault, Out.keeps_refused]
theorem execPatrolScrub_keeps {s : State} (h : b₀.Keeps s) (d : DieId) (errs : List (Nat × Bool)) :
    Out.Keeps b₀ (execPatrolScrub d errs s) := by
  unfold execPatrolScrub
  grind [State.Keeps.readError, State.Keeps.foldl, State.Keeps.foldl_snd, Out.keeps_next, Out.keeps_fault, Out.keeps_refused]
theorem execBankIdleExpiry_keeps {s : State} (h : b₀.Keeps s) (b : Nat) :
    Out.Keeps b₀ (execBankIdleExpiry b s) := by
  unfold execBankIdleExpiry
  grind [State.Keeps.modMe, State.Keeps.beside, Out.keeps_next, Out.keeps_fault, Out.keeps_refused]
theorem execBankEntryComplete_keeps {s : State} (h : b₀.Keeps s) (b : Nat) :
    Out.Keeps b₀ (execBankEntryComplete b s) := by
  unfold execBankEntryComplete
  grind [State.Keeps.modMe, State.Keeps.beside, Out.keeps_next, Out.keeps_fault, Out.keeps_refused]
theorem execBankExitComplete_keeps {s : State} (h : b₀.Keeps s) (b : Nat) :
    Out.Keeps b₀ (execBankExitComplete b s) := by
  unfold execBankExitComplete
  grind [State.Keeps.modMe, State.Keeps.endOwed, State.Keeps.beside, Out.keeps_next, Out.keeps_fault, Out.keeps_refused]
theorem State.Keeps.structError {s : State} (h : b₀.Keeps s) (d : DieId) (structure_ : Nat) (ctx : BitVec 16) (bad : Bool) :
    b₀.Keeps (State.structError s d structure_ ctx bad) := by
  unfold State.structError
  grind [State.Keeps.countSoft, State.Keeps.rasEvent]
theorem State.Keeps.spoilLine {s : State} (h : b₀.Keeps s) (d : DieId) (line : Nat) :
    b₀.Keeps (State.spoilLine s d line) := by
  unfold State.spoilLine
  grind [State.Keeps.modDie, State.Keeps.beside]
theorem State.Keeps.upset {s : State} (h : b₀.Keeps s) (u : Upset) :
    b₀.Keeps (State.upset u s) := by
  unfold State.upset
  extract_lets ctx
  have he (d : DieId) (n : Nat) (x : BitVec 16) (bad : Bool) := h.structError d n x bad
  split
  · exact h
  · split
    case h_1 _ c off bits =>
      extract_lets least
      clear_value least
      split
      · exact h
      · split
        · exact he _ _ _ _
        · exact State.Keeps.modCore (he _ _ _ _) _ rfl
    case h_2 _ d a bad =>
      split
      · exact State.Keeps.spoilLine (he _ _ _ _) _ _
      · exact he _ _ _ _
    case h_3 _ d ls bad =>
      split
      · exact State.Keeps.foldl (fun s a hs => hs.spoilLine _ _) (he _ _ _ _) _
      · exact he _ _ _ _
    case h_4 _ c f bad =>
      split
      · exact State.Keeps.modPipeOf (he _ _ _ _) _ _
      · exact he _ _ _ _
    case h_5 _ c slot off bad =>
      split
      · exact State.Keeps.modCore (he _ _ _ _) _ rfl
      · exact he _ _ _ _
    case h_6 _ c b i j bad =>
      split
      · exact State.Keeps.modCore (he _ _ _ _) _ rfl
      · exact he _ _ _ _
    case h_7 => exact State.Keeps.modPipeOf (he _ _ _ _) _ _
    case h_8 => exact State.Keeps.modPipeOf (he _ _ _ _) _ _
    case h_9 => exact he _ _ _ _
    case h_10 => exact State.Keeps.modDie (State.Keeps.modCore (he _ _ _ _) _ rfl) _ _
    case h_11 =>
      extract_lets t
      split
      · exact State.Keeps.killContext (he _ _ _ _) _ _ _ _ _ _ _
      · exact he _ _ _ _
theorem execSyncArrival_keeps {s : State} (h : b₀.Keeps s) (c : CoreId) (off : Nat) (w : W32) :
    Out.Keeps b₀ (execSyncArrival c off w s) := by
  unfold execSyncArrival
  rw [Out.keeps_next]
  split
  · exact h
  · split
    · exact h.syncArrive _ _ _ _
    · exact h.wakeBanks _ _ _
theorem State.Keeps.serve {s : State} (h : b₀.Keeps s) (n : Nat) :
    b₀.Keeps (State.serve s n) := by
  unfold State.serve
  grind [State.Keeps.completeSvc]
theorem execMapreq_keeps {s : State} (h : b₀.Keeps s) :
    Out.Keeps b₀ (execMapreq s) := by
  unfold execMapreq
  grind [State.Keeps.serve, Out.keeps_next, Out.keeps_fault, Out.keeps_refused]
theorem execUnmapreq_keeps {s : State} (h : b₀.Keeps s) :
    Out.Keeps b₀ (execUnmapreq s) := by
  unfold execUnmapreq
  grind [State.Keeps.serve, Out.keeps_next, Out.keeps_fault, Out.keeps_refused]
theorem execProtreq_keeps {s : State} (h : b₀.Keeps s) :
    Out.Keeps b₀ (execProtreq s) := by
  unfold execProtreq
  grind [State.Keeps.serve, Out.keeps_next, Out.keeps_fault, Out.keeps_refused]
theorem execNotify_keeps {s : State} (h : b₀.Keeps s) :
    Out.Keeps b₀ (execNotify s) := by
  unfold execNotify
  grind [State.Keeps.serve, Out.keeps_next, Out.keeps_fault, Out.keeps_refused]
theorem execRascount_keeps {s : State} (h : b₀.Keeps s) :
    Out.Keeps b₀ (execRascount s) := by
  unfold execRascount
  grind [State.Keeps.serve, Out.keeps_next, Out.keeps_fault, Out.keeps_refused]
/-- A core put in place whose scratchpad is canonical where every memory of the start was. -/
theorem State.Keeps.putCore {s : State} (h : b₀.Keeps s) (c : CoreId) {k : Core} (hk : b₀.memWf → Memory.wf k.sp = true) : b₀.Keeps (s.setCore c k) :=
  ⟨h.cur, fun hb => (h.setCore c fun _ => hk hb).memWf hb⟩
theorem State.Keeps.core_wf {s : State} (h : b₀.Keeps s) (hb : b₀.memWf) (c : CoreId) : Memory.wf (s.core c).sp = true := by
  obtain ⟨_, _, _, hc, _⟩ := h.memWf hb
  exact hc c
theorem State.Keeps.saved_wf {s : State} (h : b₀.Keeps s) (hb : b₀.memWf) {v : SavedTask} (hv : v ∈ s.fw.saved) : Memory.wf v.core.sp = true := by
  obtain ⟨_, _, _, _, hs⟩ := h.memWf hb
  exact hs v hv
/-- Saved tasks put in place of the ones there, whose scratchpads are canonical where every memory of the start was. -/
theorem State.Keeps.putSaved {s : State} (h : b₀.Keeps s) {fw : Firmware} (hs : b₀.memWf → ∀ v ∈ fw.saved, Memory.wf v.core.sp = true) : b₀.Keeps { s with fw := fw } := by
  refine ⟨h.cur, fun hb => ?_⟩
  obtain ⟨h1, h2, h3, h4, _⟩ := h.memWf hb
  exact ⟨h1, h2, h3, h4, hs hb⟩
theorem State.Keeps.freeCore {s : State} (h : b₀.Keeps s) (c : CoreId) :
    b₀.Keeps (State.freeCore s c) := by
  unfold State.freeCore
  extract_lets k s1 s2
  have h2 : b₀.Keeps s2 := (h.modDie _ _).modCtx _ _
  exact h2.putCore c fun hb => h.core_wf hb c
theorem State.Keeps.moveColls {s : State} (h : b₀.Keeps s) (j : Job) (dies : List DieId) (b : Nat) :
    b₀.Keeps (State.moveColls s j dies b) := by
  unfold State.moveColls
  grind [State.Keeps.beside]
theorem State.Keeps.withSaved {s : State} (h : b₀.Keeps s) (job : Nat) (f : State → Out) (hf : ∀ (y0 : State), b₀.Keeps y0 → Out.Keeps b₀ (f y0)) :
    Out.Keeps b₀ (State.withSaved s job f) := by
  unfold State.withSaved
  extract_lets l t
  have ht : b₀.Keeps t := List.foldlRecOn (motive := fun u : State => b₀.Keeps u) l _ h fun u hu v hv => by
    have hp (k : Core) (hk : k.sp = v.core.sp) : b₀.Keeps (u.setCore v.place k) := hu.putCore _ fun hb => hk ▸ h.saved_wf hb (List.mem_of_mem_filter hv)
    extract_lets d k
    have hk := hp { k with tlb := tlbPurge d.log k.tlb } rfl
    exact hk.modDie _ _
  have hu := hf t ht
  clear_value t
  generalize f t = o at hu ⊢
  cases o with
  | fault e => exact hu
  | refused r => exact hu
  | next u =>
    dsimp -zeta only
    extract_lets back fw u'
    have hk : b₀.Keeps u := hu
    have h' : b₀.Keeps u' := hk.putSaved fun hb v hv => by
      obtain ⟨w, hw, rfl⟩ := List.mem_map.1 hv
      split
      · exact hk.core_wf hb _
      · exact hk.saved_wf hb hw
    refine State.Keeps.foldl (fun w v hw => ?_) h' l
    extract_lets k
    have hk := h.core_wf (c := v.place)
    exact hw.putCore _ hk
theorem State.Keeps.onCommand {s : State} (h : b₀.Keeps s) (k : KUnit) (n : Nat) (f : Nat → State → Out) (hf : ∀ (y0 : Nat) (y1 : State), b₀.Keeps y1 → Out.Keeps b₀ (f y0 y1)) :
    Out.Keeps b₀ (State.onCommand s k n f) := by
  unfold State.onCommand
  grind [State.Keeps.withSaved, Out.keeps_next, Out.keeps_fault, Out.keeps_refused]
theorem State.Keeps.onColl {s : State} (h : b₀.Keeps s) (n : Nat) (f : State → Out) (hf : ∀ (y0 : State), b₀.Keeps y0 → Out.Keeps b₀ (f y0)) :
    Out.Keeps b₀ (State.onColl s n f) := by
  unfold State.onColl
  grind [State.Keeps.withSaved, Out.keeps_next, Out.keeps_fault, Out.keeps_refused]
theorem execEngineWritePerformed_keeps {s : State} (h : b₀.Keeps s) (k : KUnit) (n : Nat) :
    Out.Keeps b₀ (execEngineWritePerformed k n s) := by
  unfold execEngineWritePerformed
  grind [State.Keeps.onCommand, engineWriteStep_keeps]
theorem execKvReservation_keeps {s : State} (h : b₀.Keeps s) (k : KUnit) (n : Nat) :
    Out.Keeps b₀ (execKvReservation k n s) := by
  unfold execKvReservation
  grind [State.Keeps.onCommand, kvReserveStep_keeps]
theorem execEngineCompletion_keeps {s : State} (h : b₀.Keeps s) (k : KUnit) (n : Nat) :
    Out.Keeps b₀ (execEngineCompletion k n s) := by
  unfold execEngineCompletion
  grind [State.Keeps.onCommand, engineCompleteStep_keeps]
theorem execReductionCombine_keeps {s : State} (h : b₀.Keeps s) (n : Nat) (rank : Nat) :
    Out.Keeps b₀ (execReductionCombine n rank s) := by
  unfold execReductionCombine
  grind [State.Keeps.onColl, reduceStep_keeps]
theorem execCollectiveCall_keeps {s : State} (h : b₀.Keeps s) (n : Nat) (rank : Nat) :
    Out.Keeps b₀ (execCollectiveCall n rank s) := by
  unfold execCollectiveCall
  grind [State.Keeps.onColl, callStep_keeps]
theorem execXreshPhase_keeps {s : State} (h : b₀.Keeps s) (n : Nat) :
    Out.Keeps b₀ (execXreshPhase n s) := by
  unfold execXreshPhase
  grind [State.Keeps.onColl, reshPhaseStep_keeps]
theorem execXreshSwitch_keeps {s : State} (h : b₀.Keeps s) (n : Nat) :
    Out.Keeps b₀ (execXreshSwitch n s) := by
  unfold execXreshSwitch
  grind [State.Keeps.onColl, reshSwitchStep_keeps]

end
end Sys2Proof.Machine
end

section
/-! PROOFS. `State.Keeps`: what the fabric and the scheduler keep. -/
namespace Sys2Proof.Machine
set_option Elab.async false
section
variable {b₀ : State}

theorem State.Keeps.dropPacket {s : State} (h : b₀.Keeps s) (n : Nat) :
    b₀.Keeps (State.dropPacket s n) := by
  unfold State.dropPacket
  grind [State.Keeps.beside]
theorem execPacketHop_keeps {s : State} (h : b₀.Keeps s) (n : Nat) :
    Out.Keeps b₀ (execPacketHop n s) := by
  unfold execPacketHop
  grind [State.Keeps.dropPacket, State.Keeps.rasEvent, State.Keeps.beside, Out.keeps_next, Out.keeps_fault, Out.keeps_refused]
theorem execFlitCrcFailure_keeps {s : State} (h : b₀.Keeps s) (d : DieId) (port : Nat) :
    Out.Keeps b₀ (execFlitCrcFailure d port s) := by
  unfold execFlitCrcFailure
  grind [State.Keeps.countSoft, State.Keeps.rasEvent, Out.keeps_next, Out.keeps_fault, Out.keeps_refused]
theorem execLinkDown_keeps {s : State} (h : b₀.Keeps s) (d : DieId) (port : Nat) :
    Out.Keeps b₀ (execLinkDown d port s) := by
  unfold execLinkDown
  grind [State.Keeps.modDie, State.Keeps.rasEvent, State.Keeps.beside, Out.keeps_next, Out.keeps_fault, Out.keeps_refused]
theorem execChannelDelivery_keeps {s : State} (h : b₀.Keeps s) (n : Nat) :
    Out.Keeps b₀ (execChannelDelivery n s) := by
  unfold execChannelDelivery
  grind [State.Keeps.dropPacket, State.Keeps.modChan, State.Keeps.retryWaits, State.Keeps.beside, Out.keeps_next, Out.keeps_fault, Out.keeps_refused]
theorem execAshpitRefill_keeps {s : State} (h : b₀.Keeps s) (ch : BitVec 3) :
    Out.Keeps b₀ (execAshpitRefill ch s) := by
  unfold execAshpitRefill
  grind [State.Keeps.modChan, State.Keeps.modCtx, State.Keeps.retryWaits, State.Keeps.beside, Out.keeps_next, Out.keeps_fault, Out.keeps_refused]
theorem State.Keeps.hangKill {s : State} (h : b₀.Keeps s) (id : BitVec 16) (reason : Nat) :
    b₀.Keeps (State.hangKill s id reason) := by
  unfold State.hangKill
  grind [State.Keeps.killContext]
theorem State.Keeps.plainKill {s : State} (h : b₀.Keeps s) (id : BitVec 16) (reason : Nat) :
    b₀.Keeps (State.plainKill s id reason) := by
  unfold State.plainKill
  grind [State.Keeps.killContext]
theorem State.Keeps.growOne {s : State} (h : b₀.Keeps s) (d : DieId) (x : Ctx) :
    b₀.Keeps (State.growOne s d x) := by
  unfold State.growOne
  grind [State.Keeps.hangKill, State.Keeps.modDie, State.Keeps.modChan, State.Keeps.unrefuse, State.Keeps.foldl, State.Keeps.foldl_snd, State.Keeps.beside]
theorem execGrowCheck_keeps {s : State} (h : b₀.Keeps s) (d : DieId) :
    Out.Keeps b₀ (execGrowCheck d s) := by
  unfold execGrowCheck
  grind [State.Keeps.growOne, State.Keeps.foldl, State.Keeps.foldl_snd, Out.keeps_next, Out.keeps_fault, Out.keeps_refused]
theorem State.Keeps.hostWrite {s : State} (h : b₀.Keeps s) (a : Nat) (bs : List Byte) :
    b₀.Keeps (State.hostWrite s a bs) := by
  unfold State.hostWrite
  grind [State.Keeps.beside, State.Keeps.stored, Memory.wf_writeBytes, Memory.wf_writeN, Memory.wf_clear]
theorem State.Keeps.fwWrite {s : State} (h : b₀.Keeps s) (a : Nat) (bs : List Byte) :
    b₀.Keeps (State.fwWrite s a bs) := by
  unfold State.fwWrite
  grind [State.Keeps.forWrite, State.Keeps.storeAt, State.Keeps.foldl, State.Keeps.foldl_snd]
theorem State.Keeps.cmdWrite {s : State} (h : b₀.Keeps s) (a : W64) (bs : List Byte) :
    b₀.Keeps (State.cmdWrite s a bs) := by
  unfold State.cmdWrite
  grind [State.Keeps.hostWrite, State.Keeps.fwWrite]
theorem State.Keeps.streamAt {s : State} (h : b₀.Keeps s) (j : Job) (lt : Nat) :
    b₀.Keeps (State.streamAt s j lt) := by
  unfold State.streamAt
  grind [State.Keeps.beside]
theorem State.Keeps.writeDone {s : State} (h : b₀.Keeps s) (j : Job) (v : W64) :
    b₀.Keeps (State.writeDone s j v) := by
  unfold State.writeDone
  grind [State.Keeps.streamAt, State.Keeps.forWrite, State.Keeps.storeAt]
theorem State.Keeps.endCmd {s : State} (h : b₀.Keeps s) (x : Cmd) (status : Nat) (result : Option W64) :
    b₀.Keeps (State.endCmd s x status result) := by
  unfold State.endCmd
  grind [State.Keeps.drawFree, State.Keeps.hostWrite, State.Keeps.beside]
theorem State.Keeps.sweepUnknown {s : State} (h : b₀.Keeps s) (x0 : Nat) :
    b₀.Keeps (State.sweepUnknown s x0) := by
  fun_induction State.sweepUnknown s x0 <;> grind [State.Keeps.endCmd]
theorem State.Keeps.finishCmd {s : State} (h : b₀.Keeps s) (x : Cmd) (status : Nat) (result : Option W64) :
    b₀.Keeps (State.finishCmd s x status result) := by
  unfold State.finishCmd
  grind [State.Keeps.endCmd, State.Keeps.sweepUnknown]
theorem State.Keeps.finishBegun {s : State} (h : b₀.Keeps s) (opc : Nat) (f : Cmd → Bool) :
    b₀.Keeps (State.finishBegun s opc f) := by
  unfold State.finishBegun
  grind [State.Keeps.finishCmd, State.Keeps.foldl, State.Keeps.foldl_snd]
theorem execKillDrainAck_keeps {s : State} (h : b₀.Keeps s) (ctx : BitVec 16) (d : DieId) :
    Out.Keeps b₀ (execKillDrainAck ctx d s) := by
  unfold execKillDrainAck
  grind [State.Keeps.modDie, State.Keeps.beside, Out.keeps_next, Out.keeps_fault, Out.keeps_refused]
theorem State.Keeps.dropTree {s : State} (h : b₀.Keeps s) (id : BitVec 16) :
    b₀.Keeps (State.dropTree s id) := by
  unfold State.dropTree
  grind [State.Keeps.foldl, State.Keeps.foldl_snd, State.Keeps.beside]
theorem State.Keeps.refund {s : State} (h : b₀.Keeps s) (l : List SavedTask) :
    b₀.Keeps (State.refund s l) := by
  unfold State.refund
  grind [State.Keeps.modDie, State.Keeps.foldl, State.Keeps.foldl_snd, State.Keeps.beside]
theorem State.Keeps.releaseCtx {s : State} (h : b₀.Keeps s) (id : BitVec 16) :
    b₀.Keeps (State.releaseCtx s id) := by
  unfold State.releaseCtx
  extract_lets s1 s2 s3 s4 s5 mine m' fw
  have h1 : b₀.Keeps s1 := h.refund _
  have h2 : b₀.Keeps s2 := State.Keeps.foldl (fun s c hs => hs.freeCore c) h1 _
  have h5 : b₀.Keeps s5 := ((h2.modDies _).appendLog _ _ _ _).dropTree _
  clear_value s1 s2 s3 s4 s5 mine
  refine State.Keeps.retireDone (State.Keeps.startAllQueued ?_)
  exact h5.remake (fun hw => hw) (fun hw => hw) (fun hw => hw) (fun _ hw => hw) fun hs v hv => hs v (List.mem_of_mem_filter hv)
theorem execKillRelease_keeps {s : State} (h : b₀.Keeps s) (ctx : BitVec 16) :
    Out.Keeps b₀ (execKillRelease ctx s) := by
  unfold execKillRelease
  split
  · exact h
  · split
    · exact h
    · split
      · exact h
      · extract_lets s1 s2
        have h1 : b₀.Keeps s1 := (h.cmdWrite _ _).postEvent _ _ _ _ _
        have h2 : b₀.Keeps s2 := State.Keeps.foldl (fun s j hs => hs.writeDone j _) h1 _
        exact (h2.releaseCtx _).finishBegun _ _
theorem execSinkWatchdogExpiry_keeps {s : State} (h : b₀.Keeps s) (ctx : BitVec 16) :
    Out.Keeps b₀ (execSinkWatchdogExpiry ctx s) := by
  unfold execSinkWatchdogExpiry
  grind [State.Keeps.hangKill, Out.keeps_next, Out.keeps_fault, Out.keeps_refused]
theorem State.Keeps.beginReset {s : State} (h : b₀.Keeps s) (d : DieId) (isolate : Bool) :
    b₀.Keeps (State.beginReset s d isolate) := by
  unfold State.beginReset
  grind [State.Keeps.plainKill, State.Keeps.modDie, State.Keeps.foldl, State.Keeps.foldl_snd, State.Keeps.beside]
theorem State.Keeps.poisonLost {s : State} (h : b₀.Keeps s) (d : DieId) :
    b₀.Keeps (State.poisonLost s d) := by
  unfold State.poisonLost
  grind [State.Keeps.foldl, State.Keeps.foldl_snd, State.Keeps.beside]
theorem State.Keeps.loseDirty {s : State} (h : b₀.Keeps s) (d : DieId) :
    b₀.Keeps (State.loseDirty s d) := by
  unfold State.loseDirty
  grind [State.Keeps.foldl, State.Keeps.foldl_snd, State.Keeps.beside, State.Keeps.stored, Memory.wf_writeBytes, Memory.wf_writeN, Memory.wf_clear]
theorem State.Keeps.failAll {s : State} (h : b₀.Keeps s) (q : Coll) :
    b₀.Keeps (State.failAll q s) := by
  unfold State.failAll
  grind [State.Keeps.engineEnd, State.Keeps.foldl, State.Keeps.foldl_snd, State.Keeps.beside]
/-- What a meaning leaves keeps it; a fault leaves the state as it was. -/
theorem Out.Keeps.getD {s : State} (h : b₀.Keeps s) : ∀ {o : Out}, Out.Keeps b₀ o → b₀.Keeps (match o with | .next t => t | _ => s)
  | .next _, ho => ho
  | .fault _, _ => h
  | .refused _, _ => h
theorem State.Keeps.resetColls {s : State} (h : b₀.Keeps s) (d : DieId) :
    b₀.Keeps (State.resetColls s d) := by
  unfold State.resetColls
  refine State.Keeps.foldl (fun s q hs => Out.Keeps.getD hs ?_) h _
  split
  · exact hs.withSaved _ _ fun s hs => hs.failAll q
  · exact hs.failAll q
theorem State.Keeps.failEnds {s : State} (h : b₀.Keeps s) (d : DieId) (cs : List CoreId) :
    b₀.Keeps (State.failEnds s d cs) := by
  unfold State.failEnds
  grind [State.Keeps.engineEnd, State.Keeps.foldl, State.Keeps.foldl_snd]
theorem State.Keeps.resetEnds {s : State} (h : b₀.Keeps s) (d : DieId) :
    b₀.Keeps (State.resetEnds s d) := by
  unfold State.resetEnds
  extract_lets s1
  have h1 : b₀.Keeps s1 := h.failEnds _ _
  refine State.Keeps.foldl (fun s j hs => ?_) h1 _
  have hw := hs.withSaved j (fun s => .next (s.failEnds d ((s.fw.saved.filter fun v => v.job = j).map (·.place)))) fun s hs => hs.failEnds _ _
  exact Out.Keeps.getD hs hw
/-- A core whose scratchpad is emptied. -/
theorem State.Keeps.modCore_reset {s : State} (h : b₀.Keeps s) (c : CoreId) (f : Core → Core) (hf : (f (s.core c)).sp = []) : b₀.Keeps (s.modCore c f) :=
  h.setCore c fun _ => by rw [hf]; rfl
theorem State.Keeps.resetDie {s : State} (h : b₀.Keeps s) (d : DieId) :
    b₀.Keeps (State.resetDie s d) := by
  unfold State.resetDie
  extract_lets s1 kept s2 r s3
  have h1 : b₀.Keeps s1 := (((h.resetColls d).resetEnds d).poisonLost d).loseDirty d
  have h2 : b₀.Keeps s2 := State.Keeps.foldl (fun s e hs => hs.modCtx _ _) h1 _
  have h3 : b₀.Keeps s3 := State.Keeps.foldl (fun s c hs => hs.modCore_reset c _ rfl) h2 _
  exact h3.modDie _ _
theorem execDieRoutesDrained_keeps {s : State} (h : b₀.Keeps s) (d : DieId) :
    Out.Keeps b₀ (execDieRoutesDrained d s) := by
  unfold execDieRoutesDrained
  grind [State.Keeps.resetDie, State.Keeps.finishBegun, Out.keeps_next, Out.keeps_fault, Out.keeps_refused]
theorem State.Keeps.fillReplicas {s : State} (h : b₀.Keeps s) (d : DieId) :
    b₀.Keeps (State.fillReplicas s d) := by
  unfold State.fillReplicas
  grind [State.Keeps.copyLine, State.Keeps.foldl, State.Keeps.foldl_snd]
theorem execDieRejoin_keeps {s : State} (h : b₀.Keeps s) (d : DieId) :
    Out.Keeps b₀ (execDieRejoin d s) := by
  unfold execDieRejoin
  grind [State.Keeps.fillReplicas, State.Keeps.modDie, State.Keeps.finishBegun, State.Keeps.beside, Out.keeps_next, Out.keeps_fault, Out.keeps_refused]
theorem State.Keeps.eachCore {s : State} (h : b₀.Keeps s) (l : List CoreId) (f : Nat → CoreId → State → State) (hf : ∀ (y0 : Nat) (y1 : CoreId) (y2 : State), b₀.Keeps y2 → b₀.Keeps (f y0 y1 y2)) :
    b₀.Keeps (State.eachCore s l f) := by
  unfold State.eachCore
  grind [State.Keeps.foldl, State.Keeps.foldl_snd]
theorem State.Keeps.initBarriers {s : State} (h : b₀.Keeps s) (j : Job) :
    b₀.Keeps (State.initBarriers s j) := by
  unfold State.initBarriers
  grind [State.Keeps.syncPut, State.Keeps.foldl, State.Keeps.foldl_snd]
theorem State.Keeps.placeFresh {s : State} (h : b₀.Keeps s) (j : Job) :
    b₀.Keeps (State.placeFresh s j) := by
  unfold State.placeFresh
  grind [State.Keeps.eachCore, State.Keeps.modCore, State.Keeps.applyLog, State.Keeps.initBarriers, State.Keeps.modJob, State.Keeps.beside, Core.sp_start]
theorem State.Keeps.placeSaved {s : State} (h : b₀.Keeps s) (j : Job) (old : Job) :
    b₀.Keeps (State.placeSaved s j old) := by
  unfold State.placeSaved
  extract_lets s1 s2 fw s3
  have h1 : b₀.Keeps s1 := List.foldlRecOn (motive := fun u : State => b₀.Keeps u) _ _ h fun u hu v hv => by
    extract_lets c k t k' u'
    have hu' : b₀.Keeps u' := by
      unfold u'
      split
      · exact hu
      · exact (hu.modDie _ _).modDie _ _
    have hk : b₀.Keeps (u'.setCore c k') := hu'.putCore c fun hb => Memory.wf_join (h.saved_wf hb (List.mem_of_mem_filter hv)) (hu.core_wf hb c) _
    exact hk.applyLog _ _
  have h2 : b₀.Keeps s2 := h1.moveColls _ _ _
  exact h2.putSaved fun hb v hv => h2.saved_wf hb (List.mem_of_mem_filter hv)
theorem execSpanPlacement_keeps {s : State} (h : b₀.Keeps s) (job : Nat) (ox : Nat) (oy : Nat) (oz : Nat) (cluster : Nat) :
    Out.Keeps b₀ (execSpanPlacement job ox oy oz cluster s) := by
  unfold execSpanPlacement
  grind [State.Keeps.modJob, State.Keeps.placeSaved, State.Keeps.placeFresh, State.Keeps.beside, Out.keeps_next, Out.keeps_fault, Out.keeps_refused]
theorem execStateLoadComplete_keeps {s : State} (h : b₀.Keeps s) (job : Nat) (rank : Nat) (cluster : Nat) :
    Out.Keeps b₀ (execStateLoadComplete job rank cluster s) := by
  unfold execStateLoadComplete
  grind [State.Keeps.eachCore, State.Keeps.modCore, State.Keeps.beside, Out.keeps_next, Out.keeps_fault, Out.keeps_refused]
theorem State.Keeps.putAway {s : State} (h : b₀.Keeps s) (j : Job) (l : List CoreId) :
    b₀.Keeps (State.putAway s j l) := by
  unfold State.putAway
  extract_lets saved s1
  have h1 : b₀.Keeps s1 := h.eachCore _ _ fun _ c s hs => hs.setCore c fun hw => hw
  refine h1.putSaved fun hb v hv => ?_
  obtain hv | hv := List.mem_append.1 hv
  · exact h1.saved_wf hb hv
  · obtain ⟨c, _, rfl⟩ := List.mem_map.1 hv
    exact h.core_wf hb c
theorem State.Keeps.abandonLoad {s : State} (h : b₀.Keeps s) (j : Job) :
    b₀.Keeps (State.abandonLoad s j) := by
  unfold State.abandonLoad
  grind [State.Keeps.putAway, State.Keeps.eachCore, State.Keeps.setCore, State.Keeps.modJob, State.Keeps.beside, Core.sp_vacate]
theorem State.Keeps.stopJob {s : State} (h : b₀.Keeps s) (j : Job) :
    b₀.Keeps (State.stopJob s j) := by
  unfold State.stopJob
  grind [State.Keeps.putAway, State.Keeps.eachCore, State.Keeps.modCore, State.Keeps.modJob, State.Keeps.beside, Core.sp_recordWaits]
theorem State.Keeps.preempt {s : State} (h : b₀.Keeps s) (j : Job) :
    b₀.Keeps (State.preempt s j) := by
  unfold State.preempt
  grind [State.Keeps.abandonLoad, State.Keeps.stopJob]
theorem execPreemption_keeps {s : State} (h : b₀.Keeps s) :
    Out.Keeps b₀ (execPreemption s) := by
  unfold execPreemption
  grind [State.Keeps.preempt, State.Keeps.writeBack, State.Keeps.trackersClean, State.Keeps.eachCore, State.Keeps.applyLog, State.Keeps.modCore, State.Keeps.modJob, State.Keeps.foldl, State.Keeps.foldl_snd, State.Keeps.beside, Out.keeps_next, Out.keeps_fault, Out.keeps_refused]
theorem execStateSaveComplete_keeps {s : State} (h : b₀.Keeps s) :
    Out.Keeps b₀ (execStateSaveComplete s) := by
  unfold execStateSaveComplete
  grind [State.Keeps.putAway, State.Keeps.modJob, State.Keeps.beside, Out.keeps_next, Out.keeps_fault, Out.keeps_refused]
theorem execQuantumExpiry_keeps {s : State} (h : b₀.Keeps s) (job : Nat) :
    Out.Keeps b₀ (execQuantumExpiry job s) := by
  unfold execQuantumExpiry
  grind [State.Keeps.preempt, State.Keeps.modJob, State.Keeps.beside, Out.keeps_next, Out.keeps_fault, Out.keeps_refused]
theorem execRecordTake_keeps {s : State} (h : b₀.Keeps s) :
    Out.Keeps b₀ (execRecordTake s) := by
  unfold execRecordTake
  extract_lets c
  split
  · split
    · exact h
    · split
      · exact h
      · extract_lets n lt s1 s2 t' s3
        have h1 : b₀.Keeps s1 := h.modCore _ rfl
        have h2 : b₀.Keeps s2 := h1.modJob _ _
        have h3 : b₀.Keeps s3 := h2.modCore c rfl
        exact (h3.setLt _ _).acquirePkg _
  · exact h
theorem execCardDispatch_keeps {s : State} (h : b₀.Keeps s) (job : Nat) (c : CoreId) :
    Out.Keeps b₀ (execCardDispatch job c s) := by
  unfold execCardDispatch
  split
  · exact h
  · rename_i j hj
    split
    · exact h
    · split
      · rename_i he
        have hs := State.Keeps.of_snd (h.readVa c 0 j.lr2.cards 64 8) he
        extract_lets a skip
        have hk (s : State) (hs : b₀.Keeps s) : Out.Keeps b₀ (skip s) := State.Keeps.modJob (hs.countCard _ _ _) _ _
        have hr := hs.readVa c 0 a 32 8
        clear_value skip
        split
        · rename_i he
          have ht := State.Keeps.of_snd hr he
          extract_lets bkt
          split
          · exact hk _ ht
          · have h1 (p t) := ht.modCore c (f := fun k => k.start p t j.lt) rfl
            exact State.Keeps.modJob (h1 _ _) _ _
        · rename_i he
          exact hk _ (State.Keeps.of_snd hr he)
      · exact h
theorem State.Keeps.resetCore {s : State} (h : b₀.Keeps s) (c : CoreId) :
    b₀.Keeps (State.resetCore s c) := by
  unfold State.resetCore
  grind [State.Keeps.modCore, State.Keeps.beside, Core.sp_start]
theorem execCardDeadlineExpiry_keeps {s : State} (h : b₀.Keeps s) :
    Out.Keeps b₀ (execCardDeadlineExpiry s) := by
  unfold execCardDeadlineExpiry
  grind [State.Keeps.killContext, State.Keeps.resetCore, State.Keeps.modJob, State.Keeps.beside, Out.keeps_next, Out.keeps_fault, Out.keeps_refused]
theorem execCoreRejoin_keeps {s : State} (h : b₀.Keeps s) :
    Out.Keeps b₀ (execCoreRejoin s) := by
  unfold execCoreRejoin
  grind [State.Keeps.modMe, State.Keeps.beside, Out.keeps_next, Out.keeps_fault, Out.keeps_refused]
theorem execJobCompletion_keeps {s : State} (h : b₀.Keeps s) (job : Nat) :
    Out.Keeps b₀ (execJobCompletion job s) := by
  unfold execJobCompletion
  grind [State.Keeps.writeDone, State.Keeps.eachCore, State.Keeps.freeCore, State.Keeps.beside, Out.keeps_next, Out.keeps_fault, Out.keeps_refused]

end
end Sys2Proof.Machine
end

section
/-! PROOFS. `State.Keeps`: what the clock and power steps keep. -/
namespace Sys2Proof.Machine
set_option Elab.async false
section
variable {b₀ : State}

theorem State.Keeps.driftPaths {s : State} (h : b₀.Keeps s) (n : Nat) :
    b₀.Keeps (State.driftPaths s n) := by
  unfold State.driftPaths
  split
  extract_lets all ks time s1 saved f fw
  have h1 : b₀.Keeps s1 := h.beside rfl rfl rfl rfl
  clear_value s1
  split
  · exact h1
  · refine h1.remake (fun hw => hw) (fun hw => hw) (fun hw => hw) (fun c hw => ?_) (forall_saved_map fun v => Core.sp_drift _ _)
    rw [Vector.getElem_ofFn]
    unfold f
    dsimp only
    split <;> exact hw
theorem State.Keeps.passTime {s : State} (h : b₀.Keeps s) (n : Nat) :
    b₀.Keeps (State.passTime s n) := by
  unfold State.passTime
  grind [State.Keeps.driftPaths, State.Keeps.drawFree, State.Keeps.beside]
theorem State.Keeps.retryAll {s : State} (h : b₀.Keeps s) :
    b₀.Keeps (State.retryAll s) := by
  unfold State.retryAll
  grind [State.Keeps.retryWaits, State.Keeps.foldl, State.Keeps.foldl_snd]
theorem State.Keeps.tickArrivals {s old : State} (h : b₀.Keeps s) (hold : b₀.Keeps old) :
    b₀.Keeps (State.tickArrivals s old) := by
  unfold State.tickArrivals
  grind [State.Keeps.modJob, State.Keeps.foldl, State.Keeps.foldl_snd, State.Keeps.beside]
theorem execTickRelease_keeps {s : State} (h : b₀.Keeps s) (ch : BitVec 2) :
    Out.Keeps b₀ (execTickRelease ch s) := by
  unfold execTickRelease
  grind [State.Keeps.tickArrivals, State.Keeps.retryAll, State.Keeps.beside, Out.keeps_next, Out.keeps_fault, Out.keeps_refused]
theorem execStepDeadline_keeps {s : State} (h : b₀.Keeps s) (_q : BitVec 4) :
    Out.Keeps b₀ (execStepDeadline _q s) := by
  unfold execStepDeadline
  grind [State.Keeps.retryAll, Out.keeps_next, Out.keeps_fault, Out.keeps_refused]
theorem State.Keeps.putSlot {s : State} (h : b₀.Keeps s) (q : Ingest) (i : Nat) (bs : List Byte) :
    b₀.Keeps (State.putSlot s q i bs) := by
  unfold State.putSlot
  grind [State.Keeps.storeAt]
theorem State.Keeps.consume1 {s : State} (h : b₀.Keeps s) (ring : Nat) (ctr : Option Nat) :
    b₀.Keeps (State.consume1 s ring ctr) := by
  unfold State.consume1
  grind [State.Keeps.storeAt]
theorem State.Keeps.setLate {s : State} (h : b₀.Keeps s) (q : Nat) (ch : BitVec 2) :
    b₀.Keeps (State.setLate s q ch) := by
  unfold State.setLate
  extract_lets f cores saved
  have hf (k : Core) : (f k).sp = k.sp := by
    unfold f
    split <;> rfl
  have hs : b₀.Keeps { s with cores := cores, fw := { s.fw with saved := saved } } :=
    h.remake (fun hw => hw) (fun hw => hw) (fun hw => hw) (fun c hw => by rw [Vector.getElem_map, hf]; exact hw) (forall_saved_map fun v => hf v.core)
  exact hs
theorem execIngestDescriptor_keeps {s : State} (h : b₀.Keeps s) (q : BitVec 4) :
    Out.Keeps b₀ (execIngestDescriptor q s) := by
  unfold execIngestDescriptor
  grind [State.Keeps.consume1, State.Keeps.putSlot, State.Keeps.setLate, State.Keeps.retryAll, Out.keeps_next, Out.keeps_fault, Out.keeps_refused]
theorem execPpsEdge_keeps {s : State} (h : b₀.Keeps s) :
    Out.Keeps b₀ (execPpsEdge s) := by
  unfold execPpsEdge
  grind [State.Keeps.beside, Out.keeps_next, Out.keeps_fault, Out.keeps_refused]
theorem execTodFrame_keeps {s : State} (h : b₀.Keeps s) (frame : BitVec 96) :
    Out.Keeps b₀ (execTodFrame frame s) := by
  unfold execTodFrame
  grind [State.Keeps.beside, Out.keeps_next, Out.keeps_fault, Out.keeps_refused]
theorem execTimeHoldover_keeps {s : State} (h : b₀.Keeps s) :
    Out.Keeps b₀ (execTimeHoldover s) := by
  unfold execTimeHoldover
  grind [State.Keeps.rasEvent, State.Keeps.beside, Out.keeps_next, Out.keeps_fault, Out.keeps_refused]
theorem State.Keeps.setPair {s : State} (h : b₀.Keeps s) (d : DieId) (p : Fin 2) (v : PairSt) :
    b₀.Keeps (State.setPair s d p v) := by
  unfold State.setPair
  grind [State.Keeps.modDie, State.Keeps.beside]
theorem execLockstepMismatch_keeps {s : State} (h : b₀.Keeps s) (d : DieId) (pair : Fin 2) :
    Out.Keeps b₀ (execLockstepMismatch d pair s) := by
  unfold execLockstepMismatch
  grind [State.Keeps.setPair, Out.keeps_next, Out.keeps_fault, Out.keeps_refused]
theorem execLockstepSelftestDone_keeps {s : State} (h : b₀.Keeps s) (d : DieId) (pair : Fin 2) (pass : Bool) :
    Out.Keeps b₀ (execLockstepSelftestDone d pair pass s) := by
  unfold execLockstepSelftestDone
  grind [State.Keeps.setPair, State.Keeps.rasEvent, State.Keeps.beginReset, Out.keeps_next, Out.keeps_fault, Out.keeps_refused]
theorem execDamperMeasure_keeps {s : State} (h : b₀.Keeps s) (cluster : Fin 64) (driftPpm : Nat) :
    Out.Keeps b₀ (execDamperMeasure cluster driftPpm s) := by
  unfold execDamperMeasure
  grind [State.Keeps.beside, Out.keeps_next, Out.keeps_fault, Out.keeps_refused]
theorem execPowerLimitThrottle_keeps {s : State} (h : b₀.Keeps s) :
    Out.Keeps b₀ (execPowerLimitThrottle s) := by
  unfold execPowerLimitThrottle
  grind [State.Keeps.beside, Out.keeps_next, Out.keeps_fault, Out.keeps_refused]
theorem execPowerLimitRestore_keeps {s : State} (h : b₀.Keeps s) :
    Out.Keeps b₀ (execPowerLimitRestore s) := by
  unfold execPowerLimitRestore
  grind [State.Keeps.beside, Out.keeps_next, Out.keeps_fault, Out.keeps_refused]
theorem State.Keeps.startDusk {s : State} (h : b₀.Keeps s) (cause : BitVec 2) :
    b₀.Keeps (State.startDusk s cause) := by
  unfold State.startDusk
  grind [State.Keeps.modDies, State.Keeps.beside]
theorem execGpf_keeps {s : State} (h : b₀.Keeps s) (port : Fin 2) :
    Out.Keeps b₀ (execGpf port s) := by
  unfold execGpf
  grind [State.Keeps.startDusk, State.Keeps.finishBegun, Out.keeps_next, Out.keeps_fault, Out.keeps_refused]
theorem execPwrfail_keeps {s : State} (h : b₀.Keeps s) :
    Out.Keeps b₀ (execPwrfail s) := by
  unfold execPwrfail
  grind [State.Keeps.startDusk, Out.keeps_next, Out.keeps_fault, Out.keeps_refused]
theorem execRailOutOfRange_keeps {s : State} (h : b₀.Keeps s) :
    Out.Keeps b₀ (execRailOutOfRange s) := by
  unfold execRailOutOfRange
  grind [State.Keeps.startDusk, Out.keeps_next, Out.keeps_fault, Out.keeps_refused]
theorem State.Keeps.finishDusk {s : State} (h : b₀.Keeps s) (late : Option DieId) :
    b₀.Keeps (State.finishDusk s late) := by
  unfold State.finishDusk
  grind [State.Keeps.duskGranule, State.Keeps.modDies, State.Keeps.finishBegun, State.Keeps.beside]
theorem execDuskRecord_keeps {s : State} (h : b₀.Keeps s) :
    Out.Keeps b₀ (execDuskRecord s) := by
  unfold execDuskRecord
  grind [State.Keeps.finishDusk, Out.keeps_next, Out.keeps_fault, Out.keeps_refused]
theorem execDuskOverrun_keeps {s : State} (h : b₀.Keeps s) (d : DieId) :
    Out.Keeps b₀ (execDuskOverrun d s) := by
  unfold execDuskOverrun
  grind [State.Keeps.finishDusk, Out.keeps_next, Out.keeps_fault, Out.keeps_refused]
theorem State.Keeps.reframe {s : State} (h : b₀.Keeps s) :
    b₀.Keeps (State.reframe s) := by
  unfold State.reframe
  grind [State.Keeps.beside]
theorem State.Keeps.loadRow {s : State} (h : b₀.Keeps s) (q : Nat × Nat) :
    b₀.Keeps (State.loadRow s q) := by
  unfold State.loadRow
  grind [State.Keeps.modDie, State.Keeps.beside]
theorem State.Keeps.dawn {s : State} (h : b₀.Keeps s) (b : BringUpInputs) (rowsOk : Bool) :
    b₀.Keeps (State.dawn s b rowsOk) := by
  unfold State.dawn
  grind [State.Keeps.complete, State.Keeps.journal, State.Keeps.duskGranule, State.Keeps.rasEvent, State.Keeps.foldl, State.Keeps.foldl_snd, State.Keeps.beside]
/-- A state made afresh keeps the host's memory and what is durable. -/
theorem State.Keeps.afresh {s : State} (h : b₀.Keeps s) {dies m t fw link product phase agenda free pick}
    (h1 : m.mem = s.m.pmem) (h2 : m.host = s.m.host) (h3 : m.pmem = s.m.pmem) (h5 : fw.saved = []) :
    b₀.Keeps ⟨State.reset.cores, dies, m, t, fw, link, product, phase, s.cur, agenda, free, pick⟩ := by
  refine ⟨h.cur, fun hb => ?_⟩
  obtain ⟨_, g2, g3, _, _⟩ := h.memWf hb
  obtain ⟨_, _, _, hc, _⟩ := resetMemoryCanonical
  exact ⟨(congrArg Memory.wf h1).trans g3, (congrArg Memory.wf h2).trans g2, (congrArg Memory.wf h3).trans g3, hc, fun v hv => by
    rw [show (_ : Firmware).saved = _ from h5] at hv
    exact nomatch hv⟩
theorem State.Keeps.bringUp {s : State} (h : b₀.Keeps s) (b : BringUpInputs) :
    b₀.Keeps (State.bringUp b s) := by
  unfold State.bringUp
  extract_lets flash r m fw fresh m1 fw1 loaded rows damper out s1 s2 s3 s4
  have h0 : b₀.Keeps fresh := h.afresh rfl rfl rfl rfl
  clear_value fresh r m fw flash
  have h1 : b₀.Keeps s1 := h0.beside rfl rfl rfl rfl
  have h2 : b₀.Keeps s2 := (State.Keeps.foldl (fun s q hs => hs.loadRow q) h1 _).reframe
  have h3 : b₀.Keeps s3 := by
    unfold s3
    split
    · exact h2
    · exact h2.rasEvent _ _ _
  have h4 : b₀.Keeps s4 := h3.dawn _ _
  split
  · exact h0.beside rfl rfl rfl rfl
  · exact h4.beside rfl rfl rfl rfl
theorem execBringUp_keeps {s : State} (h : b₀.Keeps s) (b : BringUpInputs) :
    Out.Keeps b₀ (execBringUp b s) := by
  unfold execBringUp
  grind [State.Keeps.bringUp, Out.keeps_next, Out.keeps_fault, Out.keeps_refused]

end
end Sys2Proof.Machine
end

section
/-! PROOFS. `State.Keeps`: what the host's commands keep. -/
namespace Sys2Proof.Machine
set_option Elab.async false
section
variable {b₀ : State}

theorem execHostHdmStore_keeps {s : State} (h : b₀.Keeps s) (pa : Nat) (data : List Byte) :
    Out.Keeps b₀ (execHostHdmStore pa data s) := by
  unfold execHostHdmStore
  grind [State.Keeps.hostWrite, State.Keeps.dropCopies, State.Keeps.fwWrite, State.Keeps.foldl, State.Keeps.foldl_snd, Out.keeps_next, Out.keeps_fault, Out.keeps_refused]
theorem execHostHdmLoad_keeps {s : State} (h : b₀.Keeps s) (pa : Nat) (n : Nat) :
    Out.Keeps b₀ (execHostHdmLoad pa n s) := by
  unfold execHostHdmLoad
  grind [State.Keeps.beside, Out.keeps_next, Out.keeps_fault, Out.keeps_refused]
theorem State.Keeps.modQueue {s : State} (h : b₀.Keeps s) (q : BitVec 2) (f : CmdQueue → CmdQueue) :
    b₀.Keeps (State.modQueue s q f) := by
  unfold State.modQueue
  grind [State.Keeps.beside]
theorem State.Keeps.accept1 {s : State} (h : b₀.Keeps s) (q : BitVec 2) :
    b₀.Keeps (State.accept1 s q) := by
  unfold State.accept1
  grind [State.Keeps.modQueue, State.Keeps.beside]
theorem State.Keeps.acceptAll {s : State} (h : b₀.Keeps s) (t : BitVec 2) (x0 : Nat) :
    b₀.Keeps (State.acceptAll s t x0) := by
  fun_induction State.acceptAll s t x0 <;> grind [State.Keeps.accept1]
theorem State.Keeps.poll {s : State} (h : b₀.Keeps s) :
    b₀.Keeps (State.poll s) := by
  unfold State.poll
  grind [State.Keeps.acceptAll, State.Keeps.sweepUnknown]
theorem execQueueTailWrite_keeps {s : State} (h : b₀.Keeps s) (q : BitVec 2) (tail : W64) :
    Out.Keeps b₀ (execQueueTailWrite q tail s) := by
  unfold execQueueTailWrite
  grind [State.Keeps.hostWrite, State.Keeps.poll, Out.keeps_next, Out.keeps_fault, Out.keeps_refused]
theorem execQueueEnable_keeps {s : State} (h : b₀.Keeps s) (q : BitVec 2) (en : Bool) :
    Out.Keeps b₀ (execQueueEnable q en s) := by
  unfold execQueueEnable
  grind [State.Keeps.modQueue, State.Keeps.poll, State.Keeps.beside, Out.keeps_next, Out.keeps_fault, Out.keeps_refused]
theorem execQueueRegisterWrite_keeps {s : State} (h : b₀.Keeps s) (q : BitVec 2) (off : BitVec 6) (x : W64) :
    Out.Keeps b₀ (execQueueRegisterWrite q off x s) := by
  unfold execQueueRegisterWrite
  grind [State.Keeps.modQueue, State.Keeps.beside, Out.keeps_next, Out.keeps_fault, Out.keeps_refused]
theorem State.Keeps.markBegun {s : State} (h : b₀.Keeps s) (x : Cmd) :
    b₀.Keeps (State.markBegun s x) := by
  unfold State.markBegun
  grind [State.Keeps.beside]
/-- What a command answers keeps it. -/
def CmdAns.Keeps (b₀ : State) : CmdAns → Prop
  | .fail _ => True
  | .done _ t => b₀.Keeps t
  | .later => True
  | .wait t => b₀.Keeps t
theorem CmdAns.keeps_fail (c : Nat) : CmdAns.Keeps b₀ (.fail c) := trivial
theorem CmdAns.keeps_done (r : Option W64) {t : State} : CmdAns.Keeps b₀ (.done r t) ↔ b₀.Keeps t := .rfl
theorem CmdAns.keeps_later : CmdAns.Keeps b₀ .later := trivial
theorem CmdAns.keeps_wait {t : State} : CmdAns.Keeps b₀ (.wait t) ↔ b₀.Keeps t := .rfl
theorem State.Keeps.runCmd {s : State} (h : b₀.Keeps s) (n : Nat) (opc : Nat) (args : Cmd → List Nat) (body : Cmd → State → CmdAns) (hbody : ∀ (y0 : Cmd) (y1 : State), b₀.Keeps y1 → CmdAns.Keeps b₀ (body y0 y1)) :
    Out.Keeps b₀ (State.runCmd s n opc args body) := by
  unfold State.runCmd
  split
  · exact h
  · rename_i x _
    have hb := hbody x s h
    split
    · exact h
    · split
      · rw [Out.keeps_next]
        split
        · exact h
        · exact h.finishCmd _ _ _
      · split
        · exact h.finishCmd _ _ _
        · generalize body x s = a at hb ⊢
          cases a with
          | fail c => exact h.finishCmd _ _ _
          | later => exact h
          | done r t => exact State.Keeps.finishCmd hb _ _ _
          | wait t => exact State.Keeps.markBegun hb _
theorem need_keeps (ok : Bool) (status : Nat) (k : CmdAns) (hk : CmdAns.Keeps b₀ (k)) :
    CmdAns.Keeps b₀ (need ok status k) := by
  unfold need
  split
  · exact hk
  · exact trivial
theorem withCtx_keeps {s : State} (h : b₀.Keeps s) (x : Cmd) (k : Ctx → CmdAns) (hk : ∀ (y0 : Ctx), CmdAns.Keeps b₀ (k y0)) :
    CmdAns.Keeps b₀ (withCtx s x k) := by
  unfold withCtx
  split
  · exact hk _
  · exact trivial
theorem State.Keeps.toBuffer {s : State} (h : b₀.Keeps s) (x : Cmd) (bs : List Byte) (r : Option W64) :
    CmdAns.Keeps b₀ (State.toBuffer s x bs r) := by
  unfold State.toBuffer
  grind [State.Keeps.cmdWrite, CmdAns.Keeps]
theorem execIdent_keeps {s : State} (h : b₀.Keeps s) (n : Nat) :
    Out.Keeps b₀ (execIdent n s) := by
  unfold execIdent
  grind [State.Keeps.runCmd, State.Keeps.drawFree, State.Keeps.toBuffer]
theorem execAttest_keeps {s : State} (h : b₀.Keeps s) (n : Nat) :
    Out.Keeps b₀ (execAttest n s) := by
  unfold execAttest
  grind [State.Keeps.runCmd, State.Keeps.toBuffer]
theorem execConfigure_keeps {s : State} (h : b₀.Keeps s) (n : Nat) :
    Out.Keeps b₀ (execConfigure n s) := by
  unfold execConfigure
  refine h.runCmd _ _ _ _ fun x s hs => ?_
  split
  · exact need_keeps _ _ _ (need_keeps _ _ _ (State.Keeps.reframe (hs.beside rfl rfl rfl rfl)))
  · exact trivial
theorem State.Keeps.freeId {s : State} (h : b₀.Keeps s) (used : Nat → Bool) :
    b₀.Keeps (State.freeId s used).2 := by
  unfold State.freeId
  grind [State.Keeps.drawFree]
theorem execContextCreate_keeps {s : State} (h : b₀.Keeps s) (n : Nat) :
    Out.Keeps b₀ (execContextCreate n s) := by
  unfold execContextCreate
  grind [State.Keeps.runCmd, need_keeps, State.Keeps.freeId, State.Keeps.beside, CmdAns.Keeps]
theorem execContextKill_keeps {s : State} (h : b₀.Keeps s) (n : Nat) :
    Out.Keeps b₀ (execContextKill n s) := by
  unfold execContextKill
  grind [State.Keeps.runCmd, withCtx_keeps, State.Keeps.plainKill, CmdAns.Keeps]
theorem execStreamCreate_keeps {s : State} (h : b₀.Keeps s) (n : Nat) :
    Out.Keeps b₀ (execStreamCreate n s) := by
  unfold execStreamCreate
  grind [State.Keeps.runCmd, withCtx_keeps, State.Keeps.freeId, State.Keeps.beside, CmdAns.Keeps]
theorem execStreamDestroy_keeps {s : State} (h : b₀.Keeps s) (n : Nat) :
    Out.Keeps b₀ (execStreamDestroy n s) := by
  unfold execStreamDestroy
  grind [State.Keeps.runCmd, withCtx_keeps, need_keeps, State.Keeps.beside, CmdAns.Keeps]
theorem execLaunchCommand_keeps {s : State} (h : b₀.Keeps s) (n : Nat) :
    Out.Keeps b₀ (execLaunchCommand n s) := by
  unfold execLaunchCommand
  refine h.runCmd _ _ _ _ fun x s hs => withCtx_keeps hs x _ fun c => ?_
  split
  · exact trivial
  · split
    · extract_lets b l
      refine need_keeps _ _ _ (need_keeps _ _ _ (need_keeps _ _ _ (need_keeps _ _ _ ?_)))
      exact hs.queueJob c.id b 0
    · exact trivial
theorem State.Keeps.forget {s : State} (h : b₀.Keeps s) (id : BitVec 16) (lo : Nat) (hi : Nat) :
    b₀.Keeps (State.forget s id lo hi) := by
  unfold State.forget
  grind [State.Keeps.modCtx, State.Keeps.beside]
theorem execMapPages_keeps {s : State} (h : b₀.Keeps s) (n : Nat) :
    Out.Keeps b₀ (execMapPages n s) := by
  unfold execMapPages
  refine h.runCmd _ _ _ _ fun x s hs => ?_
  split
  rename_i va pa bytes at' _
  extract_lets size p isLazy argsOk k pages there
  clear_value size p isLazy argsOk k pages there
  refine need_keeps _ _ _ (need_keeps _ _ _ (withCtx_keeps hs x _ fun c => need_keeps _ _ _ ?_))
  generalize s.leaves c va (va + bytes) = old
  refine need_keeps _ _ _ ?_
  split
  · exact trivial
  · split
    · exact State.Keeps.modCtx (State.Keeps.forget (State.Keeps.foldl (fun s q hs => hs.clearLeaf _ _) (hs.settleMigs _ _ _) _) _ _ _) _ _
    · exact State.Keeps.modCtx (State.Keeps.forget (State.Keeps.foldl (fun s q hs => hs.releaseLeaf _ _)
        (State.Keeps.foldl (fun s i hs => hs.installLeaf _ _ _ _) (hs.settleMigs _ _ _) _) _) _ _ _) _ _
theorem State.Keeps.rangeCmd {s : State} (h : b₀.Keeps s) (x : Cmd) (k : Ctx → Nat → Nat → CmdAns) (hk : ∀ (y0 : Ctx) (y1 : Nat) (y2 : Nat), CmdAns.Keeps b₀ (k y0 y1 y2)) :
    CmdAns.Keeps b₀ (State.rangeCmd s x k) := by
  unfold State.rangeCmd
  grind [need_keeps, withCtx_keeps]
theorem execUnmap_keeps {s : State} (h : b₀.Keeps s) (n : Nat) :
    Out.Keeps b₀ (execUnmap n s) := by
  unfold execUnmap
  grind [State.Keeps.runCmd, State.Keeps.rangeCmd, need_keeps, State.Keeps.settleMigs, State.Keeps.clearLeaf, State.Keeps.forget, State.Keeps.modCtx, State.Keeps.foldl, State.Keeps.foldl_snd, State.Keeps.beside, CmdAns.Keeps]
theorem execProtect_keeps {s : State} (h : b₀.Keeps s) (n : Nat) :
    Out.Keeps b₀ (execProtect n s) := by
  unfold execProtect
  grind [State.Keeps.runCmd, need_keeps, State.Keeps.rangeCmd, State.Keeps.settleMigs, State.Keeps.writeLeaf, State.Keeps.appendLog, State.Keeps.modCtx, State.Keeps.foldl, State.Keeps.foldl_snd, State.Keeps.beside, CmdAns.Keeps]
theorem execMigrate_keeps {s : State} (h : b₀.Keeps s) (n : Nat) :
    Out.Keeps b₀ (execMigrate n s) := by
  unfold execMigrate
  refine h.runCmd _ _ _ _ fun x s hs => withCtx_keeps hs x _ fun c => ?_
  split
  · exact trivial
  · extract_lets dst p g
    split
    · split
      · exact hs
      · split
        · exact hs
        · exact trivial
    · refine need_keeps _ _ _ (need_keeps _ _ _ (need_keeps _ _ _ ?_))
      split
      · exact trivial
      · exact hs.startMigration _
theorem execReplicate_keeps {s : State} (h : b₀.Keeps s) (n : Nat) :
    Out.Keeps b₀ (execReplicate n s) := by
  unfold execReplicate
  refine h.runCmd _ _ _ _ fun x s hs => withCtx_keeps hs x _ fun c => ?_
  split
  · exact trivial
  · extract_lets pa p dst at' s1 fw s2
    have h1 : b₀.Keeps s1 := State.Keeps.foldl (fun s d hs => State.Keeps.foldl (fun s i hs => hs.copyLine _ _) hs _) hs _
    have h2 : b₀.Keeps s2 := h1.beside rfl rfl rfl rfl
    exact need_keeps _ _ _ (need_keeps _ _ _ (need_keeps _ _ _ (h2.writeLeaf _ _ _)))
theorem execHeatRead_keeps {s : State} (h : b₀.Keeps s) (n : Nat) :
    Out.Keeps b₀ (execHeatRead n s) := by
  unfold execHeatRead
  grind [State.Keeps.runCmd, withCtx_keeps, need_keeps, State.Keeps.heat, State.Keeps.modDie, State.Keeps.toBuffer, State.Keeps.foldl, State.Keeps.foldl_snd, State.Keeps.beside, CmdAns.Keeps]
theorem State.Keeps.settime {s : State} (h : b₀.Keeps s) (n : Nat) (mine : Nat → Bool) (body : Cmd → State → CmdAns) (hbody : ∀ (y0 : Cmd) (y1 : State), b₀.Keeps y1 → CmdAns.Keeps b₀ (body y0 y1)) :
    Out.Keeps b₀ (State.settime s n mine body) := by
  unfold State.settime
  grind [State.Keeps.runCmd, Out.keeps_next, Out.keeps_fault, Out.keeps_refused]
theorem execSettimeStep_keeps {s : State} (h : b₀.Keeps s) (n : Nat) :
    Out.Keeps b₀ (execSettimeStep n s) := by
  unfold execSettimeStep
  grind [State.Keeps.settime, need_keeps, State.Keeps.beside, CmdAns.Keeps]
theorem execSettimeAdd_keeps {s : State} (h : b₀.Keeps s) (n : Nat) :
    Out.Keeps b₀ (execSettimeAdd n s) := by
  unfold execSettimeAdd
  grind [State.Keeps.settime, need_keeps, State.Keeps.beside, CmdAns.Keeps]
theorem execSettimeSource_keeps {s : State} (h : b₀.Keeps s) (n : Nat) :
    Out.Keeps b₀ (execSettimeSource n s) := by
  unfold execSettimeSource
  grind [State.Keeps.settime, need_keeps, State.Keeps.beside, CmdAns.Keeps]
theorem execTickCfg_keeps {s : State} (h : b₀.Keeps s) (n : Nat) :
    Out.Keeps b₀ (execTickCfg n s) := by
  unfold execTickCfg
  grind [State.Keeps.runCmd, need_keeps, State.Keeps.retryAll, State.Keeps.beside, CmdAns.Keeps]
theorem execIngestCfg_keeps {s : State} (h : b₀.Keeps s) (n : Nat) :
    Out.Keeps b₀ (execIngestCfg n s) := by
  unfold execIngestCfg
  refine h.runCmd _ _ _ _ fun x s hs => ?_
  extract_lets a
  split
  extract_lets window s1
  refine need_keeps _ _ _ (need_keeps _ _ _ (need_keeps _ _ _ (need_keeps _ _ _ (need_keeps _ _ _ ?_))))
  have hw (w : Nat) : CmdAns.Keeps b₀ (window w) := State.Keeps.beside ((hs.zeroRange _ _).fwWrite _ _) rfl rfl rfl rfl
  clear_value s1 window
  split
  · exact hw _
  · exact trivial
theorem execKvpoolCfg_keeps {s : State} (h : b₀.Keeps s) (n : Nat) :
    Out.Keeps b₀ (execKvpoolCfg n s) := by
  unfold execKvpoolCfg
  grind [State.Keeps.runCmd, need_keeps, withCtx_keeps, State.Keeps.modCtx, State.Keeps.beside, CmdAns.Keeps]
theorem execPfxCfg_keeps {s : State} (h : b₀.Keeps s) (n : Nat) :
    Out.Keeps b₀ (execPfxCfg n s) := by
  unfold execPfxCfg
  grind [State.Keeps.runCmd, need_keeps, withCtx_keeps, State.Keeps.modCtx, State.Keeps.beside, CmdAns.Keeps]
theorem State.Keeps.dieCmd {s : State} (h : b₀.Keeps s) (x : Cmd) (isolate : Bool) :
    CmdAns.Keeps b₀ (State.dieCmd s x isolate) := by
  unfold State.dieCmd
  grind [need_keeps, State.Keeps.beginReset, CmdAns.Keeps]
theorem execDieReset_keeps {s : State} (h : b₀.Keeps s) (n : Nat) :
    Out.Keeps b₀ (execDieReset n s) := by
  unfold execDieReset
  grind [State.Keeps.runCmd, State.Keeps.dieCmd]
theorem execDieIsolate_keeps {s : State} (h : b₀.Keeps s) (n : Nat) :
    Out.Keeps b₀ (execDieIsolate n s) := by
  unfold execDieIsolate
  grind [State.Keeps.runCmd, State.Keeps.dieCmd]
theorem execRasQuery_keeps {s : State} (h : b₀.Keeps s) (n : Nat) :
    Out.Keeps b₀ (execRasQuery n s) := by
  unfold execRasQuery
  grind [State.Keeps.runCmd, State.Keeps.freeBytes, State.Keeps.toBuffer, State.Keeps.beside]
theorem execRetireQuery_keeps {s : State} (h : b₀.Keeps s) (n : Nat) :
    Out.Keeps b₀ (execRetireQuery n s) := by
  unfold execRetireQuery
  grind [State.Keeps.runCmd, State.Keeps.toBuffer]
theorem execDurableFlush_keeps {s : State} (h : b₀.Keeps s) (n : Nat) :
    Out.Keeps b₀ (execDurableFlush n s) := by
  unfold execDurableFlush
  grind [State.Keeps.runCmd, State.Keeps.writeBack, State.Keeps.foldl, State.Keeps.foldl_snd, CmdAns.Keeps]
theorem execShutdown_keeps {s : State} (h : b₀.Keeps s) (n : Nat) :
    Out.Keeps b₀ (execShutdown n s) := by
  unfold execShutdown
  grind [State.Keeps.runCmd, State.Keeps.startDusk, State.Keeps.plainKill, State.Keeps.foldl, State.Keeps.foldl_snd, CmdAns.Keeps]
theorem execDawnReport_keeps {s : State} (h : b₀.Keeps s) (n : Nat) :
    Out.Keeps b₀ (execDawnReport n s) := by
  unfold execDawnReport
  grind [State.Keeps.runCmd, State.Keeps.drawFree, State.Keeps.toBuffer, State.Keeps.dawn]
theorem State.Keeps.spdmReply {s : State} (h : b₀.Keeps s) (needs : Nat) (next : Nat) (reply : State → List Byte × State) (hreply : ∀ (y0 : State), b₀.Keeps y0 → b₀.Keeps (reply y0).2) :
    Out.Keeps b₀ (State.spdmReply s needs next reply) := by
  unfold State.spdmReply
  grind [State.Keeps.beside, Out.keeps_next, Out.keeps_fault, Out.keeps_refused]
theorem State.Keeps.spdmAnswer {s : State} (h : b₀.Keeps s) (needs : Nat) (next : Nat) (kind : Nat) :
    Out.Keeps b₀ (State.spdmAnswer s needs next kind) := by
  unfold State.spdmAnswer
  grind [State.Keeps.spdmReply, State.Keeps.freeBytes]
theorem execGetVersion_keeps {s : State} (h : b₀.Keeps s) :
    Out.Keeps b₀ (execGetVersion s) := by
  unfold execGetVersion
  grind [State.Keeps.spdmAnswer]
theorem execGetCapabilities_keeps {s : State} (h : b₀.Keeps s) :
    Out.Keeps b₀ (execGetCapabilities s) := by
  unfold execGetCapabilities
  grind [State.Keeps.spdmAnswer]
theorem execNegotiateAlgorithms_keeps {s : State} (h : b₀.Keeps s) :
    Out.Keeps b₀ (execNegotiateAlgorithms s) := by
  unfold execNegotiateAlgorithms
  grind [State.Keeps.spdmAnswer]
theorem execGetDigests_keeps {s : State} (h : b₀.Keeps s) :
    Out.Keeps b₀ (execGetDigests s) := by
  unfold execGetDigests
  grind [State.Keeps.spdmAnswer]
theorem execGetCertificate_keeps {s : State} (h : b₀.Keeps s) :
    Out.Keeps b₀ (execGetCertificate s) := by
  unfold execGetCertificate
  grind [State.Keeps.spdmAnswer]
theorem execChallenge_keeps {s : State} (h : b₀.Keeps s) (nonce : BitVec 256) :
    Out.Keeps b₀ (execChallenge nonce s) := by
  unfold execChallenge
  grind [State.Keeps.spdmReply, State.Keeps.freeBytes]
theorem execGetMeasurements_keeps {s : State} (h : b₀.Keeps s) (index : Nat) (nonce : BitVec 256) :
    Out.Keeps b₀ (execGetMeasurements index nonce s) := by
  unfold execGetMeasurements
  grind [State.Keeps.spdmReply]
theorem execSpdmSessionMessage_keeps {s : State} (h : b₀.Keeps s) :
    Out.Keeps b₀ (execSpdmSessionMessage s) := by
  unfold execSpdmSessionMessage
  grind [State.Keeps.beside, Out.keeps_next, Out.keeps_fault, Out.keeps_refused]

end
end Sys2Proof.Machine
end

section
/-! PROOFS. `State.Keeps`: what the scalar operations keep. -/
namespace Sys2Proof.Machine
set_option Elab.async false
section
variable {b₀ : State}

theorem scalarOp_keeps {s : State} (h : b₀.Keeps s) (g : BitVec 4) (e : Bool) (f : BitVec 10) (op : State → SVal → SVal → SVal → SVal) : Out.Keeps b₀ (scalarOp g e f op s) := by
  unfold scalarOp
  grind [State.Keeps.issueMove, State.Keeps.short, Out.keeps_next]
theorem scalarCmp_keeps {s : State} (h : b₀.Keeps s) (g : BitVec 4) (e : Bool) (f : BitVec 10) (cond : W64 → W64 → Bool) :
    Out.Keeps b₀ (scalarCmp g e f cond s) := by
  unfold scalarCmp
  grind [State.Keeps.issueMove, State.Keeps.needD, State.Keeps.short, Out.keeps_next, Out.keeps_fault, Out.keeps_refused]
theorem scalarDiv_keeps {s : State} (h : b₀.Keeps s) (sg : Bool) (rm : Bool) (w : Bool) (g : BitVec 4) (e : Bool) (f : BitVec 10) :
    Out.Keeps b₀ (scalarDiv sg rm w g e f s) := by
  unfold scalarDiv
  grind [State.Keeps.issueMove, State.Keeps.needD, State.Keeps.hold, State.Keeps.trapIssued, State.Keeps.long, Out.keeps_next, Out.keeps_fault, Out.keeps_refused]
theorem scalarLoad_keeps {s : State} (h : b₀.Keeps s) (n : Nat) (sg : Bool) (g : BitVec 4) (cl : BitVec 2) (e : Bool) (f : BitVec 10) :
    Out.Keeps b₀ (scalarLoad n sg g cl e f s) := by
  unfold scalarLoad
  grind [State.Keeps.issueMove, State.Keeps.needD, State.Keeps.needClean, State.Keeps.locating, State.Keeps.request, Out.keeps_next, Out.keeps_fault, Out.keeps_refused]
theorem scalarStore_keeps {s : State} (h : b₀.Keeps s) (n : Nat) (g : BitVec 4) (cl : BitVec 2) (e : Bool) (f : BitVec 10) :
    Out.Keeps b₀ (scalarStore n g cl e f s) := by
  unfold scalarStore
  grind [State.Keeps.issueMove, State.Keeps.needClean, State.Keeps.locating, State.Keeps.request, Out.keeps_next, Out.keeps_fault, Out.keeps_refused]
theorem windowLoad_keeps {s : State} (h : b₀.Keeps s) (size : Nat) (g : BitVec 4) (n : BitVec 3) (e : Bool) (f : BitVec 10) :
    Out.Keeps b₀ (windowLoad size g n e f s) := by
  unfold windowLoad
  grind [State.Keeps.issueMove, State.Keeps.needD, State.Keeps.needClean, State.Keeps.trapAt, State.Keeps.modPipe, State.Keeps.regWrite, State.Keeps.issued, State.Keeps.locating, State.Keeps.request, State.Keeps.beside, Out.keeps_next, Out.keeps_fault, Out.keeps_refused]
theorem scalarAtomic_keeps {s : State} (h : b₀.Keeps s) (op : AOp) (ret : Bool) (g : BitVec 4) (w : BitVec 1) (e : Bool) (f : BitVec 10) :
    Out.Keeps b₀ (scalarAtomic op ret g w e f s) := by
  unfold scalarAtomic
  grind [State.Keeps.needClean, State.Keeps.locating, State.Keeps.request, State.Keeps.issueMove, State.Keeps.needD, Out.keeps_next, Out.keeps_fault, Out.keeps_refused]

end
end Sys2Proof.Machine
end

section
/-! PROOFS. `State.Keeps`: what the vector operations keep. -/
namespace Sys2Proof.Machine
set_option Elab.async false
section
variable {b₀ : State}

theorem State.Keeps.draw {s : State} (h : b₀.Keeps s) (k : Fin 5) (n : Nat) :
    b₀.Keeps (State.draw s k n).2 := by
  unfold State.draw
  grind [State.Keeps.modPipe, State.Keeps.beside]
theorem State.Keeps.vin {s : State} (h : b₀.Keeps s) (u : VUnit) (v : Val) (n : Nat) :
    b₀.Keeps (State.vin s u v n).2 := by
  unfold State.vin
  grind [State.Keeps.draw]
theorem vecShort_keeps {s : State} (h : b₀.Keeps s) (u : VUnit) (g : BitVec 4) (e : Bool) (f : BitVec 10) (n : Nat) (op : LaneOp) :
    Out.Keeps b₀ (vecShort u g e f n op s) := by
  unfold vecShort
  grind [State.Keeps.issueMove, State.Keeps.vin, State.Keeps.short, Out.keeps_next, Out.keeps_fault, Out.keeps_refused]
theorem vecWhole_keeps {s : State} (h : b₀.Keeps s) (u : VUnit) (g : BitVec 4) (e : Bool) (f : BitVec 10) (n : Nat) (op : VIn → VVal × Flags) :
    Out.Keeps b₀ (vecWhole u g e f n op s) := by
  unfold vecWhole
  grind [State.Keeps.issueMove, State.Keeps.vin, State.Keeps.short, Out.keeps_next, Out.keeps_fault, Out.keeps_refused]
theorem vecLong_keeps {s : State} (h : b₀.Keeps s) (u : VUnit) (g : BitVec 4) (e : Bool) (f : BitVec 10) (n : Nat) (cycles : Nat) (op : VIn → VVal × Flags) :
    Out.Keeps b₀ (vecLong u g e f n cycles op s) := by
  unfold vecLong
  grind [State.Keeps.issueMove, State.Keeps.needD, State.Keeps.hold, State.Keeps.vin, State.Keeps.long, Out.keeps_next, Out.keeps_fault, Out.keeps_refused]
theorem execMsel_keeps {s : State} (h : b₀.Keeps s) (u : VUnit) (g : BitVec 4) (e : Bool) (f : BitVec 10) :
    Out.Keeps b₀ (execMsel u g e f s) := by
  unfold execMsel
  grind [State.Keeps.issueMove, State.Keeps.needClean, State.Keeps.modPipe, State.Keeps.issued, State.Keeps.beside, Out.keeps_next, Out.keeps_fault, Out.keeps_refused]
theorem vecFp_keeps {s : State} (h : b₀.Keeps s) (op : FpOp) (u : VUnit) (g : BitVec 4) (t : BitVec 2) (e : Bool) (f : BitVec 10) :
    Out.Keeps b₀ (vecFp op u g t e f s) := by
  unfold vecFp
  grind [State.Keeps.trapAt, vecShort_keeps, Out.keeps_next, Out.keeps_fault, Out.keeps_refused]
theorem vecCmp_keeps {s : State} (h : b₀.Keeps s) (u : VUnit) (g : BitVec 4) (e : Bool) (f : BitVec 10) (cond : W32 → W32 → Bool) :
    Out.Keeps b₀ (vecCmp u g e f cond s) := by
  unfold vecCmp
  grind [State.Keeps.issueMove, State.Keeps.needD, State.Keeps.vin, State.Keeps.short, Out.keeps_next, Out.keeps_fault, Out.keeps_refused]
theorem vecInt_keeps {s : State} (h : b₀.Keeps s) (op : W32 → W32 → W32) (u : VUnit) (g : BitVec 4) (e : Bool) (f : BitVec 10) : Out.Keeps b₀ (vecInt op u g e f s) :=
  vecShort_keeps h _ _ _ _ _ _
theorem vecPerm_keeps {s : State} (h : b₀.Keeps s) (src : Nat → Nat → Bool × Nat) (u : VUnit) (g : BitVec 4) (e : Bool) (f : BitVec 10) : Out.Keeps b₀ (vecPerm src u g e f s) :=
  vecShort_keeps h _ _ _ _ _ _
theorem vecMask_keeps {s : State} (h : b₀.Keeps s) (op : Bool → Bool → Bool) (u : VUnit) (g : BitVec 4) (e : Bool) (f : BitVec 10) : Out.Keeps b₀ (vecMask op u g e f s) :=
  vecShort_keeps h _ _ _ _ _ _
theorem vecCount_keeps {s : State} (h : b₀.Keeps s) (op : List (Fin 256) → Nat) (u : VUnit) (g : BitVec 4) (e : Bool) (f : BitVec 10) : Out.Keeps b₀ (vecCount op u g e f s) :=
  vecWhole_keeps h _ _ _ _ _ _
theorem vecFn_keeps {s : State} (h : b₀.Keeps s) (n cycles : Nat) (readsX : Bool) (op : VIn → Fin 256 → W32 × Flags) (u : VUnit) (g : BitVec 4) (e : Bool) (f : BitVec 10) : Out.Keeps b₀ (vecFn n cycles readsX op u g e f s) :=
  vecLong_keeps h _ _ _ _ _ _ _
theorem vecReduce_keeps {s : State} (h : b₀.Keeps s) (ident : W32) (comb : W32 → W32 → W32 × Flags) (nan : Bool) (u : VUnit) (g : BitVec 4) (e : Bool) (f : BitVec 10) : Out.Keeps b₀ (vecReduce ident comb nan u g e f s) :=
  vecLong_keeps h _ _ _ _ _ _ _
theorem State.Keeps.needFmt {s : State} (h : b₀.Keeps s) (sl : Slot) (n : BitVec 3) (act : BitVec 24 → State → State) (hact : ∀ (y0 : BitVec 24) (y1 : State), b₀.Keeps y1 → b₀.Keeps (act y0 y1)) :
    b₀.Keeps (State.needFmt s sl n act) := by
  unfold State.needFmt
  grind [State.Keeps.trapAt]
theorem execQnt_keeps {s : State} (h : b₀.Keeps s) (u : VUnit) (g : BitVec 4) (n : BitVec 3) (e : Bool) (f : BitVec 10) :
    Out.Keeps b₀ (execQnt u g n e f s) := by
  unfold execQnt
  grind [State.Keeps.issueMove, State.Keeps.needD, State.Keeps.needFmt, State.Keeps.hold, State.Keeps.modPipe, State.Keeps.long, State.Keeps.beside, Out.keeps_next, Out.keeps_fault, Out.keeps_refused]
theorem execDqnt_keeps {s : State} (h : b₀.Keeps s) (u : VUnit) (g : BitVec 4) (n : BitVec 3) (e : Bool) (f : BitVec 10) :
    Out.Keeps b₀ (execDqnt u g n e f s) := by
  unfold execDqnt
  grind [State.Keeps.issueMove, State.Keeps.needD, State.Keeps.needFmt, State.Keeps.hold, State.Keeps.vin, State.Keeps.draw, State.Keeps.long, Out.keeps_next, Out.keeps_fault, Out.keeps_refused]

end
end Sys2Proof.Machine
end

section
/-! PROOFS. `State.Keeps`: what one group's cycle keeps. -/
namespace Sys2Proof.Machine
set_option Elab.async false
section
variable {b₀ : State}

theorem State.Keeps.landLongs {s : State} (h : b₀.Keeps s) :
    b₀.Keeps (State.landLongs s) := by
  unfold State.landLongs
  grind [State.Keeps.completeLong, State.Keeps.modPipe, State.Keeps.foldl, State.Keeps.foldl_snd, State.Keeps.beside]
theorem State.Keeps.countCycle {s : State} (h : b₀.Keeps s) :
    b₀.Keeps (State.countCycle s) := by
  unfold State.countCycle
  grind [State.Keeps.modMe, State.Keeps.issued, State.Keeps.countCard, State.Keeps.landLongs, State.Keeps.beside, Core.sp_leaseCycle, Core.sp_convertRows]
theorem out_get_keeps {s : State} (h : b₀.Keeps s) (o : Out) (ho : Out.Keeps b₀ (o)) :
    b₀.Keeps (Out.get o s) := by
  unfold Out.get
  grind [Out.keeps_next, Out.keeps_fault, Out.keeps_refused]
theorem State.Keeps.runSequencer {x1 : State} (h : b₀.Keeps x1) (x0 : Nat) :
    b₀.Keeps (State.runSequencer x0 x1) := by
  induction x0 generalizing x1 with
  | zero => exact h
  | succ n ih =>
    unfold State.runSequencer
    split
    · exact h
    · extract_lets t
      have ht : b₀.Keeps t := by
        refine List.foldlRecOn (motive := fun u : State => b₀.Keeps u) _ _ (h.performAll _) fun s hs f hf => out_get_keeps hs _ ?_
        simp only [List.mem_cons, List.not_mem_nil, or_false] at hf
        obtain rfl | rfl | rfl | rfl | rfl := hf
        · exact execGroupFormation_keeps hs
        · exact execTileExecution_keeps hs
        · exact execMzeroExecution_keeps hs
        · exact execMbankExecution_keeps hs
        · exact execDrainExecution_keeps hs
      clear_value t
      split
      · exact ht
      · exact ih ht
theorem State.Keeps.finishLower {s : State} (h : b₀.Keeps s) :
    b₀.Keeps (State.finishLower s) := by
  unfold State.finishLower
  grind [State.Keeps.settle, State.Keeps.runSequencer]
theorem runMove_keeps {ex : Instr → State → Out} (hex : ∀ i s, b₀.Keeps s → Out.Keeps b₀ (ex i s)) (sl : Slot) (p : Parcel) {s : State} (h : b₀.Keeps s) : Out.Keeps b₀ (runMove ex sl p s) := by
  unfold runMove
  split
  · exact hex _ s h
  · exact h.trapAt _ _ _
theorem State.Keeps.runCycle {s : State} (h : b₀.Keeps s) (ex : Instr → State → Out) (gs : BitVec 4) (hex : ∀ (y0 : Instr) (y1 : State), b₀.Keeps y1 → Out.Keeps b₀ (ex y0 y1)) :
    Out.Keeps b₀ (State.runCycle ex gs s) := by
  unfold State.runCycle
  split
  · exact h
  · refine out_bind_keeps _ _ (h.countCycle.cycleGroups _ _ _ _ (fun sl p s hs => runMove_keeps hex sl p hs) fun s hs => hs.finishLower) fun t ht => ?_
    exact State.Keeps.retryWaits (ht.modMe (Core.sp_endCycle _)) _
theorem State.Keeps.chargeJobs {s : State} (h : b₀.Keeps s) (n : Nat) :
    b₀.Keeps (State.chargeJobs s n) := by
  unfold State.chargeJobs
  grind [State.Keeps.beside]

end
end Sys2Proof.Machine
end

section
/-! PROOFS. Every instruction and every step keep the canonical form of every memory. -/
namespace Sys2Proof.Machine
set_option Elab.async false

section
variable {b₀ : State}

theorem exec_keeps {s : State} (h : b₀.Keeps s) (i : Instr) : Out.Keeps b₀ (exec i s) := by
  cases i
  case bundleDecode => exact execBundleDecode_keeps h
  case move => exact execMove_keeps h _ _ _ _ _
  case resultLanding => exact execResultLanding_keeps h _
  case longCompletion => exact execLongCompletion_keeps h _
  case trapEntry => exact execTrapEntry_keeps h
  case containmentUnwind => exact execContainmentUnwind_keeps h
  case pageWalk => exact execPageWalk_keeps h _
  case translationFault => exact execTranslationFault_keeps h _ _
  case collapseFault => exact execCollapseFault_keeps h _
  case homeAccess => exact execHomeAccess_keeps h _
  case atomicAtHome => exact execAtomicAtHome_keeps h _
  case flueWaitExpiry => exact execFlueWaitExpiry_keeps h _
  case logicalTimeAdvance => exact execLogicalTimeAdvance_keeps h _
  case packetHop => exact execPacketHop_keeps h _
  case flitCrcFailure => exact execFlitCrcFailure_keeps h _ _
  case linkDown => exact execLinkDown_keeps h _ _
  case lineWriteback => exact execLineWriteback_keeps h _
  case persistTrackerWriteback => exact execPersistTrackerWriteback_keeps h
  case durableCompletion => exact execDurableCompletion_keeps h _
  case migrationCopyPass => exact execMigrationCopyPass_keeps h _
  case migrationSwitch => exact execMigrationSwitch_keeps h _
  case migrationRedirectEnd => exact execMigrationRedirectEnd_keeps h _
  case hbmReadError => exact execHbmReadError_keeps h _ _
  case patrolScrub => exact execPatrolScrub_keeps h _ _
  case bankIdleExpiry => exact execBankIdleExpiry_keeps h _
  case bankEntryComplete => exact execBankEntryComplete_keeps h _
  case bankExitComplete => exact execBankExitComplete_keeps h _
  case syncArrival => exact execSyncArrival_keeps h _ _ _
  case engineWritePerformed => exact execEngineWritePerformed_keeps h _ _
  case engineCompletion => exact execEngineCompletion_keeps h _ _
  case collectiveCall => exact execCollectiveCall_keeps h _ _
  case reductionCombine => exact execReductionCombine_keeps h _ _
  case xreshPhase => exact execXreshPhase_keeps h _
  case xreshSwitch => exact execXreshSwitch_keeps h _
  case mopldComplete => exact execMopldComplete_keeps h _
  case channelDelivery => exact execChannelDelivery_keeps h _
  case ashpitRefill => exact execAshpitRefill_keeps h _
  case growCheck => exact execGrowCheck_keeps h _
  case kvReservation => exact execKvReservation_keeps h _ _
  case tileExecution => exact execTileExecution_keeps h
  case mzeroExecution => exact execMzeroExecution_keeps h
  case mbankExecution => exact execMbankExecution_keeps h
  case drainExecution => exact execDrainExecution_keeps h
  case groupFormation => exact execGroupFormation_keeps h
  case tickRelease => exact execTickRelease_keeps h _
  case stepDeadline q => exact execStepDeadline_keeps h q
  case ingestDescriptor => exact execIngestDescriptor_keeps h _
  case ppsEdge => exact execPpsEdge_keeps h
  case todFrame => exact execTodFrame_keeps h _
  case timeHoldover => exact execTimeHoldover_keeps h
  case cardDispatch => exact execCardDispatch_keeps h _ _
  case cardDeadlineExpiry => exact execCardDeadlineExpiry_keeps h
  case coreRejoin => exact execCoreRejoin_keeps h
  case spanPlacement => exact execSpanPlacement_keeps h _ _ _ _ _
  case preemption => exact execPreemption_keeps h
  case stateSaveComplete => exact execStateSaveComplete_keeps h
  case stateLoadComplete => exact execStateLoadComplete_keeps h _ _ _
  case quantumExpiry => exact execQuantumExpiry_keeps h _
  case recordTake => exact execRecordTake_keeps h
  case jobCompletion => exact execJobCompletion_keeps h _
  case sinkWatchdogExpiry => exact execSinkWatchdogExpiry_keeps h _
  case killDrainAck => exact execKillDrainAck_keeps h _ _
  case killRelease => exact execKillRelease_keeps h _
  case lockstepMismatch => exact execLockstepMismatch_keeps h _ _
  case lockstepSelftestDone => exact execLockstepSelftestDone_keeps h _ _ _
  case damperMeasure => exact execDamperMeasure_keeps h _ _
  case powerLimitThrottle => exact execPowerLimitThrottle_keeps h
  case powerLimitRestore => exact execPowerLimitRestore_keeps h
  case railOutOfRange => exact execRailOutOfRange_keeps h
  case gpf => exact execGpf_keeps h _
  case pwrfail => exact execPwrfail_keeps h
  case duskRecord => exact execDuskRecord_keeps h
  case bringUp => exact execBringUp_keeps h _
  case dieRoutesDrained => exact execDieRoutesDrained_keeps h _
  case dieRejoin => exact execDieRejoin_keeps h _
  case hostHdmStore => exact execHostHdmStore_keeps h _ _
  case hostHdmLoad => exact execHostHdmLoad_keeps h _ _
  case queueTailWrite => exact execQueueTailWrite_keeps h _ _
  case queueEnable => exact execQueueEnable_keeps h _ _
  case queueRegisterWrite => exact execQueueRegisterWrite_keeps h _ _ _
  case ident => exact execIdent_keeps h _
  case attest => exact execAttest_keeps h _
  case configure => exact execConfigure_keeps h _
  case contextCreate => exact execContextCreate_keeps h _
  case contextKill => exact execContextKill_keeps h _
  case mapPages => exact execMapPages_keeps h _
  case unmap => exact execUnmap_keeps h _
  case protect => exact execProtect_keeps h _
  case migrate => exact execMigrate_keeps h _
  case replicate => exact execReplicate_keeps h _
  case heatRead => exact execHeatRead_keeps h _
  case launchCommand => exact execLaunchCommand_keeps h _
  case streamCreate => exact execStreamCreate_keeps h _
  case streamDestroy => exact execStreamDestroy_keeps h _
  case settimeStep => exact execSettimeStep_keeps h _
  case settimeAdd => exact execSettimeAdd_keeps h _
  case settimeSource => exact execSettimeSource_keeps h _
  case tickCfg => exact execTickCfg_keeps h _
  case ingestCfg => exact execIngestCfg_keeps h _
  case kvpoolCfg => exact execKvpoolCfg_keeps h _
  case pfxCfg => exact execPfxCfg_keeps h _
  case dieReset => exact execDieReset_keeps h _
  case dieIsolate => exact execDieIsolate_keeps h _
  case rasQuery => exact execRasQuery_keeps h _
  case retireQuery => exact execRetireQuery_keeps h _
  case durableFlush => exact execDurableFlush_keeps h _
  case shutdown => exact execShutdown_keeps h _
  case dawnReport => exact execDawnReport_keeps h _
  case getVersion => exact execGetVersion_keeps h
  case getCapabilities => exact execGetCapabilities_keeps h
  case negotiateAlgorithms => exact execNegotiateAlgorithms_keeps h
  case getDigests => exact execGetDigests_keeps h
  case getCertificate => exact execGetCertificate_keeps h
  case challenge => exact execChallenge_keeps h _
  case getMeasurements => exact execGetMeasurements_keeps h _ _
  case spdmSessionMessage => exact execSpdmSessionMessage_keeps h
  case mapreq => exact execMapreq_keeps h
  case unmapreq => exact execUnmapreq_keeps h
  case protreq => exact execProtreq_keeps h
  case notify => exact execNotify_keeps h
  case rascount => exact execRascount_keeps h
  case br => exact execBr_keeps h _ _ _
  case bri => exact execBri_keeps h _ _ _
  case call => exact execCall_keeps h _ _ _
  case calli => exact execCalli_keeps h _ _ _
  case ret => exact execRet_keeps h _ _ _
  case loop => exact execLoop_keeps h _ _ _ _
  case endl => exact execEndl_keeps h _ _ _ _
  case setf => exact execSetf_keeps h _ _ _ _
  case setrm => exact execSetrm_keeps h _ _ _
  case fenceAcq => exact execFenceAcq_keeps h _ _ _ _
  case fenceRel g sc e f => exact execFenceRel_keeps h g sc e f
  case fenceAr => exact execFenceAr_keeps h _ _ _ _
  case xfence => exact execXfence_keeps h _ _ _
  case pbar => exact execPbar_keeps h _ _ _
  case bara => exact execBara_keeps h _ _ _
  case baraRlx => exact execBaraRlx_keeps h _ _ _
  case barw => exact execBarw_keeps h _ _ _
  case bart => exact execBart_keeps h _ _ _
  case fork => exact execFork_keeps h _ _ _
  case join => exact execJoin_keeps h _ _ _
  case yield => exact execYield_keeps h _ _ _
  case endTask => exact execEndTask_keeps h _ _ _
  case tickw => exact execTickw_keeps h _ _ _
  case launch => exact execLaunch_keeps h _ _ _
  case trap => exact execTrap_keeps h _ _ _
  case tret => exact execTret_keeps h _ _ _
  case crgnOpen => exact execCrgnOpen_keeps h _ _ _
  case crgnClose => exact execCrgnClose_keeps h _ _ _
  case svc => exact execSvc_keeps h _ _ _
  case abort => exact execAbort_keeps h _ _ _
  case srrd => exact execSrrd_keeps h _ _ _
  case srwr => exact execSrwr_keeps h _ _ _
  case add | sub | mul | mulh | mulhu | and | or | xor | andn | shl | shr | sar | rotl | minS | maxS | minu | maxu | clz | ctz | popc | sextB |
      sextH | sextW | zextB | zextH | zextW | sel | addW | subW | mulW | lea => exact scalarOp_keeps h _ _ _ _
  case cmpEq g e f => exact (scalarCmp_keeps h g e f _ : Out.Keeps b₀ (execCmpEq g e f s))
  case cmpNe g e f => exact (scalarCmp_keeps h g e f _ : Out.Keeps b₀ (execCmpNe g e f s))
  case cmpLt g e f => exact (scalarCmp_keeps h g e f _ : Out.Keeps b₀ (execCmpLt g e f s))
  case cmpLe g e f => exact (scalarCmp_keeps h g e f _ : Out.Keeps b₀ (execCmpLe g e f s))
  case cmpLtu g e f => exact (scalarCmp_keeps h g e f _ : Out.Keeps b₀ (execCmpLtu g e f s))
  case cmpLeu g e f => exact (scalarCmp_keeps h g e f _ : Out.Keeps b₀ (execCmpLeu g e f s))
  case div | divu | rem | remu | divW | divuW | remW | remuW => exact scalarDiv_keeps h _ _ _ _ _ _
  case ldB | ldH | ldW | ldD | lduB | lduH | lduW => exact scalarLoad_keeps h _ _ _ _ _ _
  case stB | stH | stW | stD => exact scalarStore_keeps h _ _ _ _ _
  case pwldW | pwldD => exact windowLoad_keeps h _ _ _ _ _
  case aadd | amin | amax | aminu | amaxu | aand | aor | axor | axchg | acas | aaddN | aminN | amaxN | aminuN | amaxuN | aandN | aorN | axorN => exact scalarAtomic_keeps h _ _ _ _ _ _
  case msel => exact execMsel_keeps h _ _ _ _
  case fadd u g t e f => exact (vecFp_keeps h _ _ _ _ _ _ : Out.Keeps b₀ (execFadd u g t e f s))
  case fsub u g t e f => exact (vecFp_keeps h _ _ _ _ _ _ : Out.Keeps b₀ (execFsub u g t e f s))
  case fmul u g t e f => exact (vecFp_keeps h _ _ _ _ _ _ : Out.Keeps b₀ (execFmul u g t e f s))
  case ffma u g t e f => exact (vecFp_keeps h _ _ _ _ _ _ : Out.Keeps b₀ (execFfma u g t e f s))
  case ffms u g t e f => exact (vecFp_keeps h _ _ _ _ _ _ : Out.Keeps b₀ (execFfms u g t e f s))
  case fnma u g t e f => exact (vecFp_keeps h _ _ _ _ _ _ : Out.Keeps b₀ (execFnma u g t e f s))
  case fmin u g t e f => exact (vecFp_keeps h _ _ _ _ _ _ : Out.Keeps b₀ (execFmin u g t e f s))
  case fmax u g t e f => exact (vecFp_keeps h _ _ _ _ _ _ : Out.Keeps b₀ (execFmax u g t e f s))
  case fabs u g t e f => exact (vecFp_keeps h _ _ _ _ _ _ : Out.Keeps b₀ (execFabs u g t e f s))
  case fneg u g t e f => exact (vecFp_keeps h _ _ _ _ _ _ : Out.Keeps b₀ (execFneg u g t e f s))
  case fcpys u g t e f => exact (vecFp_keeps h _ _ _ _ _ _ : Out.Keeps b₀ (execFcpys u g t e f s))
  case fcmpEq u g e f => exact (vecCmp_keeps h _ _ _ _ _ : Out.Keeps b₀ (execFcmpEq u g e f s))
  case fcmpNe u g e f => exact (vecCmp_keeps h _ _ _ _ _ : Out.Keeps b₀ (execFcmpNe u g e f s))
  case fcmpLt u g e f => exact (vecCmp_keeps h _ _ _ _ _ : Out.Keeps b₀ (execFcmpLt u g e f s))
  case fcmpLe u g e f => exact (vecCmp_keeps h _ _ _ _ _ : Out.Keeps b₀ (execFcmpLe u g e f s))
  case fcmpUn u g e f => exact (vecCmp_keeps h _ _ _ _ _ : Out.Keeps b₀ (execFcmpUn u g e f s))
  case icmpEq u g e f => exact (vecCmp_keeps h _ _ _ _ _ : Out.Keeps b₀ (execIcmpEq u g e f s))
  case icmpNe u g e f => exact (vecCmp_keeps h _ _ _ _ _ : Out.Keeps b₀ (execIcmpNe u g e f s))
  case icmpLt u g e f => exact (vecCmp_keeps h _ _ _ _ _ : Out.Keeps b₀ (execIcmpLt u g e f s))
  case icmpLe u g e f => exact (vecCmp_keeps h _ _ _ _ _ : Out.Keeps b₀ (execIcmpLe u g e f s))
  case icmpLtu u g e f => exact (vecCmp_keeps h _ _ _ _ _ : Out.Keeps b₀ (execIcmpLtu u g e f s))
  case icmpLeu u g e f => exact (vecCmp_keeps h _ _ _ _ _ : Out.Keeps b₀ (execIcmpLeu u g e f s))
  case vsel u g e f => exact (vecShort_keeps h _ _ _ _ _ _ : Out.Keeps b₀ (execVsel u g e f s))
  case iabs u g e f => exact (vecShort_keeps h _ _ _ _ _ _ : Out.Keeps b₀ (execIabs u g e f s))
  case cvtFH u g e f => exact (vecShort_keeps h _ _ _ _ _ _ : Out.Keeps b₀ (execCvtFH u g e f s))
  case cvtFHh u g e f => exact (vecShort_keeps h _ _ _ _ _ _ : Out.Keeps b₀ (execCvtFHh u g e f s))
  case cvtFB u g e f => exact (vecShort_keeps h _ _ _ _ _ _ : Out.Keeps b₀ (execCvtFB u g e f s))
  case cvtFBh u g e f => exact (vecShort_keeps h _ _ _ _ _ _ : Out.Keeps b₀ (execCvtFBh u g e f s))
  case cvtIF u g e f => exact (vecShort_keeps h _ _ _ _ _ _ : Out.Keeps b₀ (execCvtIF u g e f s))
  case cvtFI u g e f => exact (vecShort_keeps h _ _ _ _ _ _ : Out.Keeps b₀ (execCvtFI u g e f s))
  case cvtII8 u g e f => exact (vecShort_keeps h _ _ _ _ _ _ : Out.Keeps b₀ (execCvtII8 u g e f s))
  case vperm u g e f => exact (vecShort_keeps h _ _ _ _ _ _ : Out.Keeps b₀ (execVperm u g e f s))
  case mnot u g e f => exact (vecShort_keeps h _ _ _ _ _ _ : Out.Keeps b₀ (execMnot u g e f s))
  case iadd u g e f => exact (vecInt_keeps h _ _ _ _ _ : Out.Keeps b₀ (execIadd u g e f s))
  case isub u g e f => exact (vecInt_keeps h _ _ _ _ _ : Out.Keeps b₀ (execIsub u g e f s))
  case imul u g e f => exact (vecInt_keeps h _ _ _ _ _ : Out.Keeps b₀ (execImul u g e f s))
  case imulh u g e f => exact (vecInt_keeps h _ _ _ _ _ : Out.Keeps b₀ (execImulh u g e f s))
  case imulhu u g e f => exact (vecInt_keeps h _ _ _ _ _ : Out.Keeps b₀ (execImulhu u g e f s))
  case iand u g e f => exact (vecInt_keeps h _ _ _ _ _ : Out.Keeps b₀ (execIand u g e f s))
  case ior u g e f => exact (vecInt_keeps h _ _ _ _ _ : Out.Keeps b₀ (execIor u g e f s))
  case ixor u g e f => exact (vecInt_keeps h _ _ _ _ _ : Out.Keeps b₀ (execIxor u g e f s))
  case iandn u g e f => exact (vecInt_keeps h _ _ _ _ _ : Out.Keeps b₀ (execIandn u g e f s))
  case ishl u g e f => exact (vecInt_keeps h _ _ _ _ _ : Out.Keeps b₀ (execIshl u g e f s))
  case ishr u g e f => exact (vecInt_keeps h _ _ _ _ _ : Out.Keeps b₀ (execIshr u g e f s))
  case isar u g e f => exact (vecInt_keeps h _ _ _ _ _ : Out.Keeps b₀ (execIsar u g e f s))
  case imin u g e f => exact (vecInt_keeps h _ _ _ _ _ : Out.Keeps b₀ (execImin u g e f s))
  case imax u g e f => exact (vecInt_keeps h _ _ _ _ _ : Out.Keeps b₀ (execImax u g e f s))
  case iminu u g e f => exact (vecInt_keeps h _ _ _ _ _ : Out.Keeps b₀ (execIminu u g e f s))
  case imaxu u g e f => exact (vecInt_keeps h _ _ _ _ _ : Out.Keeps b₀ (execImaxu u g e f s))
  case iaddSat u g e f => exact (vecInt_keeps h _ _ _ _ _ : Out.Keeps b₀ (execIaddSat u g e f s))
  case isubSat u g e f => exact (vecInt_keeps h _ _ _ _ _ : Out.Keeps b₀ (execIsubSat u g e f s))
  case cvtHF u g e f => exact (vecWhole_keeps h _ _ _ _ _ _ : Out.Keeps b₀ (execCvtHF u g e f s))
  case cvtBF u g e f => exact (vecWhole_keeps h _ _ _ _ _ _ : Out.Keeps b₀ (execCvtBF u g e f s))
  case cvtI8I u g e f => exact (vecWhole_keeps h _ _ _ _ _ _ : Out.Keeps b₀ (execCvtI8I u g e f s))
  case vbcast u g e f => exact (vecPerm_keeps h _ _ _ _ _ : Out.Keeps b₀ (execVbcast u g e f s))
  case vrot u g e f => exact (vecPerm_keeps h _ _ _ _ _ : Out.Keeps b₀ (execVrot u g e f s))
  case vslup u g e f => exact (vecPerm_keeps h _ _ _ _ _ : Out.Keeps b₀ (execVslup u g e f s))
  case vsldn u g e f => exact (vecPerm_keeps h _ _ _ _ _ : Out.Keeps b₀ (execVsldn u g e f s))
  case vextl u g e f => exact (vecPerm_keeps h _ _ _ _ _ : Out.Keeps b₀ (execVextl u g e f s))
  case mand u g e f => exact (vecMask_keeps h _ _ _ _ _ : Out.Keeps b₀ (execMand u g e f s))
  case mor u g e f => exact (vecMask_keeps h _ _ _ _ _ : Out.Keeps b₀ (execMor u g e f s))
  case mxor u g e f => exact (vecMask_keeps h _ _ _ _ _ : Out.Keeps b₀ (execMxor u g e f s))
  case mpop u g e f => exact (vecCount_keeps h _ _ _ _ _ : Out.Keeps b₀ (execMpop u g e f s))
  case mfirst u g e f => exact (vecCount_keeps h _ _ _ _ _ : Out.Keeps b₀ (execMfirst u g e f s))
  case frcp u g e f => exact (vecFn_keeps h _ _ _ _ _ _ _ _ : Out.Keeps b₀ (execFrcp u g e f s))
  case frsq u g e f => exact (vecFn_keeps h _ _ _ _ _ _ _ _ : Out.Keeps b₀ (execFrsq u g e f s))
  case fsqrt u g e f => exact (vecFn_keeps h _ _ _ _ _ _ _ _ : Out.Keeps b₀ (execFsqrt u g e f s))
  case fexp2 u g e f => exact (vecFn_keeps h _ _ _ _ _ _ _ _ : Out.Keeps b₀ (execFexp2 u g e f s))
  case flog2 u g e f => exact (vecFn_keeps h _ _ _ _ _ _ _ _ : Out.Keeps b₀ (execFlog2 u g e f s))
  case fdiv u g e f => exact (vecFn_keeps h _ _ _ _ _ _ _ _ : Out.Keeps b₀ (execFdiv u g e f s))
  case rsumF u g e f => exact (vecReduce_keeps h _ _ _ _ _ _ _ : Out.Keeps b₀ (execRsumF u g e f s))
  case rmaxF u g e f => exact (vecReduce_keeps h _ _ _ _ _ _ _ : Out.Keeps b₀ (execRmaxF u g e f s))
  case rminF u g e f => exact (vecReduce_keeps h _ _ _ _ _ _ _ : Out.Keeps b₀ (execRminF u g e f s))
  case rsumI u g e f => exact (vecReduce_keeps h _ _ _ _ _ _ _ : Out.Keeps b₀ (execRsumI u g e f s))
  case rmaxI u g e f => exact (vecReduce_keeps h _ _ _ _ _ _ _ : Out.Keeps b₀ (execRmaxI u g e f s))
  case rminI u g e f => exact (vecReduce_keeps h _ _ _ _ _ _ _ : Out.Keeps b₀ (execRminI u g e f s))
  case smx u g e f => exact (vecLong_keeps h _ _ _ _ _ _ _ : Out.Keeps b₀ (execSmx u g e f s))
  case smxf u g e f => exact (vecLong_keeps h _ _ _ _ _ _ _ : Out.Keeps b₀ (execSmxf u g e f s))
  case qnt => exact execQnt_keeps h _ _ _ _ _
  case dqnt => exact execDqnt_keeps h _ _ _ _ _
  case mcfg => exact execMcfg_keeps h _ _ _
  case msla => exact execMsla_keeps h _ _ _
  case mslb => exact execMslb_keeps h _ _ _
  case mklen => exact execMklen_keeps h _ _ _
  case mbthr => exact execMbthr_keeps h _ _ _
  case mchk => exact execMchk_keeps h _ _ _
  case mdtm => exact execMdtm_keeps h _ _ _
  case mgrp => exact execMgrp_keeps h _ _ _
  case mbPa => exact execMbPa_keeps h _ _ _
  case mbP => exact execMbP_keeps h _ _ _
  case mbS => exact execMbS_keeps h _ _ _
  case mbA => exact execMbA_keeps h _ _ _
  case mbD => exact execMbD_keeps h _ _ _
  case mtile => exact execMtile_keeps h _ _ _
  case mtileW => exact execMtileW_keeps h _ _ _
  case mzero => exact execMzero_keeps h _ _ _
  case mbank => exact execMbank_keeps h _ _ _
  case mdrnSt => exact execMdrnSt_keeps h _ _ _
  case mdrnCvt => exact execMdrnCvt_keeps h _ _ _
  case mdrnAdd => exact execMdrnAdd_keeps h _ _ _
  case mdrnAddc => exact execMdrnAddc_keeps h _ _ _
  case mclaimA => exact execMclaimA_keeps h _ _ _
  case mclaimB => exact execMclaimB_keeps h _ _ _
  case mrel => exact execMrel_keeps h _ _ _
  case mbndRd => exact execMbndRd_keeps h _ _ _
  case mbndWr => exact execMbndWr_keeps h _ _ _
  case mchkNow => exact execMchkNow_keeps h _ _ _
  case mwait => exact execMwait_keeps h _ _ _
  case mstat => exact execMstat_keeps h _ _ _
  case kflg => exact execKflg_keeps h _ _ _ _
  case ksw => exact execKsw_keeps h _ _ _ _
  case spld => exact execSpld_keeps h _ _ _ _
  case spldH => exact execSpldH_keeps h _ _ _ _
  case spldBc => exact execSpldBc_keeps h _ _ _ _
  case spldG => exact execSpldG_keeps h _ _ _ _
  case spldAg => exact execSpldAg_keeps h _ _ _ _ _
  case spst => exact execSpst_keeps h _ _ _ _
  case spstM => exact execSpstM_keeps h _ _ _ _
  case spstS => exact execSpstS_keeps h _ _ _ _
  case spstAg => exact execSpstAg_keeps h _ _ _ _ _
  case agSet => exact execAgSet_keeps h _ _ _ _ _
  case agPos => exact execAgPos_keeps h _ _ _ _ _
  case mopld => exact execMopld_keeps h _ _ _ _
  case mopldT => exact execMopldT_keeps h _ _ _ _
  case xcopy => exact execXcopy_keeps h _ _ _ _
  case xgath => exact execXgath_keeps h _ _ _ _
  case xscat => exact execXscat_keeps h _ _ _ _
  case xmcast => exact execXmcast_keeps h _ _ _ _
  case xred => exact execXred_keeps h _ _ _ _
  case xhalo => exact execXhalo_keeps h _ _ _ _
  case xresh => exact execXresh_keeps h _ _ _ _
  case swInit => exact execSwInit_keeps h _ _ _ _
  case swAdd => exact execSwAdd_keeps h _ _ _ _
  case swWait => exact execSwWait_keeps h _ _ _ _
  case swTest => exact execSwTest_keeps h _ _ _ _
  case swRd => exact execSwRd_keeps h _ _ _ _
  case qput => exact execQput_keeps h _ _ _ _
  case qget => exact execQget_keeps h _ _ _ _
  case ingPop => exact execIngPop_keeps h _ _ _ _
  case kvApp => exact execKvApp_keeps h _ _ _ _
  case kvExt => exact execKvExt_keeps h _ _ _ _
  case pfxHash => exact execPfxHash_keeps h _ _ _ _
  case pfxLook => exact execPfxLook_keeps h _ _ _ _
  case pfxIns => exact execPfxIns_keeps h _ _ _ _
  case pfxPin => exact execPfxPin_keeps h _ _ _ _
  case pfxUnpin => exact execPfxUnpin_keeps h _ _ _ _
  case duskOverrun => exact execDuskOverrun_keeps h _

end

theorem Out.memWf_of_keeps {b₀ t : State} {o : Out} (h : Out.Keeps b₀ o) (hb : b₀.memWf) (he : o = .next t) : t.memWf := by
  subst he
  exact State.Keeps.memWf h hb

/-- What a turn leaves has canonical memories: its current core may be another one. -/
theorem State.memWf_runTurn {s t : State} (h : s.memWf) (u : Turn) (he : s.runTurn exec u = .next t) : t.memWf := by
  have hk (c : CoreId) : ({ s with cur := c } : State).Keeps { s with cur := c } := .refl _
  have hs : s.Keeps s := .refl s
  have hw (c : CoreId) : State.memWf { s with cur := c } := h
  cases u with
  | event c i =>
    have ho : Out.Keeps { s with cur := c } (Out.bind (exec i { s with cur := c }) fun t => .next t.endOwed) := out_bind_keeps _ _ (exec_keeps (hk c) i) fun t ht => ht.endOwed
    by_cases hc : s.hasCore c = true
    · exact Out.memWf_of_keeps ho (hw c) ((if_pos hc).symm.trans he)
    · exact Out.memWf_of_keeps (o := .next s) hs h ((if_neg hc).symm.trans he)
  | cycle c gs =>
    have ho : Out.Keeps { s with cur := c } (Out.bind (({ s with cur := c } : State).runCycle exec gs) fun t => .next t.endOwed) :=
      out_bind_keeps _ _ ((hk c).runCycle _ _ fun i s hs => exec_keeps hs i) fun t ht => ht.endOwed
    by_cases hc : s.hasCore c = true
    · exact Out.memWf_of_keeps ho (hw c) ((if_pos hc).symm.trans he)
    · exact Out.memWf_of_keeps (o := .next s) hs h ((if_neg hc).symm.trans he)
  | time n => exact Out.memWf_of_keeps (o := .next _) ((hs.passTime n).chargeJobs n) h he
  | upset u => exact Out.memWf_of_keeps (o := .next _) (hs.upset u) h he
  | pick k m => exact Out.memWf_of_keeps (o := .next { s with pick := (k, m) }) (hs.beside rfl rfl rfl rfl) h he

/-- Settles O7: a step is a turn, and every operation of a turn keeps each memory's canonical form (`exec_keeps`). -/
theorem memoryStaysCanonical : Obligations.MemoryStaysCanonical := by
  unfold Obligations.MemoryStaysCanonical
  intro s t h he
  unfold step State.stepWith at he
  have ha (r : List Turn) : State.memWf { s with agenda := r } := h
  split at he
  · exact State.memWf_runTurn (ha _) _ he
  · split at he
    · exact State.memWf_runTurn (ha _) _ he
    · cases he
      exact h

end Sys2Proof.Machine
end

section
/-! PROOFS. The cycle of one group whose bundle holds one move. -/
namespace Sys2Proof.Machine

/-- Only a group of the mask can start. -/
theorem State.startMask_one (s : State) {g : Nat} (hg : g < 4) (h : s.mayStart g = true) : s.startMask ((1 : BitVec 4) <<< g) = (1 : BitVec 4) <<< g := by
  interval_cases g <;> simp [State.startMask, h]

/-- Groups outside the mask do not move. -/
theorem State.cycleGroups_off (run : RunMove) (fin : State → State) (gs : BitVec 4) (s : State) (l : List Nat) (h : ∀ g ∈ l, gs.getLsbD g = false) :
    s.cycleGroups run fin gs l = .next s := by
  induction l with
  | nil => rfl
  | cons g r ih => simp [State.cycleGroups, h g (by simp), ih fun x hx => h x (by simp [hx])]

/-- A cycle in which one group alone may start and issues. -/
theorem State.cycleGroups_one {run : RunMove} {fin : State → State} {s t : State} {gs : BitVec 4} {g : Nat} (l r : List Nat) (hl : ∀ h ∈ l, gs.getLsbD h = false)
    (hr : ∀ h ∈ r, gs.getLsbD h = false) (hg : gs.getLsbD g = true) (ht : s.tryGroup run fin g = .next t) (hd : t.pipe.disp = .issued) :
    s.cycleGroups run fin gs (l ++ g :: r) = .next t := by
  induction l with
  | nil =>
    simp only [List.nil_append, State.cycleGroups, hg, ht, Out.bind, hd, Bool.not_true, Bool.false_eq_true, if_false]
    exact State.cycleGroups_off _ _ _ _ _ fun h hh => by simp [hr h hh]
  | cons a l ih => simp [State.cycleGroups, hl a (by simp), ih fun h hh => hl h (by simp [hh])]

/-- A turn of one group: its cycle is the bundle it tries. -/
theorem State.cycleGroups_startMask {run : RunMove} {fin : State → State} {s t : State} {g : Nat} (hg : g < 4) (hm : s.mayStart g = true)
    (ht : s.tryGroup run fin g = .next t) (hd : t.pipe.disp = .issued) :
    s.cycleGroups run fin (s.startMask ((1 : BitVec 4) <<< g)) [0, 1, 2, 3] = .next t := by
  rw [s.startMask_one hg hm]
  have hsplit : [0, 1, 2, 3] = List.range g ++ g :: List.range' (g + 1) (3 - g) := by interval_cases g <;> rfl
  rw [hsplit]
  refine State.cycleGroups_one _ _ (fun h hh => ?_) (fun h hh => ?_) (by simp [hg]) ht hd
  · simp [BitVec.getLsbD_shiftLeft, List.mem_range.mp hh]
  · have := (List.mem_range'_1.mp hh).1
    simp [BitVec.getLsbD_shiftLeft, BitVec.getLsbD_one]
    omega

/-- A bundle that faults nowhere is not tried again. -/
theorem State.tryGroup_issued {run : RunMove} {fin : State → State} {s t : State} {g : Nat} (ht : s.tryBundle run fin g = .next t) (hd : t.pipe.disp = .issued) :
    s.tryGroup run fin g = .next t := by
  simp [State.tryGroup, ht, Out.bind, State.faulted, hd]

/-- The times that a bundle's reads take change no pipeline. -/
@[simp] theorem State.readTimes_pipe (s : State) (p : Pipe) (gs : List Nat) (d : Disp) : (s.readTimes p gs d).pipe = s.pipe := by
  unfold State.readTimes
  refine List.foldlRecOn (motive := fun t : State => t.pipe = s.pipe) _ _ rfl fun t ht g _ => ?_
  have hset (u : Vector Nat 4) : (t.setLt t.cur u).pipe = t.pipe := by simp [State.setLt, State.pipe, State.me]
  dsimp only
  split_ifs <;> simp only [hset, ht]

/-- A list of one move that issues. -/
theorem runMoves_single {run : RunMove} {fin : State → State} {s t : State} {sl : Slot} {p : Parcel} (h : run sl p (s.atSlot sl) = .next t) (hd : t.pipe.disp = .issued) :
    runMoves run fin s [(sl, p)] none s = .ok (t, .issued none) := by
  simp [runMoves, h, hd]

theorem Slot.gix_lt (sl : Slot) : sl.gix < 4 := sl.group.index.isLt

/-- A bundle of one move of one group, with no fault due, whose move issues and whose reads are served: the group retires it. -/
theorem State.issueGroups_single {run : RunMove} {fin : State → State} {s t : State} {i : Nat} {d : Disp} {sl : Slot} {p : Parcel} {p0 : Pipe}
    (hm : d.moves = [(sl, p)]) (hb : s.pipe.begin [sl.gix] i d = (p0, .done)) (hfp : sl.gix = 1 → s.pipe.fpDue = none) (hmeta : s.metaDue [sl.gix] i d = false)
    (hrun : run sl p (((s.modPipe fun _ => p0).readTimes p0 [sl.gix] d).atSlot sl) = .next t) (hd : t.pipe.disp = .issued)
    (hserve : (s.pipe.serve sl.gix (p0.vReads [sl.gix] d)).2 = true) :
    s.issueGroups run fin [sl.gix] i d = .next ((if s.pipe.holds.getD sl.gix none = some 1 then t.unrefuse t.cur else t).modPipe fun p =>
      { (p.dropFills p0 [sl.gix] d).retire [sl.gix] with busy := (s.pipe.serve sl.gix (p0.vReads [sl.gix] d)).1.busy }) := by
  have hdue (s0 : State) : s.dueFault s0 .done [sl.gix] i d = none := by
    have hfp' : (if [sl.gix].contains 1 then s.pipe.fpDue.map fun u => (u.slot, s.raiseFp u i d) else none) = none := by
      split_ifs with h1
      · rw [hfp (by simpa using Eq.symm (by simpa using h1))]; rfl
      · rfl
    unfold State.dueFault
    simp only [hfp', hmeta, Landing.slot, lowerFault, Option.map_none, Bool.false_eq_true, if_false]
  have hmoves : (d.moves.filter fun m => [sl.gix].contains m.1.gix) = [(sl, p)] := by simp [hm]
  unfold State.issueGroups State.issuePart
  simp only [hb, hdue]
  unfold State.issueMoves
  simp only [hmoves, runMoves_single hrun hd, State.readTimes_pipe, State.pipe_modPipe, List.headD_cons, hserve, List.any_cons, List.any_nil, Bool.or_false, decide_eq_true_eq,
    Bool.not_true, Bool.false_eq_true, if_false]

/-- The conditions under which group `g` runs the one move of its bundle: it starts, and its bundle is that move. -/
theorem State.tryBundle_issues {run : RunMove} {fin : State → State} {s : State} {g : Nat} {d : Disp} (hc : s.me.canIssue = true) (hr : s.pipe.mayReach g = true)
    (hd : (s.dispatchTo s.cur (s.pipe.pos g) 20).pipe.stream.at (s.pipe.pos g) = some d) (hi : (s.dispatchTo s.cur (s.pipe.pos g) 20).pipe.mayIssue g d = true)
    (hm : d.marker = none) (ht : (s.dispatchTo s.cur (s.pipe.pos g) 20).pipe.together g d = [g]) :
    s.tryBundle run fin g = (s.dispatchTo s.cur (s.pipe.pos g) 20).issueGroups run fin [g] (s.pipe.pos g) d := by
  simp [State.tryBundle, hc, hr, hd, hi, hm, ht]

theorem State.mayStart_of_mayIssue {s : State} {g : Nat} {d : Disp} (hc : s.me.canIssue = true) (hr : s.pipe.mayReach g = true)
    (hd : (s.dispatchTo s.cur (s.pipe.pos g) 20).pipe.stream.at (s.pipe.pos g) = some d) (hi : (s.dispatchTo s.cur (s.pipe.pos g) 20).pipe.mayIssue g d = true) :
    s.mayStart g = true := by
  simp [State.mayStart, hc, hr, hd, hi]

theorem Pipe.setShadowed_disp (p : Pipe) (r : ShReg) (v : BitVec 24) : (p.setShadowed r v).disp = p.disp := by
  cases r <;> rfl

theorem Pipe.pruneShadows_disp (p : Pipe) : p.pruneShadows.disp = p.disp := by
  unfold Pipe.pruneShadows
  extract_lets low done
  split_ifs
  · rfl
  · exact List.foldlRecOn (motive := fun q : Pipe => q.disp = p.disp) _ _ rfl fun q hq x _ => (q.setShadowed_disp _ _).trans hq

/-- A bundle that one group retires leaves the disposition of its moves. -/
theorem Pipe.retire_disp (p : Pipe) (g : Nat) : (p.retire [g]).disp = p.disp := Pipe.pruneShadows_disp _

theorem Pipe.dropFills_disp (q p : Pipe) (gs : List Nat) (d : Disp) : (q.dropFills p gs d).disp = q.disp := by
  unfold Pipe.dropFills
  split_ifs <;> rfl

@[simp] theorem State.unrefuse_pipe (s : State) (c : CoreId) : (s.unrefuse c).pipe = s.pipe := by
  unfold State.unrefuse State.pipe State.me
  by_cases h : s.cur = c
  · subst h; simp
  · rw [State.modCore_cur, State.core_modCore_ne _ _ h]

theorem natCast_one_shiftLeft {g : Nat} (hg : g < 4) : ((1 <<< g : Nat) : BitVec 4) = (1 : BitVec 4) <<< g := by
  interval_cases g <;> rfl

/-- The bundle of a cycle that retires: what of the turn remains is the cycle's end. -/
theorem State.runCycle_of_groups {ex : Instr → State → Out} {s t : State} {gs : BitVec 4} (hp : s.phase = .running)
    (h : s.countCycle.cycleGroups (runMove ex) State.finishLower (s.countCycle.startMask gs) [0, 1, 2, 3] = .next t) :
    s.runCycle ex gs = .next ((t.modMe Core.endCycle).retryWaits t.cur) := by
  rw [State.runCycle, if_neg (by simp [hp]), h]
  rfl

/-- Settles O6: the agenda's turn is the cycle of one group, whose bundle is one move. -/
theorem stepRunsDecodedMove : Obligations.StepRunsDecodedMove := by
  intro s t c r d sl p i p0 hag hph hcore s1 g n s2 hcan hreach hat hissue hmark hmeta htog hmoves hbegin hfp hlit hdec w hw hex hcur hdisp u
  have hcur1 : s1.cur = c := ((State.Keeps.refl { s with agenda := r, cur := c }).countCycle).cur
  have hs2 : s1.dispatchTo s1.cur (s1.pipe.pos g) 20 = s2 := by rw [hcur1]
  have hrun : runMove exec sl p (((s2.modPipe fun _ => p0).readTimes p0 [g] d).atSlot sl) = .next t := by
    have hl : (((s2.modPipe fun _ => p0).readTimes p0 [g] d).atSlot sl).pipe.ib.lit = d.lit := by simp [State.atSlot, hlit]
    simp only [runMove, hl, hdec, hex]
  have hbundle := State.issueGroups_single (fin := State.finishLower) hmoves hbegin hfp hmeta hrun hdisp hw
  have htry := hs2 ▸ State.tryBundle_issues (run := runMove exec) (fin := State.finishLower) hcan hreach (hs2 ▸ hat) (hs2 ▸ hissue) hmark (hs2 ▸ htog)
  have hend := htry.trans hbundle
  rw [hcur] at hend
  have hu : u.pipe = t.pipe ∧ u.cur = c := by
    simp only [u]
    split_ifs
    · exact ⟨State.unrefuse_pipe t c, hcur⟩
    · exact ⟨rfl, hcur⟩
  have hdisp' : ∀ b, (u.modPipe fun p => { (p.dropFills p0 [g] d).retire [g] with busy := b }).pipe.disp = .issued := fun b => by
    simp [Pipe.retire_disp, Pipe.dropFills_disp, hu.1, hdisp]
  have hcycle := State.cycleGroups_startMask (Slot.gix_lt sl) (State.mayStart_of_mayIssue hcan hreach (hs2 ▸ hat) (hs2 ▸ hissue)) (State.tryGroup_issued hend (hdisp' _))
    (hdisp' _)
  rw [← natCast_one_shiftLeft (Slot.gix_lt sl)] at hcycle
  rw [step, State.stepWith, hag]
  simp only [State.runTurn]
  rw [if_pos (by exact hcore), State.runCycle_of_groups (s := { s with agenda := r, cur := c }) hph hcycle, State.modPipe_cur, hu.2]
  rfl

end Sys2Proof.Machine
end

section
/-! PROOFS. The platform: flash records, the firmware's records across a command's end, bring-up, dusk, the time port, SPDM. -/
namespace Sys2Proof.Machine

/-! ## Flash records -/

/-- The copy that a write replaces is never the newer one afterwards. -/
theorem FlashCopy.best_put {α : Type} (a b : FlashCopy α) (v : α) (sign : Nat → List Byte) : (a.put b v sign).1.best (a.put b v sign).2 = some v := by
  unfold FlashCopy.put
  extract_lets seq new
  have ha : ¬ seq ≤ a.seq := by simp only [seq]; omega
  have hb : b.seq ≤ seq := by simp only [seq]; omega
  split_ifs <;> simp [FlashCopy.best, FlashCopy.newer, new, ha, hb]

theorem Flash.damper_putDamper (f : Flash) (v : Vector Nat 64) : (f.putDamper v).damper = v := by
  simp [Flash.putDamper, Flash.damper, FlashCopy.best_put]

theorem Flash.boot_putBoot (f : Flash) (v : W32) : (f.putBoot v).boot = v := by
  simp [Flash.putBoot, Flash.boot, FlashCopy.best_put]

theorem Flash.putRows_boots (f : Flash) (l : List (Nat × Nat)) : (f.putRows l).boot0 = f.boot0 ∧ (f.putRows l).boot1 = f.boot1 := ⟨rfl, rfl⟩

/-! ## The end of a command -/

@[simp] theorem State.endCmd_fw (s : State) (x : Cmd) (c : Nat) (r : Option W64) : (s.endCmd x c r).fw = s.fw := by cases r <;> rfl

@[simp] theorem State.sweepUnknown_fw (n : Nat) (s : State) : (s.sweepUnknown n).fw = s.fw := by
  induction n generalizing s with
  | zero => rfl
  | succ n ih =>
    unfold State.sweepUnknown
    split
    · split_ifs
      · rfl
      · rw [ih, State.endCmd_fw]
    · rfl

@[simp] theorem State.finishCmd_fw (s : State) (x : Cmd) (c : Nat) (r : Option W64) : (s.finishCmd x c r).fw = s.fw := by
  simp [State.finishCmd]

@[simp] theorem State.finishBegun_fw (s : State) (opc : Nat) (f : Cmd → Bool) : (s.finishBegun opc f).fw = s.fw :=
  List.foldlRecOn (motive := fun t : State => t.fw = s.fw) _ _ rfl fun t ht _ _ => by rw [State.finishCmd_fw, ht]

/-! ## Bring-up -/

/-- Without an event ring a RAS event is recorded and nothing is posted. -/
theorem State.rasEvent_off {s : State} (h : s.fw.cfg.evqlog = 0) (kind die item : Nat) :
    s.rasEvent kind die item = { s with fw := { s.fw with ras := s.fw.ras ++ [⟨kind, die, item⟩] } } := by
  simp [State.rasEvent, State.postEvent, h]

/-- What bring-up has once it has loaded the flash records: nothing of it changes until the machine runs. -/
structure State.Fresh (b s : State) : Prop where
  product : s.product = b.product
  host : s.m.host = b.m.host
  tier3 : s.m.tier3 = b.m.tier3
  cores : s.cores = b.cores
  cfg : s.fw.cfg = b.fw.cfg
  boot0 : s.fw.flash.boot0 = b.fw.flash.boot0
  boot1 : s.fw.flash.boot1 = b.fw.flash.boot1
  boot : s.fw.boot = b.fw.boot

section
variable {b s : State}

theorem State.Fresh.refl (b : State) : b.Fresh b := ⟨rfl, rfl, rfl, rfl, rfl, rfl, rfl, rfl⟩

theorem State.Fresh.rasEvent (hf : b.Fresh s) (h : b.fw.cfg.evqlog = 0) (kind die item : Nat) : b.Fresh (s.rasEvent kind die item) := by
  rw [State.rasEvent_off (by rw [hf.cfg, h])]
  exact ⟨hf.product, hf.host, hf.tier3, hf.cores, hf.cfg, hf.boot0, hf.boot1, hf.boot⟩

theorem State.Fresh.duskGranule (hf : b.Fresh s) (a : Nat) (bs : List Byte) : b.Fresh (s.duskGranule a bs) :=
  ⟨hf.product, hf.host, hf.tier3, hf.cores, hf.cfg, hf.boot0, hf.boot1, hf.boot⟩

theorem State.Fresh.loadRow (hf : b.Fresh s) (q : Nat × Nat) : b.Fresh (s.loadRow q) :=
  ⟨hf.product, hf.host, hf.tier3, hf.cores, hf.cfg, hf.boot0, hf.boot1, hf.boot⟩

theorem State.Fresh.reframe (hf : b.Fresh s) : b.Fresh s.reframe :=
  ⟨hf.product, hf.host, hf.tier3, hf.cores, hf.cfg, hf.boot0, hf.boot1, hf.boot⟩

/-- A step that every element of a list makes keeps what bring-up has. -/
theorem State.Fresh.foldl {α : Type} (hf : b.Fresh s) (l : List α) (f : State → α → State) (h : ∀ t x, b.Fresh t → b.Fresh (f t x)) : b.Fresh (l.foldl f s) :=
  List.foldlRecOn (motive := fun t : State => b.Fresh t) _ _ hf fun t ht x _ => h t x ht

/-- Dawn: the bring-up number advances, in the machine and in flash. -/
def State.dawned (b : State) : State :=
  { b with fw := { b.fw with boot := b.fw.flash.boot + 1, flash := b.fw.flash.putBoot (b.fw.flash.boot + 1) } }

theorem State.dawn_fresh (s : State) (h : s.fw.cfg.evqlog = 0) (x : BringUpInputs) (ok : Bool) : s.dawned.Fresh (s.dawn x ok) := by
  have report (t : State) (ht : s.dawned.Fresh t) (d : Dawn) : s.dawned.Fresh { t with fw := { t.fw with dawn := d } } :=
    ⟨ht.product, ht.host, ht.tier3, ht.cores, ht.cfg, ht.boot0, ht.boot1, ht.boot⟩
  unfold State.dawn
  extract_lets flash bootOk c rec64 current complete bits s1
  split_ifs
  · exact report _ (.refl _) _
  · exact report _ (((State.Fresh.refl s.dawned).foldl _ _ fun t a ht => ht.duskGranule a _).foldl _ _ fun t g ht => ht.rasEvent h _ _ _) _

/-- The machine that bring-up has once it has verified the flash records and before it has read them. -/
def State.powered (s : State) (b : BringUpInputs) : State :=
  { State.reset with
    m := { MemState.reset with mem := s.m.pmem, poi := s.m.ppoi, pmem := s.m.pmem, ppoi := s.m.ppoi, host := s.m.host, tier2 := min b.tier2 0x100000000000, tier3 := backed3 b },
    product := s.product, agenda := s.agenda, free := s.free, cur := s.cur,
    fw := { Firmware.reset with cfg := ConfigRec.on s.product, flash := s.fw.flash.verified b, unprotected := b.unprotected } }

theorem State.powered_evqlog (s : State) (b : BringUpInputs) : (s.powered b).fw.cfg.evqlog = 0 := by
  show (ConfigRec.on s.product).evqlog = 0
  cases s.product <;> rfl

/-- A parameter block that does not verify ends in recovery state. -/
theorem State.bringUp_recovery {s : State} {b : BringUpInputs} (h : ¬ (b.paramOk && paramVerifies) = true) :
    s.bringUp b = { s.powered b with phase := .recovery, m := { (s.powered b).m with tier2 := 0, tier3 := 0 }, fw := { (s.powered b).fw with dawn := ⟨2, 0, 0, [], []⟩ } } := by
  simp only [State.bringUp, h, Bool.not_false, if_true]
  rfl

/-- One that does verify loads the flash records and ends with dawn. -/
theorem State.bringUp_running {s : State} {b : BringUpInputs} (h : (b.paramOk && paramVerifies) = true) :
    ∃ t ok, (s.powered b).Fresh t ∧ s.bringUp b = { t.dawn b ok with phase := .running } := by
  unfold State.bringUp
  rw [if_neg (by simp [h])]
  refine ⟨_, _, ?_, rfl⟩
  have hload (l : List (Nat × Nat)) (t : State) (ht : (s.powered b).Fresh t) : (s.powered b).Fresh (l.foldl (fun s q => s.loadRow q) t).reframe :=
    (ht.foldl _ _ fun u q hu => hu.loadRow q).reframe
  have hread (f : Firmware) (hc : f.cfg = (s.powered b).fw.cfg) (h0 : f.flash.boot0 = (s.powered b).fw.flash.boot0) (h1 : f.flash.boot1 = (s.powered b).fw.flash.boot1)
      (hb : f.boot = (s.powered b).fw.boot) : (s.powered b).Fresh { s.powered b with fw := f } := ⟨rfl, rfl, rfl, rfl, hc, h0, h1, hb⟩
  generalize (s.fw.flash.verified b).rows0.best (s.fw.flash.verified b).rows1 = loaded
  cases loaded with
  | some l => exact hload _ _ (hread _ rfl rfl rfl rfl)
  | none =>
    refine State.Fresh.rasEvent ?_ (s.powered_evqlog b) _ _ _
    refine hload _ _ ?_
    exact hread _ rfl (Flash.putRows_boots (s.fw.flash.verified b) _).1 (Flash.putRows_boots (s.fw.flash.verified b) _).2 rfl

/-- What bring-up leaves: a machine that runs, with the verified bring-up number advanced, or recovery state. -/
theorem State.bringUp_result (s : State) (b : BringUpInputs) :
    (s.bringUp b).product = s.product ∧ (s.bringUp b).m.host = s.m.host ∧ (s.bringUp b).cores = State.reset.cores ∧ (s.bringUp b).fw.cfg = ConfigRec.on s.product
      ∧ (if b.paramOk && paramVerifies then (s.bringUp b).phase = .running ∧ (s.bringUp b).m.tier3 = backed3 b
          ∧ (s.bringUp b).fw.boot = (s.fw.flash.verified b).boot + 1 ∧ (s.bringUp b).fw.flash.boot = (s.bringUp b).fw.boot
        else (s.bringUp b).phase = .recovery ∧ (s.bringUp b).m.tier3 = 0 ∧ (s.bringUp b).fw.flash = s.fw.flash.verified b) := by
  by_cases h : (b.paramOk && paramVerifies) = true
  · obtain ⟨t, ok, ht, he⟩ := s.bringUp_running h
    have hd := t.dawn_fresh (by rw [ht.cfg, s.powered_evqlog]) b ok
    have hflash : (t.dawn b ok).fw.flash.boot = t.fw.flash.boot + 1 := by
      rw [← Flash.boot_putBoot t.fw.flash (t.fw.flash.boot + 1)]
      simp only [Flash.boot, hd.boot0, hd.boot1, State.dawned]
    have hboot : t.fw.flash.boot = (s.fw.flash.verified b).boot := by simp only [Flash.boot, ht.boot0, ht.boot1, State.powered]
    rw [if_pos h, he]
    exact ⟨hd.product.trans ht.product, hd.host.trans ht.host, hd.cores.trans ht.cores, hd.cfg.trans ht.cfg, rfl, hd.tier3.trans ht.tier3,
      hd.boot.trans (by rw [← hboot]; rfl), hflash.trans hd.boot.symm⟩
  · rw [if_neg h, s.bringUp_recovery h]
    exact ⟨rfl, rfl, rfl, rfl, rfl, rfl, rfl⟩

end

/-! ## The clock and ingest -/

section
variable {s : State}

/-- A step that a channel has come to is released. -/
theorem execTickRelease_due {ch : BitVec 2} (he : (s.tick ch).en = true) (ha : (s.tick ch).at (s.tick ch).next ≤ s.nowNs) :
    execTickRelease ch s =
      .next ((({ s with t := { s.t with ticks := s.t.ticks.set ch.toNat { s.tick ch with last := some (s.tick ch).next } (by omega) } } : State).tickArrivals s).retryAll) := by
  rw [execTickRelease, if_neg (by simp [he, ha])]

/-- The descriptor at a queue's head that the engine takes, and its step, negative for none. -/
def State.ingestHead (s : State) (x : Ingest) : List Byte := Memory.bytes s.m.mem (x.ring + 64 + 64 * (Memory.readN s.m.mem (x.ring + 8) 8 % 2 ^ x.k)) 64
def State.ingestStep (s : State) (x : Ingest) : Int := (s.tick x.ch).stepOf (fld (s.ingestHead x) 0 6 * 1000000000 + fld (s.ingestHead x) 8 4)

section
variable {q : BitVec 4} {x : Ingest} (hq : s.ingest q.toNat = some x) (hr : s.phase = .running) (hne : Memory.readN s.m.mem x.ring 8 ≠ Memory.readN s.m.mem (x.ring + 8) 8)
include hq hr hne

/-- A descriptor whose stamp names no time is counted out. -/
theorem execIngestDescriptor_invalid (h : s.ingestStep x < 0 ∨ 1000000000 ≤ fld (s.ingestHead x) 8 4) : execIngestDescriptor q s = .next (s.consume1 x.ring (some 20)) := by
  rw [execIngestDescriptor, hq]
  dsimp only
  rw [if_neg (by simp [hne, hr]), if_pos (by simpa [State.ingestStep, State.ingestHead] using h)]

variable (h0 : 0 ≤ s.ingestStep x) (hns : fld (s.ingestHead x) 8 4 < 1000000000) {c : Nat} (hc : (s.tick x.ch).last = some c)
include h0 hns hc

/-- A valid one: the engine compares its step with the channel's. -/
theorem execIngestDescriptor_valid : execIngestDescriptor q s =
    if (c : Int) < s.ingestStep x then .next s
    else if (x.wi : Int) ≤ c - s.ingestStep x then .next (s.consume1 x.ring (some 20))
    else if slotValid (s.slot x ((s.ingestStep x).toNat % x.wi)) && slotStep (s.slot x ((s.ingestStep x).toNat % x.wi)) = (s.ingestStep x).toNat then .next (s.consume1 x.ring (some 24))
    else
      let late := s.deadline x.ch (s.ingestStep x).toNat
      let t := (s.putSlot x ((s.ingestStep x).toNat % x.wi) (slotBytes (s.ingestHead x) (s.ingestStep x).toNat late)).consume1 x.ring (if late then some 16 else none)
      .next (if late then t.setLate q.toNat x.ch else t).retryAll := by
  rw [execIngestDescriptor, hq]
  dsimp only
  have hvalid : ¬ (decide (s.ingestStep x < 0) || decide (1000000000 ≤ fld (s.ingestHead x) 8 4)) = true := by simp [h0, hns]
  rw [if_neg (by simp [hne, hr]), hc]
  exact if_neg hvalid

end

/-! ## The damper, dusk and SPDM -/

theorem mem_setAdd_self (l : List Nat) (w : Nat) : w ∈ setAdd l w := by
  induction l with
  | nil => simp [setAdd]
  | cons x r ih =>
    unfold setAdd
    split_ifs <;> simp_all

/-- A cluster's drift is taken up: its steps do not decrease, and flash holds them. -/
theorem execDamperMeasure_result (i : Fin 64) (ppm : Nat) (hi : i.val < 8 * s.pkgDies) : ∃ t, execDamperMeasure i ppm s = .next t
    ∧ t.fw.damper = s.fw.damper.set i.val (max s.fw.damper[i] (damperSteps ppm)) i.isLt ∧ t.fw.flash.damper = t.fw.damper ∧ (10 < t.fw.damper[i] → i.val ∈ t.fw.clusterOut)
    ∧ t.cores = s.cores ∧ t.m = s.m := by
  refine ⟨_, rfl, ?_⟩
  rw [if_neg (by omega)]
  refine ⟨rfl, Flash.damper_putDamper _ _, fun h => ?_, rfl, rfl⟩
  have hk : 10 < max s.fw.damper[i] (damperSteps ppm) := by simpa using h
  rw [show (if 10 < max s.fw.damper[i] (damperSteps ppm) then _ else s.fw.clusterOut) = _ from if_pos hk]
  exact mem_setAdd_self _ _

/-- A running machine that dusk takes keeps every byte and every register. -/
theorem State.startDusk_running (hr : s.phase = .running) (c : BitVec 2) :
    (s.startDusk c).phase = .dusk ∧ (s.startDusk c).fw.duskCause = c ∧ sameBytes s (s.startDusk c) ∧ ∀ i, sameArch s (s.startDusk c) i := by
  simp only [State.startDusk, hr]
  exact ⟨trivial, trivial, ⟨fun _ => rfl, fun _ => rfl, fun _ => rfl⟩, fun _ => ⟨rfl, rfl, rfl, rfl, rfl⟩⟩

@[simp] theorem State.length_freeBytes (s : State) (n : Nat) : (s.freeBytes n).1.length = n := by
  induction n generalizing s with
  | zero => rfl
  | succ n ih => simp [State.freeBytes, ih]

/-- Free bytes are drawn from the generator alone. -/
theorem State.freeBytes_snd (s : State) (n : Nat) : (s.freeBytes n).2 = { s with free := s.free + n } := by
  induction n generalizing s with
  | zero => rfl
  | succ n ih => simp [State.freeBytes, ih, State.drawFree]; omega

/-- A request whose negotiation has come far enough is answered by free bytes of its length. -/
theorem State.spdmAnswer_result {needs next kind : Nat} (h : needs ≤ s.link.spdm) : ∃ t, s.spdmAnswer needs next kind = .next t ∧ t.link.spdm = next
    ∧ t.link.response.length = Config.recordLen 2 kind ∧ t.cores = s.cores ∧ t.m = s.m ∧ t.fw = s.fw := by
  refine ⟨_, if_neg (by omega), rfl, by simp, ?_, ?_, ?_⟩ <;> simp [State.freeBytes_snd]

end

/-- Settles O59, step by step. -/
theorem platformStepResults : Obligations.PlatformStepResults := by
  refine ⟨fun s => ⟨fun ch he ha => execTickRelease_due he ha, fun _ => rfl, ?ingest, ?ppsOff, ?ppsOn, ?tod, ?lockstep, ?damper, rfl, rfl, rfl, rfl, ?gpf,
    fun hr c => State.startDusk_running hr c, ?dusk, ?bringUp, ?store, ?load, ?queue⟩, fun s => ?spdm⟩
  case ingest =>
    intro q x hq hr cons d n hne
    refine ⟨execIngestDescriptor_invalid hq hr hne, fun c hc h0 hns => ?_⟩
    have he := execIngestDescriptor_valid hq hr hne h0 hns hc
    refine ⟨fun hlt => he.trans (if_pos hlt), fun hw hle => he.trans ((if_neg (not_lt.mpr hle)).trans (if_pos hw)), fun hle hw => ?_⟩
    have he := he.trans ((if_neg (not_lt.mpr hle)).trans (if_neg (not_le.mpr hw)))
    intro old
    have hn : n = s.ingestStep x := rfl
    refine ⟨fun hd => he.trans (if_pos (by simpa [old, hn] using hd)), fun hd => he.trans ((if_neg (by simpa [old, hn] using hd)).trans rfl)⟩
  case ppsOff =>
    intro hp
    show execPpsEdge s = _
    simp [execPpsEdge, hp]
  case ppsOn =>
    intro hp
    refine ⟨fun sec hs => ?_, fun hh hs => if_neg (by simp [hp, hh, hs])⟩
    intro off u
    show execPpsEdge s = _
    rw [execPpsEdge, hs]
    exact if_neg (by simp [hp])
  case tod =>
    intro x b ok
    show execTodFrame x s = _
    simp only [execTodFrame, ok, Bool.and_eq_true, decide_eq_true_eq, and_assoc]
    rfl
  case lockstep =>
    refine fun d p hd => ⟨fun hu hp => if_neg ?_, fun hp pass => ?_⟩
    · simp only [hp, hu]; simp; omega
    · refine (if_neg ?_).trans rfl
      simp only [hp]; simp; omega
  case damper => exact fun i ppm hi => execDamperMeasure_result i ppm hi
  case gpf =>
    intro port hp
    refine if_neg ?_
    rcases hp with hp | hp <;> simp [hp]
  case dusk =>
    intro hd hdone done
    refine ⟨fun hall => if_neg ?_, fun d hl hc => ⟨if_neg ?_, ?_⟩⟩
    · simp only [hd, hdone, hall]; decide
    · simp only [hd, hdone, hl, hc]; decide
    · simp only [done, State.finishBegun_fw]
  case bringUp => exact fun b => ⟨_, rfl, s.bringUp_result b⟩
  case store =>
    intro pa data hne hpa hh hd
    refine (if_neg ?_).trans (if_neg ?_)
    · simp; omega
    · simp [hne, hh, hd]
  case load =>
    intro pa n hn hh
    exact if_neg (by simp [hh]; omega)
  case queue =>
    refine fun q x => ⟨rfl, fun en => ?_, fun he off => if_pos he, fun he => ?_⟩
    · rfl
    · have hq : ¬ (s.queue q).en = true := by simp [he]
      exact ⟨(if_neg hq).trans rfl, (if_neg hq).trans rfl, (if_neg hq).trans rfl⟩
  case spdm =>
    intro said
    refine ⟨State.spdmAnswer_result (Nat.zero_le _), fun h => State.spdmAnswer_result h, fun h => State.spdmAnswer_result h,
      fun h => ⟨State.spdmAnswer_result h, State.spdmAnswer_result h, fun x => ?_, fun i x => if_neg (by omega)⟩, rfl⟩
    refine ⟨_, (s.freeBytes (Config.recordLen 2 5)).1, if_neg (by omega), rfl, rfl, ?_, ?_, ?_⟩ <;> simp [State.freeBytes_snd]

end Sys2Proof.Machine
end

section
/-! PROOFS. The copy slots: issue of their operations, and the records, maps and blocks that they read. -/
namespace Sys2Proof.Machine

/-! ## Issue (R35, Table 14.5) -/

section
variable {s : State} {k : KUnit} {g : BitVec 4} {e : Bool} {f : BitVec 10} {v : Val} (h : s.ready k.slot g e f v = true)
include h

/-- A copy operation that is ready runs its action on F. -/
theorem copyOp_ready (act : SVal → State → State) : copyOp k g e f act s = .next (act v.toS s) := by
  rw [copyOp, State.issueMove_ready h]
/-- One that consumes poison runs its action on a clean F. -/
theorem copyClean_ready (hc : v.toS.poi = false) (act : W64 → State → State) : copyClean k g e f act s = .next (act v.toS.val s) := by
  rw [copyClean, copyOp_ready h, hc, State.needClean_clean]

end

/-! ## Records, maps and blocks (R113, R117, R129) -/

section
variable {s t : State} {a : W64}

/-- A record that is read without poison is the action's. -/
theorem State.readRecord_reads {n : Nat} {bs : List Byte} (h : s.readsRecord a n bs t) (sl : Slot) (act : List Byte → State → State) : s.readRecord sl a n act = act bs t := by
  obtain ⟨hw, hb, lt, u, hr, rfl⟩ := h
  have hcur : u.cur = s.cur := by simpa only [hr] using ((State.Keeps.refl s).readVa s.cur s.me.lt[0] a n (n / 32 + 2)).cur
  unfold State.readRecord
  simp only [hw, Bool.false_eq_true, if_false, hr, State.needClean_clean, hcur]
  split
  · rename_i c o hf
    obtain ⟨hs, hn⟩ := Option.filter_eq_some_iff.mp hf
    split at hs
    · rename_i c' o' hform
      obtain ⟨rfl, rfl⟩ := Prod.mk.inj (Option.some.inj hs)
      simp [hb _ _ hform] at hn
    · cases hs
  · rfl

/-- A valid map that is read is the action's. -/
theorem State.readMap_reads {m : TMap} (h : s.readsMap a m t) (sl : Slot) (mis : BitVec 8) (act : TMap → State → State) : s.readMap sl a mis act = act m t := by
  obtain ⟨⟨x, hx⟩, ha, bs, hr, hv, rfl⟩ := h
  simp [State.readMap, hx, ha, State.readRecord_reads hr, hv]

/-- A side of a command that is read is the action's. -/
theorem State.engSide_reads {k : KUnit} {isMap : Bool} {org : W64} {x : Side} {m : Option TMap} (h : s.readsSide isMap a org x m t) (act : Side → Option TMap → State → State) :
    s.engSide k isMap a org act = act x m t := by
  cases isMap with
  | true =>
    obtain ⟨y, hy, rfl, rfl⟩ := h
    simp only [State.engSide, if_true, State.readMap_reads hy]
  | false =>
    obtain ⟨rfl, rfl, rfl⟩ := h
    rfl

/-- The limits of a block that are met. -/
theorem State.blockOk_met {k : KUnit} {ok : Bool} (h : ok = true) (act : State → State) : s.blockOk k a ok act = act s := by
  rw [State.blockOk, if_pos h]

variable {k : KUnit} {g : BitVec 4} {e : Bool} {f : BitVec 10} {v : Val} {off opc : Nat} {b : List Byte}

/-- An engine trigger whose block is read runs its action on the block. -/
theorem engineTrigger_reads (h : s.ready k.slot g e f v = true) (hc : v.toS.poi = false) (ho : s.ownsRange v.toS.val 64 64 off) (hd : s.dNamed k.slot = true)
    (hb : s.readsBlock k v.toS.val opc b t) (act : BitVec 10 → W64 → List Byte → State → State) :
    engineTrigger k g e f opc act s = .next (act (s.dOf k.slot) v.toS.val b t) := by
  obtain ⟨hflg, hsw, hr, hopc⟩ := hb
  have hread : s.readRecord k.slot v.toS.val 64 (fun bs u => if fld bs 0 1 ≠ opc then u.trapAt k.slot 0x02 v.toS.val else act (s.dOf k.slot) v.toS.val bs u)
      = act (s.dOf k.slot) v.toS.val b t := by
    rw [State.readRecord_reads hr, if_neg (not_not.mpr hopc)]
  rw [engineTrigger, copyClean_ready h hc, State.ownRange_owns ho, State.needD_named hd, State.engineHead]
  dsimp only
  rw [if_neg (not_le.mpr hflg), hread]
  split_ifs with hz
  · rfl
  · obtain ⟨c, o, hn⟩ := hsw.resolve_left hz
    rw [State.syncTarget_names hn, hread]

end

/-! ## Acceptance of a command (R9, R128, R129) -/

/-- The answer of an enqueueing operation is written through D: the full or empty bit of its register stays (R9, R165). -/
theorem State.accept_regs {s : State} (h : s.pipe.wq = none) (d : BitVec 10) : (s.accept d false).pipe.regs = s.pipe.regs.write d (.w64 0) := by
  rw [State.accept, if_neg (by decide), State.regWrite_issued_eq s h, State.pipe_modPipe]
  rfl

/-- A core after reset whose register s1 a long operation has emptied. -/
noncomputable def emptied : State := State.reset.modPipe fun p => { p with regs := p.regs.drain 1 }

theorem emptied_pipe : emptied.pipe = { Core.reset.pipe with regs := RegFile.start.drain 1 } := by
  rw [emptied, State.pipe_modPipe, State.pipe, State.me, State.core_reset]
  rfl

/-- Refutes O52: a refused command answers 0 in s1, which stays empty, as R165 has it of what is written through D; the statement's value of the registers has it full. -/
theorem not_engineAcceptance : ¬ Obligations.EngineAcceptance := by
  intro h
  have hwq : emptied.pipe.wq = none := by rw [emptied_pipe]; rfl
  have hregs := (h emptied .ka 1 0 (.xcopy (.flat 0) (.flat 0)) 0 0 0).2.2 hwq
  rw [State.accept_regs hwq, emptied_pipe] at hregs
  have hfull : (((RegFile.start.drain 1).write 1 (.w64 0)).s[1]).full = (((RegFile.start.drain 1).put 1 (.w64 0)).s[1]).full := congrArg (fun r : RegFile => r.s[1].full) hregs
  exact absurd hfull (by decide)

end Sys2Proof.Machine
end

section
/-! PROOFS. The engine triggers: what each asks once its block is read within its limits. -/
namespace Sys2Proof.Machine

/-- The bytes that XGATH or XSCAT of `total` bytes writes: all of them but where a map of the destination gives an element no address (R132, R133). -/
def listCount (scat : Bool) (m : Option TMap) (total : Nat) (org : W64) : Nat :=
  match scat, m with
  | false, some m =>
    if total = m.vol * m.eb then m.eb * m.addressed org
    else ((List.range ((total + m.eb - 1) / m.eb)).map fun i => if i < m.vol && (m.addr org i).isSome then min m.eb (total - i * m.eb) else 0).foldl (· + ·) 0
  | _, _ => total

section
variable {s : State} {k : KUnit} {g : BitVec 4} {e : Bool} {f : BitVec 10} {v : Val} {off : Nat} (h : s.ready k.slot g e f v = true) (hc : v.toS.poi = false)
  (ho : s.ownsRange v.toS.val 64 64 off) (hd : s.dNamed k.slot = true)
include h hc ho hd

/-- XCOPY (R132): its two sides are read in order. -/
theorem execXcopy_asks {b : List Byte} {t t1 t2 : State} {src dst : Side} {ms md : Option TMap} (hb : s.readsBlock k v.toS.val 0x20 b t) (h1 : zeros b 1 1 = true)
    (h2 : fld b 2 2 / 4 = 0) (h40 : zeros b 40 20 = true) (hlen : if hbit b 16 = true ∨ hbit b 17 = true then fld b 4 4 = 0 else 1 ≤ fld b 4 4)
    (hs : hbit b 16 = false → f64 b 24 = 0) (hd' : hbit b 17 = false → f64 b 32 = 0) :
    t.readsSide (hbit b 16) (f64 b 8) (f64 b 24) src ms t1 → t1.readsSide (hbit b 17) (f64 b 16) (f64 b 32) dst md t2 →
    execXcopy k g e f s = .next (match ms, md with
      | some m, some m' => t2.blockOk k v.toS.val (m.esize = m'.esize && m.vol = m'.vol) fun t =>
          t.acceptEngine k (s.dOf k.slot) v.toS.val (.xcopy src dst) (m'.eb * m'.addressed (f64 b 32)) m.eb (m.vol * m.eb) fun _ u => u
      | none, some m' => t2.acceptEngine k (s.dOf k.slot) v.toS.val (.xcopy src dst) (m'.eb * m'.addressed (f64 b 32)) m'.eb (m'.vol * m'.eb) fun _ u => u
      | some m, none => t2.acceptEngine k (s.dOf k.slot) v.toS.val (.xcopy src dst) (m.vol * m.eb) m.eb (m.vol * m.eb) fun _ u => u
      | none, none => t2.acceptEngine k (s.dOf k.slot) v.toS.val (.xcopy src dst) (fld b 4 4) 1 (fld b 4 4) fun _ u => u) := by
  intro hsrc hdst
  rw [execXcopy, engineTrigger_reads h hc ho hd hb]
  dsimp only
  rw [State.blockOk_met (by cases hx : hbit b 16 <;> cases hy : hbit b 17 <;> simp_all), State.engSide_reads hsrc, State.engSide_reads hdst] <;> rfl

/-- XGATH and XSCAT (R133): the memory side is read. -/
theorem listTrigger_asks {b : List Byte} {t t1 : State} {scat : Bool} {mem : Side} {m : Option TMap} (hb : s.readsBlock k v.toS.val (if scat then 0x22 else 0x21) b t)
    (hok : (zeros b 1 1 && fld b 2 2 / 4 = 0 && !hbit b (if scat then 17 else 16) && 1 ≤ fld b 4 4 && fld b 4 4 ≤ 1048576 && 1 ≤ fld b 28 4
      && (hbit b (if scat then 16 else 17) || f64 b 32 == 0) && 1 ≤ fld b 40 2 && fld b 40 2 ≤ 32 && zeros b 42 18) = true) :
    t.readsSide (hbit b (if scat then 16 else 17)) (f64 b 16) (f64 b 32) mem m t1 → listTrigger k g e f scat s =
    .next (t1.acceptEngine k (s.dOf k.slot) v.toS.val (.xlist scat (f64 b 8) (fld b 40 2) (fld b 4 4) (fld b 24 4) (fld b 28 4) mem) (listCount scat m (fld b 28 4 * fld b 4 4) (f64 b 32)) 1 (fld b 28 4 * fld b 4 4) fun _ u => u) := by
  intro hmem
  rw [listTrigger, engineTrigger_reads h hc ho hd hb]
  dsimp only
  rw [State.blockOk_met hok, State.engSide_reads hmem]
  rfl

end

/-- An address that is checked only where it is used. -/
theorem State.applied_owns {s : State} {k : KUnit} {used : Bool} {a : W64} {align n : Nat} (h : used = true → ∃ o, s.ownsRange a align n o) (act : State → State) :
    s.applied k used a align n act = act s := by
  unfold State.applied
  split_ifs with hu
  · obtain ⟨o, ho⟩ := h hu
    rw [State.ownRange_owns ho]
  · rfl

/-- A limit that holds where its condition does. -/
theorem not_decide_or {p : Prop} [Decidable p] {b : Bool} (h : p → b = true) : (!decide p || b) = true := by
  by_cases hp : p <;> simp [hp, h]

/-- Settles O53, trigger by trigger. -/
theorem engineTriggerResults : Obligations.EngineTriggerResults := by
  intro s k g e f v off h hc ho hd a d asks id
  refine ⟨?xcopy, ?list, ?xmcast, ?xred, ?xhalo, ?xresh, ?mopld, ?kvApp⟩
  case xcopy =>
    intro b t t1 t2 src dst ms md hb h1 h2 h40 hlen hs hd' hsrc hdst
    have he := execXcopy_asks h hc ho hd hb h1 h2 h40 hlen hs hd' hsrc hdst
    refine ⟨fun m m' hm hm' hz hv => he.trans ?_, fun m' hm hm' => he.trans ?_, fun m hm hm' => he.trans ?_, fun hm hm' => he.trans ?_⟩ <;> subst hm hm'
    · simp only [State.blockOk_met (show (decide (m.esize = m'.esize) && decide (m.vol = m'.vol)) = true by simp [hz, hv])]
      rfl
    · rfl
    · rfl
    · rfl
  case list =>
    intro b t t1 scat mem m hb h1 h2 hbit17 hr hr' hn horg hx hx' h42 hmem total ask
    have he := listTrigger_asks h hc ho hd hb (by simp [h1, h2, hbit17, hr, hr', hn, hx, hx', h42]; cases hq : hbit b (if scat then 16 else 17) <;> simp_all) hmem
    refine ⟨fun hs => ?_, fun hs hm => ?_, fun y hs hm hv => ?_, fun y hs hm => ⟨listCount false (some y) total (f64 b 32), ?_⟩⟩ <;> subst hs
    · exact he
    · subst hm; exact he
    · subst hm; exact he.trans (by simp only [listCount, if_pos (show fld b 28 4 * fld b 4 4 = y.vol * y.eb from hv)]; rfl)
    · subst hm; exact he
  case xmcast =>
    intro b t t1 ranks src m o1 hb h1 h2 hmap hflat hset hcore h49 hsrc l hl ho1 ho2
    show execXmcast k g e f s = _
    rw [execXmcast, engineTrigger_reads h hc ho hd hb]
    dsimp only
    rw [State.blockOk_met (by cases hq : hbit b 16 <;> simp_all), State.engSide_reads hsrc, hset]
    have hrel : (f64 b 40 != 0) = true → ∃ o, t1.ownsRange (f64 b 40) 16 16 o := by simpa using ho2.resolve_left
    cases m <;> exact congrArg Host.Outcome.next
      ((State.blockOk_met (decide_eq_true hl) _).trans ((State.applied_owns (fun _ => ⟨o1, ho1⟩) _).trans (State.applied_owns hrel _)))
  case xred =>
    intro b t hb h1 h2 h4 hlen hlen' hop hroot h34 h56 ranks hr hsrc
    show execXred k g e f s = _
    rw [execXred, engineTrigger_reads h hc ho hd hb]
    dsimp only
    rw [State.blockOk_met]
    · simp only [decide_eq_true_eq]
      rfl
    · have hroot' : (!decide (fld b 32 2 = t.me.task.spanRank) || (decide (fld b 2 1 % 16 < 5) && ranks.contains (fld b 32 2))) = true :=
        not_decide_or fun hq => by simp [hr hq]
      have hdst : (!decide (fld b 32 2 = t.me.task.spanRank) || ownBlockAddr (f64 b 16)) = true := not_decide_or fun hq => (hr hq).2.2
      have hop' : (!decide (fld b 2 1 % 16 = 4) || decide (fld b 4 4 % 1024 = 0)) = true := not_decide_or fun hq => by simp [hop hq]
      have hsrc' : (hbit b 20 || ownBlockAddr (f64 b 8)) = true := by simpa [or_iff_not_imp_left] using hsrc
      simp only [bne, beq_eq_decide, hdst, hsrc', hop', h1, h2, h4, hlen, hlen', hroot, h34, h56, decide_true, Bool.and_true, Bool.true_and]
      exact hroot'
  case xhalo =>
    intro b t t1 m hb h1 h2 h4 h24 hsh ho1 hm hfits axes hax slabs n
    show execXhalo k g e f s = _
    rw [execXhalo, engineTrigger_reads h hc ho hd hb]
    dsimp only
    rw [State.blockOk_met (by simp [h1, h2, h4, h24, hsh]), State.applied_owns (by simpa using ho1.resolve_left), State.readMap_reads hm, State.blockOk_met]
    simp only [hfits, Bool.true_and, List.all_eq_true, Bool.and_eq_true, decide_eq_true_eq]
    exact hax
  case xresh =>
    intro b t t1 t2 m m' hb h1 h4 h48 hlead hm hm' hz
    show execXresh k g e f s = _
    rw [execXresh, engineTrigger_reads h hc ho hd hb]
    dsimp only
    rw [State.blockOk_met, State.readMap_reads hm, State.readMap_reads hm', State.blockOk_met (by simpa using hz)]
    · simp only [decide_eq_true_eq]
      rfl
    · by_cases hq : t.me.task.spanRank = 0
      · simp [h1, h4, h48, hq, hlead hq]
      · simp [h1, h4, h48, hq]
  case mopld =>
    intro b t t1 src m hb c reg nu h1 h2 hctrl hfmt hsrc hrange h32 hside hvol owned btab
    show (_ → execMopldT k g e f s = _) ∧ (_ → execMopldT k g e f s = _)
    rw [execMopldT, engineTrigger_reads h hc ho hd hb]
    dsimp only
    rw [State.blockOk_met (by simp [h1, h2]; exact hctrl), if_neg (by simpa using hfmt), State.blockOk_met, State.engSide_reads hside]
    · cases m with
      | none => exact ⟨fun hq => congrArg _ ((State.blockOk_met rfl _).trans (if_pos hq)), fun hq => congrArg _ ((State.blockOk_met rfl _).trans (if_neg (ne_true_of_eq_false hq)))⟩
      | some y =>
        have hv := decide_eq_true (hvol y rfl)
        exact ⟨fun hq => congrArg _ ((State.blockOk_met hv _).trans (if_pos hq)), fun hq => congrArg _ ((State.blockOk_met hv _).trans (if_neg (ne_true_of_eq_false hq)))⟩
    · have hmap : (hbit b 16 || formOk (f64 b 8)) = true ∧ (hbit b 16 || f64 b 24 == 0) = true := by cases hq : hbit b 16 <;> simp_all
      rw [hmap.1, hmap.2, h32, show loadRangeBad _ _ (fld b 16 2) (fld b 18 2) = false from hrange]
      rfl
  case kvApp =>
    intro b t t1 t2 src m lt r hb h1 h2 hn hn' hsrc h40 hform hpeer hal hw hbank hr hr1 hr2 n hside hvol
    show execKvApp k g e f s = _
    have hrow (act : Nat → State → State) : t.readRowb k (f64 b 8) act = act (natOfBytes r) (t1.setLt t1.cur (t1.me.lt.set 0 lt)) := by
      obtain ⟨x, hx⟩ := hform
      have hopen : ¬ ((f64 b 8).extractLsb' 62 2 = 2 && !t.banksReady t.cur ((f64 b 8).toNat % 0x800000 + 8) 4) = true := by
        by_cases hq : (f64 b 8).extractLsb' 62 2 = 2
        · simp [hbank hq]
        · rw [decide_eq_false hq]; exact Bool.false_ne_true
      have hrow : ¬ (natOfBytes r = 0 || 1048576 < natOfBytes r) = true := by simp; omega
      rw [State.readRowb, hx]
      dsimp only
      rw [if_neg hpeer, if_neg (not_not.mpr hal), hw, if_neg (by decide), if_neg hopen, hr]
      dsimp only
      rw [State.needClean_clean, if_neg hrow]
    have hmap : (hbit b 16 || formOk (f64 b 16)) = true ∧ (hbit b 16 || f64 b 24 == 0) = true := by cases hq : hbit b 16 <;> simp_all
    rw [execKvApp, engineTrigger_reads h hc ho hd hb]
    dsimp only
    rw [State.blockOk_met (by simp [h1, h2, hn, hn', h40]; simpa using hmap), hrow, State.engSide_reads hside]
    cases m with
    | none => exact congrArg _ (State.blockOk_met rfl _)
    | some y => exact congrArg _ (State.blockOk_met (decide_eq_true (hvol y rfl)) _)

end Sys2Proof.Machine
end

section
/-! PROOFS. Sync-word operations, channels and ingest tokens of the copy slots. -/
namespace Sys2Proof.Machine

/-! ## Sync words (R124 to R127) -/

section
variable {s : State} {h : CoreId} {off : Nat}

/-- An address that names a word is that word's address, in own form as in peer form. -/
theorem State.syncAddr_names {a : W64} (hn : s.namesWord a h off) : syncAddr s.cur a = (h, off) := by
  obtain ⟨hf, -⟩ := hn
  have hbit (n : Nat) (hn : (a.extractLsb' 62 2).toNat = n) : a.getLsbD 62 = n.testBit 0 := by
    rw [← hn, ← BitVec.getLsbD, BitVec.getLsbD_extractLsb']
    rfl
  unfold State.form at hf
  unfold syncAddr
  split at hf
  case h_1 ht =>
    rw [hbit 2 ht]
    dsimp only at hf
    split_ifs at hf
    cases hf
    rfl
  case h_2 ht =>
    rw [hbit 3 ht]
    dsimp only at hf
    split_ifs at hf
    cases hf
    rfl
  case h_3 =>
    dsimp only at hf
    split_ifs at hf
    cases hf
  case h_4 => cases hf

/-- What R125 stores: TARGET and COUNT, then the flags; GEN stays. -/
noncomputable def State.initWord (s : State) (h : CoreId) (off : Nat) (x fl : W32) : State :=
  (s.homeWrite (.sp h off) (bytesOfNat 4 x.toNat ++ bytesOfNat 4 0) false).homeWrite (.sp h (off + 12)) (bytesOfNat 4 fl.toNat) false

theorem State.sp_initWord (x fl : W32) : ((s.initWord h off x fl).core h).sp =
    Memory.writeN (Memory.writeN (Memory.writeN (s.core h).sp off 4 x.toNat) (off + 4) 4 0) (off + 12) 4 fl.toNat := by
  simp only [State.initWord, State.homeWrite, State.core_modCore_self, Memory.writeBytes_append, length_bytesOfNat]
  rfl

/-- The word reads as it was initialised, with its generation as before. -/
theorem State.syncGet_initWord (hs : s.memWf) {x fl : W32} (hfl : fl.toNat < 16) : (s.initWord h off x fl).syncGet h off = ⟨x.toNat, 0, (s.syncGet h off).gen, fl⟩ := by
  obtain ⟨-, -, -, hsp, -⟩ := hs
  have h1 := Memory.wf_writeN (hsp h) off 4 x.toNat
  have h2 := Memory.wf_writeN h1 (off + 4) 4 0
  have hx : x.toNat < 256 ^ 4 := x.isLt
  have hflags : BitVec.ofNat 32 (fl.toNat % 256 ^ 4 % 16) = fl := by
    rw [Nat.mod_eq_of_lt (a := fl.toNat) (by omega), Nat.mod_eq_of_lt hfl, BitVec.ofNat_toNat, BitVec.setWidth_eq]
  rw [State.syncGet, State.sp_initWord, Memory.readN_writeN_same h2, hflags]
  rw [Memory.readN_writeN_out h2 _ _ _ (by omega), Memory.readN_writeN_out h1 _ _ _ (by omega), Memory.readN_writeN_same (hsp h), Nat.mod_eq_of_lt hx]
  rw [Memory.readN_writeN_out h2 _ _ _ (by omega), Memory.readN_writeN_same h1]
  rw [Memory.readN_writeN_out h2 _ _ _ (by omega), Memory.readN_writeN_out h1 _ _ _ (by omega), Memory.readN_writeN_out (hsp h) _ _ _ (by omega)]
  rfl

theorem State.byteAt_initWord (hs : s.memWf) (x fl : W32) {l : Loc} (hl : ∀ i, i < 16 → l ≠ .sp h (off + i)) : (s.initWord h off x fl).byteAt l = s.byteAt l := by
  rw [State.initWord, State.byteAt_homeWrite_out (State.memWf_homeWrite hs _ _ _) _ _ _ fun i hi => ?high, State.byteAt_homeWrite_out hs _ _ _ fun i hi => ?low]
  case high =>
    rw [length_bytesOfNat] at hi
    rw [Loc.plus, Nat.add_assoc]
    exact hl (12 + i) (by omega)
  case low =>
    rw [List.length_append, length_bytesOfNat, length_bytesOfNat] at hi
    exact hl i (by omega)

theorem State.Frame.initWord (x fl : W32) : s.Frame (s.initWord h off x fl) := (State.Frame.homeWrite s _ _ _).trans (.homeWrite _ _ _ _)

/-- R127: a class-0 load of a word whose home answers takes its timestamp and changes no byte. -/
theorem State.syncRead_up (hu : s.homeUp (.sp h off) = true) :
    (s.syncRead h off).2.me.lt[0] = max s.me.lt[0] (s.times (.sp h off)).wts ∧ sameBytes s (s.syncRead h off).2 := by
  have hload : ∃ t, s.loadAt s.cur.die s.me.lt[0] (.sp h off) 16 = (((s.homeBytes (.sp h off) 16).1, (s.homeBytes (.sp h off) 16).2, max s.me.lt[0] (s.times (.sp h off)).wts), t) ∧ s.Quiet t := by
    unfold State.loadAt State.loadBy
    simp only [hu, Bool.not_true, Bool.false_eq_true, if_false]
    split_ifs
    · exact ⟨_, rfl, (State.Quiet.touch s h off 16).trans (.setTimes _ _ _)⟩
    · exact ⟨_, rfl, (State.Quiet.setTimes s _ _).trans (.touch _ _ _ _)⟩
  obtain ⟨t, ht, hq⟩ := hload
  have hread : (s.syncRead h off).2 = t.setLt s.cur (t.me.lt.set 0 (max s.me.lt[0] (s.times (.sp h off)).wts)) := by rw [State.syncRead, ht]
  rw [hread]
  refine ⟨?_, ?_⟩
  · rw [← hq.cur]
    simp [State.setLt, State.me]
  · have hq' := hq.trans (.setLt t s.cur (t.me.lt.set 0 (max s.me.lt[0] (s.times (.sp h off)).wts)))
    exact ⟨hq'.byteAt, fun _ => by rw [hq'.host], fun _ => by rw [hq'.pmem]⟩

variable {k : KUnit} {g : BitVec 4} {e : Bool} {f : BitVec 10} {v : Val}

/-- A sync-word operation on a word whose bank is ACTIVE runs its action on the word. -/
theorem syncOp_names (hr : s.ready k.slot g e f v = true) (hc : v.toS.poi = false) (hn : s.namesWord v.toS.val h off) (hw : s.me.class0Waits = false)
    (hb : s.banksReady h off 16 = true) (act : W64 → CoreId → Nat → State → State) : syncOp k g e f act s = .next (act v.toS.val h off s) := by
  rw [syncOp, copyClean_ready hr hc, State.syncTarget_names hn, hw, if_neg (by decide), hb]
  rfl
/-- A clean lane 0 of X is the action's. -/
theorem State.lane0_clean (hx : (s.kLatch k).x.poi.getLsbD 0 = false) (act : W32 → State → State) : s.lane0 k f act = act ((s.kLatch k).x.val[0]) s := by
  rw [State.lane0, hx]
  rfl

end

/-- Lanes of a short list, by number. -/
theorem firstLanes_eq (l : List W32) : firstLanes l = ⟨Vec.tab fun i => l.getD i.val 0, 0⟩ := by
  simp [firstLanes]

/-- Equal bytes are equal words. -/
theorem State.syncGet_of_sameBytes {s t : State} (h : sameBytes s t) (c : CoreId) (off : Nat) : t.syncGet c off = s.syncGet c off := by
  obtain ⟨hb, -, -⟩ := h
  have hr (a n : Nat) : Memory.readN (t.core c).sp a n = Memory.readN (s.core c).sp a n := by
    rw [Memory.readN, Memory.readN, Memory.bytes_eq_map, Memory.bytes_eq_map]
    exact congrArg natOfBytes (List.map_congr_left fun i _ => hb (.sp c (a + i)))
  simp only [State.syncGet, hr]

/-- A change of the current core that keeps its architectural state keeps every core's. -/
theorem State.sameArch_modMe (s : State) {f : Core → Core} (h : (f s.me).pipe.regs = s.me.pipe.regs ∧ (f s.me).pipe.units = s.me.pipe.units ∧ (f s.me).pipe.sys = s.me.pipe.sys
    ∧ (f s.me).pipe.sys2 = s.me.pipe.sys2 ∧ (f s.me).pipe.trap = s.me.pipe.trap) (c : CoreId) : sameArch s (s.modMe f) c := by
  by_cases hc : c = s.cur
  · subst hc
    rw [sameArch, State.modMe, State.core_modCore_self]
    exact h
  · rw [sameArch, State.modMe, State.core_modCore_ne _ _ hc]
    exact ⟨rfl, rfl, rfl, rfl, rfl⟩

/-- What an access of a copy operation does to the core's path and refused mark, as one change. -/
theorem State.setLt_unrefuse_eq (s : State) (lt : Vector Nat 4) : (s.setLt s.cur lt).unrefuse s.cur =
    s.modMe fun k => { k with lt := lt, floor := max k.floor (ltime lt), task := { k.task with refused := false } } := by
  simp only [State.unrefuse, State.setLt, State.modMe, State.modCore, State.setCore_setCore, State.core_setCore_self]

/-- It changes no byte and no register. -/
theorem State.sameBytes_setLt_unrefuse (s : State) (lt : Vector Nat 4) : sameBytes s ((s.setLt s.cur lt).unrefuse s.cur) := by
  rw [State.setLt_unrefuse_eq]
  exact s.sameBytes_modCore s.cur rfl
theorem State.sameArch_setLt_unrefuse (s : State) (lt : Vector Nat 4) (c : CoreId) : sameArch s ((s.setLt s.cur lt).unrefuse s.cur) c := by
  rw [State.setLt_unrefuse_eq]
  exact s.sameArch_modMe ⟨rfl, rfl, rfl, rfl, rfl⟩ c

section
variable {s : State} {h : CoreId} {off : Nat} {a : W64} {x : W32} (hn : s.namesWord a h off)
include hn

/-- R126: a wait on a generation that has changed takes the word's. -/
theorem State.bindWait_changed (hg : (s.syncGet h off).gen ≠ x.toNat) :
    s.bindWait s.cur a x = (some (.bound (.w64 (BitVec.ofNat 64 (s.syncGet h off).gen)) true), s.readWord s.cur h off) := by
  simp [State.bindWait, State.syncAddr_names hn, hg]
/-- One on the word's generation takes nothing yet. -/
theorem State.bindWait_same (hg : (s.syncGet h off).gen = x.toNat) (ho : (s.syncGet h off).ovf = false) : s.bindWait s.cur a x = (none, s) := by
  simp [State.bindWait, State.syncAddr_names hn, hg, ho]

end

/-- What a load of a word gives is the word. -/
theorem State.syncRead_eq (s : State) (h : CoreId) (off : Nat) : s.syncRead h off = (s.syncGet h off, (s.syncRead h off).2) := rfl

/-- One lane of truth. -/
theorem firstLanes_truth (p : Prop) [Decidable p] {b : Bool} (h : b = decide p) : firstLanes [boolWord 32 b] = ⟨Vec.tab fun i => if i.val = 0 ∧ p then 1 else 0, 0⟩ := by
  rw [firstLanes_eq]
  refine congrArg (fun l => (⟨Vec.tab l, 0⟩ : VVal)) (funext fun i => ?_)
  subst h
  rcases i with ⟨_ | n, hi⟩ <;> by_cases hp : p <;> simp [boolWord, hp]

/-- Four lanes by number. -/
theorem firstLanes_four (a b c d : W32) :
    firstLanes [a, b, c, d] = ⟨Vec.tab fun i => if i.val = 0 then a else if i.val = 1 then b else if i.val = 2 then c else if i.val = 3 then d else 0, 0⟩ := by
  rw [firstLanes_eq]
  refine congrArg (fun l => (⟨Vec.tab l, 0⟩ : VVal)) (funext fun i => ?_)
  rcases i with ⟨_ | _ | _ | _ | n, hi⟩ <;> simp

/-- Settles O51. -/
theorem syncAndChannelResults : Obligations.SyncAndChannelResults := by
  intro s k g e f v hr hc a u x waits
  refine ⟨fun h off hn hw hb => ?word, ?qput, fun hd ha => ?qget, fun q hd h4 h28 hq hwi => ?ingPop⟩
  case word =>
    intro y
    have hop (act : W64 → CoreId → Nat → State → State) : syncOp k g e f act s = .next (act a h off s) := syncOp_names hr hc hn hw hb act
    refine ⟨fun hs hx hy => ?init, fun hu hx => ?use, fun hup => State.syncRead_up hup, fun hp => ?rd⟩
    case init =>
      let ts := max s.me.lt[0] ((s.times (.sp h off)).rts + 1)
      let w := (s.setTimes (.sp h off) ⟨ts, ts⟩).initWord h off x (u.y.val[0] &&& 5)
      have hq := State.Quiet.setTimes s (.sp h off) ⟨ts, ts⟩
      have hfl : (u.y.val[0] &&& 5).toNat < 16 := by
        rw [BitVec.toNat_and]
        exact Nat.lt_of_le_of_lt Nat.and_le_right (by decide)
      have hbytes := sameBytes_trans (w.sameBytes_setLt_unrefuse (w.me.lt.set 0 ts)) (State.sameBytes_modPipe _ fun p => { p with disp := .issued })
      have harch (c : CoreId) := sameArch_trans (w.sameArch_setLt_unrefuse (w.me.lt.set 0 ts) c) (State.sameArch_modMe _ (f := fun k => { k with pipe := { k.pipe with disp := .issued } })
        ⟨rfl, rfl, rfl, rfl, rfl⟩ c)
      refine ⟨((w.setLt w.cur (w.me.lt.set 0 ts)).unrefuse w.cur).issued, ?_, by simp [State.issued], ?_, fun c => ?_, fun l hl => ?_⟩
      · show execSwInit k g e f s = _
        rw [execSwInit, hop, State.lane0_clean hx]
        dsimp only
        rw [show (s.kLatch k).y.poi.getLsbD 0 = false from hy]
        rfl
      · rw [State.issued, State.setDisp, State.syncGet_of_sameBytes hbytes, State.syncGet_initWord (hq.memWf hs) hfl, hq.syncGet]
      · exact sameArch_trans ((hq.toFrame.trans (State.Frame.initWord x _)).sameArch c) (harch c)
      · rw [State.issued, State.setDisp, hbytes.1, State.byteAt_initWord (hq.memWf hs) x _ hl, hq.byteAt]
    case use =>
      have huse (act : State → State) : s.syncUse k.slot a h off act = act s := State.syncUse_usable hu _ _ _
      have hlane (act : W32 → State → State) : s.lane0 k f act = act x s := State.lane0_clean hx act
      have hovf : (s.syncGet h off).ovf = false := by simp only [State.wordUsable, Bool.and_eq_true, Bool.not_eq_true'] at hu; exact hu.2
      intro r m q
      refine ⟨fun hrel => ?_, fun hrel ho hwait => ?_, fun hrel hhold => ?_, fun hd => ⟨fun hg => ?_, fun hg => ?_⟩, ?_⟩
      · show execSwAdd k g e f s = _
        rw [execSwAdd, hop]
        simp only [huse, hlane]
        rw [if_neg (by simpa using hrel)]
      · show execSwAdd k g e f s = _
        rw [execSwAdd, hop]
        simp only [huse, hlane]
        rw [if_pos hrel, if_neg (by simp [ho, hwait])]
      · show execSwAdd k g e f s = _
        rw [execSwAdd, hop]
        simp only [huse, hlane]
        rw [if_pos hrel, if_pos (by rcases hhold with hh | hh <;> simp [hh])]
      · show execSwWait k g e f s = _
        rw [execSwWait, hop]
        simp only [huse, hlane, State.needD_named hd]
        rw [State.bindWait_same hn hg hovf]
        rfl
      · show execSwWait k g e f s = _
        rw [execSwWait, hop]
        simp only [huse, hlane, State.needD_named hd]
        rw [State.bindWait_changed hn hg]
        rfl
      · show execSwTest k g e f s = _
        rw [execSwTest, hop]
        simp only [huse, hlane]
        rw [State.syncRead_eq]
        exact congrArg (fun l => Host.Outcome.next ((s.syncRead h off).2.copyShort k l)) (firstLanes_truth _ (by simp [bne, beq_eq_decide, y]))
    case rd =>
      show execSwRd k g e f s = _
      rw [execSwRd, hop]
      simp only [hp, State.needClean_clean]
      rw [State.syncRead_eq]
      exact congrArg (fun l => Host.Outcome.next ((s.syncRead h off).2.copyShort k l)) (firstLanes_four _ _ _ _)
  case qput =>
    intro c ch q z h8 hctx hd hw hz p
    have hroute : ¬ (a.extractLsb' 8 56 ≠ 0 || !s.runsCtx c s.me.task.ctx) = true := by simp [h8, hctx]
    refine ⟨fun hring hroom => ?_, fun hfull hash => ?_⟩
    · have hopen : (q.ring.isEmpty && q.msgs.length + s.inFlight c ch < q.cap) = true := by simp [hring, hroom]
      show execQput k g e f s = _
      rw [execQput, copyClean_ready hr hc]
      dsimp only
      rw [if_neg hroute, State.needD_named hd, hw, if_neg (by decide), hz]
      exact congrArg _ (if_pos hopen)
    · have hshut : ¬ (q.ring.isEmpty && q.msgs.length + s.inFlight c ch < q.cap) = true := by simp; omega
      show execQput k g e f s = _
      rw [execQput, copyClean_ready hr hc]
      dsimp only
      rw [if_neg hroute, State.needD_named hd, hw, if_neg (by decide), hz]
      exact congrArg _ ((if_neg hshut).trans (if_pos (by simp [hash])))
  case qget =>
    show execQget k g e f s = _
    rw [execQget, copyClean_ready hr hc, if_neg (by simpa using ha), State.needD_named hd]
    rfl
  case ingPop =>
    show execIngPop k g e f s = _
    rw [execIngPop, copyClean_ready hr hc]
    dsimp only
    rw [if_neg ?_, State.needD_named hd]
    · rfl
    · rw [show v.toS.val.extractLsb' 4 12 = 0 from h4, show v.toS.val.extractLsb' 28 36 = 0 from h28, show s.ingest (v.toS.val.extractLsb' 0 4).toNat = some q from hq]
      simpa using hwi

end Sys2Proof.Machine
end

section
/-! PROOFS. Engine configuration, operand-slot loads, sequence records and the prefix table. -/
namespace Sys2Proof.Machine

section
variable {s t q : State} {a : W64} {sl : Slot}

/-- A sequence record that is read is the action's. -/
theorem State.seqRecord_reads {bs : List Byte} (hf : ∃ y, s.form s.cur a = .ok y) (hp : a.extractLsb' 62 2 ≠ 3) (ha : a.toNat % 64 = 0) (hr : s.readsRecord a 576 bs t)
    (act : SeqRec → State → State) : s.seqRecord sl a act = act (SeqRec.ofBytes bs) t := by
  obtain ⟨y, hy⟩ := hf
  rw [State.seqRecord, hy]
  dsimp only
  rw [if_neg hp, if_neg (not_not.mpr ha), State.readRecord_reads hr]

/-- Writes of a record that find their lines are made. -/
theorem State.recordWrites_ready {ws : List (W64 × List Byte)} {l : List (Loc × List Byte)} (hl : s.locateAll ws = (.ok l, q)) (hw : q.writesReady q.cur (l.map (·.1)) 16 = true)
    (act : State → State) : s.recordWrites sl ws act = act (q.storeAll l) := by
  rw [State.recordWrites, hl]
  dsimp only
  rw [hw]
  rfl

/-- The pool of a record, in the task's context (R261). -/
def State.poolOf (s : State) (r : SeqRec) : Option Pool := match s.ctx s.me.task.ctx with
  | some x => if h : r.pool < 4 then x.pools[r.pool] else none
  | none => none

section
variable {r : SeqRec} {n : Nat} {fin : W64 → State → State}

/-- KV.EXT with r > 0 by the record's pool. -/
theorem State.kvExtend_eq : s.kvExtend sl a r n fin = match s.poolOf r with
    | none => fin 0 s
    | some p => if 65536 < blockFor n 32 16 || 32 ≤ r.next || r.rowb ≠ p.row then fin 0 s
        else match p.findFree (blockFor n 32 16) 16 with
          | none => fin 0 s
          | some o => s.recordWrites sl (extWrite a r.next (p.addr o, blockFor n 32 16, r.rowb) :: ({ r with next := r.next + 1, cap := r.cap + blockFor n 32 16 } : SeqRec).capNext a) fun s =>
              fin (p.addr o) (s.modCtx s.me.task.ctx fun x => { x with
                pools := x.pools.setIfInBounds r.pool (some { p with blocks := p.blocks ++ [⟨o, blockFor n 32 16, 1, if r.sinkFrom r.cap then 1 else 0⟩] }),
                listed := s.listing a (p.addr o) (r.sinkFrom r.cap) none :: x.listed }) := rfl

/-- R261: without a pool, or one whose rows are the record's and which has a block, KV.EXT answers 0. -/
theorem State.kvExtend_refused (h : s.poolOf r = none ∨ ∃ p, s.poolOf r = some p
      ∧ (65536 < blockFor n 32 16 ∨ 32 ≤ r.next ∨ r.rowb ≠ p.row ∨ p.findFree (blockFor n 32 16) 16 = none)) : s.kvExtend sl a r n fin = fin 0 s := by
  rw [State.kvExtend_eq]
  obtain h | ⟨p, hp, h⟩ := h
  · rw [h]
  · rw [hp]
    dsimp only
    by_cases hbad : (65536 < blockFor n 32 16 || 32 ≤ r.next || r.rowb ≠ p.row) = true
    · exact if_pos hbad
    · rw [if_neg hbad]
      simp only [Bool.or_eq_true, decide_eq_true_eq, not_or, or_assoc] at hbad
      rw [((h.resolve_left hbad.1).resolve_left hbad.2.1).resolve_left hbad.2.2]

/-- R261: a block that is found becomes the record's next extent. -/
theorem State.kvExtend_extends {p : Pool} {o : Nat} {l : List (Loc × List Byte)} (hp : s.poolOf r = some p) (hc : blockFor n 32 16 ≤ 65536) (hn : r.next < 32) (hrow : r.rowb = p.row)
    (ho : p.findFree (blockFor n 32 16) 16 = some o)
    (hl : s.locateAll (extWrite a r.next (p.addr o, blockFor n 32 16, r.rowb) :: ({ r with next := r.next + 1, cap := r.cap + blockFor n 32 16 } : SeqRec).capNext a) = (.ok l, q))
    (hw : q.writesReady q.cur (l.map (·.1)) 16 = true) :
    s.kvExtend sl a r n fin = fin (p.addr o) ((q.storeAll l).modCtx (q.storeAll l).me.task.ctx fun x => { x with
      pools := x.pools.setIfInBounds r.pool (some { p with blocks := p.blocks ++ [⟨o, blockFor n 32 16, 1, if r.sinkFrom r.cap then 1 else 0⟩] }),
      listed := (q.storeAll l).listing a (p.addr o) (r.sinkFrom r.cap) none :: x.listed }) := by
  have hok : ¬ (65536 < blockFor n 32 16 || 32 ≤ r.next || r.rowb ≠ p.row) = true := by simp [hrow]; omega
  rw [State.kvExtend_eq, hp]
  dsimp only
  rw [if_neg hok, ho]
  dsimp only
  rw [State.recordWrites_ready hl hw]

end

/-- PFX.PIN of an entry that is named (R269). -/
def State.pinEntry (s : State) (sl : Slot) (a : W64) (r : SeqRec) (i : Fin 64) : State :=
  let en := (s.die s.cur.die).pfx[i]
  if en.pin = 255 || r.next ≠ r.npin || 32 ≤ r.next || (r.win ≠ 0 && r.sink < 16 * (r.npin + 1)) then
    s.recordWrites sl [(a + 28, bytesOfNat 4 (r.pfail / 2 * 2 + 1))] fun s => s.issued
  else
    let r' := { r with next := r.next + 1, npin := r.npin + 1, cap := r.cap + 16, len := r.len + 16 }
    s.recordWrites sl (extWrite a r.next (en.base, 16, r.rowb) :: r'.counters a) fun s =>
      let s := s.modDie s.cur.die fun d => { d with pfx := d.pfx.set i.val { en with pin := en.pin + 1 } }
      let sink := r.sinkFrom r.cap
      (s.modCtx s.me.task.ctx fun x =>
        let x := { x.blockRef en.base true with listed := s.listing a en.base sink (some (s.cur.die, i)) :: x.listed }
        if sink then x.blockSink en.base true else x).issued

section
variable {r : SeqRec} {i : Fin 64} {l : List (Loc × List Byte)}

/-- Whether a record takes a pin of an entry (R269). -/
def SeqRec.takesPin (r : SeqRec) (en : PfxEnt) : Prop := en.pin ≠ 255 ∧ r.next = r.npin ∧ r.next < 32 ∧ (r.win = 0 ∨ 16 * (r.npin + 1) ≤ r.sink)

theorem SeqRec.takesPin_iff (r : SeqRec) (en : PfxEnt) :
    r.takesPin en ↔ ¬ (en.pin = 255 || r.next ≠ r.npin || 32 ≤ r.next || (r.win ≠ 0 && r.sink < 16 * (r.npin + 1))) = true := by
  simp only [SeqRec.takesPin, Bool.or_eq_true, Bool.and_eq_true, decide_eq_true_eq, not_or, not_and_or, not_not, not_le, not_lt, and_assoc]

/-- An entry that the record cannot take sets PFAIL. -/
theorem State.pinEntry_fails (h : ¬ r.takesPin ((s.die s.cur.die).pfx[i])) (hl : s.locateAll [(a + 28, bytesOfNat 4 (r.pfail / 2 * 2 + 1))] = (.ok l, q))
    (hw : q.writesReady q.cur (l.map (·.1)) 16 = true) : s.pinEntry sl a r i = (q.storeAll l).issued := by
  rw [SeqRec.takesPin_iff, not_not] at h
  rw [State.pinEntry]
  dsimp only
  rw [if_pos h, State.recordWrites_ready hl hw]

/-- One that it takes is its next extent, and its pin count rises. -/
theorem State.pinEntry_pins (h : r.takesPin ((s.die s.cur.die).pfx[i]))
    (hl : s.locateAll (extWrite a r.next (((s.die s.cur.die).pfx[i]).base, 16, r.rowb) ::
      ({ r with next := r.next + 1, npin := r.npin + 1, cap := r.cap + 16, len := r.len + 16 } : SeqRec).counters a) = (.ok l, q))
    (hw : q.writesReady q.cur (l.map (·.1)) 16 = true) :
    s.pinEntry sl a r i =
      let en := (s.die s.cur.die).pfx[i]
      let u := (q.storeAll l).modDie (q.storeAll l).cur.die fun y => { y with pfx := y.pfx.set i.val { en with pin := en.pin + 1 } }
      (u.modCtx u.me.task.ctx fun y =>
        let z := { y.blockRef en.base true with listed := u.listing a en.base (r.sinkFrom r.cap) (some (u.cur.die, i)) :: y.listed }
        if r.sinkFrom r.cap then z.blockSink en.base true else z).issued := by
  rw [SeqRec.takesPin_iff] at h
  rw [State.pinEntry]
  dsimp only
  rw [if_neg h, State.recordWrites_ready hl hw]

end

/-- Own scratchpad whose bank is ACTIVE is accessed. -/
theorem State.ownReady_ready {o n : Nat} (hw : s.me.class0Waits = false) (hb : s.banksReady s.cur o n = true) (act : State → State) : s.ownReady o n act = act s := by
  rw [State.ownReady, hw, if_neg (by decide), hb]
  rfl

end

/-- Settles O54, operation by operation. -/
theorem kvAndPrefixResults : Obligations.KvAndPrefixResults := by
  intro s k g e f v h hc a u d ctx x long home
  have hclean (act : W64 → State → State) : copyClean k g e f act s = .next (act a s) := copyClean_ready h hc act
  have hlane (hx : u.x.poi.getLsbD 0 = false) (act : W32 → State → State) : s.lane0 k f act = act x s := State.lane0_clean hx act
  have hneed (hd : s.dNamed k.slot = true) (act : BitVec 10 → State → State) : s.needD k.slot act = act d s := State.needD_named hd act
  refine ⟨?kflg, ?ksw, ?mopld, ?kvExt, ?pfxHash, ?pfxLook, ?pfxIns, ?pfxUnpin, ?pfxPin⟩
  case kflg => exact (show execKflg k g e f s = _ from hclean _)
  case ksw => exact (show execKsw k g e f s = _ from hclean _)
  case mopld =>
    intro o hx off nu reg hctrl hfmt hrange ho hown hbusy hw hb t
    show execMopld k g e f s = _
    rw [execMopld, hclean]
    dsimp only
    rw [show ((s.kLatch k).x.poi &&& 7 != 0) = false by simpa using hx, State.needClean_clean, if_neg (ne_true_of_eq_false hctrl), if_neg ?fmt,
      if_neg (ne_true_of_eq_false hrange), State.ownRange_owns ho, if_neg ?free, State.ownReady_ready hw hb]
    case fmt =>
      cases h6 : ((s.kLatch k).x.val[0]).getLsbD 6
      · exact Bool.false_ne_true
      · rw [show fmtValid (s.pipe.fmt (((s.kLatch k).x.val[0]).extractLsb' 7 3)) = true from hfmt h6]; decide
    case free =>
      rw [show (ctrlSlots ((s.kLatch k).x.val[0])).any (fun n => (s.me.mx.slot n).st == .matrix) = false from hown, show s.slotsBusy s.cur (ctrlSlots ((s.kLatch k).x.val[0])) = false from hbusy]
      decide
  case kvExt =>
    intro bs t hx hd hf hp ha hr r
    have hseq (act : SeqRec → State → State) : s.seqRecord k.slot a act = act r t := State.seqRecord_reads hf hp ha hr act
    have hrun : execKvExt k g e f s = .next (if x = 0 then t.kvRelease k.slot a r (fun v s => s.long (kUnit k) (.w64 v) 0 d 4096)
        else t.kvExtend k.slot a r x.toNat (fun v s => s.long (kUnit k) (.w64 v) 0 d 4096)) := by
      rw [execKvExt, hclean]
      simp only [hlane hx, hneed hd, hseq]
    refine ⟨fun l q hz hl hq => hrun.trans ?release, fun y pinned b => ⟨fun hn => ?_, fun w hw => ?_⟩, fun hz hpool => hrun.trans ?_, fun z hpool hz hctx => ?extend⟩
    case release => rw [if_pos hz, State.kvRelease, State.recordWrites_ready hl hq]
    · rw [State.unlist, hn]
    · rw [State.unlist, hw] <;> rfl
    · refine (congrArg _ (if_neg hz)).trans (congrArg _ (State.kvExtend_refused (Or.inl ?_)))
      unfold State.poolOf
      cases t.ctx t.me.task.ctx with
      | none => rfl
      | some y => exact dif_neg (by omega)
    case extend =>
      intro c
      have hpool' : t.poolOf r = z.pools[r.pool] := by
        rw [State.poolOf, hctx]
        exact dif_pos hpool
      have hrun' := hrun.trans (congrArg _ (if_neg hz))
      refine ⟨fun hp => hrun'.trans (congrArg _ (State.kvExtend_refused (Or.inl (hpool'.trans hp)))),
        fun p hp hbad => hrun'.trans (congrArg _ (State.kvExtend_refused (Or.inr ⟨p, hpool'.trans hp, hbad⟩))), fun p o l q hp hc hn hrow ho hl hq => hrun'.trans ?_⟩
      rw [State.kvExtend_extends (hpool'.trans hp) hc hn hrow ho hl hq]
  case pfxHash =>
    intro hd hy hx seeded hash
    show execPfxHash k g e f s = _
    rw [execPfxHash, copyOp_ready h, hneed hd]
    dsimp only
    rw [hc, show (s.kLatch k).y.poi.getLsbD 0 = false from hy, show ((s.kLatch k).x.poi &&& 0xFFFF != 0) = false by simpa using hx]
    simp only [Bool.and_false, Bool.or_false, Bool.false_eq_true, if_false]
    rfl
  case pfxLook =>
    intro hd
    have hrun : execPfxLook k g e f s = .next (match home.pfxFind ctx a with
      | some i => (s.modDie s.cur.die fun d => d.pfxHit i).long (kUnit k) (.w64 (BitVec.ofNat 64 (0x80000000 + i.val * 65536 + (home.pfx[i]).gen.toNat))) 0 d 24
      | none => s.long (kUnit k) (.w64 0) 0 d 24) := by
      rw [execPfxLook, hclean, hneed hd] <;> rfl
    refine ⟨fun hn => hrun.trans (by rw [hn]), fun i hi => hrun.trans (by rw [hi])⟩
  case pfxIns =>
    intro o bs t z ho hd hr hctx hz he y c fresh gone
    have hrun : execPfxIns k g e f s = .next (match y.pfxFind c (f64 bs 0) with
        | some i => (t.modDie t.cur.die fun d => d.pfxHit i).accept d true
        | none => match y.pfxVictim c z.pfxQuota with
          | none => t.accept d false
          | some i => (((gone i).modDie (gone i).cur.die fun q => ({ q with pfx := q.pfx.set i.val (fresh i) } : Die).pfxHit i).modCtx c fun q => q.blockRef (f64 bs 16) true).accept d true) := by
      rw [execPfxIns, hclean, State.ownRange_owns ho, hneed hd, State.readRecord_reads hr]
      dsimp only
      rw [hctx]
      dsimp only
      rw [if_neg (by rw [hz, show z.extentStart (BitVec.ofNat 64 (fld bs 16 8)) = true from he]; decide)]
      rfl
    refine ⟨fun i hi => hrun.trans (by rw [hi]), fun hn hv => hrun.trans (by rw [hn, hv]), fun i hn hv => hrun.trans (by rw [hn, hv])⟩
  case pfxUnpin =>
    intro hx
    show execPfxUnpin k g e f s = _
    rw [execPfxUnpin, copyOp_ready h, hlane hx]
    cases hn : s.pfxNamed x <;> rfl
  case pfxPin =>
    intro bs t hx hf hp ha hr r fits
    have hrun : execPfxPin k g e f s = .next (match t.pfxNamed x with
        | none => t.recordWrites k.slot [(a + 28, bytesOfNat 4 (r.pfail / 2 * 2 + 1))] fun s => s.issued
        | some i => t.pinEntry k.slot a r i) := by
      rw [execPfxPin, hclean, hlane hx, State.seqRecord_reads hf hp ha hr]
      rfl
    refine ⟨fun hno l q hl hw => hrun.trans ?_, fun i l q hn => ?_⟩
    · cases hn : t.pfxNamed x with
      | none => exact congrArg _ (State.recordWrites_ready hl hw _)
      | some i => exact congrArg _ (State.pinEntry_fails (hno i hn) hl hw)
    · intro en hfit hl hw
      rw [hn] at hrun
      exact hrun.trans (congrArg _ (State.pinEntry_pins hfit hl hw))

end Sys2Proof.Machine
end

section
/-! PROOFS. Rows of own scratchpad and the address generators. -/
namespace Sys2Proof.Machine

/-! ## One load and one store of own scratchpad (R93, R113) -/

section
variable {s : State} {off : Nat}

/-- A class-0 load gives the bytes that lie there and changes none. -/
theorem State.spLoad_up (n : Nat) (hu : s.homeUp (.sp s.cur off) = true) :
    (s.spLoad off n).1 = ((List.range n).map fun i => s.byteAt (.sp s.cur (off + i)), poisonAt s.me.spPoi off n) ∧ sameBytes s (s.spLoad off n).2 := by
  obtain ⟨lt, t, hl, hq⟩ := State.loadBy_home (d := s.cur.die) hu (Or.inl rfl) (some s.cur.die) s.me.lt[0] n
  have hload : s.spLoad off n = (s.homeBytes (.sp s.cur off) n, t.setLt s.cur (t.me.lt.set 0 lt)) := by
    rw [State.spLoad, State.loadAt, hl]
  have hq' := hq.trans (.setLt t s.cur (t.me.lt.set 0 lt))
  rw [hload]
  refine ⟨?_, hq'.byteAt, fun _ => by rw [hq'.host], fun _ => by rw [hq'.pmem]⟩
  simp only [State.homeBytes, Memory.bytes_eq_map, State.byteAt, State.me]

/-- A class-0 store whose home answers, as the write of its bytes among changes that keep them and the registers. -/
theorem State.spStore_up (bs : List Byte) (bad : Bool) (hu : s.homeUp (.sp s.cur off) = true) :
    ∃ ts : Times, let w := (s.setTimes (.sp s.cur off) ts).homeWrite (.sp s.cur off) bs bad
      sameBytes w (s.spStore off bs bad) ∧ ∀ c, sameArch w (s.spStore off bs bad) c := by
  let ts : Nat := max s.me.lt[0] ((s.times (.sp s.cur off)).rts + 1)
  let w := (s.setTimes (.sp s.cur off) ⟨ts, ts⟩).homeWrite (.sp s.cur off) bs bad
  let u := w.modCtx s.me.task.ctx fun x => { x with wd := 0 }
  have hstore : s.spStore off bs bad = (u.setLt u.cur (u.me.lt.set 0 ts)).unrefuse u.cur := by
    rw [State.spStore, State.storeRaw, hu]
    rfl
  have hctx : sameBytes w u ∧ ∀ c, sameArch w u c := ⟨⟨fun l => by cases l <;> rfl, fun _ => rfl, fun _ => rfl⟩, fun _ => ⟨rfl, rfl, rfl, rfl, rfl⟩⟩
  refine ⟨⟨ts, ts⟩, ?_, fun c => ?_⟩ <;> rw [hstore]
  · exact sameBytes_trans hctx.1 (u.sameBytes_setLt_unrefuse _)
  · exact sameArch_trans (hctx.2 c) (u.sameArch_setLt_unrefuse _ c)

end

/-! ## The banks of a list of accesses (R113 rows 4 to 6) -/

section
variable {s : State} {n : Nat} {l : List (Option Nat)} (hw : s.me.class0Waits = false)
  (hb : (l.all fun o => match o with | some o => s.banksReady s.cur o n | none => true) = true)
include hw hb

/-- With every bank ACTIVE the accesses are made. -/
theorem State.banksFor_open (act : State → State) : s.banksFor n l act = act s := by
  rw [State.banksFor, hw, if_neg (by decide)]
  exact if_pos hb
/-- A scattered access is made once its hold is over. -/
theorem State.scattered_over (hs : rowHold l ≤ s.pipe.stall) (act : State → State) : s.scattered n l act = act s := by
  rw [State.scattered, State.banksFor_open hw hb, if_neg (by omega)]
/-- Before that it holds its group. -/
theorem State.scattered_holds (hs : s.pipe.stall < rowHold l) (act : State → State) :
    s.scattered n l act = (s.modPipe fun p => { p with stall := p.stall + 1 }).hold 0 := by
  rw [State.scattered, State.banksFor_open hw hb, if_pos hs]

end

/-- Where every offset lies below the end, no lane passes it. -/
theorem findSome_filter_none {l : List (Option Nat)} {z : Nat} (h : ∀ o, some o ∈ l → o < z) : l.findSome? (fun o => o.filter (z ≤ ·)) = none := by
  rw [List.findSome?_eq_none_iff]
  rintro (_ | o) ho
  · rfl
  · simp [Option.filter, h o ho]

/-- Of offsets given lane by lane, the first that passes the end is the lane's before which none does. -/
theorem findSome_filter_first {n z : Nat} (p : Fin n → Bool) (off : Fin n → Nat) (i : Fin n) (hp : p i = false) (hz : z ≤ off i)
    (hj : ∀ j, j < i → p j = false → off j < z) :
    ((List.finRange n).map fun j => if p j then none else some (off j)).findSome? (fun o => o.filter (z ≤ ·)) = some (off i) := by
  rw [List.findSome?_map, List.findSome?_eq_some_iff]
  refine ⟨(List.finRange n).take i, i, (List.finRange n).drop (i + 1), ?_, by simp [Option.filter, hp, hz], fun j hm => ?_⟩
  · conv_lhs => rw [← List.take_append_drop i (List.finRange n), List.drop_eq_getElem_cons (by simp)]
    simp
  · obtain ⟨m, hlt, rfl⟩ := List.mem_take_iff_getElem.mp hm
    have hji : (List.finRange n)[m] < i := by simpa [Fin.lt_def] using (lt_min_iff.mp hlt).1
    by_cases hpj : p (List.finRange n)[m] = true
    · simp only [Function.comp, if_pos hpj, Option.filter_none]
    · simp only [Function.comp, if_neg hpj, Option.filter, decide_eq_true_eq, if_neg (Nat.not_le.mpr (hj _ hji (by simpa using hpj)))]

/-! ## Address generators (R119 to R121) -/

/-- A generator that moves on leaves the latches. -/
@[simp] theorem State.kLatch_modAg (s : State) (k : KUnit) (n : BitVec 2) (f : AGen → AGen) : (s.modAg k n f).kLatch k = s.kLatch k := by
  cases k <;> simp only [State.kLatch, State.modAg, State.modK, State.pipe, State.me_modMe] <;> rfl

section
variable {s : State} {k : KUnit} {g : BitVec 4} {n : BitVec 2} {e : Bool} {f : BitVec 10} {v : Val} (h : s.ready k.slot g e f v = true)
include h

/-- The use of a generator whose elements are in reach moves it on. -/
theorem agUse_ready {m : TMap} {l : List (Option Nat)} (hm : ((s.me.kslot k).ag[n.toNat]'(by omega)).map = some m)
    (hl : s.ownAddrs m.eb m.eb (((s.me.kslot k).ag[n.toNat]'(by omega)).next m) = .ok l) (hw : s.me.class0Waits = false)
    (hb : (l.all fun o => match o with | some o => s.banksReady s.cur o m.eb | none => true) = true) (hs : rowHold l ≤ s.pipe.stall)
    (act : TMap → List (Option Nat) → State → State) :
    agUse k g n e f act s = .next (act m l (s.modAg k n fun a => { a with k := min (a.k + 1024 / m.eb) m.vol })) := by
  rw [agUse, copyOp_ready h]
  simp only [hm, hl, State.scattered_over hw hb hs]

end

/-- Settles O50, a row operation at a time from the lemmas on its address, its banks and its hold. -/
theorem scratchpadRowResults : Obligations.ScratchpadRowResults := by
  refine ⟨fun s k g n e f v h hc => ?_, fun s off n hu => State.spLoad_up n hu, fun s off bs bad hs hu => ?store⟩
  case store =>
    intro t
    obtain ⟨ts, hbytes, harch⟩ := State.spStore_up bs bad hu
    have hq := State.Quiet.setTimes s (.sp s.cur off) ts
    refine ⟨fun i hi => ?_, fun x hx => ?_, fun c => ?_⟩
    · rw [hbytes.1]
      exact State.byteAt_homeWrite_in (hq.memWf hs) _ _ _ hi
    · rw [hbytes.1, State.byteAt_homeWrite_out (hq.memWf hs) _ _ _ hx, hq.byteAt]
    · exact sameArch_trans ((hq.toFrame.trans (.homeWrite _ _ _ _)).sameArch c) (harch c)
  intro a u open_ lane lands ag
  have hclean (act : W64 → State → State) : copyClean k g e f act s = .next (act a s) := copyClean_ready h hc act
  refine ⟨fun off ho hl => ⟨?spld, ?spst⟩, fun off ho hy => ⟨fun hi hl => ?spstM, fun i hi hz hj => ?spstMEnd⟩, fun off ho hl => ?spldH, fun off ho hl => ?spldBc, fun hx ha => ?spldGMisaligned,
    fun l hx ha hl hb hs => ?spldGHold, fun l hx ha hl hb hs => ?spldG, fun l hy hl hb hs => ?spstS, fun m t hp hm => ?agSet, fun m hm => ?agPos, fun hm => ?agPosNone,
    fun m l hm hl hb hs => ⟨?spldAg, ?spstAg⟩⟩
  case spld =>
    show execSpld k g e f s = _
    rw [execSpld, hclean, State.ownRange_owns ho, State.banksFor_open hl.1 hl.2]
  case spst =>
    show execSpst k g e f s = _
    rw [execSpst, hclean, State.ownRange_owns ho, State.banksFor_open hl.1 hl.2]
  case spstM =>
    show execSpstM k g e f s = _
    rw [execSpstM, hclean]
    dsimp only
    rw [show (s.kLatch k).y.poi = 0 from hy, show ((0 : Mask) != 0) = false from rfl, State.needClean_clean, State.ownRange_owns ho, findSome_filter_none, State.banksFor_open hl.1 hl.2]
    intro o ho
    obtain ⟨i, -, hio⟩ := List.mem_map.mp ho
    split at hio
    · cases hio
    · cases hio
      exact hi i ‹_›
  case spstMEnd =>
    show execSpstM k g e f s = _
    rw [execSpstM, hclean]
    dsimp only
    rw [show (s.kLatch k).y.poi = 0 from hy, show ((0 : Mask) != 0) = false from rfl, State.needClean_clean, State.ownRange_owns ho]
    have hfirst := findSome_filter_first (fun j : Fin 256 => decide (u.y.val[j] = 0)) (fun j => off + 4 * j.val) i (by simpa using hi) hz (fun j hji hj0 => hj j hji (by simpa using hj0))
    simp only [decide_eq_true_eq] at hfirst
    rw [hfirst]
    simp
  case spldH =>
    show execSpldH k g e f s = _
    rw [execSpldH, hclean, State.ownRange_owns ho, State.banksFor_open hl.1 hl.2]
  case spldBc =>
    show execSpldBc k g e f s = _
    rw [execSpldBc, hclean, State.ownRange_owns ho, State.banksFor_open hl.1 hl.2]
  case spldGMisaligned =>
    show execSpldG k g e f s = _
    rw [execSpldG, hclean]
    dsimp only
    rw [show (s.kLatch k).x.poi = 0 from hx, show ((0 : Mask) != 0) = false from rfl, State.needClean_clean, if_pos ha]
  case spldGHold =>
    show execSpldG k g e f s = _
    rw [execSpldG, hclean]
    dsimp only
    rw [show (s.kLatch k).x.poi = 0 from hx, show ((0 : Mask) != 0) = false from rfl, State.needClean_clean, if_neg (not_not.mpr ha), hl]
    exact congrArg Host.Outcome.next (State.scattered_holds hb.1 hb.2 hs _)
  case spldG =>
    show execSpldG k g e f s = _
    rw [execSpldG, hclean]
    dsimp only
    rw [show (s.kLatch k).x.poi = 0 from hx, show ((0 : Mask) != 0) = false from rfl, State.needClean_clean, if_neg (not_not.mpr ha), hl]
    exact congrArg Host.Outcome.next (State.scattered_over hb.1 hb.2 hs _)
  case spstS =>
    show execSpstS k g e f s = _
    rw [execSpstS, hclean]
    dsimp only
    rw [show (s.kLatch k).y.poi = 0 from hy, show ((0 : Mask) != 0) = false from rfl, State.needClean_clean, hl]
    exact congrArg Host.Outcome.next (State.scattered_over hb.1 hb.2 hs _)
  case agSet =>
    show execAgSet k g n e f s = _
    rw [execAgSet, hclean, if_neg hp, State.readMap_reads hm]
  case agPos =>
    show execAgPos k g n e f s = _
    rw [execAgPos, hclean, show ((s.me.kslot k).ag[n.toNat]'(by omega)).map = _ from hm]
  case agPosNone =>
    show execAgPos k g n e f s = _
    rw [execAgPos, hclean, show ((s.me.kslot k).ag[n.toNat]'(by omega)).map = _ from hm]
  case spldAg =>
    show execSpldAg k g n e f s = _
    rw [execSpldAg, agUse_ready h hm hl hb.1 hb.2 hs]
  case spstAg =>
    show execSpstAg k g n e f s = _
    rw [execSpstAg, agUse_ready h hm hl hb.1 hb.2 hs]
    simp only [State.kLatch_modAg]
    rfl

end Sys2Proof.Machine
end

section
/-! PROOFS. What a write outside every replicated page keeps beside bytes: where locations are homed, which dies answer, the open migrations, the matrix arrays. -/
namespace Sys2Proof.Machine

/-- What no write of one element changes: the homes of locations, the replicated pages, the arrays; and it opens no migration. -/
structure State.Steady (s t : State) : Prop where
  live : ∀ d, (t.die d).live = (s.die d).live
  product : t.product = s.product
  replicas : t.fw.replicas = s.fw.replicas
  migs : s.m.migs = [] → t.m.migs = []
  mx : ∀ c, (t.core c).mx = (s.core c).mx

theorem State.Steady.refl (s : State) : s.Steady s := ⟨fun _ => rfl, rfl, rfl, id, fun _ => rfl⟩
theorem State.Steady.trans {s t u : State} (h : s.Steady t) (g : t.Steady u) : s.Steady u :=
  ⟨fun d => (g.live d).trans (h.live d), g.product.trans h.product, g.replicas.trans h.replicas, fun e => g.migs (h.migs e), fun c => (g.mx c).trans (h.mx c)⟩
/-- Steady steps are steady together. -/
theorem State.Steady.foldl {α : Type} {f : State → α → State} (h : ∀ s x, State.Steady s (f s x)) (l : List α) (s : State) : s.Steady (l.foldl f s) :=
  List.foldlRecOn l f (State.Steady.refl s) fun _ hb x _ => hb.trans (h _ x)

/-- The home of a location answers as before. -/
theorem State.Steady.homeUp {s t : State} (h : s.Steady t) (l : Loc) : t.homeUp l = s.homeUp l := by
  have hd : t.locDie l = s.locDie l := by
    cases l with
    | sp c o => rfl
    | pa a => simp only [State.locDie, State.homeDie, State.granuleDie, h.product, State.pkgDies]
  rw [State.homeUp, State.homeUp, hd, h.live]
theorem State.Steady.unshared {s t : State} (h : s.Steady t) {l : Loc} (hl : s.unshared l) : t.unshared l := by
  intro a e
  rw [h.replicas]
  exact hl a e

/-! ## Changes of one part -/

theorem State.Steady.modCore (s : State) (c : CoreId) {f : Core → Core} (hf : (f (s.core c)).mx = (s.core c).mx) : s.Steady (s.modCore c f) := by
  refine { State.Steady.refl s with mx := fun d => ?_ }
  by_cases hd : d = c
  · subst hd
    rw [State.core_modCore_self, hf]
  · rw [State.core_modCore_ne s f hd]
theorem State.Steady.modDie (s : State) (d : DieId) {f : Die → Die} (hf : (f (s.die d)).live = (s.die d).live) : s.Steady (s.modDie d f) := by
  refine { State.Steady.refl s with live := fun e => ?_ }
  by_cases he : e = d
  · subst he; rw [State.die_modDie_self, hf]
  · rw [State.die_modDie_ne s f he]
theorem State.Steady.modMem (s : State) (m : MemState) (hm : s.m.migs = [] → m.migs = []) : s.Steady { s with m := m } := { State.Steady.refl s with migs := hm }
theorem State.Steady.modCtx (s : State) (x : BitVec 16) (f : Ctx → Ctx) : s.Steady (s.modCtx x f) := { State.Steady.refl s with }
theorem State.Steady.setTimes (s : State) (l : Loc) (t : Times) : s.Steady (s.setTimes l t) := .modMem s _ id
theorem State.Steady.setLt (s : State) (c : CoreId) (lt : Vector Nat 4) : s.Steady (s.setLt c lt) := .modCore s c rfl
theorem State.Steady.unrefuse (s : State) (c : CoreId) : s.Steady (s.unrefuse c) := .modCore s c rfl
theorem State.Steady.homeWrite (s : State) (l : Loc) (bs : List Byte) (bad : Bool) : s.Steady (s.homeWrite l bs bad) := by
  unfold State.homeWrite
  cases l with
  | pa a => exact .modMem s _ id
  | sp c o => exact .modCore s c rfl
theorem State.Steady.track (s : State) (c : CoreId) (l : Loc) : s.Steady (s.track c l) := by
  cases l with
  | sp h o => exact .refl s
  | pa a =>
    unfold State.track
    dsimp only
    split
    · exact .modCore s c rfl
    · exact .refl s

/-! ## Caches and write-back (R75, R279, R280) -/

theorem State.Steady.heat (s : State) (d : DieId) (a : Nat) : s.Steady (s.heat d a) := by
  unfold State.heat
  extract_lets stale
  split
  · exact .modDie s d rfl
  · exact .refl s
theorem State.Steady.writeBack (s : State) (a : Nat) : s.Steady (s.writeBack a) := by
  unfold State.writeBack
  split
  · refine .trans ?_ (.heat _ _ _)
    exact .modMem s _ id
  · split
    · refine .trans ?_ (.heat _ _ _)
      exact .modMem s _ id
    · exact .refl s
theorem State.Steady.evictLine (s : State) (d : DieId) (a : Nat) : s.Steady (s.evictLine d a) := by
  unfold State.evictLine
  split
  · exact .refl s
  · extract_lets l ys
    split
    · exact (State.Steady.writeBack s _).trans (.modDie _ d rfl)
    · exact .modDie s d rfl
    · exact (State.Steady.writeBack s _).trans (.modDie _ d rfl)
    · exact .refl s
theorem State.Steady.bringLine (s : State) (count : Option DieId) (a : Nat) : s.Steady (s.bringLine count a) := by
  unfold State.bringLine
  extract_lets line h u
  split
  · exact .refl s
  · have hu : s.Steady u := (State.Steady.evictLine s h line).trans (.modDie _ h rfl)
    split
    · exact hu.trans (.heat _ _ _)
    · exact hu
theorem State.Steady.markDirty (s : State) (a : Nat) : s.Steady (s.markDirty a) := by
  unfold State.markDirty
  extract_lets line d mine u
  split
  · exact .refl s
  · have hu : s.Steady u := by
      unfold u
      split
      · split
        · exact .writeBack s _
        · exact .refl s
      · exact .refl s
    refine hu.trans ?_
    exact .modMem u _ id
theorem State.Steady.dirtied (s : State) (a : Nat) : s.Steady (s.dirtied a) := by
  unfold State.dirtied
  split
  · exact .markDirty s a
  · split
    · exact .refl s
    · exact .modMem s _ id
theorem State.Steady.noteWritten (s : State) (a : Nat) : s.Steady (s.noteWritten a) := by
  unfold State.noteWritten
  refine .trans ?_ (.dirtied _ a)
  exact .modMem s _ fun h => by simp [h, migMark]

/-! ## Waits on a sync word (R126) -/

theorem State.Steady.readWord (s : State) (c h : CoreId) (off : Nat) : s.Steady (s.readWord c h off) := (State.Steady.setTimes s _ _).trans (.setLt _ _ _)
theorem State.Steady.bindWait (s : State) (c : CoreId) (a : W64) (g : W32) : s.Steady (s.bindWait c a g).2 := by
  unfold State.bindWait
  split
  extract_lets x
  split
  · exact .readWord s _ _ _
  · split
    · exact .readWord s _ _ _
    · exact .refl s
theorem State.Steady.bindWaits (s : State) (h : CoreId) (hit : Nat → Bool) : s.Steady (s.bindWaits h hit) := by
  refine State.Steady.foldl (fun s i => State.Steady.foldl (fun s w => ?_) _ _) _ _
  split
  · split
    · rename_i a g _ _
      have hb := State.Steady.bindWait s (CoreId.mk' h.die i) a g
      split
      · rename_i hw
        rw [hw] at hb
        exact hb.trans (.modCore _ _ rfl)
      · rename_i hw
        rw [hw] at hb
        exact hb
    · exact .refl s
  · exact .refl s

/-! ## A store outside every replicated page (R93) -/

/-- A store whose home answers is steady. -/
theorem State.Steady.storeAt {s : State} {l : Loc} (hu : s.homeUp l = true) (h : s.unshared l) (d : DieId) (ctx : BitVec 16) (lt : Nat) (bs : List Byte) (bad : Bool) :
    s.Steady (s.storeAt d ctx lt l bs bad).2 := by
  cases l with
  | sp c o =>
    simp only [State.storeAt, State.storeRaw, hu, Bool.not_true, Bool.false_eq_true, if_false]
    exact (State.Steady.setTimes s _ _).trans ((State.Steady.homeWrite _ _ _ _).trans ((State.Steady.modCtx _ _ _).trans (.bindWaits _ _ _)))
  | pa a =>
    let c := s.cacheLine d a
    let ts := max lt ((c.times (.pa a)).rts + 1)
    let w := ((c.setTimes (.pa a) ⟨ts, ts⟩).homeWrite (.pa a) bs bad).noteWritten a
    have hw : s.Steady w := (State.Steady.bringLine s (some d) a).trans ((State.Steady.setTimes _ _ _).trans ((State.Steady.homeWrite _ _ _ _).trans (.noteWritten _ a)))
    have he : (s.storeAt d ctx lt (.pa a) bs bad).2 = (w.mirror a bs bad).modCtx ctx fun x => { x with wd := 0 } := by
      rw [State.storeAt_pa, State.storeRaw, hu]
      simp only [State.collapseAt_of_unshared (State.replicaAt_of_unshared h)]
      rfl
    rw [he, State.mirror_of_unshared (State.replicaAt_of_unshared (hw.unshared h))]
    exact hw.trans (.modCtx _ _ _)

/-- R93, R138: a class-0 write of a task outside every replicated page, while no page moves, leaves its bytes at its location; every other byte is as before, and it is steady. -/
theorem State.storeClass0_writes {s : State} {l : Loc} (hs : s.memWf) (hm : s.m.migs = []) (hu : s.homeUp l = true) (h : s.unshared l) (c : CoreId) (bs : List Byte) (bad : Bool) :
    let t := s.storeClass0 c l bs bad
    s.Steady t ∧ t.memWf ∧ (∀ i (hi : i < bs.length), t.byteAt (l.plus i) = bs[i]) ∧ ∀ x, (∀ i, i < bs.length → x ≠ l.plus i) → t.byteAt x = s.byteAt x := by
  let r := s.unrefuse c
  have hr : s.Steady r := .unrefuse s c
  have hb : sameBytes s r := s.sameBytes_modCore c rfl
  have hw : r.memWf := State.memWf_modCore hs c _ rfl
  let k := r.core c
  let u := r.storeAt c.die k.task.ctx k.lt[0] l bs bad
  have hur : r.homeUp l = true := (hr.homeUp l).trans hu
  have hsr : r.unshared l := hr.unshared h
  have hst : r.Steady u.2 := .storeAt hur hsr _ _ _ _ _
  obtain ⟨hin, hout⟩ := State.byteAt_storeAt_unshared hur hw hsr c.die k.task.ctx k.lt[0] bs bad
  have hq : u.2.Quiet (s.storeClass0 c l bs bad) := by
    rw [State.storeClass0, State.forWrite_of_migs_nil (hr.migs hm)]
    exact (State.Quiet.setLt _ _ _).trans (.track _ _ _)
  have hqs : u.2.Steady (s.storeClass0 c l bs bad) := by
    rw [State.storeClass0, State.forWrite_of_migs_nil (hr.migs hm)]
    exact (State.Steady.setLt _ _ _).trans (.track _ _ _)
  refine ⟨hr.trans (hst.trans hqs), hq.memWf ?_, fun i hi => ?_, fun x hx => ?_⟩
  · obtain ⟨v, h1, h2⟩ := State.storeAt_unshared hur c.die k.task.ctx k.lt[0] bs bad hsr
    exact h2.memWf (State.memWf_homeWrite (h1.memWf hw) l bs bad)
  · rw [hq.byteAt, hin i hi]
  · rw [hq.byteAt, hout x hx, hb.1]

/-! ## Element by element (R247) -/

/-- The number a drain writes for an element: its value, the code of its conversion, or the rounded sum with what stands there, clamped. -/
def State.drainCode (s : State) (c : CoreId) (d : Drain) (q : Nat × Loc) : Nat :=
  let v := ((s.core (CoreId.mk' c.die (c.num + q.1 / 128))).mx.value d.bank d.wide (rowIx d.row) (memberCol q.1).2).1
  let sum := (fadd32 (BitVec.ofNat 32 (natOfBytes ((List.range 4).map fun a => s.byteAt (q.2.plus a)))) v).1
  match d.kind with
  | .st => v.toNat
  | .cvt => ((fx32 v).res.code d.dest d.rm.toNat 0).1
  | .add => sum.toNat
  | .addc => (clampAbs sum d.clamp).toNat

/-- It depends on the arrays and on the bytes that stand at the location alone. -/
theorem State.drainCode_congr {s t : State} {q : Nat × Loc} {d : Drain} (hx : ∀ c, (t.core c).mx = (s.core c).mx)
    (hb : ∀ a, a < d.kind.size d.typ → t.byteAt (q.2.plus a) = s.byteAt (q.2.plus a)) (c : CoreId) : t.drainCode c d q = s.drainCode c d q := by
  have h4 (hz : d.kind.size d.typ = 4) : (List.range 4).map (fun a => t.byteAt (q.2.plus a)) = (List.range 4).map fun a => s.byteAt (q.2.plus a) :=
    List.map_congr_left fun a ha => hb a (by rw [hz]; simpa using ha)
  unfold State.drainCode
  rw [hx]
  cases hk : d.kind with
  | st => rfl
  | cvt => rfl
  | add =>
    dsimp only
    rw [h4 (by rw [hk]; rfl)]
  | addc =>
    dsimp only
    rw [h4 (by rw [hk]; rfl)]

/-- One element of a drain that takes no draws is one class-0 write; the drain's record notes no more than what its rows gave and its flags. -/
theorem State.drainElem_eq {s : State} (hm : s.m.migs = []) {d : Drain} (hd : d.kind = .cvt → d.rm ≠ 4) (c : CoreId) (q : Nat × Loc) :
    ∃ seen flags bad, s.drainElem c d q = ({ d with seen := seen, flags := flags }, s.storeClass0 c q.2 (bytesOfNat (d.kind.size d.typ) (s.drainCode c d q)) bad) := by
  unfold State.drainElem State.drainCode
  rw [State.forWrite_of_migs_nil hm]
  cases hk : d.kind with
  | st => exact ⟨_, _, _, rfl⟩
  | cvt =>
    have hr : d.draw = (0, d) := by rw [Drain.draw, if_pos (hd hk)]
    simp only [hr, hk]
    exact ⟨_, _, _, rfl⟩
  | add =>
    simp only [← State.homeBytes_eq]
    exact ⟨_, _, _, rfl⟩
  | addc =>
    simp only [← State.homeBytes_eq]
    exact ⟨_, _, _, rfl⟩

/-- Whether the locations of two elements, `z` bytes each, have no byte in common. -/
def Loc.Apart (z : Nat) (l m : Loc) : Prop := ∀ a b, a < z → b < z → l.plus a ≠ m.plus b

/-- R247: the elements of a row that lie apart, each outside every replicated page, are each written with their code; every other byte is as before. -/
theorem State.drainElems_write (c : CoreId) {r : List (Nat × Loc)} {s : State} {d : Drain} (hs : s.memWf) (hm : s.m.migs = []) (hd : d.kind = .cvt → d.rm ≠ 4)
    (hu : ∀ q ∈ r, s.homeUp q.2 = true ∧ s.unshared q.2) (hp : r.Pairwise fun p q => Loc.Apart (d.kind.size d.typ) p.2 q.2) :
    let u := (r.foldl (fun (a : Drain × State) q => a.2.drainElem c a.1 q) (d, s)).2
    (∀ q ∈ r, ∀ a, a < d.kind.size d.typ → u.byteAt (q.2.plus a) = BitVec.ofNat 8 (s.drainCode c d q / 256 ^ a))
      ∧ (∀ l, (∀ q ∈ r, ∀ a, a < d.kind.size d.typ → l ≠ q.2.plus a) → u.byteAt l = s.byteAt l) ∧ ∀ h, (u.core h).mx = (s.core h).mx := by
  induction r generalizing s d with
  | nil => exact ⟨nofun, fun _ _ => rfl, fun _ => rfl⟩
  | cons q r ih =>
    obtain ⟨seen, flags, bad, he⟩ := State.drainElem_eq hm hd c q
    obtain ⟨⟨hqu, hqs⟩, hru⟩ := List.forall_mem_cons.1 hu
    obtain ⟨hq, hr⟩ := List.pairwise_cons.1 hp
    obtain ⟨hst, hw, hin, hout⟩ := State.storeClass0_writes hs hm hqu hqs c (bytesOfNat (d.kind.size d.typ) (s.drainCode c d q)) bad
    simp only [List.foldl_cons, he]
    rw [length_bytesOfNat] at hout
    obtain ⟨h1, h2, h3⟩ := ih (d := { d with seen := seen, flags := flags }) hw (hst.migs hm) hd (fun p hp => ⟨(hst.homeUp _).trans (hru p hp).1, hst.unshared (hru p hp).2⟩) hr
    refine ⟨List.forall_mem_cons.2 ⟨fun a ha => ?head, fun p hp a ha => ?tail⟩, fun l hl => ?other, fun h => (h3 h).trans (hst.mx h)⟩
    case head =>
      have hl : a < (bytesOfNat (d.kind.size d.typ) (s.drainCode c d q)).length := by rwa [length_bytesOfNat]
      rw [h2 _ fun p hp b hb => hq p hp a b ha hb, hin a hl, getElem_bytesOfNat]
    case tail =>
      have hc := State.drainCode_congr (q := p) (d := d) hst.mx (fun b hb => hout _ fun i hi e => hq p hp i b hi hb e.symm) c
      rw [h1 p hp a ha, ← hc]
      rfl
    case other =>
      obtain ⟨hlq, hlr⟩ := List.forall_mem_cons.1 hl
      rw [h2 l hlr, hout l hlq]

/-- A core's array after a change of an array. -/
theorem State.mx_modMxOf (s : State) (c h : CoreId) (f : Matrix → Matrix) : ((s.modMxOf c f).core h).mx = if h = c then f (s.core h).mx else (s.core h).mx := by
  split
  · next e => rw [e, State.modMxOf, State.core_modCore_self]
  · next e => rw [State.modMxOf, State.core_modCore_ne s _ e]

/-- R247: one row of a queued drain writes its elements, and no other byte and neither bank changes. -/
theorem State.stepDrain_writes {s : State} {c : CoreId} (i : Nat) {d : Drain} {row r left : List (Nat × Loc)} {rest : List (List (Nat × Loc))}
    (hs : s.memWf) (hd : d.rows = row :: rest) (hp : (s.core c).rowPart row = (r, left)) (hr : r = [] → row = []) (hw : s.writesReady c (r.map (·.2)) (d.kind.size d.typ) = true)
    (hm : s.m.migs = []) (hu : ∀ q ∈ r, s.homeUp q.2 = true ∧ s.unshared q.2) (ha : r.Pairwise fun p q => Loc.Apart (d.kind.size d.typ) p.2 q.2) (hk : d.kind = .cvt → d.rm ≠ 4) :
    let u := s.stepDrain c i d
    (∀ q ∈ r, ∀ a, a < d.kind.size d.typ → u.byteAt (q.2.plus a) = BitVec.ofNat 8 (s.drainCode c d q / 256 ^ a))
      ∧ (∀ l, (∀ q ∈ r, ∀ a, a < d.kind.size d.typ → l ≠ q.2.plus a) → u.byteAt l = s.byteAt l)
      ∧ ∀ h, (u.core h).mx.bank0 = (s.core h).mx.bank0 ∧ (u.core h).mx.bank1 = (s.core h).mx.bank1 := by
  intro u
  have he : (r.isEmpty && !row.isEmpty) = false := by
    cases r with
    | nil => rw [hr rfl]; rfl
    | cons q r => rfl
  obtain ⟨h1, h2, h3⟩ := State.drainElems_write c hs hm hk hu ha
  let w := r.foldl (fun (a : Drain × State) q => a.2.drainElem c a.1 q) (d, s)
  obtain ⟨q, hq⟩ : ∃ q, u = w.2.modMxOf c fun m => { m with queue := m.queue.set i q } := by
    refine ⟨.drain (if left.isEmpty then { w.1 with rows := rest, row := w.1.row + 1 } else { w.1 with rows := left :: rest }), ?_⟩
    unfold u State.stepDrain
    simp only [hd, hp, he, hw, Bool.not_true, Bool.or_false, Bool.false_eq_true, if_false]
    rfl
  have hb := (State.sameBytes_modCore w.2 c (f := fun k => { k with mx := { k.mx with queue := k.mx.queue.set i q } }) rfl).1
  refine ⟨fun p hp a ha => ?_, fun l hl => ?_, fun h => ?_⟩
  · rw [hq, State.modMxOf, hb, h1 p hp a ha]
  · rw [hq, State.modMxOf, hb, h2 l hl]
  · rw [hq, State.mx_modMxOf, h3]
    split <;> exact ⟨rfl, rfl⟩

/-! ## The members of a group -/

/-- A change of every member's array that keeps a part of an array keeps it in every core. -/
theorem State.modMembers_part {α : Type} (p : Matrix → α) {f : Matrix → Matrix} (hf : ∀ m, p (f m) = p m) (s : State) (c h : CoreId) :
    p ((s.modMembers c f).core h).mx = p (s.core h).mx := by
  unfold State.modMembers
  refine List.foldlRecOn (motive := fun (t : State) => p (t.core h).mx = p (s.core h).mx) _ _ rfl fun t ht m _ => ?_
  rw [State.mx_modMxOf]
  split
  · rw [hf, ht]
  · exact ht
/-- It keeps the core that acts. -/
theorem State.cur_modMembers (s : State) (c : CoreId) (f : Matrix → Matrix) : (s.modMembers c f).cur = s.cur :=
  ((State.Keeps.refl s).modMembers c f).cur

@[simp] theorem Matrix.queue_modBank (m : Matrix) (b : Bool) (f : Bank → Bank) : (m.modBank b f).queue = m.queue := by
  cases b <;> rfl
theorem Matrix.queue_freeBank (m : Matrix) (b both : Bool) : (m.freeBank b both).queue = m.queue := by
  cases both <;> simp [Matrix.freeBank]
theorem Matrix.queue_accumulates (m : Matrix) (b wide : Bool) : (m.accumulates b wide).queue = m.queue := by
  cases wide <;> simp [Matrix.accumulates]
theorem Matrix.queue_checkCount (m : Matrix) (b : Bool) : (m.checkCount b).2.queue = m.queue := by
  unfold Matrix.checkCount
  extract_lets n count hit u
  split
  · rfl
  · split <;> rfl

/-! ## Into the queue (R236) -/

section
variable {s : State} {g : BitVec 4} {e : Bool} {f : BitVec 10} {v : Val}

/-- With no group to form a queued operation goes on as it stands. -/
theorem State.grouped_stands (hg : s.me.regroups = false) (act : State → State) : s.grouped act = act s := by
  rw [State.grouped, hg]
  rfl
/-- With room an operation enters the queue. -/
theorem State.enqueue_room (hq : s.me.mx.queue.length < 4) (o : SeqOp) : s.enqueue o = (s.modMx fun m => { m with queue := m.queue ++ [o] }).issued := by
  rw [State.enqueue, if_neg (Nat.not_le.2 hq)]

variable (h : s.ready .m g e f v = true) (hg : s.me.regroups = false) (hq : s.me.mx.queue.length < 4)
include h hg

/-- A tile that fails a check raises that cause. -/
theorem issueTile_traps (w : Bool) {x : Err} (hx : s.tileCheck (s.snapshot w) = some x) : issueTile w g e f s = .next (s.trapAt .m x.1 x.2) := by
  rw [issueTile, matrixOp_ready h, State.grouped_stands hg]
  simp only [hx]

include hq

/-- One that passes them sets the bank states of every member and is queued. -/
theorem issueTile_queues (w : Bool) (hx : s.tileCheck (s.snapshot w) = none) :
    let t := s.snapshot w
    let u := s.modMembers s.cur fun m => m.accumulates t.ports.bank t.wide
    let c := u.me.mx.checkCount t.ports.bank
    issueTile w g e f s = .next ((u.modMx fun _ => c.2).modMx fun m => { m with queue := m.queue ++ [.tile { t with due := c.1 } 0 0 0] }).issued := by
  intro t u c
  have hu : (u.modMx fun _ => c.2).me.mx.queue.length < 4 := by
    rw [State.modMx, State.me_modMe]
    show c.2.queue.length < 4
    rw [Matrix.queue_checkCount, State.me, State.cur_modMembers, State.modMembers_part Matrix.queue (fun m => m.queue_accumulates _ _)]
    exact hq
  rw [issueTile, matrixOp_ready h, State.grouped_stands hg]
  simp only [hx, if_neg (Nat.not_le.2 hq)]
  rw [State.enqueue_room hu]

/-- MZERO frees its bank, or its wide pair, in every member, and is queued. -/
theorem execMzero_queues :
    let b := v.toS.val.getLsbD 0
    let both := (s.me.mx.bank b).wide
    execMzero g e f s = .next ((s.modMembers s.cur fun m => m.freeBank b both).modMx fun m => { m with queue := m.queue ++ [.zero b both] }).issued := by
  intro b both
  have hu : (s.modMembers s.cur fun m => m.freeBank b both).me.mx.queue.length < 4 := by
    rw [State.me, State.cur_modMembers, State.modMembers_part Matrix.queue (fun m => m.queue_freeBank _ _)]
    exact hq
  rw [execMzero, matrixOp_ready h, State.grouped_stands hg]
  simp only [if_neg (Nat.not_le.2 hq)]
  rw [State.enqueue_room hu]

/-- MBANK names its bank in the ports and is queued. -/
theorem execMbank_queues :
    let b := v.toS.val.getLsbD 0
    execMbank g e f s = .next ((s.modMx fun m => { m with ports := m.ports.setBank b }).modMx fun m => { m with queue := m.queue ++ [.bank b] }).issued := by
  intro b
  have hu : (s.modMx fun m => { m with ports := m.ports.setBank b }).me.mx.queue.length < 4 := by
    rw [State.modMx, State.me_modMe]
    exact hq
  rw [execMbank, matrixOp_ready h, State.grouped_stands hg]
  simp only [if_neg (Nat.not_le.2 hq)]
  rw [State.enqueue_room hu]

end

/-- R197, R240, R249: what queueing a drain does, its queue having room. -/
theorem State.queueDrain_room {s : State} (hq : s.me.mx.queue.length < 4) (d : Drain) :
    let s4 := State.modMe (if d.zr then s.modMembers s.cur fun m => m.freeBank d.bank d.wide else s) fun c => { c with seq := c.seq + 1 }
    s.queueDrain d = (State.modMx (if d.kind = .cvt ∧ d.rm = 4 then s4.modPipe fun p => { p with sys2 := { p.sys2 with
        rng := p.sys2.rng.set 2 (rngDraws (d.rows.map List.length).sum d.rng).2 } } else s4) fun m => { m with queue := m.queue ++ [.drain d] }).issued := by
  intro s4
  have hz : (if d.zr then s.modMembers s.cur fun m => m.freeBank d.bank d.wide else s).me.mx.queue.length < 4 := by
    split
    · rw [State.me, State.cur_modMembers, State.modMembers_part Matrix.queue (fun m => m.queue_freeBank _ _)]
      exact hq
    · exact hq
  have h4 : s4.me.mx.queue.length < 4 := by
    rw [State.me_modMe]
    exact hz
  have hsum : d.rows.foldl (fun n r => n + r.length) 0 = (d.rows.map List.length).sum := by
    rw [List.sum_eq_foldl, List.foldl_map]
  unfold State.queueDrain
  simp only [Bool.and_eq_true, decide_eq_true_eq, hsum]
  refine State.enqueue_room ?_ _
  split
  · rw [State.me_modPipe]
    exact h4
  · exact h4

theorem BankSt.beq_eq (x y : BankSt) : (x == y) = decide (x = y) := by
  cases x <;> cases y <;> rfl
theorem DrainKind.beq_cvt (k : DrainKind) : (k == .cvt) = decide (k = .cvt) := by
  cases k <;> rfl
/-- R246: a drain whose bounds all stay below the threshold runs as it is. -/
theorem State.threshold_below {s : State} {b : Bool} {rows : List (List (Nat × W64))}
    (h : (s.drainBounds b (decide ((s.me.mx.bank b).st = .hi)) rows).any (fun x => exceeds x s.me.mx.ports.mbthr) = false) (act : Bool → List W32 → State → State) :
    s.threshold b rows act = act (decide ((s.me.mx.bank b).st = .hi)) (s.drainBounds b (decide ((s.me.mx.bank b).st = .hi)) rows) s := by
  rw [State.threshold]
  simp only [BankSt.beq_eq, h, Bool.not_false, if_true]

section
variable {s : State} {g : BitVec 4} {e : Bool} {f : BitVec 10} {v : Val} (h : s.ready .m g e f v = true) (hg : s.me.regroups = false)
include h hg

/-- R247 to R249: a drain whose checks pass, whose bank nothing queued uses and whose bounds stay below the threshold is queued. -/
theorem issueDrain_queues {k : DrainKind} {m : TMap} {s1 s2 s3 : State} {locs : List (List (Nat × Loc))} {ents : List (Nat × Loc)} :
    let b := v.toS.val.getLsbD 0
    let x := s.pipe.units.m.x
    let y := s.pipe.units.m.y
    let typ : BitVec 2 := y.val.setWidth 2
    let width := s1.me.mx.width
    let reg := s1.pipe.fmt m.freg
    let rows := (List.range m.drainRows).map fun i => m.drainRow x.val width i
    let tix := y.val.extractLsb' 32 32
    let wide := decide ((s3.me.mx.bank b).st = .hi)
    let bs := s3.drainBounds b wide rows
    v.toS.poi = false → x.poi = false → y.poi = false → v.toS.val.extractLsb' 2 62 = 0 → (s.me.mx.bank b).st ≠ .lo → (k = .cvt → typ ≠ 3) →
    s.readsMap s.me.mx.ports.mdtm m s1 → m.drainRows ≤ 256 → drainMapBad k typ m reg rows = false → (k = .cvt → typ = 2 → fmtValid reg = true) →
    s1.drainAll s1.cur (k.size typ) rows = (.ok locs, s2) →
    s2.drainLocs s1.cur 4 (if m.btab = 0 then [] else (List.range width).map fun i => (128 * i, m.btab + (tix.setWidth 64 + BitVec.ofNat 64 i) * 4)) = (.ok ents, s3) →
    s3.me.mx.queue.length < 4 → s3.me.mx.queue.any (fun o => o.uses b) = false → s3.drainPending b = none → bs.any (fun x => exceeds x s3.me.mx.ports.mbthr) = false →
    issueDrain k g e f s = .next (s3.queueDrain
      { kind := k, bank := b, wide := wide, zr := v.toS.val.getLsbD 1, typ := typ, clamp := y.val.setWidth 32 &&& 0x7FFFFFFF, fmt := reg, rm := s3.pipe.rmode.mode,
        row := 0, rows := locs, entry := ents.map fun x => some x.2, pos := some s3.pipe.ib.idx, seq := s3.me.seq, rng := s3.pipe.sys2.rng[2], bndd := bs,
        seen := List.replicate width ((0 : W32), false), flags := 0 }) := by
  dsimp only
  intro hv hx hy hw hlo ht hm hr hbad hf hl he hq hu hp hbs
  have ht' : (k == .cvt && s.pipe.units.m.y.val.setWidth 2 == (3 : BitVec 2)) = false := by
    rw [DrainKind.beq_cvt]
    simpa using ht
  have hf' : (k == .cvt && s.pipe.units.m.y.val.setWidth 2 == (2 : BitVec 2) && !fmtValid (s1.pipe.fmt m.freg)) = false := by
    rw [DrainKind.beq_cvt]
    simpa using hf
  rw [issueDrain, matrixOp_ready h, State.grouped_stands hg]
  dsimp only
  rw [hv, hx, hy, Bool.or_false, Bool.or_false, State.needClean_clean, if_neg (by rw [hw, ht']; simp), if_neg (by rw [BankSt.beq_eq]; simpa using hlo), State.readMap_reads hm,
    if_neg (Nat.not_lt.2 hr), hbad, hf', hl]
  dsimp only [Bool.false_eq_true, if_false]
  rw [he]
  dsimp only
  rw [hu, Bool.or_false, decide_eq_false (Nat.not_le.2 hq), hp]
  dsimp only [Bool.false_eq_true, if_false]
  rw [State.threshold_below hbs]
  simp only [Bool.false_eq_true, if_false]

end

/-- Settles O48. -/
theorem matrixQueuedResults : Obligations.MatrixQueuedResults := by
  refine ⟨fun s g e f v h hg => ?_, fun s c i d row r left rest hs hd hp hr hw hm hu ha hk => State.stepDrain_writes i hs hd hp hr hw hm hu ha hk⟩
  intro w b queued tile drain
  have hdrain (k : DrainKind) : drain k (issueDrain k g e f s) := by
    intro hv hx hy hw hlo ht m s1 s2 s3 locs ents hm hr width reg rows tix hbad hf hl he hq hu hp wide bs hbs d s4
    rw [issueDrain_queues h hg hv hx hy hw hlo ht hm hr hbad hf hl he hq hu hp hbs, State.queueDrain_room hq]
  refine ⟨fun hq => ⟨⟨issueTile_queues h hg hq false, fun x => issueTile_traps h hg false⟩, ⟨issueTile_queues h hg hq true, fun x => issueTile_traps h hg true⟩, ?mzero, execMbank_queues h hg hq⟩,
    hdrain .st, hdrain .cvt, hdrain .add, hdrain .addc⟩
  case mzero =>
    intro both
    have hb : (s.me.mx.bank b).wide = both := by
      unfold both Bank.wide
      cases (s.me.mx.bank b).st <;> rfl
    rw [← hb]
    exact execMzero_queues h hg hq

end Sys2Proof.Machine
end

section
/-! PROOFS. Claims, beats, one beat of a tile on every member, and the forming of a group. -/
namespace Sys2Proof.Machine

/-! ## Banks (R204, R240) -/

@[simp] theorem Matrix.bank_setBank (m : Matrix) (b : Bool) (x : Bank) : (m.setBank b x).bank b = x := by
  cases b <;> rfl
@[simp] theorem Matrix.bank_setBank_not (m : Matrix) (b : Bool) (x : Bank) : (m.setBank b x).bank (!b) = m.bank (!b) := by
  cases b <;> rfl
@[simp] theorem Matrix.bank_not_setBank (m : Matrix) (b : Bool) (x : Bank) : (m.setBank (!b) x).bank b = m.bank b := by
  cases b <;> rfl
/-- A change of one bank that keeps a part of a bank keeps it in both. -/
theorem Matrix.bank_modBank_part {α : Type} (p : Bank → α) {f : Bank → Bank} (hf : ∀ x, p (f x) = p x) (m : Matrix) (b c : Bool) : p ((m.modBank b f).bank c) = p (m.bank c) := by
  cases b <;> cases c
  case false.false => exact hf _
  case true.true => exact hf _
  all_goals rfl
/-- The states of banks are no elements of theirs. -/
theorem Matrix.acc_accumulates (m : Matrix) (b wide c : Bool) : ((m.accumulates b wide).bank c).acc = (m.bank c).acc := by
  cases wide <;> cases b <;> cases c <;> rfl

/-! ## What a beat makes of each element (R204) -/

theorem getElem_grid {α β : Type} {n m : Nat} (f : Fin n → Fin m → α) (g : α → β) (i : Fin n) (j : Fin m) :
    (((Vector.ofFn fun i => Vector.ofFn fun j => f i j).map fun v => v.map g)[i])[j] = g (f i j) := by
  simp only [Fin.getElem_fin, Vector.getElem_map, Vector.getElem_ofFn, Fin.eta]
/-- What a beat makes of an element: what the bank and its pair hold, and the flags. -/
def Matrix.cell (m : Matrix) (b wide : Bool) (p : Adds) (i : Fin 256) (j : Fin 128) : W32 × W32 × Flags :=
  let hi := ((m.bank b).acc[i])[j]
  let lo := ((m.bank (!b)).acc[i])[j]
  match p i j with
  | none => (hi, lo, 0)
  | some (x, _) => if wide then macWide hi lo x else let (c, f) := macNormal hi x; (c, lo, f)

section
variable (m : Matrix) (b wide : Bool) (p : Adds) (i : Fin 256) (j : Fin 128)

theorem Matrix.acc_accumulate : (((m.accumulate b wide p).1.bank b).acc[i])[j] = (m.cell b wide p i j).1 := by
  have h : ((m.accumulate b wide p).1.bank b).acc = (Vector.ofFn fun i => Vector.ofFn fun j => m.cell b wide p i j).map fun v => v.map fun x => x.1 := by
    cases wide <;> cases b <;> rfl
  rw [h, getElem_grid]
theorem Matrix.acc_accumulate_pair : (((m.accumulate b true p).1.bank (!b)).acc[i])[j] = (m.cell b true p i j).2.1 := by
  have h : ((m.accumulate b true p).1.bank (!b)).acc = (Vector.ofFn fun i => Vector.ofFn fun j => m.cell b true p i j).map fun v => v.map fun x => x.2.1 := by
    cases b <;> rfl
  rw [h, getElem_grid]
theorem Matrix.bank_accumulate_other : (m.accumulate b false p).1.bank (!b) = m.bank (!b) := by
  unfold Matrix.accumulate
  simp only [Bool.false_eq_true, if_false, Matrix.bank_setBank_not]
/-- The bound is not an accumulating beat's. -/
theorem Matrix.bnd_accumulate : ((m.accumulate b wide p).1.bank b).s = (m.bank b).s ∧ ((m.accumulate b wide p).1.bank b).bnd = (m.bank b).bnd := by
  unfold Matrix.accumulate
  cases wide with
  | false => simp only [Bool.false_eq_true, if_false, Matrix.bank_setBank, and_self]
  | true => simp only [if_true, Matrix.bank_not_setBank, Matrix.bank_setBank, and_self]
/-- The elements are not the bound's. -/
theorem Matrix.acc_bound (x : BeatBound) (bad c : Bool) : ((m.bound b wide x bad).bank c).acc = (m.bank c).acc := by
  cases b <;> cases c <;> rfl

/-- An element that adds a product holds the rounded sum, in either mode. -/
theorem Matrix.cell_adds {x : Fx × Flags} {bad : Bool} (h : p i j = some (x, bad)) : (m.cell b wide p i j).1 = (rne (fxAdd false (fx32 ((m.bank b).acc[i])[j]) x.1)).1 := by
  unfold Matrix.cell
  rw [h]
  cases wide <;> simp only [macNormal, macWide, Bool.false_eq_true, if_false, if_true]
theorem Matrix.cell_pair {x : Fx × Flags} {bad : Bool} (h : p i j = some (x, bad)) : (m.cell b true p i j).2.1 = (macWide ((m.bank b).acc[i])[j] ((m.bank (!b)).acc[i])[j] x).2.1 := by
  unfold Matrix.cell
  rw [h]
  rfl
theorem Matrix.cell_rests (h : p i j = none) : (m.cell b wide p i j).1 = ((m.bank b).acc[i])[j] := by
  unfold Matrix.cell
  rw [h]

end

/-! ## One pair pushed on a member (R237, R243) -/

/-- A member's array after line `ka` of the leader's A and line `kb` of its own B. -/
def Matrix.pushed (lead m : Matrix) (t : TileSnap) (ka kb g : Nat) : Matrix :=
  let ops := beatOps lead m t ka kb
  (m.accumulate t.ports.bank t.wide fun i j => some (beatProduct ops i j, beatPoison ops i j)).1.bound t.ports.bank t.wide (beatBound ops t.bia (t.bib.getD g 0)) (opsBad ops)

/-- What the statement of a tile's beat says of a member's array `m` that becomes `r`. -/
def Matrix.TakesBeat (lead m : Matrix) (t : TileSnap) (ka kb g : Nat) (r : Matrix) : Prop :=
  let b := t.ports.bank
  let ops := beatOps lead m t ka kb
  let x := beatBound ops t.bia (t.bib.getD g 0)
  let S := ruRes (fxAdd false (fx32 (m.bank b).s) x.term)
  (∀ (i : Fin 256) (j : Fin 128),
    let hi := ((m.bank b).acc[i])[j]
    let lo := ((m.bank (!b)).acc[i])[j]
    ((r.bank b).acc[i])[j] = (rne (fxAdd false (fx32 hi) (beatProduct ops i j).1)).1
    ∧ ((r.bank (!b)).acc[i])[j] = if t.wide then (macWide hi lo (beatProduct ops i j)).2.1 else lo)
  ∧ (r.bank b).s = S
  ∧ (opsBad ops = true → (r.bank b).bnd = inf32)
  ∧ (opsBad ops = false → (r.bank b).bnd = ruRes ([boundMul (.fin false 1 (if t.wide then -48 else -24)) (fx32 S), .fin false 1 (-150), boundMul (fx32 x.bia) x.bmax,
      boundMul (fx32 x.bib) x.amax, boundMul (.fin false x.np 0) (boundMul (fx32 x.bia) (fx32 x.bib))].foldl boundAdd (fx32 (m.bank b).bnd)).res)

theorem Matrix.pushed_takesBeat (lead m : Matrix) (t : TileSnap) (ka kb g : Nat) : lead.TakesBeat m t ka kb g (lead.pushed m t ka kb g) := by
  unfold Matrix.TakesBeat
  intro b ops x S
  let adds : Adds := fun i j => some (beatProduct ops i j, beatPoison ops i j)
  let a := (m.accumulate b t.wide adds).1
  obtain ⟨hs, hb⟩ := m.bnd_accumulate b t.wide adds
  have hr : lead.pushed m t ka kb g = a.bound b t.wide x (opsBad ops) := rfl
  have hbank : (lead.pushed m t ka kb g).bank b = { a.bank b with s := S, bnd := if opsBad ops then inf32 else ruRes ([boundMul (.fin false 1 (if t.wide then -48 else -24)) (fx32 S),
      .fin false 1 (-150), boundMul (fx32 x.bia) x.bmax, boundMul (fx32 x.bib) x.amax,
      boundMul (.fin false x.np 0) (boundMul (fx32 x.bia) (fx32 x.bib))].foldl boundAdd (fx32 (m.bank b).bnd)).res } := by
    rw [hr, Matrix.bound, Matrix.bank_setBank, hs, hb]
  refine ⟨fun i j => ⟨?acc, ?pair⟩, by rw [hbank], fun h => by rw [hbank, h, if_pos rfl], fun h => by rw [hbank, h, if_neg Bool.false_ne_true]⟩
  case acc =>
    rw [hr, Matrix.acc_bound, Matrix.acc_accumulate]
    exact m.cell_adds b t.wide adds i j rfl
  case pair =>
    rw [hr, Matrix.acc_bound]
    cases hw : t.wide with
    | false => rw [show a = (m.accumulate b false adds).1 by rw [← hw], Matrix.bank_accumulate_other, if_neg Bool.false_ne_true]
    | true =>
      rw [show a = (m.accumulate b true adds).1 by rw [← hw], Matrix.acc_accumulate_pair, if_pos rfl]
      exact m.cell_pair b adds i j rfl

/-- It depends on the banks of what the array becomes alone. -/
theorem Matrix.TakesBeat.of_banks {lead m r r' : Matrix} {t : TileSnap} {ka kb g : Nat} (h : lead.TakesBeat m t ka kb g r)
    (hr : ∀ b, (r'.bank b).acc = (r.bank b).acc ∧ (r'.bank b).s = (r.bank b).s ∧ (r'.bank b).bnd = (r.bank b).bnd) : lead.TakesBeat m t ka kb g r' := by
  unfold Matrix.TakesBeat at h ⊢
  obtain ⟨ha, hs, hbad, hbnd⟩ := h
  obtain ⟨ra, rs, rb⟩ := hr t.ports.bank
  exact ⟨fun i j => ⟨by rw [ra]; exact (ha i j).1, by rw [(hr _).1]; exact (ha i j).2⟩, by rw [rs]; exact hs, fun h => by rw [rb]; exact hbad h, fun h => by rw [rb]; exact hbnd h⟩

/-! ## A step on every member -/

theorem CoreId.mk'_num (c : CoreId) : CoreId.mk' c.die c.num = c := by
  apply Fin.ext
  simp only [CoreId.mk', CoreId.die, CoreId.num]
  omega
theorem CoreId.mk'_inj {d : DieId} {n k : Nat} (hn : n < 32) (hk : k < 32) (h : CoreId.mk' d n = CoreId.mk' d k) : n = k := by
  have := congrArg Fin.val h
  simp only [CoreId.mk'] at this
  omega

/-- A change of arrays, one core after another, that once made is no further change. -/
theorem State.mx_foldl_modMxOf {f : Matrix → Matrix} (hf : ∀ m, f (f m) = f m) (l : List CoreId) (s : State) (h : CoreId) :
    ((l.foldl (fun s k => s.modMxOf k f) s).core h).mx = if h ∈ l then f (s.core h).mx else (s.core h).mx := by
  induction l generalizing s with
  | nil => rfl
  | cons k l ih =>
    rw [List.foldl_cons, ih, State.mx_modMxOf]
    by_cases hk : h = k <;> by_cases hl : h ∈ l <;> simp [hk, hl, hf]
theorem State.sameBytes_modMxOf (s : State) (c : CoreId) (f : Matrix → Matrix) : sameBytes s (s.modMxOf c f) := s.sameBytes_modCore c rfl
theorem State.sameBytes_foldl_modMxOf (f : Matrix → Matrix) (l : List CoreId) (s : State) : sameBytes s (l.foldl (fun s k => s.modMxOf k f) s) :=
  List.foldlRecOn l _ (sameBytes_refl s) fun _ hb k _ => sameBytes_trans hb (State.sameBytes_modMxOf _ k f)

/-- The members of a group of at most four, with their places. -/
theorem zip_range_four {w : Nat} (hw : w ≤ 4) (f : Nat → CoreId) : ((List.range w).map f).zip (List.range 4) = (List.range w).map fun g => (f g, g) := by
  interval_cases w <;> rfl

section
variable {v : State} {c : CoreId} {t : TileSnap} {ka kb : Nat}

/-- A pair pushed on every member: each takes its beat. -/
theorem State.mx_push {g : Nat} (hw : (v.core c).mx.width ≤ 4) (hn : c.num + (v.core c).mx.width ≤ 32) (hg : g < (v.core c).mx.width) :
    ((v.push c t t.ports.bank t.wide ka kb).2.core (CoreId.mk' c.die (c.num + g))).mx = (v.core c).mx.pushed (v.core (CoreId.mk' c.die (c.num + g))).mx t ka kb g := by
  let lead := (v.core c).mx
  let id (g : Nat) := CoreId.mk' c.die (c.num + g)
  let step (a : Flags × State) (k : Nat) : Flags × State :=
    let m := (a.2.core (id k)).mx
    let ops := beatOps lead m t ka kb
    let r := m.accumulate t.ports.bank t.wide fun i j => some (beatProduct ops i j, beatPoison ops i j)
    (a.1 ||| r.2, a.2.modMxOf (id k) fun _ => r.1.bound t.ports.bank t.wide (beatBound ops t.bia (t.bib.getD k 0)) (opsBad ops))
  have hpush : v.push c t t.ports.bank t.wide ka kb = (List.range lead.width).foldl step (0, v) := by
    unfold State.push State.members
    rw [zip_range_four hw, List.foldl_map]
  have hstep (n : Nat) (hle : n ≤ (v.core c).mx.width) : (((List.range n).foldl step (0, v)).2.core (id g)).mx = if g < n then lead.pushed (v.core (id g)).mx t ka kb g else (v.core (id g)).mx := by
    induction n with
    | zero => rfl
    | succ n ih =>
      rw [List.range_succ, List.foldl_append, List.foldl_cons, List.foldl_nil, State.mx_modMxOf]
      by_cases he : id g = id n
      · have hgn : g = n := Nat.add_left_cancel (CoreId.mk'_inj (by omega) (by omega) he)
        subst hgn
        rw [if_pos rfl, ih (by omega), if_neg (Nat.lt_irrefl g), if_pos (Nat.lt_succ_self g)]
        rfl
      · have hgn : g ≠ n := fun h => he (by rw [h])
        rw [if_neg he, ih (by omega)]
        by_cases hl : g < n
        · rw [if_pos hl, if_pos (by omega)]
        · rw [if_neg hl, if_neg (by omega)]
  rw [hpush]
  exact (hstep _ (Nat.le_refl _)).trans (if_pos hg)
/-- At a tile's start the members' input bounds alone change. -/
theorem State.mx_inputBounds (s : State) (c : CoreId) (t : TileSnap) (h : CoreId) :
    ∃ x y, ((s.inputBounds c t).core h).mx = { (s.core h).mx with bia := x, bib := y } := by
  unfold State.inputBounds
  refine List.foldlRecOn (motive := fun (u : State) => ∃ x y, (u.core h).mx = { (s.core h).mx with bia := x, bib := y }) _ _ ⟨_, _, rfl⟩ fun u hu q _ => ?_
  obtain ⟨x, y, hu⟩ := hu
  rw [State.mx_modMxOf]
  split
  · exact ⟨t.bia, t.bib.getD q.2 0, by rw [hu]⟩
  · exact ⟨x, y, hu⟩
/-- They are nothing that a beat reads. -/
theorem Matrix.takesBeat_bounds {lead m r : Matrix} {x y x' y' : W32} {g : Nat} :
    ({ lead with bia := x, bib := y } : Matrix).TakesBeat { m with bia := x', bib := y' } t ka kb g r ↔ lead.TakesBeat m t ka kb g r := by
  have hops : beatOps { lead with bia := x, bib := y } { m with bia := x', bib := y' } t ka kb = beatOps lead m t ka kb := rfl
  unfold Matrix.TakesBeat
  rw [hops]
  exact Iff.rfl

end

/-! ## The end of a beat of a tile (R237, R256) -/

/-- Whether an array keeps its elements, its bounds and MPC. -/
def Matrix.Kept (m r : Matrix) : Prop := (∀ b, (r.bank b).acc = (m.bank b).acc ∧ (r.bank b).s = (m.bank b).s ∧ (r.bank b).bnd = (m.bank b).bnd) ∧ r.mpc = m.mpc
theorem Matrix.Kept.refl (m : Matrix) : m.Kept m := ⟨fun _ => ⟨rfl, rfl, rfl⟩, rfl⟩
theorem Matrix.Kept.trans {m r u : Matrix} (h : m.Kept r) (g : r.Kept u) : m.Kept u :=
  ⟨fun b => ⟨(g.1 b).1.trans (h.1 b).1, (g.1 b).2.1.trans (h.1 b).2.1, (g.1 b).2.2.trans (h.1 b).2.2⟩, g.2.trans h.2⟩
theorem Matrix.Kept.modBank (m : Matrix) (b : Bool) {f : Bank → Bank} (hf : ∀ x, (f x).acc = x.acc ∧ (f x).s = x.s ∧ (f x).bnd = x.bnd) : m.Kept (m.modBank b f) :=
  ⟨fun c => ⟨Matrix.bank_modBank_part Bank.acc (fun x => (hf x).1) m b c, Matrix.bank_modBank_part Bank.s (fun x => (hf x).2.1) m b c, Matrix.bank_modBank_part Bank.bnd (fun x => (hf x).2.2) m b c⟩,
    by cases b <;> rfl⟩

theorem Matrix.Kept.queue (m : Matrix) (q : List SeqOp) : m.Kept { m with queue := q } := ⟨fun b => by cases b <;> exact ⟨rfl, rfl, rfl⟩, rfl⟩
theorem Matrix.Kept.pendNv (m : Matrix) (x : Bool) : m.Kept { m with pendNv := x } := ⟨fun b => by cases b <;> exact ⟨rfl, rfl, rfl⟩, rfl⟩

/-- Whether every array is kept. -/
def State.MxKept (s u : State) : Prop := ∀ h, (s.core h).mx.Kept (u.core h).mx
theorem State.MxKept.refl (s : State) : s.MxKept s := fun _ => .refl _
theorem State.MxKept.trans {s u v : State} (h : s.MxKept u) (g : u.MxKept v) : s.MxKept v := fun k => (h k).trans (g k)
theorem State.MxKept.modMxOf (s : State) (c : CoreId) {f : Matrix → Matrix} (hf : ∀ m : Matrix, m.Kept (f m)) : s.MxKept (s.modMxOf c f) := by
  intro h
  rw [State.mx_modMxOf]
  split
  · exact hf _
  · exact .refl _
theorem State.MxKept.seqFlags (s : State) (c : CoreId) (f : Flags) : s.MxKept (s.seqFlags c f) := by
  have ha : s.MxKept (s.addFlags c f) := by
    intro h
    by_cases hc : h = c
    · rw [hc, State.addFlags, State.modPipeOf, State.core_modCore_self]
      exact .refl _
    · rw [State.addFlags, State.modPipeOf, State.core_modCore_ne s _ hc]
      exact .refl _
  unfold State.seqFlags
  dsimp only
  split
  · exact ha.trans (.modMxOf _ _ fun m => .pendNv m true)
  · exact ha
/-- A tile that is not re-checked completes with every array kept. -/
theorem State.MxKept.tileDone (s : State) (c : CoreId) (i : Nat) {t : TileSnap} (ht : t.due = false) (mpc : W32) (f : Flags) : s.MxKept (s.tileDone c i t mpc f) := by
  unfold State.tileDone
  simp only [ht, Bool.false_eq_true, if_false]
  refine (State.MxKept.trans ?_ (State.MxKept.modMxOf _ c fun m => .queue m (m.queue.eraseIdx i))).trans (.seqFlags _ c f)
  refine List.foldlRecOn _ _ (.refl s) fun u hu k _ => hu.trans (.modMxOf u k fun m => .modBank m _ fun x => ?_)
  split <;> exact ⟨rfl, rfl, rfl⟩

/-! ## One beat of a tile (R237, R242) -/

section
variable {s : State} {c : CoreId} {t : TileSnap} (ht : t.due = false)
include ht

/-- What a beat that has run leaves beside MPC: every array kept. -/
theorem State.stepTile_ran {q n : Nat} {m0 mpc : W32} {f f' : Flags} {w : State}
    (hb : (if n = 0 then s.inputBounds c t else s).tileBeat c t t.wide n (s.core c).mx.mpc = .ran mpc f' w) :
    (w.modMxOf c fun m => { m with mpc := mpc }).MxKept (s.stepTile c q t n m0 f) := by
  unfold State.stepTile
  simp only [hb]
  split
  · exact .tileDone _ c q ht _ _
  · exact .modMxOf _ c fun m => .queue m _
/-- A tile whose stream ends leaves every array kept beside MPC. -/
theorem State.stepTile_ended {q n : Nat} {m0 mpc : W32} {f : Flags} {w : State}
    (hb : (if n = 0 then s.inputBounds c t else s).tileBeat c t t.wide n (s.core c).mx.mpc = .ended mpc w) :
    (w.modMxOf c fun m => { m with mpc := mpc }).MxKept (s.stepTile c q t n m0 f) := by
  unfold State.stepTile
  simp only [hb]
  exact .tileDone _ c q ht _ _

omit ht in
/-- After a pair pushed from `v` and a new MPC, whatever keeps the arrays leaves each member its beat and core `c` that MPC. -/
theorem State.push_takesBeat {v u : State} {ka n : Nat} {mpc : W32}
    (hu : ((v.push c t t.ports.bank t.wide ka n).2.modMxOf c fun m => { m with mpc := mpc }).MxKept u) :
    ((v.core c).mx.width ≤ 4 → c.num + (v.core c).mx.width ≤ 32 → ∀ g, g < (v.core c).mx.width →
      (v.core c).mx.TakesBeat (v.core (CoreId.mk' c.die (c.num + g))).mx t ka n g (u.core (CoreId.mk' c.die (c.num + g))).mx) ∧ (u.core c).mx.mpc = mpc := by
  refine ⟨fun hw hn g hg => ?_, ?_⟩
  · refine ((v.core c).mx.pushed_takesBeat _ t ka n g).of_banks fun b => ?_
    obtain ⟨ha, hs, hb⟩ := (hu (CoreId.mk' c.die (c.num + g))).1 b
    rw [State.mx_modMxOf, State.mx_push hw hn hg] at ha hs hb
    split at ha
    · rw [if_pos ‹_›] at hs hb
      exact ⟨ha, hs, hb⟩
    · rw [if_neg ‹_›] at hs hb
      exact ⟨ha, hs, hb⟩
  · rw [(hu c).2, State.mx_modMxOf, if_pos rfl]

end

/-! ## Beat mode (R241) -/

/-- What a beat leaves in the array: the elements and the count of what it made. -/
theorem State.mx_beatDone (s : State) (m : Matrix) (b wide acc : Bool) (f : Flags) :
    (∀ c, ((s.beatDone m b wide acc f).me.mx.bank c).acc = (m.bank c).acc) ∧ (s.beatDone m b wide acc f).me.mx.beat = m.beat
      ∧ (s.beatDone m b wide acc f).pipe.disp = .issued ∧ sameBytes s (s.beatDone m b wide acc f) := by
  let m1 := if acc then (m.accumulates b wide).modBank b fun x => { x with nonrep := true } else m
  let m2 := if s.pipe.sys.fve && f &&& fNV != 0 then { m1 with pendNv := true } else m1
  have h1 : (∀ c, (m1.bank c).acc = (m.bank c).acc) ∧ m1.beat = m.beat := by
    unfold m1
    cases acc with
    | false => exact ⟨fun _ => rfl, rfl⟩
    | true =>
      refine ⟨fun c => ?_, ?_⟩
      · rw [if_pos rfl]
        exact (Matrix.bank_modBank_part Bank.acc (f := fun x => { x with nonrep := true }) (fun _ => rfl) _ b c).trans (m.acc_accumulates b wide c)
      · cases wide <;> cases b <;> rfl
  have h2 : (∀ c, (m2.bank c).acc = (m1.bank c).acc) ∧ m2.beat = m1.beat := by
    unfold m2
    split <;> exact ⟨fun _ => rfl, rfl⟩
  have he : s.beatDone m b wide acc f = ((s.modMx fun _ => m2).modPipe fun p => { p with sys := { p.sys with fpstat := p.sys.fpstat ||| f } }).issued := rfl
  have hmx : (s.beatDone m b wide acc f).me.mx = m2 := by
    rw [he, State.issued, State.setDisp, State.me_modPipe, State.me_modPipe, State.modMx, State.me_modMe]
  refine ⟨fun c => by rw [hmx, h2.1, h1.1], by rw [hmx, h2.2, h1.2], ?_, ?_⟩
  · rw [he, State.issued, State.setDisp, State.pipe, State.me_modPipe]
  · rw [he]
    exact sameBytes_trans (sameBytes_trans (s.sameBytes_modCore s.cur (f := fun k => { k with mx := m2 }) rfl) (State.sameBytes_modPipe _ _)) (State.sameBytes_modPipe _ _)

/-- A pair that reaches an element is still among those that travel. -/
theorem find?_reaching (l : List BeatPair) (n : Nat) (i : Fin 256) (j : Fin 128) :
    (l.filter fun p => n ≤ p.t + 382).find? (fun p => p.t + i.val + j.val = n) = l.find? fun p => p.t + i.val + j.val = n := by
  rw [List.find?_filter]
  congr 1
  funext p
  rw [Bool.eq_iff_iff]
  simp only [decide_eq_true_eq, and_iff_right_iff_imp]
  omega

/-- R241: a shifting beat in normal mode brings every element the pair that reaches it. -/
theorem State.shiftBeat_brings {s : State} {t : TileSnap} (hw : t.wide = false) (hf : s.me.mx.forbids t.ports.bank false = false) (acc : Bool) (ops : List (ACol × BRow)) :
    let b := t.ports.bank
    let m := s.me.mx
    let u := s.shiftBeat t acc ops
    u.me.mx.beat = m.beat + 1 ∧ u.pipe.disp = .issued ∧ sameBytes s u
    ∧ ∀ (i : Fin 256) (j : Fin 128), ((u.me.mx.bank b).acc[i])[j] =
        (match (m.pairs ++ [(⟨m.beat + 1, acc, ops, beatBound ops t.bia (t.bib.getD 0 0)⟩ : BeatPair)]).find? fun (p : BeatPair) => p.t + i.val + j.val = m.beat + 1 with
        | some p => if p.acc then (macNormal ((m.bank b).acc[i])[j] (beatProduct p.ops i j)).1 else ((m.bank b).acc[i])[j]
        | none => ((m.bank b).acc[i])[j]) := by
  intro b m u
  let x := beatBound ops t.bia (t.bib.getD 0 0)
  let m1 : Matrix := { m with beat := m.beat + 1, pairs := (m.pairs ++ [({ t := m.beat + 1, acc := acc, ops := ops, b := x } : BeatPair)]).filter fun p => m.beat + 1 ≤ p.t + 382 }
  let r := m1.accumulate b false m1.arriving
  let m2 := if acc then r.1.bound b false x (opsBad ops) else r.1
  have hu : u = s.beatDone m2 b false (m.shiftAccumulates acc) r.2 := by
    unfold u State.shiftBeat
    rw [hw]
    dsimp only
    rw [hf, Bool.and_false, if_neg Bool.false_ne_true]
    rfl
  obtain ⟨hacc, hbeat, hdisp, hbytes⟩ := s.mx_beatDone m2 b false (m.shiftAccumulates acc) r.2
  have hm2 : (m2.bank b).acc = (r.1.bank b).acc ∧ m2.beat = m.beat + 1 := by
    unfold m2
    cases acc with
    | false => exact ⟨rfl, by unfold r; cases b <;> rfl⟩
    | true => exact ⟨Matrix.acc_bound _ _ _ _ _ _, by unfold r; cases b <;> rfl⟩
  rw [hu]
  refine ⟨hbeat.trans hm2.2, hdisp, hbytes, fun i j => ?_⟩
  rw [hacc, hm2.1, Matrix.acc_accumulate]
  have hheld : m1.held i j = (m.pairs ++ [(⟨m.beat + 1, acc, ops, x⟩ : BeatPair)]).find? fun (p : BeatPair) => p.t + i.val + j.val = m.beat + 1 := find?_reaching _ _ i j
  rw [← hheld]
  cases hp : m1.held i j with
  | none => exact Matrix.cell_rests _ _ _ _ _ _ (by rw [Matrix.arriving, hp])
  | some p =>
    by_cases ha : p.acc = true
    · exact (Matrix.cell_adds _ _ _ _ _ _ (show m1.arriving i j = some (beatProduct p.ops i j, beatPoison p.ops i j) by simp only [Matrix.arriving, hp, ha, if_true])).trans
        (by dsimp only; rw [if_pos ha]; rfl)
    · exact (Matrix.cell_rests _ _ _ _ _ _ (by simp only [Matrix.arriving, hp, if_neg ha])).trans (by dsimp only; rw [if_neg ha]; rfl)

/-! ## Groups (R253) -/

/-- The forming of a group keeps every byte. -/
theorem State.sameBytes_formGroup (s : State) (c : CoreId) : sameBytes s (s.formGroup c) := by
  unfold State.formGroup
  dsimp only
  split
  · exact s.sameBytes_foldl_modMxOf _ _
  · exact sameBytes_trans (sameBytes_trans (s.sameBytes_foldl_modMxOf _ _) (State.sameBytes_foldl_modMxOf _ _ _)) (State.sameBytes_modMxOf _ _ _)
/-- A group that dissolves: its members stand alone, with their banks. -/
theorem State.formGroup_dissolves {s : State} {c : CoreId} (hn : (s.core c).mx.ports.mgrp.toNat = 1) (h : CoreId) :
    ((s.formGroup c).core h).mx = if h ∈ s.members c then { (s.core h).mx with leader := none, width := 1 } else (s.core h).mx := by
  unfold State.formGroup
  dsimp only
  rw [if_pos hn, State.mx_foldl_modMxOf (f := fun x => { x with leader := none, width := 1 }) fun _ => rfl]
/-- A group that forms under core `c`: its members take the leader and its bank states. -/
theorem State.formGroup_forms {s : State} {c : CoreId} (hn : (s.core c).mx.ports.mgrp.toNat ≠ 1) {h : CoreId} (hh : h ∈ groupOf c (s.core c).mx.ports.mgrp.toNat) :
    ((s.formGroup c).core h).mx.leader = some c ∧ ((s.formGroup c).core h).mx.bank0 = { (s.core h).mx.bank0 with st := (s.core c).mx.bank0.st }
      ∧ ((s.formGroup c).core h).mx.bank1 = { (s.core h).mx.bank1 with st := (s.core c).mx.bank1.st } := by
  unfold State.formGroup
  dsimp only
  let lead := (s.core c).mx
  rw [if_neg hn, State.mx_modMxOf, State.mx_foldl_modMxOf (f := fun x =>
      { x with leader := some c, width := 1, bank0 := { x.bank0 with st := lead.bank0.st }, bank1 := { x.bank1 with st := lead.bank1.st } }) fun _ => rfl, if_pos hh,
    State.mx_foldl_modMxOf (f := fun x => { x with leader := none, width := 1 }) fun _ => rfl]
  split <;> split <;> exact ⟨rfl, rfl, rfl⟩
theorem State.formGroup_width {s : State} {c : CoreId} (hn : (s.core c).mx.ports.mgrp.toNat ≠ 1) : ((s.formGroup c).core c).mx.width = (s.core c).mx.ports.mgrp.toNat := by
  unfold State.formGroup
  dsimp only
  rw [if_neg hn, State.mx_modMxOf, if_pos rfl]

/-! ## Claims, releases and beats (R235, R241) -/

/-- A number whose bit 0 is 0 is not odd. -/
theorem mod_two_of_bit_zero {n : BitVec 5} (hn : n.getLsbD 0 = false) : n.toNat % 2 ≠ 1 := by
  rw [BitVec.getLsbD, Nat.testBit_zero, decide_eq_false_iff_not] at hn
  exact hn

section
variable {s : State} {g : BitVec 4} {e : Bool} {f : BitVec 10} {v : Val} (h : s.ready .m g e f v = true)
include h

/-- MREL of a slot, or of a pair that starts at an even one. -/
theorem execMrel_releases (hn : v.toS.val.getLsbD 5 = false ∨ (v.toS.val.extractLsb' 0 5).getLsbD 0 = false) :
    let n := (v.toS.val.extractLsb' 0 5).toNat
    let l := if v.toS.val.getLsbD 5 || (s.me.mx.slot n).apair then [n / 2 * 2, n / 2 * 2 + 1] else [n]
    execMrel g e f s = .next (s.modMembers s.cur fun m => m.release l).issued := by
  intro n l
  have ho : (v.toS.val.getLsbD 5 && (v.toS.val.extractLsb' 0 5).toNat % 2 = 1) = false := by
    obtain hn | hn := hn
    · rw [hn, Bool.false_and]
    · rw [decide_eq_false (mod_two_of_bit_zero hn), Bool.and_false]
  rw [execMrel, matrixOp_ready h]
  simp only [ho, Bool.false_eq_true, if_false]
  rfl

variable (hq : s.me.mx.queue = []) (hw : s.me.mx.width = 1) (h2 : s.me.mx.ports.mgrp ≠ 2) (h4 : s.me.mx.ports.mgrp ≠ 4)
include hq hw h2 h4

/-- A beat of a matrix that stands alone and idle runs. -/
theorem beatOp_runs (act : SVal → State → State) : matrixOp g e f (fun v s => s.beatLegal fun s => act v s) s = .next (act v.toS s) := by
  rw [matrixOp_ready h, State.beatLegal, if_neg]
  simp only [hq, hw, decide_eq_false h2, decide_eq_false h4, List.isEmpty_nil, Bool.not_true, ne_eq, not_true, decide_false, Bool.or_self, Bool.false_eq_true, not_false_iff]
/-- A pushing beat that passes its checks pushes line `k` of both operands. -/
theorem pushBeat_pushes (acc : Bool) (hc : s.tileCheck (s.snapshot false) = none) (hsp : (s.snapshot false).ports.sp = false)
    (hk : (v.toS.val.extractLsb' 0 9).toNat < (wclass (s.snapshot false).ports.atyp (s.snapshot false).fa).beats) :
    pushBeat acc g e f s = .next (s.shiftBeat (s.snapshot false) acc
      (beatOps s.me.mx s.me.mx (s.snapshot false) (v.toS.val.extractLsb' 0 9).toNat (v.toS.val.extractLsb' 0 9).toNat)) := by
  rw [pushBeat, beatOp_runs h hq hw h2 h4]
  simp only [hc, hsp, Bool.not_false, if_true, if_neg (Nat.not_le.2 hk)]
/-- MB.A of a bank that may accumulate. -/
theorem execMbA_adds (hf : s.me.mx.forbids (s.snapshot false).ports.bank (s.snapshot false).wide = false) :
    let t := s.snapshot false
    let m := s.me.mx
    let r := m.accumulate t.ports.bank t.wide m.heldProducts
    execMbA g e f s = .next (s.beatDone (r.1.bound t.ports.bank t.wide m.travelling.1 m.travelling.2) t.ports.bank t.wide true r.2) := by
  intro t m r
  rw [execMbA, beatOp_runs h hq hw h2 h4]
  simp only [hf, Bool.false_eq_true, if_false]
  rfl
/-- MB.D of a row whose locations are found and whose banks and tracker are ready. -/
theorem execMbD_writes {y : TMap} {s1 s2 : State} {locs : List (Nat × Loc)} (hv : v.toS.poi = false) (hx : s.pipe.units.m.x.poi = false)
    (hlo : (s.me.mx.bank (v.toS.val.getLsbD 8)).st ≠ .lo) (hm : s.readsMap s.me.mx.ports.mdtm y s1) (hbad : drainMapBad .st 0 y 0 [] = false)
    (hl : s1.drainLocs s1.cur 4 (if (v.toS.val.extractLsb' 0 8).toNat < y.drainRows then y.drainRow s.pipe.units.m.x.val 1 (v.toS.val.extractLsb' 0 8).toNat else []) = (.ok locs, s2))
    (hr : s2.writesReady s2.cur (locs.map (·.2)) 4 = true) :
    let b := v.toS.val.getLsbD 8
    execMbD g e f s = .next (locs.foldl (fun u q =>
      let z := s2.me.mx.value b ((s2.me.mx.bank b).st == .hi) (rowIx (v.toS.val.extractLsb' 0 8).toNat) (memberCol q.1).2
      u.storeClass0 u.cur q.2 (bytesOfNat 4 z.1.toNat) z.2) s2).issued := by
  intro b
  have hlo' : ((s.me.mx.bank b).st == .lo) = false := by
    rw [BankSt.beq_eq]
    exact decide_eq_false hlo
  rw [execMbD, beatOp_runs h hq hw h2 h4]
  dsimp only
  rw [hv, hx, Bool.or_false, State.needClean_clean, hlo', if_neg Bool.false_ne_true, State.readMap_reads hm, hbad, if_neg Bool.false_ne_true, hl]
  dsimp only
  rw [hr, Bool.not_true, if_neg Bool.false_ne_true]

end

/-- Settles O49, from what a beat makes of each element, a pair pushed on each member, and a change made of each core of a group. -/
theorem matrixClaimBeatResults : Obligations.MatrixClaimBeatResults := by
  refine ⟨fun s g e f v h => ?claims, fun s t acc ops hw hf => ?beats⟩
  case' beats =>
    obtain ⟨hbeat, hdisp, hbytes, hacc⟩ := State.shiftBeat_brings hw hf acc ops
    refine ⟨hbeat, hdisp, hbytes, fun i j => ⟨hacc i j, fun s c q t n m0 f ht => ?tile, fun s c => ?group⟩⟩
    clear hbeat hdisp hbytes hacc hw hf
  case claims =>
    intro w n m taken take
    refine ⟨fun hd hb => ⟨?_, ?_⟩, fun hd hn => ?_, fun hd => ?_, execMrel_releases h, fun hq hw h2 h4 => ⟨fun hc hsp hk => ⟨?_, ?_⟩, ?_, fun hf => ?_, fun y s1 s2 locs hv hx hlo hm hbad hl hr => ?_⟩⟩
    · show execMclaimB g e f s = _
      rw [execMclaimB, matrixOp_ready h, State.needD_none hb hd]
    · show execMclaimA g e f s = _
      rw [execMclaimA, matrixOp_ready h]
      dsimp only
      split
      · rfl
      · rw [State.needD_none hb hd]
    · show execMclaimA g e f s = _
      rw [execMclaimA, matrixOp_ready h]
      dsimp only
      rw [show (v.toS.val.extractLsb' 0 5).getLsbD 0 = false from hn, if_neg Bool.false_ne_true, State.needD_named hd, State.claim]
      exact apply_ite _ _ _ _
    · show execMclaimB g e f s = _
      rw [execMclaimB, matrixOp_ready h, State.needD_named hd, State.claim]
      exact apply_ite _ _ _ _
    · exact pushBeat_pushes h hq hw h2 h4 true hc hsp hk
    · exact pushBeat_pushes h hq hw h2 h4 false hc hsp hk
    · show execMbS g e f s = _
      rw [execMbS, beatOp_runs h hq hw h2 h4]
    · exact execMbA_adds h hq hw h2 h4 hf
    · exact execMbD_writes h hq hw h2 h4 hv hx hlo hm hbad hl hr
  case tile =>
    intro b k u pushed
    let s1 := if n = 0 then s.inputBounds c t else s
    refine ⟨fun hsp => ?normal, fun hsp w a v hmeta => ⟨fun hv hbad => ?sparse, fun hv => ?ends⟩⟩
    case normal =>
      have hrun : s1.tileBeat c t t.wide n (s.core c).mx.mpc = .ran (s.core c).mx.mpc (s1.push c t b t.wide n n).1 (s1.push c t b t.wide n n).2 := by
        rw [State.tileBeat, hsp]
        rfl
      obtain ⟨hbeat, hmpc⟩ := State.push_takesBeat (State.stepTile_ran (q := q) (m0 := m0) (f := f) ht hrun)
      have hs1 (h : CoreId) : ∃ x y, (s1.core h).mx = { (s.core h).mx with bia := x, bib := y } := by
        unfold s1
        split
        · exact s.mx_inputBounds c t h
        · exact ⟨_, _, rfl⟩
      refine ⟨fun hw hn g hg => ?_, hmpc⟩
      obtain ⟨x, y, hlead⟩ := hs1 c
      obtain ⟨x', y', hm⟩ := hs1 (CoreId.mk' c.die (c.num + g))
      have hwidth : (s1.core c).mx.width = (s.core c).mx.width := by rw [hlead]
      have htakes := hbeat (by rwa [hwidth]) (by rwa [hwidth]) g (by rwa [hwidth])
      rw [hlead, hm] at htakes
      exact Matrix.takesBeat_bounds.1 htakes
    case sparse =>
      have hrun : s1.tileBeat c t t.wide n (s.core c).mx.mpc = .ran ((s.core c).mx.mpc + 1) (v.push c t b t.wide (w.extractLsb' 15 8).toNat n).1 (v.push c t b t.wide (w.extractLsb' 15 8).toNat n).2 := by
        rw [State.tileBeat, hsp, if_neg (by decide), show s1.metaWord c (s.core c).mx.mpc = _ from hmeta]
        dsimp only
        rw [if_neg (by decide), hv, if_neg (by decide), hbad, if_neg (by decide)]
      exact State.push_takesBeat (State.stepTile_ran (q := q) (m0 := m0) (f := f) ht hrun)
    case ends =>
      have hend : s1.tileBeat c t t.wide n (s.core c).mx.mpc = .ended ((s.core c).mx.mpc + 1) v := by
        rw [State.tileBeat, hsp, if_neg (by decide), show s1.metaWord c (s.core c).mx.mpc = _ from hmeta]
        dsimp only
        rw [if_neg (by decide), hv, if_pos (by decide)]
      have hk := State.stepTile_ended (q := q) (m0 := m0) (f := f) ht hend
      refine ⟨by rw [(hk c).2, State.mx_modMxOf, if_pos rfl], fun h => ?_⟩
      have hb (b : Bool) : ((u.core h).mx.bank b).acc = ((v.core h).mx.bank b).acc := by
        rw [((hk h).1 b).1, State.mx_modMxOf]
        split
        · cases b <;> rfl
        · rfl
      exact ⟨hb false, hb true⟩
  case group =>
    intro lead n u
    refine ⟨fun hn _ => ?_, fun hn => ⟨fun h hh => ?_, fun h => ?_⟩, s.sameBytes_formGroup c⟩
    · have hn1 : (s.core c).mx.ports.mgrp.toNat ≠ 1 := by
        obtain hn | hn := hn <;> exact fun h1 => absurd (hn.symm.trans h1) (by decide)
      exact ⟨State.formGroup_width hn1, fun g hg => State.formGroup_forms hn1 (List.mem_map.2 ⟨g, List.mem_range.2 hg, rfl⟩)⟩
    · unfold u
      rw [State.formGroup_dissolves hn, if_pos hh]
      exact ⟨rfl, rfl⟩
    · unfold u
      rw [State.formGroup_dissolves hn]
      split <;> exact ⟨rfl, rfl⟩

end Sys2Proof.Machine
end

section
/-! PROOFS. The scheduler's steps. -/
namespace Sys2Proof.Machine

/-- A placed bulk job that has spent its deficit and whose rounds are of `w` cycles. -/
def spentJob (w : Nat) : Job :=
  { num := 1, ctx := 1, lr := Launch.ofBytes [], lr2 := { Launch2.ofBytes [] with quant := 1, weight := w }, st := .placed, deficit := 0, dies := [0], first := 0, placedAt := 0,
    resumed := false, cards := [], forks := Vector.replicate 8 0, arrived := 0, lt := 0 }
/-- Two of them that bear one number, with rounds of 1 and of 2 cycles. -/
def twinJobs : State := { State.reset with phase := .running, fw := { State.reset.fw with jobs := [spentJob 1, spentJob 2] } }

/-- The first of the two gives the round that both begin. -/
theorem twinJobs_round : exec (.quantumExpiry 1) twinJobs = .next (twinJobs.modJob 1 fun j => { j with deficit := j.deficit + (1 : Int) }) := by
  have hj : twinJobs.job 1 = some (spentJob 1) := by rfl
  have hw : twinJobs.bulkWaitsFor 1 = false := by decide +kernel
  have hp : twinJobs.phase = .running := by rfl
  show execQuantumExpiry 1 twinJobs = _
  rw [execQuantumExpiry, hj]
  dsimp only
  rw [hw]
  rfl

/-- Refutes O58: nothing in it keeps two jobs from bearing one number, as the two of `twinJobs` do. A new round is that of the job which the number finds, here of
1 cycle, and it is given to both; the statement gives the second its own, of 2 cycles. -/
theorem not_schedulerStepResults : ¬ Obligations.SchedulerStepResults := by
  intro h
  obtain ⟨-, hplaced, -⟩ := h.1 twinJobs 1 (spentJob 1) (by rfl) (by rfl)
  obtain ⟨-, hround, -⟩ := hplaced (by rfl)
  have hown := (hround (by rfl) (by decide)).symm.trans twinJobs_round
  rw [Host.Outcome.next.injEq, if_neg (by decide +kernel)] at hown
  have hdef := congrArg (fun s : State => (s.fw.jobs.map (·.deficit))) hown
  exact absurd hdef (by decide +kernel)

end Sys2Proof.Machine
end

section

/-! # Firmware's stores read no ingest queue

INGEST.CFG (R272) zeroes its window and the head of its ring, which settles switches, collapses replicas and posts events. None of these steps reads the table of ingest queues:
each commutes with a change of it. -/

namespace Sys2Proof.Machine

/-- The state with another table of ingest queues. -/
def State.withIngest (v : Vector (Option Ingest) 16) (s : State) : State := { s with t := { s.t with ingest := v } }

section
variable (v : Vector (Option Ingest) 16) (s : State)

theorem ite_hom {α β : Type} (f : α → β) {c : Prop} [Decidable c] {a b : α} {a' b' : β} (ha : a' = f a) (hb : b' = f b) : (if c then a' else b') = f (if c then a else b) := by
  split
  · exact ha
  · exact hb
theorem withIngest_ite {c : Prop} [Decidable c] {a b a' b' : State} (ha : a' = a.withIngest v) (hb : b' = b.withIngest v) :
    (if c then a' else b') = (if c then a else b).withIngest v := ite_hom (State.withIngest v) ha hb

theorem withIngest_foldl {α : Type} {f' f : State → α → State} (h : ∀ s x, f' (s.withIngest v) x = (f s x).withIngest v) (l : List α) (s : State) :
    l.foldl f' (s.withIngest v) = (l.foldl f s).withIngest v :=
  List.foldl_hom (State.withIngest v) h

theorem withIngest_dirty {t' t : State} (l : Nat) (h : t' = t.withIngest v) :
    ({ t' with m := { t'.m with dirty := t'.m.dirty ++ [l] } } : State) = ({ t with m := { t.m with dirty := t.m.dirty ++ [l] } } : State).withIngest v := by
  subst h
  rfl

@[simp] theorem State.m_withIngest : (s.withIngest v).m = s.m := rfl
@[simp] theorem State.fw_withIngest : (s.withIngest v).fw = s.fw := rfl
@[simp] theorem State.cores_withIngest : (s.withIngest v).cores = s.cores := rfl
@[simp] theorem State.dcyc_withIngest : (s.withIngest v).t.dcyc = s.t.dcyc := rfl
@[simp] theorem State.core_withIngest (c : CoreId) : (s.withIngest v).core c = s.core c := rfl
@[simp] theorem State.die_withIngest (d : DieId) : (s.withIngest v).die d = s.die d := rfl
@[simp] theorem State.normPa_withIngest (a : Nat) : (s.withIngest v).normPa a = s.normPa a := rfl
@[simp] theorem State.homeDie_withIngest (a : Nat) : (s.withIngest v).homeDie a = s.homeDie a := rfl
@[simp] theorem State.locDie_withIngest (l : Loc) : (s.withIngest v).locDie l = s.locDie l := by cases l <;> rfl
@[simp] theorem State.times_withIngest (l : Loc) : (s.withIngest v).times l = s.times l := by rw [State.times, State.times, State.locDie_withIngest]; rfl
@[simp] theorem State.homeUp_withIngest (l : Loc) : (s.withIngest v).homeUp l = s.homeUp l := by rw [State.homeUp, State.homeUp, State.locDie_withIngest]; rfl
@[simp] theorem State.homeBytes_withIngest (l : Loc) (n : Nat) : (s.withIngest v).homeBytes l n = s.homeBytes l n := by cases l <;> rfl
@[simp] theorem State.filter_withIngest (l : Loc) (w : Bool) : (s.withIngest v).filter l w = s.filter l w := by cases l <;> rfl
@[simp] theorem State.ctx_withIngest (i : BitVec 16) : (s.withIngest v).ctx i = s.ctx i := rfl
@[simp] theorem State.replicaAt_withIngest (a : Nat) : (s.withIngest v).replicaAt a = s.replicaAt a := rfl
@[simp] theorem State.dieLive_withIngest (d : DieId) : (s.withIngest v).dieLive d = s.dieLive d := rfl
@[simp] theorem State.banksReady_withIngest (h : CoreId) (o n : Nat) : (s.withIngest v).banksReady h o n = s.banksReady h o n := rfl
@[simp] theorem State.lineDurable_withIngest (l : Nat) : (s.withIngest v).lineDurable l = s.lineDurable l := rfl
@[simp] theorem State.writesReady_withIngest (c : CoreId) (ls : List Loc) (n : Nat) : (s.withIngest v).writesReady c ls n = s.writesReady c ls n := rfl
@[simp] theorem State.reqReady_withIngest (c : CoreId) (r : Req) (l : Loc) : (s.withIngest v).reqReady c r l = s.reqReady c r l := by cases l <;> rfl
@[simp] theorem State.granuleOf_withIngest (a : Nat) : (s.withIngest v).granuleOf a = s.granuleOf a := rfl
theorem State.entryMeans_withIngest (a l : Nat) (e : W64) (b : Bool) : (s.withIngest v).entryMeans a l e b = s.entryMeans a l e b := rfl
theorem State.walkFrom_withIngest (va f r l : Nat) : (s.withIngest v).walkFrom va f r l = s.walkFrom va f r l := by
  induction f generalizing r l with
  | zero => rfl
  | succ f ih => simp only [State.walkFrom, State.normPa_withIngest, State.m_withIngest, State.entryMeans_withIngest, ih]
@[simp] theorem State.walk_withIngest (r a : Nat) : (s.withIngest v).walk r a = s.walk r a := State.walkFrom_withIngest v s a 4 r 0
@[simp] theorem State.mayCollapse_withIngest (i : BitVec 16) (va z : Nat) : (s.withIngest v).mayCollapse i va z = s.mayCollapse i va z := rfl
@[simp] theorem State.syncGet_withIngest (c : CoreId) (o : Nat) : (s.withIngest v).syncGet c o = s.syncGet c o := rfl
@[simp] theorem State.lowLine_withIngest : (s.withIngest v).lowLine = s.lowLine := rfl
@[simp] theorem State.sliceUse_withIngest (d : DieId) (n : Nat) : (s.withIngest v).sliceUse d n = s.sliceUse d n := rfl

/-! ## Steps of one place -/

section
variable {s}

@[simp] theorem State.modDie_withIngest (d : DieId) (f : Die → Die) : (s.withIngest v).modDie d f = (s.modDie d f).withIngest v := rfl
@[simp] theorem State.modDies_withIngest (f : Die → Die) : (s.withIngest v).modDies f = (s.modDies f).withIngest v := rfl
@[simp] theorem State.setCore_withIngest (c : CoreId) (k : Core) : (s.withIngest v).setCore c k = (s.setCore c k).withIngest v := rfl
@[simp] theorem State.modCore_withIngest (c : CoreId) (f : Core → Core) : (s.withIngest v).modCore c f = (s.modCore c f).withIngest v := rfl
@[simp] theorem State.modPipeOf_withIngest (c : CoreId) (f : Pipe → Pipe) : (s.withIngest v).modPipeOf c f = (s.modPipeOf c f).withIngest v := rfl
@[simp] theorem State.modCtx_withIngest (i : BitVec 16) (f : Ctx → Ctx) : (s.withIngest v).modCtx i f = (s.modCtx i f).withIngest v := rfl
@[simp] theorem State.setLt_withIngest (c : CoreId) (lt : Vector Nat 4) : (s.withIngest v).setLt c lt = (s.setLt c lt).withIngest v := rfl
@[simp] theorem State.setTimes_withIngest (l : Loc) (t : Times) : (s.withIngest v).setTimes l t = (s.setTimes l t).withIngest v := rfl
@[simp] theorem State.dropReq_withIngest (c : CoreId) (q : Nat) : (s.withIngest v).dropReq c q = (s.dropReq c q).withIngest v := rfl
@[simp] theorem State.wakeBanks_withIngest (h : CoreId) (o n : Nat) : (s.withIngest v).wakeBanks h o n = (s.wakeBanks h o n).withIngest v := rfl
@[simp] theorem State.trackersClean_withIngest : (s.withIngest v).trackersClean = s.trackersClean.withIngest v := rfl
@[simp] theorem State.dropCopies_withIngest (a n : Nat) : (s.withIngest v).dropCopies a n = (s.dropCopies a n).withIngest v := rfl
@[simp] theorem State.writeEntry_withIngest (a : Nat) (e : W64) : (s.withIngest v).writeEntry a e = (s.writeEntry a e).withIngest v := rfl
@[simp] theorem State.writeLeaf_withIngest (a z : Nat) (e : W64) : (s.withIngest v).writeLeaf a z e = (s.writeLeaf a z e).withIngest v := rfl
@[simp] theorem State.granuleDone_withIngest (g : Granule) : (s.withIngest v).granuleDone g = (s.granuleDone g).withIngest v := rfl
@[simp] theorem State.copyLine_withIngest (a b : Nat) : (s.withIngest v).copyLine a b = (s.copyLine a b).withIngest v := rfl
@[simp] theorem State.duskGranule_withIngest (a : Nat) (bs : List Byte) : (s.withIngest v).duskGranule a bs = (s.duskGranule a bs).withIngest v := rfl
@[simp] theorem State.zeroRange_withIngest (a n : Nat) : (s.withIngest v).zeroRange a n = (s.zeroRange a n).withIngest v := rfl
@[simp] theorem State.drawFree_withIngest : (s.withIngest v).drawFree = (s.drawFree.1, s.drawFree.2.withIngest v) := rfl
@[simp] theorem State.applyLog_withIngest (c : CoreId) (b : Bool) : (s.withIngest v).applyLog c b = (s.applyLog c b).withIngest v := rfl
@[simp] theorem State.homeWrite_withIngest (l : Loc) (bs : List Byte) (b : Bool) : (s.withIngest v).homeWrite l bs b = (s.homeWrite l bs b).withIngest v := by cases l <;> rfl
@[simp] theorem State.track_withIngest (c : CoreId) (l : Loc) : (s.withIngest v).track c l = (s.track c l).withIngest v := by
  cases l with
  | pa a => exact withIngest_ite v rfl rfl
  | sp c o => rfl
@[simp] theorem State.heat_withIngest (d : DieId) (a : Nat) : (s.withIngest v).heat d a = (s.heat d a).withIngest v := withIngest_ite v rfl rfl
@[simp] theorem State.writeBack_withIngest (l : Nat) : (s.withIngest v).writeBack l = (s.writeBack l).withIngest v :=
  withIngest_ite v (State.heat_withIngest (s := { s with m := { s.m with dirty := s.m.dirty.filter (· ≠ l), granules := s.m.granules ++ [s.granuleOf l, s.granuleOf (l + 64)] } }) v _ _)
    (withIngest_ite v (State.heat_withIngest (s := { s with m := { s.m with vdirty := s.m.vdirty.filter (· ≠ l) } }) v _ _) rfl)
@[simp] theorem State.evictLine_withIngest (d : DieId) (a : Nat) : (s.withIngest v).evictLine d a = (s.evictLine d a).withIngest v := by
  refine withIngest_ite v rfl ?_
  simp only [State.die_withIngest, State.lowLine_withIngest, State.writeBack_withIngest, State.modDie_withIngest]
  split <;> rfl
@[simp] theorem State.bringLine_withIngest (c : Option DieId) (a : Nat) : (s.withIngest v).bringLine c a = (s.bringLine c a).withIngest v := by
  refine withIngest_ite v rfl ?_
  simp only [State.homeDie_withIngest, State.evictLine_withIngest, State.modDie_withIngest]
  cases c with
  | none => rfl
  | some d => exact State.heat_withIngest v _ _
@[simp] theorem State.cacheLine_withIngest (d : DieId) (a : Nat) : (s.withIngest v).cacheLine d a = (s.cacheLine d a).withIngest v := State.bringLine_withIngest v _ _
@[simp] theorem State.freeBytes_withIngest (n : Nat) : (s.withIngest v).freeBytes n = ((s.freeBytes n).1, (s.freeBytes n).2.withIngest v) := by
  induction n generalizing s with
  | zero => rfl
  | succ n ih => simp only [State.freeBytes, State.drawFree_withIngest, ih]
@[simp] theorem State.markDirty_withIngest (a : Nat) : (s.withIngest v).markDirty a = (s.markDirty a).withIngest v := by
  refine withIngest_ite v rfl (withIngest_dirty v _ (withIngest_ite v ?_ rfl))
  split
  · next x hx =>
    split
    · next y hy =>
      cases hx.symm.trans hy
      exact State.writeBack_withIngest v x
    · next hy => cases hx.symm.trans hy
  · next hx =>
    split
    · next y hy => cases hx.symm.trans hy
    · rfl
@[simp] theorem State.dirtied_withIngest (a : Nat) : (s.withIngest v).dirtied a = (s.dirtied a).withIngest v :=
  withIngest_ite v (State.markDirty_withIngest v _) (withIngest_ite v rfl rfl)
@[simp] theorem State.moveLine_withIngest (a b : Nat) : (s.withIngest v).moveLine a b = (s.moveLine a b).withIngest v := State.dirtied_withIngest (s := s.copyLine a b) v _
@[simp] theorem State.mirror_withIngest (a : Nat) (bs : List Byte) (b : Bool) : (s.withIngest v).mirror a bs b = (s.mirror a bs b).withIngest v := by
  simp only [State.mirror, State.replicaAt_withIngest]
  cases s.replicaAt a with
  | none => rfl
  | some q =>
    refine withIngest_foldl v ?_ _ s
    intro s d
    exact withIngest_ite v rfl rfl
@[simp] theorem State.forceLog_withIngest : (s.withIngest v).forceLog = s.forceLog.withIngest v := withIngest_foldl v (fun _ _ => rfl) _ s
@[simp] theorem State.makeRoom_withIngest (d : DieId) : (s.withIngest v).makeRoom d = (s.makeRoom d).withIngest v :=
  withIngest_ite v (withIngest_foldl v (fun _ _ => rfl) _ s) rfl
@[simp] theorem State.appendLog_withIngest (va z k : Nat) (c : BitVec 16) : (s.withIngest v).appendLog va z k c = (s.appendLog va z k c).withIngest v := by
  simp only [State.appendLog, withIngest_foldl v (f := State.makeRoom) (f' := State.makeRoom) (fun s d => State.makeRoom_withIngest v d), State.modDies_withIngest]
@[simp] theorem State.postEvent_withIngest (k : Nat) (c : BitVec 16) (t g : W32) (w : W64) : (s.withIngest v).postEvent k c t g w = (s.postEvent k c t g w).withIngest v :=
  withIngest_ite v rfl (withIngest_ite v rfl rfl)
@[simp] theorem State.rasEvent_withIngest (k d i : Nat) : (s.withIngest v).rasEvent k d i = (s.rasEvent k d i).withIngest v :=
  State.postEvent_withIngest (s := { s with fw := { s.fw with ras := s.fw.ras ++ [⟨k, d, i⟩] } }) v _ _ _ _ _

/-! ## Copies, stores, held requests and switches -/

/-- The same of an answer beside a state. -/
def withIngest₂ {α : Type} (v : Vector (Option Ingest) 16) (p : α × State) : α × State := (p.1, p.2.withIngest v)

@[simp] theorem State.readWord_withIngest (c h : CoreId) (o : Nat) : (s.withIngest v).readWord c h o = (s.readWord c h o).withIngest v := rfl
@[simp] theorem State.complete_withIngest (c : CoreId) (f : BitVec 10) (x : Val) : (s.withIngest v).complete c f x = (s.complete c f x).withIngest v := rfl
@[simp] theorem State.noteFill_withIngest (c : CoreId) (f : BitVec 10) (t : Nat) : (s.withIngest v).noteFill c f t = (s.noteFill c f t).withIngest v := rfl
@[simp] theorem State.journal_withIngest (g : Migration) (n : Nat) : (s.withIngest v).journal g n = (s.journal g n).withIngest v := withIngest_ite v rfl rfl
/-- The last part of a collapse: requests of the page go to the frame that stays, and the page is replicated no longer. -/
def State.rehomed (s : State) (c : BitVec 16) (page off n f : Nat) : State :=
  { s with
    cores := s.cores.map fun k => if k.reqs.isEmpty then k else { k with reqs := k.reqs.map fun r => r.rehome off n f }
    fw := { s.fw with replicas := s.fw.replicas.filter fun q => !(q.ctx == c && q.va = page) } }
theorem State.rehomed_withIngest (c : BitVec 16) (page off n f : Nat) : (s.withIngest v).rehomed c page off n f = (s.rehomed c page off n f).withIngest v := rfl
/-- The frame that stays is the page's own, in its leaf and where the page is mapped lazily. -/
def State.kept (s : State) (c : BitVec 16) (va z : Nat) (e : W64) (f : Nat) : State :=
  if s.normPa (leafFrame e) = f then s else s.modCtx c fun x => x.moveLazy (va / pageBytes z * pageBytes z) z f
theorem State.kept_withIngest (c : BitVec 16) (va z : Nat) (e : W64) (f : Nat) : (s.withIngest v).kept c va z e f = (s.kept c va z e f).withIngest v := withIngest_ite v rfl rfl
theorem State.unreplicate_rehomed (s : State) (c : BitVec 16) (va a z : Nat) (e : W64) (f : Nat) : s.unreplicate c va a z e f =
    ((((s.writeLeaf a z ((e &&& ~~~(BitVec.ofNat 64 0x000FFFFFFFFF0008)) ||| BitVec.ofNat 64 f)).appendLog va z 2 c).forceLog).kept c va z e f).rehomed c (va / pageBytes z * pageBytes z)
      (f % 0x2000000000) (pageBytes z) f := rfl
@[simp] theorem State.unreplicate_withIngest (c : BitVec 16) (va a z : Nat) (e : W64) (f : Nat) : (s.withIngest v).unreplicate c va a z e f = (s.unreplicate c va a z e f).withIngest v := by
  simp only [State.unreplicate_rehomed, State.writeLeaf_withIngest, State.appendLog_withIngest, State.forceLog_withIngest, State.kept_withIngest, State.rehomed_withIngest]
@[simp] theorem State.collapse_withIngest (c : BitVec 16) (va : Nat) : (s.withIngest v).collapse c va = (s.collapse c va).withIngest v := by
  simp only [State.collapse, State.ctx_withIngest, State.walk_withIngest, State.normPa_withIngest, State.unreplicate_withIngest]
  split
  · rfl
  · split
    · split <;> rfl
    · rfl
@[simp] theorem State.collapseAt_withIngest (a : Nat) : (s.withIngest v).collapseAt a = (s.collapseAt a).withIngest v := by
  simp only [State.collapseAt, State.replicaAt_withIngest, State.mayCollapse_withIngest, State.collapse_withIngest]
  split
  · split <;> rfl
  · rfl

/-- The mark that a store leaves on the migrations of its line. -/
theorem withIngest_migMark (a : Nat) (s : State) : ({ s.withIngest v with m := { (s.withIngest v).m with migs := migMark (s.withIngest v).m.migs a } } : State)
    = ({ s with m := { s.m with migs := migMark s.m.migs a } } : State).withIngest v := rfl

@[simp] theorem State.storeRaw_withIngest (d : DieId) (c : BitVec 16) (lt : Nat) (l : Loc) (bs : List Byte) (b : Bool) :
    (s.withIngest v).storeRaw d c lt l bs b = ((s.storeRaw d c lt l bs b).1, (s.storeRaw d c lt l bs b).2.withIngest v) := by
  cases l with
  | sp h o =>
    simp only [State.storeRaw, State.homeUp_withIngest, State.times_withIngest, State.setTimes_withIngest, State.homeWrite_withIngest, State.modCtx_withIngest,
      State.rasEvent_withIngest, State.locDie_withIngest]
    split <;> rfl
  | pa a =>
    simp only [State.storeRaw, State.homeUp_withIngest, State.times_withIngest, State.setTimes_withIngest, State.homeWrite_withIngest, State.modCtx_withIngest,
      State.rasEvent_withIngest, State.locDie_withIngest, State.collapseAt_withIngest, State.cacheLine_withIngest, withIngest_migMark, State.dirtied_withIngest, State.mirror_withIngest]
    split <;> rfl

theorem State.bindWait_withIngest (c : CoreId) (a : W64) (g : W32) : (s.withIngest v).bindWait c a g = ((s.bindWait c a g).1, (s.bindWait c a g).2.withIngest v) := by
  exact ite_hom (withIngest₂ v) rfl (ite_hom (withIngest₂ v) rfl rfl)
@[simp] theorem State.bindWaits_withIngest (h : CoreId) (p : Nat → Bool) : (s.withIngest v).bindWaits h p = (s.bindWaits h p).withIngest v := by
  refine withIngest_foldl v ?_ _ s
  intro s i
  refine withIngest_foldl v ?_ _ s
  intro s w
  cases w.kind with
  | sw a g =>
    refine withIngest_ite v ?_ rfl
    simp only [State.bindWait_withIngest]
    rcases s.bindWait (CoreId.mk' h.die i) a g with ⟨_ | k, t⟩ <;> rfl
  | _ => rfl
@[simp] theorem State.storeAt_withIngest (d : DieId) (c : BitVec 16) (lt : Nat) (l : Loc) (bs : List Byte) (b : Bool) :
    (s.withIngest v).storeAt d c lt l bs b = ((s.storeAt d c lt l bs b).1, (s.storeAt d c lt l bs b).2.withIngest v) := by
  simp only [State.storeAt, State.storeRaw_withIngest]
  cases l with
  | sp h o => exact congrArg (Prod.mk _) (State.bindWaits_withIngest v _ _)
  | pa a => rfl

@[simp] theorem State.loadBy_withIngest (n : Option DieId) (d : DieId) (lt : Nat) (l : Loc) (k : Nat) :
    (s.withIngest v).loadBy n d lt l k = ((s.loadBy n d lt l k).1, (s.loadBy n d lt l k).2.withIngest v) := by
  simp only [State.loadBy, State.homeUp_withIngest, State.times_withIngest, State.locDie_withIngest, State.homeBytes_withIngest, State.freeBytes_withIngest]
  refine ite_hom (withIngest₂ v) rfl (ite_hom (withIngest₂ v) ?_ ?_)
  · cases l with
    | sp c o => rfl
    | pa a => exact congrArg (fun t : State => (_, t.setTimes (.pa a) _)) (State.bringLine_withIngest v n a)
  · cases l with
    | sp c o => rfl
    | pa a =>
      simp only [State.evictLine_withIngest, State.setTimes_withIngest, State.modDie_withIngest, State.bringLine_withIngest]
      split
      · next x hx =>
        split
        · next y hy =>
          cases hx.symm.trans hy
          rfl
        · next hy => cases hx.symm.trans hy
      · next hx =>
        split
        · next y hy => cases hx.symm.trans hy
        · rfl
@[simp] theorem State.loadAt_withIngest (d : DieId) (lt : Nat) (l : Loc) (k : Nat) :
    (s.withIngest v).loadAt d lt l k = ((s.loadAt d lt l k).1, (s.loadAt d lt l k).2.withIngest v) := State.loadBy_withIngest v _ _ _ _ _

/-- An atomic at its home, its old bytes read. -/
def State.atomicThen (k : Core) (c : CoreId) (r : Req) (l : Loc) (op : AOp) (ret : Bool) (p : List Byte × State) : State :=
  let bad := !p.2.homeUp l || (p.2.homeBytes l r.size).2
  let old := BitVec.ofNat 64 (natOfBytes p.1)
  let u := p.2.storeAt c.die k.task.ctx (max (ltime k.lt) (p.2.times l).wts) l (bytesOfNat r.size (op.apply r.size old r.data.val r.x.val).toNat) (bad || r.data.poi || (r.x.poi && op == .cas))
  let s := (u.2.setLt c (ltMerge k.lt u.1)).track c l
  if ret then s.complete c r.dsel (.sc ⟨extend r.size (r.size == 4) old.toNat, bad⟩) else s
theorem State.atomicThen_withIngest (k : Core) (c : CoreId) (r : Req) (l : Loc) (op : AOp) (ret : Bool) (p : List Byte × State) :
    State.atomicThen k c r l op ret (withIngest₂ v p) = (State.atomicThen k c r l op ret p).withIngest v := by
  simp only [State.atomicThen, withIngest₂, State.homeUp_withIngest, State.homeBytes_withIngest, State.times_withIngest, State.storeAt_withIngest, State.setLt_withIngest, State.track_withIngest,
    State.complete_withIngest]
  exact withIngest_ite v rfl rfl

@[simp] theorem State.performAt_withIngest (c : CoreId) (r : Req) (l : Loc) : (s.withIngest v).performAt c r l = (s.performAt c r l).withIngest v := by
  simp only [State.performAt, State.core_withIngest]
  cases r.op with
  | load g => simp only [State.loadAt_withIngest, State.setLt_withIngest, State.complete_withIngest, State.noteFill_withIngest]
  | store => simp only [State.storeAt_withIngest, State.setLt_withIngest, State.track_withIngest]
  | atomic op ret =>
    have hp : (if (s.withIngest v).homeUp l then (((s.withIngest v).homeBytes l r.size).1, s.withIngest v) else (s.withIngest v).freeBytes r.size)
        = withIngest₂ v (if s.homeUp l then ((s.homeBytes l r.size).1, s) else s.freeBytes r.size) := by
      rw [State.homeUp_withIngest, State.homeBytes_withIngest, State.freeBytes_withIngest]
      exact ite_hom _ rfl rfl
    exact (congrArg (State.atomicThen (s.core c) c r l op ret) hp).trans (State.atomicThen_withIngest v _ _ _ _ _ _ _)
@[simp] theorem State.readyWrites_withIngest (c : CoreId) (ls : List Loc) (n : Nat) : (s.withIngest v).readyWrites c ls n = (s.readyWrites c ls n).withIngest v := by
  simp only [State.readyWrites]
  rw [withIngest_foldl v (f := fun s l => match l with | .sp h off => if s.banksReady h off n then s else s.wakeBanks h off n | .pa _ => s)]
  · refine withIngest_ite v ?_ rfl
    rw [State.core_withIngest, withIngest_foldl v (f := State.writeBack) fun s l => State.writeBack_withIngest v l]
    rfl
  · intro s l
    cases l with
    | sp h o => exact withIngest_ite v rfl rfl
    | pa a => rfl
/-- The state in which a held request is performed: it is held no longer. -/
def State.unheld (s : State) (c : CoreId) (q : Nat) : State :=
  ({ s with m := { s.m with held := s.m.held.filter fun h => !(h.core = c && h.req.seq = q) } } : State).dropReq c q
theorem State.unheld_withIngest (c : CoreId) (q : Nat) : (s.withIngest v).unheld c q = (s.unheld c q).withIngest v := rfl
theorem State.performThere_unheld (s : State) (c : CoreId) (r : Req) (l : Loc) :
    s.performThere c r l = (fun t : State => if t.reqReady c r l then (t.unheld c r.seq).performAt c r l else t) (if s.reqReady c r l then s else s.readyWrites c [l] r.size) := rfl
@[simp] theorem State.performThere_withIngest (c : CoreId) (r : Req) (l : Loc) : (s.withIngest v).performThere c r l = (s.performThere c r l).withIngest v := by
  rw [State.performThere_unheld, State.performThere_unheld, State.reqReady_withIngest, State.readyWrites_withIngest, withIngest_ite v rfl rfl]
  simp only [State.reqReady_withIngest, State.unheld_withIngest, State.performAt_withIngest]
  exact withIngest_ite v rfl rfl
@[simp] theorem State.releaseHeld_withIngest : (s.withIngest v).releaseHeld = s.releaseHeld.withIngest v := by
  refine withIngest_foldl v (fun s h => ?_) _ s
  simp only [State.core_withIngest, State.filter_withIngest, State.performThere_withIngest]
  split
  · rfl
  · split <;> rfl

/-- The state with another main memory. -/
def State.mapMem (s : State) (f : MemState → MemState) : State := { s with m := f s.m }
@[simp] theorem State.mapMem_withIngest (f : MemState → MemState) : (s.withIngest v).mapMem f = (s.mapMem f).withIngest v := rfl
/-- What reaches durability of a range: its granules, then its dirty lines. -/
def State.persistGranules (s : State) (a n : Nat) : State :=
  (s.m.granules.filter fun g => decide (a ≤ g.addr) && decide (g.addr < a + n)).foldl (fun s g => s.granuleDone g)
    (s.mapMem fun m => { m with granules := m.granules.filter fun g => !(decide (a ≤ g.addr) && decide (g.addr < a + n)) })
@[inherit_doc State.persistGranules] def State.persistLines (s : State) (a n : Nat) : State :=
  (s.m.dirty.filter fun x => decide (a ≤ x) && decide (x < a + n)).foldl (fun s l => (s.granuleDone (s.granuleOf l)).granuleDone (s.granuleOf (l + 64)))
    (s.mapMem fun m => { m with dirty := m.dirty.filter fun x => !(decide (a ≤ x) && decide (x < a + n)) })
theorem State.persistGranules_withIngest (a n : Nat) : (s.withIngest v).persistGranules a n = (s.persistGranules a n).withIngest v := by
  rw [State.persistGranules, State.mapMem_withIngest, withIngest_foldl v (f := fun s g => s.granuleDone g) fun _ _ => rfl]
  rfl
theorem State.persistLines_withIngest (a n : Nat) : (s.withIngest v).persistLines a n = (s.persistLines a n).withIngest v := by
  rw [State.persistLines, State.mapMem_withIngest, withIngest_foldl v (f := fun s l => (s.granuleDone (s.granuleOf l)).granuleDone (s.granuleOf (l + 64))) fun s l => by
    rw [State.granuleOf_withIngest, State.granuleDone_withIngest, State.granuleOf_withIngest, State.granuleDone_withIngest]]
  rfl
theorem State.persistRange_parts (s : State) (a n : Nat) : s.persistRange a n = ((s.persistGranules a n).persistLines a n).trackersClean := by
  unfold State.persistRange
  extract_lets mine gs m₀ s₁ s₂
  have h2 : s₂ = s.persistGranules a n := rfl
  rw [← h2]
  rfl
@[simp] theorem State.persistRange_withIngest (a n : Nat) : (s.withIngest v).persistRange a n = (s.persistRange a n).withIngest v := by
  rw [State.persistRange_parts, State.persistRange_parts, State.persistGranules_withIngest, State.persistLines_withIngest, State.trackersClean_withIngest]

theorem State.switchLeaf_withIngest (g : Migration) : (s.withIngest v).switchLeaf g = (s.switchLeaf g).withIngest v := by
  simp only [State.switchLeaf, State.ctx_withIngest, State.walk_withIngest, State.writeLeaf_withIngest]
  split
  · rfl
  · split <;> rfl
/-- What a context keeps of its page that has switched, at the newest entry of the log. -/
def Migration.moved (g : Migration) (seq : W32) (x0 : Ctx) : Ctx :=
  let x := x0.moveLazy g.va.toNat g.size.toNat g.new
  if x.mapped.any fun q => q.2 = g.old then
    { x with mapped := (x.mapped.map fun q => if q.2 = g.old then (q.1, g.new) else q), limbo := x.limbo ++ [(g.old, seq)] }
  else x
theorem State.migSwitch_parts (s : State) (g : Migration) : ∃ t, t = ((s.modDies g.cool).switchLeaf g).appendLog g.va.toNat g.size.toNat 1 g.ctx ∧
    s.migSwitch g = (t.modCtx g.ctx (g.moved (t.die 0).seq)).redirect g := by
  unfold State.migSwitch
  extract_lets lo hi s1 tier s2 s3 s4
  have h1 : s1 = s.modDies g.cool := rfl
  have h2 : s2 = s1.switchLeaf g := rfl
  rw [← h1, ← h2]
  exact ⟨s3, rfl, rfl⟩
@[simp] theorem State.migSwitch_withIngest (g : Migration) : (s.withIngest v).migSwitch g = (s.migSwitch g).withIngest v := by
  obtain ⟨t, ht, hs⟩ := s.migSwitch_parts g
  obtain ⟨u, hu, hv⟩ := (s.withIngest v).migSwitch_parts g
  rw [State.modDies_withIngest, State.switchLeaf_withIngest, State.appendLog_withIngest, ← ht] at hu
  rw [hv, hs, hu]
  rfl

theorem State.finishSwitch_parts (s : State) (g : Migration) : s.finishSwitch g =
    (fun u : State => ((if tierOf g.new = 3 then u.persistRange g.new (pageBytes g.size.toNat) else u).migSwitch { g with dirty := [] }).journal g 2)
      (g.dirty.foldl (fun s l => s.moveLine (g.old + 128 * l) (g.new + 128 * l)) s) := rfl
@[simp] theorem State.finishSwitch_withIngest (g : Migration) : (s.withIngest v).finishSwitch g = (s.finishSwitch g).withIngest v := by
  simp only [State.finishSwitch_parts]
  rw [withIngest_foldl v (f := fun s l => s.moveLine (g.old + 128 * l) (g.new + 128 * l)) fun s l => State.moveLine_withIngest v _ _, State.persistRange_withIngest, withIngest_ite v rfl rfl,
    State.migSwitch_withIngest, State.journal_withIngest]
@[simp] theorem State.finishSwitches_withIngest : (s.withIngest v).finishSwitches = s.finishSwitches.withIngest v := by
  simp only [State.finishSwitches, State.m_withIngest, withIngest_foldl v (f := fun (s : State) g => s.finishSwitch g) fun s g => State.finishSwitch_withIngest v g, State.releaseHeld_withIngest]
@[simp] theorem State.forWrite_withIngest (l : Loc) : (s.withIngest v).forWrite l = ((s.forWrite l).1, (s.forWrite l).2.withIngest v) := by
  simp only [State.forWrite, State.filter_withIngest, State.finishSwitches_withIngest]
  split <;> rfl
/-- Firmware's store reads no ingest queue. -/
theorem State.fwWrite_withIngest (a : Nat) (bs : List Byte) : (s.withIngest v).fwWrite a bs = (s.fwWrite a bs).withIngest v := by
  refine withIngest_ite v rfl (withIngest_foldl v (fun s q => ?_) _ s)
  simp only [State.normPa_withIngest, State.forWrite_withIngest, State.storeAt_withIngest]

theorem State.ingest_fwWrite_zeroRange (s : State) (w n a : Nat) (bs : List Byte) : ((s.zeroRange w n).fwWrite a bs).t.ingest = s.t.ingest := by
  have h := State.fwWrite_withIngest s.t.ingest (s := s.zeroRange w n) a bs
  rw [← State.zeroRange_withIngest, show s.withIngest s.t.ingest = s from rfl] at h
  rw [h]
  rfl

end

end

end Sys2Proof.Machine
end

section
/-! PROOFS. The commands of the host: what every command shares, then each command of Table 15.5. -/
namespace Sys2Proof.Machine

/-! ## What every command shares (R339 to R341) -/

/-- What the answer of a command's body makes of the step. -/
def CmdAns.out (s : State) (x : Cmd) : CmdAns → Out
  | .fail c => .next (s.finishCmd x c none)
  | .later => .next s
  | .done r t => .next (t.finishCmd x 0 r)
  | .wait t => .next (t.markBegun x)

/-- What a record written into the buffer of ARG0 and ARG1 gives, from a state `t`; `s` is the state before the command. -/
def State.Stored (s t : State) (x : Cmd) (o : Out) (bs : List Byte) (r : Option W64) : Prop :=
  let k := min bs.length (x.arg 1)
  (t.addrStatus x.args[0] k = 0 → o = .next ((t.cmdWrite x.args[0] (bs.take k)).finishCmd x 0 (if x.arg 1 < bs.length then some (BitVec.ofNat 64 bs.length) else r)))
    ∧ (t.addrStatus x.args[0] k ≠ 0 → o = .next (s.finishCmd x (t.addrStatus x.args[0] k) none))

section
variable {s : State} {n : Nat} {x : Cmd}

/-- A command that runs does what its body answers. -/
theorem State.runCmd_runs {opc : Nat} {l : List Nat} (h : s.runs n opc l x = true) {args : Cmd → List Nat} (ha : args x = l) (body : Cmd → State → CmdAns) :
    s.runCmd n opc args body = (body x s).out s x := by
  simp only [State.runs, Bool.and_eq_true, beq_iff_eq, decide_eq_true_eq, bne_iff_ne] at h
  obtain ⟨⟨⟨⟨⟨hx, ho⟩, hr⟩, hb⟩, hp⟩, hf⟩ := h
  have hrsv : (!x.begun && (x.rsv || (!namesCtx opc && x.ctx ≠ 0) || [0, 1, 2, 3, 4].any fun i => !(args x).contains i && x.arg i ≠ 0)) = false := by
    rw [ha]
    cases hbeg : x.begun with
    | true => rfl
    | false =>
      rw [hbeg, Bool.false_or] at hf
      simpa [bne, or_iff_not_imp_left] using hf
  unfold State.runCmd
  rw [hx]
  dsimp only
  rw [if_neg (by simp [ho, hr, hb]), if_neg (by simp [hp]), hrsv, if_neg Bool.false_ne_true]
  cases body x s <;> rfl
/-- A condition that holds. -/
theorem need_holds {ok : Bool} (h : ok = true) (c : Nat) (k : CmdAns) : need ok c k = k := by
  rw [h]
  rfl
/-- One that fails. -/
theorem need_fails {ok : Bool} (h : ok = false) (c : Nat) (k : CmdAns) : need ok c k = .fail c := by
  rw [h]
  rfl
theorem withCtx_some {c : Ctx} (h : s.ctx x.ctx = some c) (k : Ctx → CmdAns) : withCtx s x k = k c := by
  rw [withCtx, h]
theorem withCtx_none (h : s.ctx x.ctx = none) (k : Ctx → CmdAns) : withCtx s x k = .fail 3 := by
  rw [withCtx, h]
/-- A record goes to its buffer, or its address's status is the command's. -/
theorem State.stored_toBuffer (s t : State) (bs : List Byte) (r : Option W64) : s.Stored t x ((t.toBuffer x bs r).out s x) bs r := by
  refine ⟨fun h => ?_, fun h => ?_⟩
  · rw [State.toBuffer]
    rw [h]
    rfl
  · rw [State.toBuffer]
    generalize t.addrStatus x.args[0] (min bs.length (x.arg 1)) = c at h
    cases c with
    | zero => exact absurd rfl h
    | succ c => rfl

/-! ## Identification and configuration -/

theorem execIdent_stored (h : s.runs n 0x01 [0, 1] x = true) :
    s.Stored s.drawFree.2 x (execIdent n s) (s.drawFree.2.identHead s.drawFree.1 ++ bytesOfNat 8 s.m.tier2 ++ bytesOfNat 8 s.m.tier3
      ++ (List.range 4).flatMap fun t => bytesOfNat 4 (Config.leastLatmax t).toNat) none := by
  rw [execIdent, State.runCmd_runs h rfl]
  exact State.stored_toBuffer s _ _ _
theorem execAttest_stored (h : s.runs n 0x02 [0, 1, 2] x = true) : s.Stored s x (execAttest n s) (s.measurement 255 (x.arg 2)) none := by
  rw [execAttest, State.runCmd_runs h rfl]
  exact State.stored_toBuffer s s _ _
/-- CONFIG with its record in memory: its two refusals, and the configuration. -/
theorem execConfigure_runs (h : s.runs n 0x03 [0] x = true) (ha : s.addrStatus x.args[0] 64 = 0) :
    execConfigure n s = (need (s.configValid (s.cmdRead x.args[0] 64)) 2 (need s.fw.ctxs.isEmpty 4
      (.done none ({ s with fw := { s.fw with cfg := ConfigRec.ofBytes (s.cmdRead x.args[0] 64) } } : State).reframe))).out s x := by
  rw [execConfigure, State.runCmd_runs h rfl, ha] <;> rfl

/-! ## Contexts, streams, jobs -/

theorem execContextCreate_creates (h : s.runs n 0x04 [0, 1, 2, 3, 4] x = true) (h0 : x.arg 0 % 0x2000 = 0) (h1 : x.arg 1 / 2 % 2 ^ 31 = 0) (h2 : x.arg 2 % 128 = 0)
    (h3 : x.arg 3 % 0x10000 = 0) (h4 : x.arg 4 % 0x10000 = 0) (ht : tierOf (x.arg 3) ≤ 1) (hp : x.arg 4 = 0 ∨ s.backedRange (x.arg 3) (x.arg 4) = true)
    (hr : s.rangeOk (x.arg 0) 0x2000 = true) (hr1 : tierOf (s.normPa (x.arg 0)) ≤ 1) (ha : s.addrStatus x.args[2] 128 = 0) {id : Nat} {t : State}
    (hid : s.freeId (fun i => s.fw.ctxs.any fun c => c.id.toNat = i) = (some id, t)) :
    execContextCreate n s = .next (({ t with fw := { t.fw with ctxs := t.fw.ctxs ++ [Ctx.create id x] } } : State).finishCmd x 0 (some (BitVec.ofNat 64 id))) := by
  rw [execContextCreate, State.runCmd_runs h rfl]
  dsimp only
  rw [need_holds (by simp only [h0, h1, h2, h3, h4, ht, decide_true, Bool.true_and, Bool.or_eq_true, decide_eq_true_eq]; exact hp), need_holds (by simp [hr, hr1]), ha, hid]
  rfl
theorem execContextKill_begins {c : Ctx} (hc : s.ctx x.ctx = some c) (h : s.runs n 0x05 [] x = true) : execContextKill n s = .next ((s.plainKill c.id 7).markBegun x) := by
  rw [execContextKill, State.runCmd_runs h rfl, withCtx_some hc]
  rfl
theorem execStreamCreate_creates {c : Ctx} (hc : s.ctx x.ctx = some c) (h : s.runs n 0x0D [] x = true) {id : Nat} {t : State}
    (hid : s.freeId (fun i => s.fw.streams.any fun q => q.1 = i) = (some id, t)) :
    execStreamCreate n s = .next (({ t with fw := { t.fw with streams := t.fw.streams ++ [(id, c.id)] } } : State).finishCmd x 0 (some (BitVec.ofNat 64 id))) := by
  rw [execStreamCreate, State.runCmd_runs h rfl, withCtx_some hc]
  dsimp only
  rw [hid]
  rfl
theorem execStreamDestroy_destroys {c : Ctx} (hc : s.ctx x.ctx = some c) (h : s.runs n 0x0E [0] x = true) (hs : (s.fw.streams.any fun q => q.1 = x.arg 0 && q.2 == c.id) = true)
    (hj : (s.fw.jobs.any fun j => j.ctx == c.id && j.lr.stream = x.arg 0) = false) :
    execStreamDestroy n s = .next (({ s with fw := { s.fw with streams := s.fw.streams.filter (fun q => q.1 ≠ x.arg 0 || q.2 != c.id), streamLt := s.fw.streamLt.filter fun q => q.1 ≠ x.arg 0 } } : State).finishCmd x 0 none) := by
  rw [execStreamDestroy, State.runCmd_runs h rfl, withCtx_some hc]
  dsimp only
  rw [need_holds hs, need_holds (by rw [hj]; rfl)]
  rfl
theorem execLaunchCommand_queues {c : Ctx} (hc : s.ctx x.ctx = some c) (h : s.runs n 0x0C [0] x = true) (h0 : x.arg 0 % 64 = 0) (ha : s.addrStatus x.args[0] 256 = 0) :
    let b := s.cmdRead x.args[0] 256
    let l := Launch.ofBytes b
    launchValid b = true → (l.stream = 0 ∨ (s.fw.streams.any fun q => q.1 = l.stream && q.2 == c.id) = true) → s.boxFits l = true → s.launchQueue c.id < 64 →
    execLaunchCommand n s = .next ((s.queueJob c.id b 0).2.finishCmd x 0 (some (BitVec.ofNat 64 (s.queueJob c.id b 0).1))) := by
  intro b l hv hs hb hq
  rw [execLaunchCommand, State.runCmd_runs h rfl, withCtx_some hc, if_neg (not_not.mpr h0), ha]
  dsimp only
  rw [need_holds hv, need_holds (by simpa using hs), need_holds hb, need_holds (by simpa using hq)]
  rfl

/-! ## Pages (R68, R70, R73, R77 to R80, R341) -/

section
variable {c : Ctx} (hc : s.ctx x.ctx = some c)
include hc

/-- MAP of pages whose checks hold. -/
theorem execMapPages_runs (h : s.runs n 0x06 [0, 1, 2, 3] x = true) :
    let va := x.arg 0
    let pa := x.arg 1
    let bytes := x.arg 2
    let w := x.args[3]
    let size := (w.extractLsb' 17 2).toNat
    let p := pageBytes size
    let old := s.leaves c va (va + bytes)
    let cut := c.lazies.flatMap fun l => l.cut va (va + bytes)
    let s' := s.settleMigs c.id va (va + bytes)
    size ≤ 2 → w.extractLsb' 11 5 = 0 → w.extractLsb' 19 45 = 0 → w.getLsbD 0 = true → w.getLsbD 7 = true → w.getLsbD 4 = false → w.getLsbD 3 = false → va % p = 0 → bytes % p = 0 → bytes ≠ 0 →
    va + bytes ≤ 2 ^ 56 → pa % p = 0 → pa + bytes ≤ 2 ^ 52 → s.rangeOk pa bytes = true → ((List.range (bytes / p)).all fun i => !s.leafBad (mapLeaf (pa + i * p) w) size) = true →
    (old.all fun q => q.2.2.1 = size && !ebit q.2.2.2 4 && !ebit q.2.2.2 3) = true → c.meetsSink va (va + bytes) = false →
    execMapPages n s = (if s.pendingRelease pa bytes then CmdAns.later
      else if w.getLsbD 16 then .done none (State.modCtx (State.forget (old.foldl (fun t q => t.clearLeaf c.id q) s') c.id va (va + bytes)) c.id fun c =>
        { c with lazies := ⟨BitVec.ofNat 64 va, pa, bytes, w⟩ :: cut })
      else
        let t := (List.range (bytes / p)).foldl (fun t i => t.installLeaf c.root (va + i * p) size (mapLeaf (pa + i * p) w)) s'
        let t := old.foldl (fun t q => t.releaseLeaf c.id q) t
        .done none ((t.forget c.id va (va + bytes)).modCtx c.id fun c => { c with lazies := cut })).out s x := by
  dsimp only
  intro h1 h2 h3 h4 h5 h6 h7 h8 h9 h10 h11 h12 h13 hr hl ho hm
  rw [execMapPages, State.runCmd_runs h rfl]
  dsimp only
  rw [need_holds (by simp only [Bool.and_eq_true, Bool.not_eq_true', decide_eq_true_eq]; exact ⟨⟨⟨⟨⟨⟨⟨⟨⟨⟨⟨⟨h1, h2⟩, h3⟩, h4⟩, h5⟩, h6⟩, h7⟩, h8⟩, h9⟩, h10⟩, h11⟩, h12⟩, h13⟩),
    need_holds (by rw [hr]; exact hl), withCtx_some hc, need_holds hr, need_holds (by rw [ho, hm]; rfl)]

/-- UNMAP and PROTECT of a range of whole pages. -/
theorem State.rangeCmd_holds (hlo : x.arg 0 < x.arg 0 + x.arg 1) (hhi : x.arg 0 + x.arg 1 ≤ 2 ^ 56) (hw : s.wholePages c (x.arg 0) (x.arg 0 + x.arg 1) = true)
    (k : Ctx → Nat → Nat → CmdAns) : s.rangeCmd x k = k c (x.arg 0) (x.arg 0 + x.arg 1) := by
  rw [State.rangeCmd, need_holds (by rw [decide_eq_true hlo, decide_eq_true hhi]; rfl), withCtx_some hc, need_holds hw]

/-- MIGRATE of a page that may move. -/
theorem execMigrate_runs {a va size : Nat} {e : W64} (hl : s.leafAt c (x.arg 0) = some (a, va, size, e)) (h : s.runs n 0x09 [0, 1] x = true) (hb : x.begun = false)
    (h1 : x.arg 1 % pageBytes size = 0) (hr : s.rangeOk (x.arg 1) (pageBytes size) = true) (hs : size ≠ 2) (h3 : ebit e 3 = false) (h4 : ebit e 4 = false)
    (hm : s.migrating c.id va 5 = false) (h5 : ebit e 5 = decide (tierOf (x.arg 1) = 3)) (hsink : c.meetsSink va (va + pageBytes size) = false) :
    execMigrate n s = (if s.pendingRelease (x.arg 1) (pageBytes size) then CmdAns.later else .wait (s.startMigration
      { ctx := c.id, va := BitVec.ofNat 64 va, size := BitVec.ofNat 2 size, old := leafFrame e, new := x.arg 1, phase := 1, dirty := [], slot := 0, pass := 0, seq := 0 })).out s x := by
  rw [execMigrate, State.runCmd_runs h rfl, withCtx_some hc, hl]
  dsimp only
  rw [hb, if_neg Bool.false_ne_true, need_holds (decide_eq_true h1), need_holds hr, need_holds]
  rw [h3, h4, hm, h5, hsink, decide_eq_true hs]
  simp

/-- REPLICATE of a page that may be: the copies, or status 5 where their places are taken. -/
theorem execReplicate_runs {a va size : Nat} {e : W64} (hl : s.leafAt c (x.arg 0) = some (a, va, size, e)) (h : s.runs n 0x0A [0] x = true) (hs : size ≠ 2)
    (ht : tierOf (leafFrame e) = 0) (h4 : ebit e 4 = false) (hm : s.migrating c.id va 5 = false) :
    let pa := s.normPa (leafFrame e)
    let dst := s.pkgDieList.filter fun d => s.dieLive d && d ≠ s.homeDie pa
    let at0 (d : DieId) : Nat := d.val * 0x2000000000 + pa % 0x2000000000
    let t := dst.foldl (fun t d => (List.range (pageBytes size / 128)).foldl (fun t i => t.copyLine (pa + 128 * i) (at0 d + 128 * i)) t) s
    let u : State := { t with fw := { t.fw with replicas := ⟨c.id, va, size, pa⟩ :: t.fw.replicas.filter fun q => !(q.ctx == c.id && q.va = va) } }
    execReplicate n s = (need (ebit e 3 || dst.all fun d => s.assignable (at0 d) (pageBytes size) && !s.inUse (at0 d) (pageBytes size)) 5
      (.done none (u.writeLeaf a size (e ||| 8)))).out s x := by
  intro pa dst at0 t u
  rw [execReplicate, State.runCmd_runs h rfl, withCtx_some hc, hl]
  dsimp only
  rw [need_holds (by simp [hs, ht]), need_holds (by simp [h4, hm])]

/-- HEAT.READ of a page with counters. -/
theorem execHeatRead_stored {a va size : Nat} {e : W64} (hl : s.leafAt c (x.arg 2) = some (a, va, size, e)) (h : s.runs n 0x0B [0, 1, 2] x = true) (h6 : ebit e 6 = true) :
    let r := pageBytes size / 0x10000
    let at0 (d : DieId) : Nat := s.leafPa d e size va / 0x10000
    let count (d : DieId) (j : Nat) : Nat := match (s.die d).heat.find? fun q => q.1 = at0 d + j with | some q => q.2.toNat | none => 0
    s.Stored (s.pkgDieList.foldl (fun t d => t.modDie d fun y => { y with heat := y.heat.filter fun q => q.1 < at0 d || at0 d + r ≤ q.1 }) s) x (execHeatRead n s)
      (s.pkgDieList.flatMap fun d => (List.range r).flatMap fun j => bytesOfNat 2 (count d j)) none := by
  intro r at0 count
  rw [execHeatRead, State.runCmd_runs h rfl, withCtx_some hc, hl]
  dsimp only
  rw [need_holds h6]
  exact State.stored_toBuffer s _ _ _

/-- KVPOOL.CFG of an empty pool. -/
theorem execKvpoolCfg_sets (h : s.runs n 0x12 [0, 1, 2, 3] x = true) (h0 : x.arg 0 < 4) (h2 : x.arg 2 ≤ 20) (h3 : 1 ≤ x.arg 3) (h3' : x.arg 3 ≤ 1048576)
    (hsz : x.arg 1 + 16 * 2 ^ x.arg 2 * x.arg 3 ≤ 2 ^ 56) (hp : ∀ p, c.pools[x.arg 0] = some p → p.blocks = []) :
    execKvpoolCfg n s = .next ((s.modCtx c.id fun c => { c with pools := c.pools.set (x.arg 0) (some ⟨BitVec.ofNat 64 (x.arg 1), x.arg 2, x.arg 3, []⟩) h0 }).finishCmd x 0 none) := by
  have hset (c : Ctx) (p : Option Pool) : c.pools.setIfInBounds (x.arg 0) p = c.pools.set (x.arg 0) p h0 := by
    ext i hi
    simp only [Vector.getElem_setIfInBounds, Vector.getElem_set]
  rw [execKvpoolCfg, State.runCmd_runs h rfl]
  rw [need_holds, withCtx_some hc, need_holds]
  · simp only [hset]
    rfl
  · simp only [Nat.mod_eq_of_lt h0]
    cases hx : c.pools[x.arg 0] with
    | none => rfl
    | some p => exact List.isEmpty_iff.2 (hp p hx)
  · simp only [Bool.and_eq_true, decide_eq_true_eq]
    exact ⟨⟨⟨⟨h0, h2⟩, h3⟩, h3'⟩, hsz⟩

theorem execPfxCfg_sets (h : s.runs n 0x13 [0, 1] x = true) (h1 : x.arg 1 ≤ 64) :
    execPfxCfg n s = .next ((s.modCtx c.id fun c => { c with seed := x.args[0], pfxQuota := x.arg 1 }).finishCmd x 0 none) := by
  rw [execPfxCfg, State.runCmd_runs h rfl, need_holds (decide_eq_true h1), withCtx_some hc]
  rfl

end

/-! ## Time, ticks, ingest (R270 to R273, R346) -/

/-- SETTIME runs in the meaning of its mode. -/
theorem State.settime_runs {l : List Nat} {mine : Nat → Bool} (h : s.runs n 0x0F l x = true) (hl : (if x.timeMode = 0 then [0, 1, 2] else [0, 1]) = l) (hm : mine x.timeMode = true)
    (body : Cmd → State → CmdAns) : s.settime n mine body = (body x s).out s x := by
  have hx : s.link.cmds[n]? = some x := by
    simp only [State.runs, Bool.and_eq_true, beq_iff_eq] at h
    exact h.1.1.1.1.1
  rw [State.settime, hx]
  dsimp only
  rw [if_pos hm, State.runCmd_runs h hl]

section
variable (h1 : x.arg 1 < 2 ^ 48) (h2 : x.arg 2 < 1000000000)
include h1 h2

/-- SETTIME to a time: the step, or status 4 under the time port. -/
theorem execSettimeStep_runs (h0 : x.arg 0 = 0) (h : s.runs n 0x0F [0, 1, 2] x = true) :
    execSettimeStep n s = (need (!s.t.timePort) 4 (.done none { s with t := { s.t with secs := x.arg 1, fifths := 5 * x.arg 2, slew := 0 } })).out s x := by
  have hmode : x.timeMode = 0 := by rw [Cmd.timeMode, h0]; rfl
  have hns : s.t.setNs (x.arg 1 * 1000000000 + x.arg 2) = { s.t with secs := x.arg 1, fifths := 5 * x.arg 2, slew := 0 } := by
    rw [TimeState.setNs, show (x.arg 1 * 1000000000 + x.arg 2) / 1000000000 = x.arg 1 by omega, show (x.arg 1 * 1000000000 + x.arg 2) % 1000000000 = x.arg 2 by omega]
  rw [execSettimeStep, State.settime_runs h (by rw [hmode]; rfl) (by rw [hmode]; rfl), need_holds (by rw [hmode, decide_eq_true h1, decide_eq_true h2]; rfl), hns]

end

/-- SETTIME by a difference. -/
theorem execSettimeAdd_adds (h0 : x.arg 0 = 1) (h : s.runs n 0x0F [0, 1] x = true) (ht : s.t.timePort = false) :
    let v : Int := (s.nowNs : Int) + x.args[1].toInt
    0 ≤ v → v < 2 ^ 48 * 1000000000 → execSettimeAdd n s = .next (({ s with t := { s.t with secs := v.toNat / 1000000000, fifths := 5 * (v.toNat % 1000000000) + s.t.fifths % 5, slew := 0 } } : State).finishCmd x 0 none) := by
  intro v hv0 hv
  have hmode : x.timeMode = 1 := by rw [Cmd.timeMode, h0]; rfl
  rw [execSettimeAdd, State.settime_runs h (by rw [hmode]; rfl) (by rw [hmode]; rfl)]
  dsimp only
  rw [need_holds (by rw [decide_eq_true hv0, decide_eq_true hv]; rfl), need_holds (by rw [ht]; rfl)]
  rfl
theorem execSettimeSource_sets (h0 : x.arg 0 = 2) (h : s.runs n 0x0F [0, 1] x = true) (h1 : x.arg 1 < 2) :
    execSettimeSource n s = .next (({ s with t := { s.t with timePort := x.arg 1 = 1, locked := false, holdover := false, sinceEdge := 0, slew := 0, slewCyc := 0 } } : State).finishCmd
      x 0 none) := by
  have hmode : x.timeMode = 2 := by rw [Cmd.timeMode, h0]; rfl
  rw [execSettimeSource, State.settime_runs h (by rw [hmode]; rfl) (by rw [hmode]; rfl), need_holds (decide_eq_true h1)]
  rfl

/-- TICK.CFG within its limits: status 3 for a channel that is none, else the channel. -/
theorem execTickCfg_runs (h : s.runs n 0x10 [0, 1, 2, 3, 4] x = true) (h1 : 1000 ≤ x.arg 1) (h1' : x.arg 1 ≤ 1000000000) (h2 : x.arg 2 < 2 ^ 48) (h3 : x.arg 3 < 1000000000)
    (hg : x.arg 4 % 2 ^ 32 < x.arg 1) (h4 : x.arg 4 < 2 ^ 33) :
    let ch := BitVec.ofNat 2 (x.arg 0)
    let t := s.tick ch
    let phase := x.arg 2 * 1000000000 + x.arg 3
    let y : TickCh := ⟨x.arg 1, phase, x.arg 4 % 2 ^ 32, x.args[4].getLsbD 32, if t.period = x.arg 1 && t.phase = phase then t.last else none, true⟩
    execTickCfg n s = (need (x.arg 0 < 4) 3 (.done none ({ s with t := { s.t with ticks := s.t.ticks.set ch.toNat y (by omega) } } : State).retryAll)).out s x := by
  dsimp only
  rw [execTickCfg, State.runCmd_runs h rfl]
  dsimp only
  rw [need_holds]
  simp only [Bool.and_eq_true, decide_eq_true_eq]
  exact ⟨⟨⟨⟨⟨h1, h1'⟩, h2⟩, h3⟩, hg⟩, h4⟩

/-- A window given: the queue as it stood meanwhile is nowhere read. -/
theorem State.window_withIngest (s : State) (q w n a : Nat) (bs : List Byte) (g g' : Option Ingest) :
    let r := (s.zeroRange w n).fwWrite a bs
    let t := ((s.withIngest (s.t.ingest.setIfInBounds q g)).zeroRange w n).fwWrite a bs
    r.withIngest (r.t.ingest.setIfInBounds q g') = t.withIngest (t.t.ingest.setIfInBounds q g') := by
  dsimp only
  rw [State.zeroRange_withIngest, State.fwWrite_withIngest, State.ingest_fwWrite_zeroRange]
  have h : (s.t.ingest.setIfInBounds q g).setIfInBounds q g' = s.t.ingest.setIfInBounds q g' := by
    ext i hi
    simp only [Vector.getElem_setIfInBounds]
    split <;> rfl
  exact congrArg (State.withIngest · _) h.symm
/-- INGEST.CFG within its limits, of a queue whose ring holds nothing: its window, or status 5 where none is free. -/
theorem execIngestCfg_runs (h : s.runs n 0x11 [0, 1, 2] x = true) :
    let a := x.arg 2
    let k := a % 32
    let wi := a / 2 ^ 8 % 2 ^ 13
    let die := a / 2 ^ 24 % 16
    let ch := BitVec.ofNat 2 (a / 2 ^ 5)
    a < 2 ^ 28 → a / 2 ^ 7 % 2 = 0 → a / 2 ^ 21 % 8 = 0 → 4 ≤ k → k ≤ 16 → 1 ≤ wi → wi ≤ 4096 → x.arg 1 < 2 ^ 52 → x.arg 0 < 16 → (s.tick ch).conf = true → die < 8 → s.inPart (dieOf die) = true →
    s.hdm (x.arg 1) (64 + 64 * 2 ^ k) = true → (∀ y, s.ingest (x.arg 0) = some y → Memory.readN s.m.mem y.ring 8 = Memory.readN s.m.mem (y.ring + 8) 8) →
    let ring := s.normPa (x.arg 1)
    let u : State := { s with t := { s.t with ingest := s.t.ingest.setIfInBounds (x.arg 0) (some ⟨ring, k, ch, wi, 2 ^ 52⟩) } }
    (∀ w, u.freeWindow (dieOf die) = some w →
      let t := (u.zeroRange w (64 * wi)).fwWrite ring (List.replicate 64 0)
      execIngestCfg n s = .next (({ t with t := { t.t with ingest := t.t.ingest.setIfInBounds (x.arg 0) (some ⟨ring, k, ch, wi, w⟩) } } : State).finishCmd x 0 none))
    ∧ (u.freeWindow (dieOf die) = none → execIngestCfg n s = .next (s.finishCmd x 5 none)) := by
  dsimp only
  intro h1 h2 h3 h4 h5 h6 h7 h8 h9 hc h10 hp hh hy
  rw [execIngestCfg, State.runCmd_runs h rfl]
  dsimp only
  rw [need_holds (by simp only [Bool.and_eq_true, decide_eq_true_eq]; exact ⟨⟨⟨⟨⟨⟨⟨h1, h2⟩, h3⟩, h4⟩, h5⟩, h6⟩, h7⟩, h8⟩), need_holds (by rw [decide_eq_true h9, hc]; rfl),
    need_holds (by rw [decide_eq_true h10, hp]; rfl), need_holds hh, need_holds]
  · refine ⟨fun w hw => ?_, fun hn => by rw [hn]; rfl⟩
    rw [hw]
    exact congrArg (fun t : State => (.next (t.finishCmd x 0 none) : Out)) (State.window_withIngest s _ _ _ _ _ _ _)
  · cases hi : s.ingest (x.arg 0) with
    | none => rfl
    | some y => simp [hy y hi]

/-! ## Dies, reports, durability, shutdown (R161, R286, R288, R341) -/

/-- DIE.RESET or DIE.ISOLATE of a die outside the partition. -/
theorem State.dieCmd_fails (hb : x.begun = false) (hd : ¬ (x.arg 0 < 8 ∧ s.inPart (dieOf (x.arg 0)) = true)) (iso : Bool) : s.dieCmd x iso = .fail 6 := by
  rw [State.dieCmd, hb, if_neg Bool.false_ne_true, need_fails]
  simpa using hd
/-- Of a die in service. -/
theorem State.dieCmd_begins (hb : x.begun = false) (h8 : x.arg 0 < 8) (hp : s.inPart (dieOf (x.arg 0)) = true) (hl : (s.die (dieOf (x.arg 0))).live = true)
    (hi : (s.die (dieOf (x.arg 0))).isolated = false) (iso : Bool) : s.dieCmd x iso = .wait (s.beginReset (dieOf (x.arg 0)) iso) := by
  rw [State.dieCmd, hb, if_neg Bool.false_ne_true, need_holds (by rw [decide_eq_true h8, hp]; rfl), need_holds (by rw [hl, hi]; rfl)]

theorem execDurableFlush_runs (h : s.runs n 0x18 [] x = true) :
    execDurableFlush n s = (if s.m.tier3 = 0 then CmdAns.done none s else if !x.begun then .wait (s.m.dirty.foldl (fun t l => t.writeBack l) s)
      else if s.m.granules.isEmpty then .done none s else .wait s).out s x := by
  rw [execDurableFlush, State.runCmd_runs h rfl]

/-- Dusk that begins where firmware still runs is done at once where no tier 3 is. -/
theorem State.startDusk_done (hb : s.phase ≠ .bringUp) (hd : s.phase ≠ .dusk) (c : BitVec 2) : (s.startDusk c).fw.duskDone = decide (s.m.tier3 = 0) := by
  rw [State.startDusk]
  cases hp : s.phase with
  | bringUp => exact absurd hp hb
  | dusk => exact absurd hp hd
  | running => rfl
  | recovery => rfl
/-- SHUTDOWN before dusk. -/
theorem execShutdown_runs (h : s.runs n 0x19 [] x = true) (hd : s.phase ≠ .dusk) :
    execShutdown n s = (if s.fw.ctxs.isEmpty then (if s.m.tier3 = 0 then CmdAns.done none (s.startDusk 0) else .wait (s.startDusk 0))
      else .wait (s.fw.ctxs.foldl (fun t c => t.plainKill c.id 7) s)).out s x := by
  have hb : s.phase ≠ .bringUp := by
    simp only [State.runs, Bool.and_eq_true, bne_iff_ne] at h
    exact h.1.1.2
  rw [execShutdown, State.runCmd_runs h rfl, if_neg (by simpa using hd)]
  simp only [State.startDusk_done hb hd, decide_eq_true_eq]

end

/-! ## Ranges, reports, and every command -/

section
variable {s : State} {n : Nat} {x : Cmd}

theorem execUnmap_unmaps {c : Ctx} (hc : s.ctx x.ctx = some c) (h : s.runs n 0x07 [0, 1] x = true) (hlo : x.arg 0 < x.arg 0 + x.arg 1) (hhi : x.arg 0 + x.arg 1 ≤ 2 ^ 56)
    (hw : s.wholePages c (x.arg 0) (x.arg 0 + x.arg 1) = true) (hm : c.meetsSink (x.arg 0) (x.arg 0 + x.arg 1) = false) :
    let lo := x.arg 0
    let hi := x.arg 0 + x.arg 1
    let t := s.settleMigs c.id lo hi
    execUnmap n s = .next (((((t.leaves c lo hi).foldl (fun t q => t.clearLeaf c.id q) t).forget c.id lo hi).modCtx c.id fun c =>
      { c with lazies := c.lazies.flatMap fun l => l.cut lo hi }).finishCmd x 0 none) := by
  rw [execUnmap, State.runCmd_runs h rfl, State.rangeCmd_holds hc hlo hhi hw, need_holds (by rw [hm]; rfl)]
  rfl
theorem execProtect_protects {c : Ctx} (hc : s.ctx x.ctx = some c) (h : s.runs n 0x08 [0, 1, 2] x = true) (hlo : x.arg 0 < x.arg 0 + x.arg 1) (hhi : x.arg 0 + x.arg 1 ≤ 2 ^ 56)
    (hw : s.wholePages c (x.arg 0) (x.arg 0 + x.arg 1) = true) (h2 : x.arg 2 < 4) :
    let lo := x.arg 0
    let hi := x.arg 0 + x.arg 1
    let t := s.settleMigs c.id lo hi
    execProtect n s = .next ((((t.leaves c lo hi).foldl (fun t q => (t.writeLeaf q.1 q.2.2.1 (setPerm q.2.2.2 x.args[2])).appendLog q.2.1 q.2.2.1 0 c.id) t).modCtx c.id fun c =>
      { c with lazies := c.lazies.flatMap fun l => l.cut lo hi ++ (l.inside lo hi).map fun k => k.setPerm x.args[2] }).finishCmd x 0 none) := by
  rw [execProtect, State.runCmd_runs h rfl, need_holds (decide_eq_true h2), State.rangeCmd_holds hc hlo hhi hw]
  rfl
theorem execDieReset_runs (h : s.runs n 0x14 [0] x = true) : execDieReset n s = (s.dieCmd x false).out s x := by
  rw [execDieReset, State.runCmd_runs h rfl]
theorem execDieIsolate_runs (h : s.runs n 0x15 [0] x = true) : execDieIsolate n s = (s.dieCmd x true).out s x := by
  rw [execDieIsolate, State.runCmd_runs h rfl]
theorem execRasQuery_stored (h : s.runs n 0x16 [0, 1] x = true) :
    let r := s.freeBytes (32 * s.fw.ras.length)
    s.Stored { r.2 with fw := { r.2.fw with ras := r.2.fw.ras.drop (x.arg 1 / 32) } } x (execRasQuery n s) r.1 (some (BitVec.ofNat 64 s.fw.ras.length)) := by
  rw [execRasQuery, State.runCmd_runs h rfl]
  exact State.stored_toBuffer s _ _ _
theorem execRetireQuery_stored (h : s.runs n 0x17 [0, 1] x = true) : s.Stored s x (execRetireQuery n s) s.fw.flash.rowBytes none := by
  rw [execRetireQuery, State.runCmd_runs h rfl]
  exact State.stored_toBuffer s s _ _
theorem execDawnReport_stored (h : s.runs n 0x1A [0, 1] x = true) : s.Stored s.drawFree.2 x (execDawnReport n s) (s.fw.dawn.bytes s.drawFree.1) none := by
  rw [execDawnReport, State.runCmd_runs h rfl]
  exact State.stored_toBuffer s _ _ _

end

/-- Settles O60, command by command: the body of a command that runs answers as its conditions say. -/
theorem hostCommandResults : Obligations.HostCommandResults := by
  unfold Obligations.HostCommandResults
  intro s n x
  dsimp only
  refine ⟨fun h => ?ident, fun h => ?attest, fun h ha => ?config, fun h h0 h1 h2 h3 h4 ht hp hr hr1 ha id t hid => ?create,
    fun hc => ⟨fun h => ?kill, fun h => ?stream, fun h => ?launch, fun h => ?replicate⟩,
    fun c hc => ⟨fun h => ?kills, fun h id t hid => ?creates, fun h hs hj => ?destroys, fun h h0 ha hv hs hb hq => ?launches,
      fun h h1 h2 h3 h4 h5 h6 h7 h8 h9 h10 h11 h12 h13 hr hl ho hm => ?map, fun hlo hhi hw => ⟨fun h hm => ?unmap, fun h h2 => ?protect⟩,
      fun a va size e hl => ⟨fun h hb h1 hr hs h3 h4 hm h5 hk => ?migrate, fun h hs ht h4 hm => ?replicates⟩, fun a va size e hl h h6 => ?heat,
      fun h h0 h2 h3 h3' hsz hp => ?kvpool, fun h h1 => ?pfx⟩,
    fun h0 h h1 h2 => ⟨fun hp => ?step, fun hp => ?stepFails⟩, fun h0 h ht hv0 hv => ?add, fun h0 h h1 => ?source, fun h h1 h1' h2 h3 hg h4 => ⟨fun h0 => ?tickFails, fun h0 => ?tick⟩,
    fun h h1 h2 h3 h4 h5 h6 h7 h8 h9 hc h10 hp hh hy => ?ingest, fun iso hb h => ⟨fun hd => ?dieFails, fun h8 hp hl hi => ?die⟩, fun h => ?ras, fun h => ?retire,
    fun h => ⟨fun h3 => ?flushNone, fun h3 hb => ?flush, fun h3 hb hg => ?flushed⟩, fun h hd => ⟨fun hc => ?shut, fun hc h3 => ?dusk, fun hc h3 => ?dusked⟩, fun h => ?dawn⟩
  case ident => exact execIdent_stored h
  case attest => exact execAttest_stored h
  case config =>
    refine ⟨fun hv => ?_, fun hv hc => ?_, fun hv hc => ?_⟩
    · show execConfigure n s = _
      rw [execConfigure_runs h ha, need_fails hv]
      rfl
    · show execConfigure n s = _
      rw [execConfigure_runs h ha, need_holds hv, need_fails (by simpa using hc)]
      rfl
    · show execConfigure n s = _
      rw [execConfigure_runs h ha, need_holds hv, need_holds (by simpa using hc)]
      rfl
  case create =>
    show execContextCreate n s = _
    exact execContextCreate_creates h h0 h1 h2 h3 h4 ht hp hr hr1 ha hid
  case kill =>
    show execContextKill n s = _
    rw [execContextKill, State.runCmd_runs h rfl, withCtx_none hc]
    rfl
  case stream =>
    show execStreamCreate n s = _
    rw [execStreamCreate, State.runCmd_runs h rfl, withCtx_none hc]
    rfl
  case launch =>
    show execLaunchCommand n s = _
    rw [execLaunchCommand, State.runCmd_runs h rfl, withCtx_none hc]
    rfl
  case replicate =>
    show execReplicate n s = _
    rw [execReplicate, State.runCmd_runs h rfl, withCtx_none hc]
    rfl
  case kills =>
    show execContextKill n s = _
    exact execContextKill_begins hc h
  case creates =>
    show execStreamCreate n s = _
    exact execStreamCreate_creates hc h hid
  case destroys =>
    show execStreamDestroy n s = _
    exact execStreamDestroy_destroys hc h hs hj
  case launches =>
    show execLaunchCommand n s = _
    exact execLaunchCommand_queues hc h h0 ha hv hs hb hq
  case map =>
    have hm := execMapPages_runs hc h h1 h2 h3 h4 h5 h6 h7 h8 h9 h10 h11 h12 h13 hr hl ho hm
    refine ⟨fun hq => ?_, fun hq => ⟨fun hz => ?_, fun hz => ?_⟩⟩
    · show execMapPages n s = _
      rw [hm, if_pos hq]
      rfl
    · show execMapPages n s = _
      rw [hm, if_neg (by rw [hq]; decide), if_pos hz]
      rfl
    · show execMapPages n s = _
      rw [hm, if_neg (by rw [hq]; decide), if_neg (by rw [hz]; decide)]
      rfl
  case unmap =>
    show execUnmap n s = _
    exact execUnmap_unmaps hc h hlo hhi hw hm
  case protect =>
    show execProtect n s = _
    exact execProtect_protects hc h hlo hhi hw h2
  case migrate =>
    refine ⟨fun hq => ?_, fun hq => ?_⟩
    · show execMigrate n s = _
      rw [execMigrate_runs hc hl h hb h1 hr hs h3 h4 hm h5 hk, if_pos hq]
      rfl
    · show execMigrate n s = _
      rw [execMigrate_runs hc hl h hb h1 hr hs h3 h4 hm h5 hk, if_neg (by rw [hq]; decide)]
      rfl
  case replicates =>
    refine ⟨fun hf => ?_, fun h3 hf => ?_⟩
    · show execReplicate n s = _
      rw [execReplicate_runs hc hl h hs ht h4 hm, need_holds (by simpa using hf)]
      rfl
    · show execReplicate n s = _
      rw [execReplicate_runs hc hl h hs ht h4 hm, need_fails (by rw [h3, hf]; rfl)]
      rfl
  case heat => exact execHeatRead_stored hc hl h h6
  case kvpool =>
    show execKvpoolCfg n s = _
    exact execKvpoolCfg_sets hc h h0 h2 h3 h3' hsz hp
  case pfx =>
    show execPfxCfg n s = _
    exact execPfxCfg_sets hc h h1
  case step =>
    show execSettimeStep n s = _
    rw [execSettimeStep_runs h1 h2 h0 h, need_holds (by rw [hp]; rfl)]
    rfl
  case stepFails =>
    show execSettimeStep n s = _
    rw [execSettimeStep_runs h1 h2 h0 h, need_fails (by rw [hp]; rfl)]
    rfl
  case add =>
    show execSettimeAdd n s = _
    exact execSettimeAdd_adds h0 h ht hv0 hv
  case source =>
    show execSettimeSource n s = _
    exact execSettimeSource_sets h0 h h1
  case tickFails =>
    show execTickCfg n s = _
    rw [execTickCfg_runs h h1 h1' h2 h3 hg h4, need_fails (by simpa using h0)]
    rfl
  case tick =>
    show execTickCfg n s = _
    rw [execTickCfg_runs h h1 h1' h2 h3 hg h4, need_holds (by simpa using h0)]
    rfl
  case ingest =>
    obtain ⟨hw, hn⟩ := execIngestCfg_runs h h1 h2 h3 h4 h5 h6 h7 h8 h9 hc h10 hp hh hy
    exact ⟨hw, hn⟩
  case dieFails =>
    cases iso with
    | false =>
      show execDieReset n s = _
      rw [execDieReset_runs h, State.dieCmd_fails hb hd]
      rfl
    | true =>
      show execDieIsolate n s = _
      rw [execDieIsolate_runs h, State.dieCmd_fails hb hd]
      rfl
  case die =>
    cases iso with
    | false =>
      show execDieReset n s = _
      rw [execDieReset_runs h, State.dieCmd_begins hb h8 hp hl hi]
      rfl
    | true =>
      show execDieIsolate n s = _
      rw [execDieIsolate_runs h, State.dieCmd_begins hb h8 hp hl hi]
      rfl
  case ras => exact execRasQuery_stored h
  case retire => exact execRetireQuery_stored h
  case flushNone =>
    show execDurableFlush n s = _
    rw [execDurableFlush_runs h, if_pos h3]
    rfl
  case flush =>
    show execDurableFlush n s = _
    rw [execDurableFlush_runs h, if_neg h3, if_pos (by rw [hb]; rfl)]
    rfl
  case flushed =>
    show execDurableFlush n s = _
    rw [execDurableFlush_runs h, if_neg h3, if_neg (by rw [hb]; decide), if_pos (by rw [hg]; rfl)]
    rfl
  case shut =>
    show execShutdown n s = _
    rw [execShutdown_runs h hd, if_neg (by simpa using hc)]
    rfl
  case dusk =>
    show execShutdown n s = _
    rw [execShutdown_runs h hd, if_pos (by rw [hc]; rfl), if_neg h3]
    rfl
  case dusked =>
    show execShutdown n s = _
    rw [execShutdown_runs h hd, if_pos (by rw [hc]; rfl), if_pos h3]
    rfl
  case dawn => exact execDawnReport_stored h

end Sys2Proof.Machine
end
